-- ==== Sys2Proof/Word.lean ====
section
/-! DEFINITION. The plainest types of the model: bytes, byte strings, and the sparse tables that hold
registers and engine records (a canonical list of number and value pairs).  R5: every structure of
more than one byte is little-endian. -/
namespace Sys2Proof

/-- One byte. -/
abbrev Byte := BitVec 8

/-- A byte string, lowest address (or first sent byte) first. -/
abbrev Bytes := List Byte

/-- A sparse table: pairs of a number and a value, numbers strictly rising, no entry equal to the
table's default (see `Sys2Proof.Machine.NMap.wf`). -/
abbrev NMap (α : Type) := List (Nat × α)

/-- A worker die, W0 to W3 (R1). -/
abbrev Die := Fin 4

/-- What the host answers to the bus reads made inside one command: chunks of (bus address, bytes).
A read that no chunk covers ends with UR, CA or a timeout (R55). -/
abbrev HostAns := List (Nat × List (BitVec 8))

end Sys2Proof
end

