-- ==== Sys2Proof/Syntax.lean ====
section
/-! DEFINITION. The commands of the module: one constructor for each row of spec/opcode_table.json.  Operands: `d` (or
`e`, `a`, `b`) a die (0 to 3, 4 the Shepherd), `f` a function of it, `pc` a port (32 × die + port), `q` and `n` a queue,
ring or domain, `ans` what the host answers to the bus reads made inside the command. -/
namespace Sys2Proof

/-- What the full test of one die found (R515, R516): the mask of units that passed, the HBM3E result and the macros
that failed. -/
structure TestRes where
  die    : Nat
  units  : Nat
  hbmOk  : Bool
  failed : List Nat
  deriving DecidableEq, Repr

/-- An image as a board programmer writes it to a slot (R520): header, body, public key of its key block. -/
structure ImageFile where
  hdr  : Bytes
  body : Bytes
  key  : Bytes
  deriving DecidableEq, Repr

/-- What a board programmer writes (R566): both image slots, and the boot options (bifurcated dies, HOLD bits, preferred
slot, stored buffer partitions by die). -/
structure FlashFile where
  imgA  : Option ImageFile
  imgB  : Option ImageFile
  bifur : Nat
  hold  : Nat
  pref  : Nat
  part  : List (Nat × Nat)
  deriving DecidableEq, Repr

/-- What a debug access names (R530): a register as a function's access at an offset reaches it, a byte of the context
memory's working pool, SRAM by address, or a die's key of a pasture. -/
inductive DebugAt where
  | reg (d f off : Nat)
  | pool (d off : Nat)
  | sram (d addr : Nat)
  | key (d pasture : Nat)
  deriving DecidableEq, Repr

/-- What INVASIVE_ACCESS does (R530): read, write, halt a set of control cores, step one. -/
inductive DebugOp where
  | read (t : DebugAt)
  | write (t : DebugAt) (v : Nat)
  | halt (cores : Nat)
  | step (core : Nat)
  deriving DecidableEq, Repr

/-- A command. -/
inductive Instr where
  /-- REGISTER_WRITE. R7 to R15: function `f` of die `d` writes `size` bytes at `off` of its register space. -/
  | registerWrite (d f off size val : Nat) (ans : HostAns)
  /-- LIVE_WRITE_APPLY. R11: the cycle boundary at which pending LIVE writes take effect. -/
  | liveWriteApply (d : Nat) (ans : HostAns)
  /-- LOWER_HALF_READ. R8: a 4-byte read; the lower half of a 64-bit register captures its upper half. -/
  | lowerHalfRead (d f off : Nat)
  /-- READ_CLEAR. R9: a read; RC fields read are cleared. -/
  | readClear (d f off size : Nat)
  /-- MODULE_RESET_RELEASE. R68, R557: the three conditions of running hold; the endpoints' identities, and the management address straps. -/
  | moduleResetRelease (eids : List Nat) (strap : Nat)
  /-- MODULE_RESET_ASSERT. R557: module reset. -/
  | moduleResetAssert
  /-- PERST_ASSERT. R565: PERST_N of a die is asserted. -/
  | perstAssert (d : Nat)
  /-- PERST_RELEASE. R565: PERST_N of a die is released. -/
  | perstRelease (d : Nat)
  /-- HOST_LINK_DOWN. R561, R43: a host link goes down: its die, and 0 for link A or the x16 link, 1 for link B. -/
  | hostLinkDown (link : Nat × Nat)
  /-- D2D_PARITY_ERROR. R26: a parity error on a lane between dies `a` and `b` (4: the Shepherd). -/
  | d2dParityError (a b lane : Nat)
  /-- GEN_PUBLISH. R40: the Shepherd publishes the configuration. -/
  | genPublish
  /-- FUNCTION_RUN. R47: a function that may run moves to RUNNING. -/
  | functionRun (d f : Nat)
  /-- BUS_MASTER_ENABLE_CLEAR. R59. -/
  | busMasterEnableClear (d f : Nat)
  /-- BUS_MASTER_ENABLE_SET. R47. -/
  | busMasterEnableSet (d f : Nat)
  /-- DRAIN_COMPLETE. R47: the last read of a draining function has ended. -/
  | drainComplete (d f : Nat)
  /-- D3HOT_ENTRY. R46. -/
  | d3hotEntry (d f : Nat)
  /-- D3HOT_EXIT. R46: the return to D0 is a function level reset. -/
  | d3hotExit (d f : Nat)
  /-- FLR_INITIATE. R61. -/
  | flrInitiate (d f : Nat)
  /-- FLR_SILENCE. R61, R62. -/
  | flrSilence (d f : Nat)
  /-- FLR_COMPLETE. R61, R63. -/
  | flrComplete (d f : Nat)
  /-- VF_ENABLE. R45. -/
  | vfEnable (d pf n : Nat)
  /-- VF_DISABLE. R47. -/
  | vfDisable (d pf : Nat)
  /-- BAR4_RESIZE. R49. -/
  | bar4Resize (d pf log2 : Nat)
  /-- HOST_COMPLETION_RECEIVED. R55: status 0 is success. -/
  | hostCompletionReceived (d tag status : Nat) (data : Bytes)
  /-- COMPLETION_TIMEOUT. R55. -/
  | completionTimeout (d tag : Nat)
  /-- TAG_QUARANTINE_EXPIRY. R62. -/
  | tagQuarantineExpiry (d tag : Nat)
  /-- GENERAL_TAG_GRANT. R54. -/
  | generalTagGrant (d : Nat)
  /-- MSIX_TABLE_WRITE. R58. -/
  | msixTableWrite (d f vec addr data : Nat) (masked : Bool)
  /-- MSIX_PENDING_SEND. R58. -/
  | msixPendingSend (d f vec : Nat)
  /-- CORE_WATCHDOG_EXPIRY. R67: the watchdog of a control core. -/
  | coreWatchdogExpiry (core : Nat)
  /-- AZX_CMD_TAIL_WRITE. R80. -/
  | azxCmdTailWrite (d f i : Nat)
  /-- AZX_COMMAND_TAKE. R81, R89. -/
  | azxCommandTake (ans : HostAns)
  /-- AZX_ENABLE. R83. -/
  | azxEnable (d f : Nat)
  /-- AZX_DISABLE. R83. -/
  | azxDisable (d f : Nat)
  /-- MCTP_COMMAND_RECEIVED. R84. -/
  | mctpCommandReceived (ent : Bytes) (buf : Option Bytes)
  /-- QUERY_STATE. R88, R85 to R89: the command of opcode 0x01, from its issuer (none: the management interface). -/
  | queryState (iss : Option (Nat × Nat)) (ent : Bytes) (buf : Option Bytes)
  /-- PASTURE_CREATE. R570, R85 to R89: the command of opcode 0x10, from its issuer (none: the management interface). -/
  | pastureCreate (iss : Option (Nat × Nat)) (ent : Bytes) (buf : Option Bytes)
  /-- PASTURE_DESTROY. R570, R85 to R89: the command of opcode 0x11, from its issuer (none: the management interface). -/
  | pastureDestroy (iss : Option (Nat × Nat)) (ent : Bytes) (buf : Option Bytes)
  /-- PASTURE_KEY_LOAD. R528, R85 to R89: the command of opcode 0x12, from its issuer (none: the management interface). -/
  | pastureKeyLoad (iss : Option (Nat × Nat)) (ent : Bytes) (buf : Option Bytes)
  /-- PATH_LOAD. R192, R85 to R89: the command of opcode 0x20, from its issuer (none: the management interface). -/
  | pathLoad (iss : Option (Nat × Nat)) (ent : Bytes) (buf : Option Bytes)
  /-- PASS_SET_LOAD. R186, R85 to R89: the command of opcode 0x21, from its issuer (none: the management interface). -/
  | passSetLoad (iss : Option (Nat × Nat)) (ent : Bytes) (buf : Option Bytes)
  /-- FLOCK_LOAD. R202, R85 to R89: the command of opcode 0x22, from its issuer (none: the management interface). -/
  | flockLoad (iss : Option (Nat × Nat)) (ent : Bytes) (buf : Option Bytes)
  /-- CAL_LOAD. R218, R85 to R89: the command of opcode 0x30, from its issuer (none: the management interface). -/
  | calLoad (iss : Option (Nat × Nat)) (ent : Bytes) (buf : Option Bytes)
  /-- CAL_SWITCH. R222, R85 to R89: the command of opcode 0x31, from its issuer (none: the management interface). -/
  | calSwitch (iss : Option (Nat × Nat)) (ent : Bytes) (buf : Option Bytes)
  /-- RES_CONFIRM. R213, R85 to R89: the command of opcode 0x32, from its issuer (none: the management interface). -/
  | resConfirm (iss : Option (Nat × Nat)) (ent : Bytes) (buf : Option Bytes)
  /-- RES_WITHDRAW. R216, R85 to R89: the command of opcode 0x33, from its issuer (none: the management interface). -/
  | resWithdraw (iss : Option (Nat × Nat)) (ent : Bytes) (buf : Option Bytes)
  /-- DRV_PROG_LOAD. R370, R85 to R89: the command of opcode 0x40, from its issuer (none: the management interface). -/
  | drvProgLoad (iss : Option (Nat × Nat)) (ent : Bytes) (buf : Option Bytes)
  /-- DRV_PROG_UNLOAD. R87, R85 to R89: the command of opcode 0x41, from its issuer (none: the management interface). -/
  | drvProgUnload (iss : Option (Nat × Nat)) (ent : Bytes) (buf : Option Bytes)
  /-- BUDGET_SET. R472, R85 to R89: the command of opcode 0x50, from its issuer (none: the management interface). -/
  | budgetSet (iss : Option (Nat × Nat)) (ent : Bytes) (buf : Option Bytes)
  /-- FAULT_LOG_READ. R496, R85 to R89: the command of opcode 0x60, from its issuer (none: the management interface). -/
  | faultLogRead (iss : Option (Nat × Nat)) (ent : Bytes) (buf : Option Bytes)
  /-- BUF_PARTITION. R23, R85 to R89: the command of opcode 0x70, from its issuer (none: the management interface). -/
  | bufPartition (iss : Option (Nat × Nat)) (ent : Bytes) (buf : Option Bytes)
  /-- POOL_ALLOC. R88, R85 to R89: the command of opcode 0x71, from its issuer (none: the management interface). -/
  | poolAlloc (iss : Option (Nat × Nat)) (ent : Bytes) (buf : Option Bytes)
  /-- POOL_FREE. R88, R85 to R89: the command of opcode 0x72, from its issuer (none: the management interface). -/
  | poolFree (iss : Option (Nat × Nat)) (ent : Bytes) (buf : Option Bytes)
  /-- DIE_FENCE. R72, R85 to R89: the command of opcode 0x80, from its issuer (none: the management interface). -/
  | dieFence (iss : Option (Nat × Nat)) (ent : Bytes) (buf : Option Bytes)
  /-- DIE_RESTORE. R569, R85 to R89: the command of opcode 0x81, from its issuer (none: the management interface). -/
  | dieRestore (iss : Option (Nat × Nat)) (ent : Bytes) (buf : Option Bytes)
  /-- DIE_TEST_COMPLETE. R569. -/
  | dieTestComplete (d links : Nat) (pass : Bool)
  /-- DIE_ACTIVATE. R70, R85 to R89: the command of opcode 0x82, from its issuer (none: the management interface). -/
  | dieActivate (iss : Option (Nat × Nat)) (ent : Bytes) (buf : Option Bytes)
  /-- RETURN_PROCEDURE. R77. -/
  | returnProcedure (d : Nat)
  /-- RETURN_TIMEOUT. R72. -/
  | returnTimeout (d : Nat)
  /-- TABLE_PUSH_ACK. R74. -/
  | tablePushAck (d t : Nat)
  /-- TIME_ROLE. R107, R85 to R89: the command of opcode 0x90, from its issuer (none: the management interface). -/
  | timeRole (iss : Option (Nat × Nat)) (ent : Bytes) (buf : Option Bytes)
  /-- TIME_OF_DAY. R109, R85 to R89: the command of opcode 0x91, from its issuer (none: the management interface). -/
  | timeOfDay (iss : Option (Nat × Nat)) (ent : Bytes) (buf : Option Bytes)
  /-- DIE_SLEEP. R484, R85 to R89: the command of opcode 0x51, from its issuer (none: the management interface). -/
  | dieSleep (iss : Option (Nat × Nat)) (ent : Bytes) (buf : Option Bytes)
  /-- DIE_SLEEP_DRAIN_END. R484. -/
  | dieSleepDrainEnd (d : Nat)
  /-- DIE_WAKE. R486, R85 to R89: the command of opcode 0x52, from its issuer (none: the management interface). -/
  | dieWake (iss : Option (Nat × Nat)) (ent : Bytes) (buf : Option Bytes)
  /-- MODULE_STANDBY. R489, R85 to R89: the command of opcode 0x53, from its issuer (none: the management interface). -/
  | moduleStandby (iss : Option (Nat × Nat)) (ent : Bytes) (buf : Option Bytes)
  /-- MODULE_RESUME. R559, R85 to R89: the command of opcode 0x54, from its issuer (none: the management interface). -/
  | moduleResume (iss : Option (Nat × Nat)) (ent : Bytes) (buf : Option Bytes)
  /-- MODULE_SHUTDOWN. R515, R85 to R89: the command of opcode 0x55, from its issuer (none: the management interface). -/
  | moduleShutdown (iss : Option (Nat × Nat)) (ent : Bytes) (buf : Option Bytes)
  /-- FAULT_CLEAR. R507, R85 to R89: the command of opcode 0x61, from its issuer (none: the management interface). -/
  | faultClear (iss : Option (Nat × Nat)) (ent : Bytes) (buf : Option Bytes)
  /-- FAULT_REACT_SET. R492, R85 to R89: the command of opcode 0x62, from its issuer (none: the management interface). -/
  | faultReactSet (iss : Option (Nat × Nat)) (ent : Bytes) (buf : Option Bytes)
  /-- FAULT_INJECT. R510, R85 to R89: the command of opcode 0x63, from its issuer (none: the management interface). -/
  | faultInject (iss : Option (Nat × Nat)) (ent : Bytes) (buf : Option Bytes)
  /-- UNIT_RESTORE. R501, R85 to R89: the command of opcode 0x83, from its issuer (none: the management interface). -/
  | unitRestore (iss : Option (Nat × Nat)) (ent : Bytes) (buf : Option Bytes)
  /-- SEC_COMMIT. R522, R85 to R89: the command of opcode 0xA0, from its issuer (none: the management interface). -/
  | secCommit (iss : Option (Nat × Nat)) (ent : Bytes) (buf : Option Bytes)
  /-- DEBUG_NONCE. R531, R85 to R89: the command of opcode 0xA1, from its issuer (none: the management interface). -/
  | debugNonce (iss : Option (Nat × Nat)) (ent : Bytes) (buf : Option Bytes)
  /-- DEBUG_UNLOCK. R531, R85 to R89: the command of opcode 0xA2, from its issuer (none: the management interface). -/
  | debugUnlock (iss : Option (Nat × Nat)) (ent : Bytes) (buf : Option Bytes)
  /-- DEBUG_LOCK. R532, R85 to R89: the command of opcode 0xA3, from its issuer (none: the management interface). -/
  | debugLock (iss : Option (Nat × Nat)) (ent : Bytes) (buf : Option Bytes)
  /-- LIFECYCLE_ADVANCE. R529, R85 to R89: the command of opcode 0xA4, from its issuer (none: the management interface). -/
  | lifecycleAdvance (iss : Option (Nat × Nat)) (ent : Bytes) (buf : Option Bytes)
  /-- OWNER_KEY_SET. R527, R85 to R89: the command of opcode 0xA5, from its issuer (none: the management interface). -/
  | ownerKeySet (iss : Option (Nat × Nat)) (ent : Bytes) (buf : Option Bytes)
  /-- SHEP_CNT_READ. R546, R85 to R89: the command of opcode 0x64, from its issuer (none: the management interface). -/
  | shepCntRead (iss : Option (Nat × Nat)) (ent : Bytes) (buf : Option Bytes)
  /-- CYCLE_BOUNDARY. R94, R104. -/
  | cycleBoundary (d : Nat)
  /-- FRAME_BOUNDARY. R94, R469, R477, R511 to R514: the boundary of die `d` (4: the Shepherd), with the mean voltage (mV) and temperature (1/8 °C) of the closed frame, and whether supply and clocks were nominal (R513). -/
  | frameBoundary (d volt : Nat) (temp : Int) (nominal : Bool)
  /-- SLOT_BOUNDARY. R217. -/
  | slotBoundary (d : Nat)
  /-- SERVO_INTERVAL. R110 to R113, R233. -/
  | servoInterval (d : Nat)
  /-- ALARM_FIRE. R97: alarm `k` of the die (R32): 32 to 63 are the host alarms; 0 to 31 are the engines' own, whose waits end by their own commands. -/
  | alarmFire (d k : Nat)
  /-- TIME_MESSAGE_RECEIVE. R103: the message whose mark met the land of port `p` at `stamp` (2^-16 ns). -/
  | timeMessageReceive (d p stamp : Nat) (b : Bytes)
  /-- PPS_EDGE. R107: a rising edge at `stamp` (2^-16 ns). -/
  | ppsEdge (stamp : Nat)
  /-- PPS_TIMEOUT. R108. -/
  | ppsTimeout
  /-- PPS_OUT_RISE. R109. -/
  | ppsOutRise
  /-- PPS_OUT_FALL. R109. -/
  | ppsOutFall
  /-- LANE_BLOCK_SEND. R119, R122: one block period of the port's transmit lanes. -/
  | laneBlockSend (pc : Nat)
  /-- LANE_BLOCK_RECEIVE. R127 to R130: the blocks of one period, by lane. -/
  | laneBlockReceive (pc : Nat) (blocks : List (Nat × List Nat))
  /-- QUAD_ENABLE. R572. -/
  | quadEnable (d q : Nat)
  /-- SIGNAL_DETECT. R135. -/
  | signalDetect (pc : Nat)
  /-- CALIBRATION_COMPLETE. R131: what calibration found, by lane. -/
  | calibrationComplete (pc : Nat) (found : List (Nat × Nat))
  /-- ALIGN_TIMEOUT. R135. -/
  | alignTimeout (pc : Nat)
  /-- EXCHANGE_TIMEOUT. R135. -/
  | exchangeTimeout (pc : Nat)
  /-- TRAINING_MESSAGE_RECEIVE. R138, R139, R571: a message on `lane`, marked with lane number `id`. -/
  | trainingMessageReceive (pc lane id : Nat) (msg : Bytes)
  /-- LOOPBACK_COMPLETE. R101: the loop time that the measurement found, and the mode's nominal delays: of the transmitter, of the
  receiver, and of the loopback path together with the transmitter's share of the error. -/
  | loopbackComplete (pc lp txpd rxpd : Nat) (lbd : Nat × Nat)
  /-- PORT_RETRAIN. R136. -/
  | portRetrain (pc : Nat)
  /-- RETRAIN_REQUEST_TIMEOUT. R571. -/
  | retrainRequestTimeout (pc : Nat)
  /-- LANE_IDLE_QUIET. R480. -/
  | laneIdleQuiet (pc : Nat)
  /-- LANE0_IDLE_QUIET. R480. -/
  | lane0IdleQuiet (pc : Nat)
  /-- LANE_SLEEP_TIMER. R482: direction 0 transmits, 1 receives. -/
  | laneSleepTimer (pc lane dir : Nat)
  /-- LANE_WAKE. R141. -/
  | laneWake (pc : Nat)
  /-- LANE_JOIN. R141. -/
  | laneJoin (pc : Nat)
  /-- FLIT_SEND. R157. -/
  | flitSend (pc : Nat)
  /-- FLIT_RECEIVE. R161 to R163. -/
  | flitReceive (pc : Nat) (b : Bytes)
  /-- REPLAY_TIMEOUT. R164. -/
  | replayTimeout (pc : Nat)
  /-- HANDSHAKE_SEND. R169. -/
  | handshakeSend (pc : Nat)
  /-- LINK_ENABLE. R168. -/
  | linkEnable (pc : Nat)
  /-- LINK_DISABLE. R171. -/
  | linkDisable (pc : Nat)
  /-- LINK_FLUSH. R172. -/
  | linkFlush (pc : Nat)
  /-- PACKET_ROUTE. R183, R185 to R187: the packet at the head of input `src` of a crossbar, on channel `vc`. -/
  | packetRoute (src vc : Nat)
  /-- FLOCK_REPLICATE. R204 to R207. -/
  | flockReplicate (src vc : Nat)
  /-- FLOCK_DIE_COPY. R205: die `d` takes the copy that the entry die `e` sent it. -/
  | flockDieCopy (e d vc : Nat)
  /-- PACKET_INJECT. R199, R200. -/
  | packetInject (d cn : Nat) (ans : HostAns)
  /-- PATH_RECORD_FETCH. R192. -/
  | pathRecordFetch (d e : Nat)
  /-- CALENDAR_SWITCH_FRAME. R222. -/
  | calendarSwitchFrame (d : Nat)
  /-- TIMED_RELEASE. R228 to R232. -/
  | timedRelease (d r : Nat)
  /-- TRANSPORT_PACKET_ARRIVE. R251. -/
  | transportPacketArrive (d : Nat) (ans : HostAns)
  /-- ACK_RECEIVE. R255. -/
  | ackReceive (d : Nat) (ans : HostAns)
  /-- CONDUIT_FETCH_COMPLETE. R242, R252. -/
  | conduitFetchComplete (d cn : Nat) (ans : HostAns)
  /-- RETRY_TIMEOUT. R256, R261. -/
  | retryTimeout (d cn : Nat) (ans : HostAns)
  /-- NOT_READY_RETRY. R257. -/
  | notReadyRetry (d cn psn : Nat) (ans : HostAns)
  /-- GATE_POOL_REFILL. R248. -/
  | gatePoolRefill (d f : Nat)
  /-- TRACKER_IDLE_TIMEOUT. R259. -/
  | trackerIdleTimeout (d k : Nat)
  /-- CLOSE_SEND. R266. -/
  | closeSend (d cn : Nat)
  /-- OLD_KEY_EXPIRY. R264. -/
  | oldKeyExpiry (d p : Nat)
  /-- CONDUIT_FN_ENABLE. R243. -/
  | conduitFnEnable (d f : Nat) (on : Bool)
  /-- SQ_DOORBELL. R271, R288. -/
  | sqDoorbell (d q tail : Nat)
  /-- DESCRIPTOR_FETCH_COMPLETE. R289: the entry read, or that its read failed. -/
  | descriptorFetchComplete (d q idx : Nat) (data : Option Bytes)
  /-- GROUP_TURN. R291 to R294. -/
  | groupTurn (d g : Nat) (ans : HostAns)
  /-- NOP. R277: the next entry of queue `q`, where its opcode is 0x01, is taken. -/
  | nop (d q : Nat)
  /-- PUT. R278: the next entry of queue `q`, where its opcode is 0x10, is taken. -/
  | put (d q : Nat) (ans : HostAns)
  /-- GET. R309: the next entry of queue `q`, where its opcode is 0x11, is taken. -/
  | get (d q : Nat) (ans : HostAns)
  /-- SEND. R349: the next entry of queue `q`, where its opcode is 0x12, is taken. -/
  | send (d q : Nat) (ans : HostAns)
  /-- ADD32. R305: the next entry of queue `q`, where its opcode is 0x20, is taken. -/
  | add32 (d q : Nat) (ans : HostAns)
  /-- ADD64. R305: the next entry of queue `q`, where its opcode is 0x21, is taken. -/
  | add64 (d q : Nat) (ans : HostAns)
  /-- FETCH_ADD32. R305: the next entry of queue `q`, where its opcode is 0x22, is taken. -/
  | fetchAdd32 (d q : Nat) (ans : HostAns)
  /-- FETCH_ADD64. R305: the next entry of queue `q`, where its opcode is 0x23, is taken. -/
  | fetchAdd64 (d q : Nat) (ans : HostAns)
  /-- CAS32. R305: the next entry of queue `q`, where its opcode is 0x24, is taken. -/
  | cas32 (d q : Nat) (ans : HostAns)
  /-- CAS64. R305: the next entry of queue `q`, where its opcode is 0x25, is taken. -/
  | cas64 (d q : Nat) (ans : HostAns)
  /-- CAS128. R305: the next entry of queue `q`, where its opcode is 0x26, is taken. -/
  | cas128 (d q : Nat) (ans : HostAns)
  /-- LOCK_ACQUIRE. R332: the next entry of queue `q`, where its opcode is 0x30, is taken. -/
  | lockAcquire (d q : Nat)
  /-- LOCK_TRY. R332: the next entry of queue `q`, where its opcode is 0x31, is taken. -/
  | lockTry (d q : Nat)
  /-- LOCK_RELEASE. R332: the next entry of queue `q`, where its opcode is 0x32, is taken. -/
  | lockRelease (d q : Nat)
  /-- RECV_POST. R353: the next entry of queue `q`, where its opcode is 0x38, is taken. -/
  | recvPost (d q : Nat) (ans : HostAns)
  /-- COLL_START. R373: the next entry of queue `q`, where its opcode is 0x40, is taken. -/
  | collStart (d q : Nat) (ans : HostAns)
  /-- CONDUIT_OPEN. R246: the next entry of queue `q`, where its opcode is 0x50, is taken. -/
  | conduitOpen (d q : Nat)
  /-- CONDUIT_CLOSE. R266: the next entry of queue `q`, where its opcode is 0x51, is taken. -/
  | conduitClose (d q : Nat)
  /-- FM_SEND. R284: the next entry of queue `q`, where its opcode is 0x60, is taken. -/
  | fmSend (d q : Nat)
  /-- SQ_INVALIDATE. R290. -/
  | sqInvalidate (d q first n : Nat)
  /-- CR_ARM. R298. -/
  | crArm (d r : Nat)
  /-- QUEUE_ENABLE. R274: kind 0 a send queue, 1 a completion ring. -/
  | queueEnable (d kind n : Nat)
  /-- QUEUE_DISABLE. R274. -/
  | queueDisable (d kind n : Nat)
  /-- QUEUE_RESET. R274. -/
  | queueReset (d kind n : Nat)
  /-- QUEUE_DRAIN_COMPLETE. R274. -/
  | queueDrainComplete (d q : Nat)
  /-- EVENT_RING_ENABLE. R300. -/
  | eventRingEnable (d f : Nat)
  /-- EVENT_RING_HEAD_WRITE. R300. -/
  | eventRingHeadWrite (d f i : Nat)
  /-- GET_RESPONSE_SEGMENT. R311. -/
  | getResponseSegment (d cn : Nat) (ans : HostAns)
  /-- FLIT_BUFFER_GRANT. R323. -/
  | flitBufferGrant (d cn : Nat)
  /-- LOCK_PROBE_TIMER. R339: the lock whose word is at bus address `bus`. -/
  | lockProbeTimer (d bus : Nat)
  /-- SLOT_ACQUIRE. R336. -/
  | slotAcquire (d k : Nat)
  /-- SLOT_RELEASE. R337. -/
  | slotRelease (d k : Nat)
  /-- SLOT_WAIT_READ. R337. -/
  | slotWaitRead (d k : Nat)
  /-- SLOT_WAIT_TIMEOUT. R337. -/
  | slotWaitTimeout (d k : Nat)
  /-- EAGER_COPY_COMPLETE. R351: the message of token `tok`. -/
  | eagerCopyComplete (tok : Nat) (ans : HostAns)
  /-- RENDEZVOUS_GET_COMPLETE. R352. -/
  | rendezvousGetComplete (tok : Nat)
  /-- MATCH_BIND. R358. -/
  | matchBind (d n : Nat)
  /-- DOMAIN_RESUME. R359. -/
  | domainResume (d n : Nat)
  /-- DOMAIN_DISABLE. R361. -/
  | domainDisable (d n : Nat)
  /-- OVERFLOW_RING_HEAD_WRITE. R360. -/
  | overflowRingHeadWrite (d n head : Nat)
  /-- CHUNK_ADMIT. R375. -/
  | chunkAdmit (d p : Nat) (ans : HostAns)
  /-- DROVER_TIME_WAIT_END. R375. -/
  | droverTimeWaitEnd (d p chunk : Nat)
  /-- COLL_PACKET_RECEIVE. R381. -/
  | collPacketReceive (d : Nat)
  /-- COLL_OUTPUT_SEND. R382. -/
  | collOutputSend (d p chunk edge : Nat) (ans : HostAns)
  /-- CREDIT_SEND. R382. -/
  | creditSend (d p edge : Nat)
  /-- STEP_TIMEOUT. R387. -/
  | stepTimeout (d p chunk : Nat)
  /-- DROVER_PROGRAM_RESET. R388. -/
  | droverProgramReset (d p : Nat)
  /-- TRANSLATION_WALK. R427 to R432: an access of kind 0 read, 1 write, 2 atomic, and a class of R437. -/
  | translationWalk (d f ctx va len kind cls : Nat) (ans : HostAns)
  /-- XLT_INVALIDATE. R434. -/
  | xltInvalidate (d f : Nat)
  /-- INVALIDATE_DONE. R434. -/
  | invalidateDone (d f : Nat)
  /-- XLT_LOCK. R433. -/
  | xltLock (d f : Nat) (ans : HostAns)
  /-- CONTEXT_DISABLE. R435. -/
  | contextDisable (d ctx : Nat)
  /-- REGION_LOCK. R444. -/
  | regionLock (d r : Nat)
  /-- BAR4_REQUEST. R455: kind 0 a write, 1 a read, 2 an AtomicOp (op 1 FetchAdd, 2 CAS, 3 Swap). -/
  | bar4Request (d pf id kind off len op : Nat) (data : Bytes)
  /-- WINDOW_COMMIT. R452. -/
  | windowCommit (d win : Nat)
  /-- PEER_READ_TIMEOUT. R456. -/
  | peerReadTimeout (d id : Nat)
  /-- PWLOG_REARM. R460. -/
  | pwlogRearm (d : Nat)
  /-- MIRROR_POLL. R464. -/
  | mirrorPoll (d k : Nat)
  /-- ACTION_ENTRY_APPLY. R477. -/
  | actionEntryApply (d : Nat)
  /-- GAIN_TRIM. R470: the energy of the span by supply telemetry, in ledger units. -/
  | gainTrim (tel : Nat)
  /-- FAULT_DETECTED. R492 to R497: source `cause` at unit `u` of die `d` (4: the Shepherd). -/
  | faultDetected (d u cause addr detail : Nat) (fn : Option Nat)
  /-- FAULT_RECORD_CLEAR. R507. -/
  | faultRecordClear (d u : Nat)
  /-- ERROR_PAIR_READBACK. R506: the levels read back. -/
  | errorPairReadback (p n : Bool)
  /-- SLICE_COMPLETE. R514: macro `k`, which unit `u` owns. -/
  | sliceComplete (d k u : Nat) (pass : Bool)
  /-- SLICE_ABORT. R513. -/
  | sliceAbort (d k : Nat)
  /-- GET_VERSION. R524: on the DOE mailbox of a die (0 to 3) or the management interface (4). -/
  | getVersion (via : Nat)
  /-- GET_CAPABILITIES. R524. -/
  | getCapabilities (via : Nat) (req : Bytes)
  /-- NEGOTIATE_ALGORITHMS. R524. -/
  | negotiateAlgorithms (via : Nat) (req : Bytes)
  /-- GET_DIGESTS. R524. -/
  | getDigests (via : Nat)
  /-- GET_CERTIFICATE. R523. -/
  | getCertificate (via slot off len : Nat)
  /-- CHALLENGE. R524. -/
  | challenge (via : Nat) (req : Bytes)
  /-- GET_MEASUREMENTS. R525. -/
  | getMeasurements (via index : Nat)
  /-- KEY_EXCHANGE. R524. -/
  | keyExchange (via : Nat) (req : Bytes)
  /-- FINISH. R524. -/
  | finish (via id : Nat) (req : Bytes)
  /-- KEY_UPDATE. R524. -/
  | keyUpdate (via id : Nat)
  /-- HEARTBEAT. R524. -/
  | heartbeat (via id : Nat)
  /-- END_SESSION. R524. -/
  | endSession (via id : Nat)
  /-- SET_CERTIFICATE. R523. -/
  | setCertificate (via slot : Nat) (chain : Bytes)
  /-- IDE_KM_REQUEST. R526: 0 KEY_PROG, 1 K_SET_GO, 2 K_SET_STOP, in a session of the die's mailbox. -/
  | ideKmRequest (d stream op sess : Nat)
  /-- IDE_INTEGRITY_FAIL. R526. -/
  | ideIntegrityFail (d stream : Nat)
  /-- EXTEST. R530, R567. -/
  | extest (cells : Nat)
  /-- SAMPLE_PRELOAD. R530, R567. -/
  | samplePreload (cells : Nat)
  /-- IDCODE. R530. -/
  | idcode
  /-- DEBUG_AUTH. R531. -/
  | debugAuth (tok owner : Bytes)
  /-- BYPASS. R530. -/
  | bypass
  /-- OBSERVE_ACCESS. R530. -/
  | observeAccess (t : DebugAt)
  /-- INVASIVE_ACCESS. R530, R533. -/
  | invasiveAccess (x : DebugOp)
  /-- SCAN_SELECT. R530, R534. -/
  | scanSelect (chain : Nat)
  /-- COUNTER_READ. R541: counter `i` is read on the function's counter page. -/
  | counterRead (d f i : Nat)
  /-- COUNTER_WRAP. R537: the counter goes from 2^48 - 1 to zero. -/
  | counterWrap (d i : Nat)
  /-- SAMPLER_ENABLE. R550: SMP_CTRL.ENABLE takes effect. -/
  | samplerEnable (d : Nat) (on : Bool)
  /-- HOST_LINK_UP. R42, R43: a released host link (die and link, as for HOST_LINK_DOWN) reaches L0. -/
  | hostLinkUp (link : Nat × Nat) (width speed : Nat)
  /-- ETL_NOW_NS_READ. R116: the time is read, and its fraction captured. -/
  | etlNowNsRead (d size : Nat)
  /-- LOCAL_INPUT_READ_COMPLETE. R377. -/
  | localInputReadComplete (d p chunk edge : Nat)
  /-- FAULT_CAUSE_END. R495. -/
  | faultCauseEnd (d u cause : Nat)
  /-- GROUP_4_SUPPLY_CHANGE. R559: the rails of group 4 that are outside tolerance (0 to 3 the worker rails of a die, 4 VDD_PCIE). -/
  | group4SupplyChange (mask : Nat)
  /-- BOOT_SELF_TEST_COMPLETE. R36, R68, R517: what the boot self-test of a die found: links trained, units that failed, macros that failed, whether the HBM3E stack is usable, and whether a loss falls on a region that R36 does not absorb. -/
  | bootSelfTestComplete (d links units : Nat) (macros : List Nat) (hbm : Bool × Bool)
  /-- SHUTDOWN_TEST_COMPLETE. R515, R516: the shutdown self-test ends. -/
  | shutdownTestComplete (l : List TestRes)
  /-- UNIT_TEST_COMPLETE. R501. -/
  | unitTestComplete (d u : Nat) (pass : Bool)
  /-- BOARD_FLASH_WRITE. R566: a board programmer writes image slots and boot options. -/
  | boardFlashWrite (x : FlashFile)
  deriving DecidableEq, Repr

end Sys2Proof
end

