-- ==== Sys2Proof/Config.lean ====
section
/-! DEFINITION. What the model leaves open: cryptographic functions that the spec names but does not
define, and free values (nothing constrains them; none has a body). -/
namespace Sys2Proof

/-- The digest of a byte string (SHA-384 of R520, R521, R525, R529, R531). -/
opaque Config.sha384 : List (BitVec 8) → List (BitVec 8)

/-- Whether a signature over a digest checks under a public key (ECDSA P-384 of R520, R531). -/
opaque Config.sigOk : (key digest sig : List (BitVec 8)) → Bool

/-- Opening an authenticated ciphertext (AES-256-GCM of R263, R528): key draw or key bytes, IV,
additional data, ciphertext, tag. -/
opaque Config.gcmOpen : (key iv aad ct tag : List (BitVec 8)) → Option (List (BitVec 8))

/-- Sealing: the ciphertext and the tag (AES-256-GCM of R263). -/
opaque Config.gcmSeal : (key iv aad pt : List (BitVec 8)) → List (BitVec 8) × List (BitVec 8)

/-- Free values: the n-th draw as a number (nonces, device secret, choices the spec leaves open). -/
opaque Config.free : Nat → Nat

/-- The public key of the device identity that a device secret gives (R523). -/
opaque Config.devicePub : Nat → List (BitVec 8)

/-- The application secret of a secured SPDM session, by the draw made at its key exchange (R528). -/
opaque Config.sessionKey : Nat → List (BitVec 8)

/-- The body of an SPDM response that the spec leaves to the SPDM standard (R524): the request's code
and bytes, and the draw number. -/
opaque Config.spdmBody : Nat → List (BitVec 8) → Nat → List (BitVec 8)

/-- Whether an SPDM FINISH verifies (R524). -/
opaque Config.finishOk : Nat → List (BitVec 8) → Bool

/-- Narzer key 1, with which Narzer tokens are signed (R531). -/
opaque Config.narzerKey1 : List (BitVec 8)

/-- Measurement blocks 1, 3 and 5 of R525, whose inputs' layout the spec leaves open: the boot ROM; FSVN,
revocation bit and slot; the boot options. -/
opaque Config.measureRom : List (BitVec 8)
opaque Config.measureSvn : (fsvn : Nat) → (revoked : Bool) → (slot : Nat) → List (BitVec 8)
opaque Config.measureOpts : (bifurcation hold preferred : Nat) → List (BitVec 8)

/-- Narzer's manufacturer code in IDCODE (R530). -/
opaque Config.jedec : Nat

/-- The completion timeout in µs that a range code of Device Control 2 stands for, other than the default of 50 ms: PCI
Express gives each code a range of times and the part takes one of them (R55). -/
opaque Config.cplTimeout : (code : Nat) → Nat

/-- Die crossings that the packets of a reservation make at its destination's module (R473): the entry names no
die of entry, so the spec leaves it open. -/
opaque Config.destCrossings : (res : Nat) → Nat

/-- What the part computes for kt of R469, 2^16 × 2^(n/w) rounded, n and w in 1/8 °C. The spec asks for 2^-16 or
better and no further; Machine/Tally.lean keeps the value within that. -/
opaque Config.exp2 : (n : Int) → (w : Nat) → Nat

end Sys2Proof
end

