-- ==== Sys2Proof/Machine/State.lean ====
section
/-! DEFINITION. The state of the module: every register field, table, buffer, counter, mode and pin
that spec/00 to spec/22 give it, and the queue of waiting commands.  The state is plain data. -/
namespace Sys2Proof.Machine

/-! ## Register fields (R9, R11) -/

/-- Access types of R9. -/
inductive Acc where
  | RO | RW | W1C | W1S | RC
  deriving DecidableEq, Repr

/-- Field classes of R11. -/
inductive Cls where
  | STATIC | LIVE | GUARDED
  deriving DecidableEq, Repr

/-- One register field: the BAR0 offset of its register (of element 0 of an array), its lowest bit
and width, its access and class, its reset value, and the reset value in element 0. -/
structure Fld where
  reg  : Nat
  lo   : Nat
  w    : Nat
  acc  : Acc
  cls  : Cls
  rst  : Nat
  rst0 : Nat
  deriving DecidableEq, Repr

/-- Which element a register access reaches besides its array position: the function (`fn`), the
object selected in the function's queue window (`wqu…`), matching domain, Drover program, landing
entry or reservation. -/
inductive Sel where
  | plain | fn | pf | wqu | wquQ | wquR | wquG | mtc | drv | tland | calres
  deriving DecidableEq, Repr

/-- One row of the register map: offset, width in bits, array dimensions (count, byte stride,
element multiplier), selection, fields, and the block it belongs to: its ENABLE field, its
WRITE_REFUSED field, and the divisors that give their elements (a divisor of 0 gives element 0). -/
structure Reg where
  off   : Nat
  bits  : Nat
  dims  : List (Nat × Nat × Nat)
  sel   : Sel
  flds  : List Fld
  en    : Option Fld
  enDiv : Nat
  wr    : Fld
  wrDiv : Nat
  deriving DecidableEq, Repr

/-! ## What leaves the module -/

/-- What the module sends out, beside its own state: bus requests and messages of the endpoints,
blocks on the lanes, messages on the management interface, answers to readers, pins. -/
inductive Out where
  /-- A posted write of a function to host memory; attributes as in `attrOf` (R443), and the IDE stream as in `ideOf` (R526). -/
  | hostWrite (die fn addr attr : Nat) (data : Bytes)
  /-- A read request of a function under a tag. -/
  | hostRead (die fn tag addr len attr : Nat)
  /-- A PCI Express AtomicOp request under a tag: 0 FetchAdd, 1 Swap, 2 CAS. -/
  | hostAtomic (die fn tag op addr attr : Nat) (operands : Bytes)
  /-- An MSI-X message (R58). -/
  | msix (die fn vec : Nat)
  /-- A completion of a BAR4 request: status 0 success, 4 Completer Abort, 1 Unsupported Request. -/
  | bar4Cpl (die id status : Nat) (data : Bytes)
  /-- The value a register read returned. -/
  | readData (die fn off value : Nat)
  /-- One 4,096-bit block on a lane, transmit order, or electrical idle for a port's lanes. -/
  | block (die port lane : Nat) (bits4096 : List Nat)
  /-- A message on the management interface (response, fault notification, readiness, identity). -/
  | mgmt (kind : Nat) (data : Bytes)
  /-- An SPDM response on the transport it was asked on. -/
  | spdm (code : Nat) (data : Bytes)
  /-- What the test access port shifts out. -/
  | tdo (value : Nat)
  /-- The PPS output pin. -/
  | pps (high : Bool)
  deriving DecidableEq, Repr

/-! ## Host endpoint (spec/02) -/

/-- The work that waits for an outstanding bus request. -/
inductive Work where
  /-- The answer is discarded (R59). -/
  | discard
  /-- A descriptor read of a send queue from an index, for a number of entries (R289). -/
  | fetch (queue idx count : Nat)
  /-- Step 1 of an exclusive sequence (R461), by its number. -/
  | exclusive (seq : Nat)
  deriving DecidableEq, Repr

/-- A tag in use or in quarantine (R53, R62). -/
structure Tag where
  fn   : Nat
  work : Work
  quar : Bool
  deriving DecidableEq, Repr

/-- A request that waits for a general tag (R54), or for one of the inbound pool. -/
structure TagReq where
  die  : Nat
  fn   : Nat
  addr : Nat
  len  : Nat
  work : Work
  inb  : Bool
  deriving DecidableEq, Repr

/-- One MSI-X table entry (R58). -/
structure MsixEnt where
  addr   : Nat
  data   : Nat
  masked : Bool
  deriving DecidableEq, Repr

/-- The half accesses of one function (R8): the pending lower half and the captured upper half, each
with the register and element it came from. -/
structure Half where
  wReg : Option (Nat × Nat)
  rReg : Option (Nat × Nat)
  deriving DecidableEq, Repr

/-- The endpoints.  Per-function tables are keyed die × 2048 + function. -/
structure Hif where
  /-- SR-IOV VF Enable and NumVFs, by die × 2 + PF. -/
  vfEn  : NMap Bool
  numVf : NMap Nat
  /-- Bus Master Enable. -/
  bme   : NMap Bool
  /-- In D3hot, or on the way to it. -/
  d3    : NMap Bool
  /-- FLR: the function is silent (R61, 2 µs). -/
  silent : NMap Bool
  /-- A write with relaxed ordering has been issued since the last zero-length read (R297). -/
  ro    : NMap Bool
  half  : NMap Half
  /-- MSI-X tables and PBAs, by (die × 2048 + function) × 2048 + vector. -/
  msix  : NMap MsixEnt
  pba   : NMap Bool
  /-- Tags, by die × 1024 + tag. -/
  tags  : NMap Tag
  /-- Requests waiting for a tag, oldest first. -/
  waitQ : List TagReq
  /-- BAR4 size, log2, by die × 2 + PF (R48). -/
  bar4  : NMap Nat
  /-- PERST_N of a die asserted (R565). -/
  perst : NMap Bool
  /-- The die's host link has been released (R42). -/
  released : NMap Bool
  /-- Device Control and Device Control 2 of the PFs (R41, R55), by die × 2 + PF; base address registers (R49), by
  (die × 2 + PF) × 8 + register. -/
  devCtl  : NMap Nat
  devCtl2 : NMap Nat
  bars    : NMap Nat
  deriving DecidableEq, Repr

/-- Nothing enabled, nothing outstanding. -/
def Hif.reset : Hif :=
  { vfEn := [], numVf := [], bme := [], d3 := [], silent := [], ro := [], half := [], msix := [], pba := []
    tags := [], waitQ := [], bar4 := [], perst := [], released := [], devCtl := [], devCtl2 := [], bars := [] }

/-! ## Eteel time (spec/04) -/

/-- One Eteel counter (R95): the count in 2^-40 ns, the rate trim and the servo's frequency term, the
highest nanosecond count reached (R114), the last cycle, frame, slot and servo interval boundaries
handled, and the offsets measured in the current servo interval in 2^-17 ns. -/
structure Clock where
  run    : Bool
  count  : Nat
  trim   : Int
  freq   : Int
  high   : Nat
  cyc    : Nat
  frame  : Nat
  slot   : Nat
  servo  : Nat
  thetas : List Int
  /-- Mean offset of the last interval that had a measurement, 2^-16 ns. -/
  mean   : Int
  deriving DecidableEq, Repr

/-- A counter at zero that does not run. -/
def Clock.reset : Clock :=
  { run := false, count := 0, trim := 0, freq := 0, high := 0, cyc := 0, frame := 0, slot := 0, servo := 0
    thetas := [], mean := 0 }

/-- What a port keeps of its time messages (R100 to R105). -/
structure PortTime where
  /-- Its last two marks, newest first: TX_TIME in 2^-16 ns. -/
  marks   : List Nat
  /-- The latest valid peer mark: receive stamp in 2^-16 ns and peer cycle number. -/
  peer    : Option (Nat × Nat)
  gmId    : Nat
  hops    : Nat
  epoch   : Nat
  flags   : Nat
  /-- Consecutive cycles with a valid message that meets R105, and the last such cycle. -/
  good    : Nat
  lastCyc : Nat
  thetas  : List Int
  rtts    : List Int
  /-- Loopback error in 2^-16 ns and whether the port is time-capable; the delays from the transmit tap to the land and
  from the land to the receive tap, in 2^-16 ns (R101). -/
  lbErr   : Int
  capable : Bool
  txpd    : Int
  rxpd    : Int
  /-- Mean offset of the last servo interval, and whether the Shepherd has yet to use it. -/
  mean    : Int
  fresh   : Bool
  /-- The time message being sent and received, with the bits done and gathered (R99). -/
  txMsg   : List Nat
  rxMsg   : List Nat
  rxStamp : Nat
  deriving DecidableEq, Repr

/-- A port that has exchanged no time message. -/
def PortTime.reset : PortTime :=
  { marks := [], peer := none, gmId := 0, hops := 0, epoch := 0, flags := 0, good := 0, lastCyc := 0
    thetas := [], rtts := [], lbErr := 0, capable := false, txpd := 0, rxpd := 0, mean := 0, fresh := false, txMsg := [], rxMsg := [], rxStamp := 0 }

/-- Module time (R105 to R113) as the Shepherd keeps it. -/
structure TimeSt where
  /-- 0 FREE, 1 ACQUIRING, 2 LOCKED, 3 HOLDOVER, 4 GM. -/
  state   : Nat
  gmOn    : Bool
  ppsOn   : Bool
  ppsDly  : Nat
  /-- The source's port code, and the better candidate with its run of intervals (R106). -/
  src     : Option Nat
  cand    : Option Nat
  candRun : Nat
  /-- Advertised grandmaster identity, epoch and hops. -/
  gmId    : Nat
  epoch   : Nat
  hops    : Nat
  standby : Bool
  /-- Identity and epoch of the source when it was last checked. -/
  srcGm   : Nat
  srcEpoch : Nat
  /-- A source chosen since the module entered HOLDOVER, or with the move to it, awaits its first full interval (R111). -/
  newSrc  : Bool
  /-- Consecutive intervals within 10 ns, and whether an interval with a source has been seen in ACQUIRING. -/
  lockRun : Nat
  seen    : Bool
  /-- Error bound of the last LOCKED interval in 2^-16 ns, and the time of the last measurement. -/
  lockE   : Nat
  lastMeas : Nat
  /-- ACQUIRED has been advertised (R107, R108). -/
  advert  : Bool
  /-- PPS: the edge before (ns), the last valid edge with the interval to predict from, the count of
  consecutive edges within 10 ns, PPS_LOCKED, and the servo frequency term. -/
  edge    : Option Nat
  valid   : Option (Nat × Nat)
  ppsRun  : Nat
  ppsLock : Bool
  ppsHigh : Bool
  /-- Consecutive servo intervals within 10 ns, per die (R113). -/
  okRun   : NMap Nat
  /-- Per port code. -/
  ports   : NMap PortTime
  deriving DecidableEq, Repr

/-- FREE, no source (R111). -/
def TimeSt.reset : TimeSt :=
  { state := 0, gmOn := false, ppsOn := false, ppsDly := 0, src := none, cand := none, candRun := 0
    gmId := 0xFFFFF, epoch := 0, hops := 15, standby := false, srcGm := 0xFFFFF, srcEpoch := 0, newSrc := false, lockRun := 0
    seen := false, lockE := 0, lastMeas := 0, advert := false, edge := none, valid := none, ppsRun := 0
    ppsLock := false, ppsHigh := false, okRun := [], ports := [] }

/-! ## Faults and self-test (spec/19) -/

/-- A fault record (R496); `pers` is the mask of sources whose cause persists now (R495). -/
structure FaultRec where
  seq : Nat
  die : Nat
  unit : Nat
  src : Nat
  sev : Nat
  isOpen : Bool
  pers : Nat
  inj : Bool
  crash : Bool
  cause : Nat
  merges : Nat
  reacted : Nat
  fn : Option Nat
  first : Nat
  last : Nat
  addr : Nat
  detail : Nat
  cleared : Nat
  deriving DecidableEq, Repr

/-- A reaction that falls due (R493). -/
inductive Due where
  | fenceUnit (die unit detail : Nat)
  | fenceDie (die : Nat)
  | stop
  deriving DecidableEq, Repr

/-- The merged log (newest first), the next record number, the reactions due, STOP_MODULE, and the
error pair's count of equal readings (R506). -/
structure FltSt where
  log     : List FaultRec
  nextSeq : Nat
  due     : List Due
  stopped : Bool
  pairEq  : Nat
  deriving DecidableEq, Repr

/-- An empty log. -/
def FltSt.reset : FltSt := { log := [], nextSeq := 0, due := [], stopped := false, pairEq := 0 }

/-- Self-test (R511 to R517), by die: the plan's next macro, the macros whose slices run, those whose slices
were abandoned and that are taken again, those replaced by spares, those marked unusable (by die × 2048 + macro), and whether the conditions of R513
hold (core supply in range, clocks nominal). -/
structure BstSt where
  pos    : NMap Nat
  run    : NMap (List Nat)
  again  : NMap (List Nat)
  spared : NMap Bool
  bad    : NMap Bool
  supplyOut : NMap Bool
  /-- Units marked unusable at start, by die × 32 + unit. -/
  badUnit : NMap Bool
  deriving DecidableEq, Repr

/-- Nothing tested. -/
def BstSt.reset : BstSt := { pos := [], run := [], again := [], spared := [], bad := [], supplyOut := [], badUnit := [] }

/-! ## The configuration flash (R566) -/

/-- An image slot (R520): header, body, and the public key of the body's key block. -/
structure Image where
  hdr  : Bytes
  body : Bytes
  key  : Bytes
  deriving DecidableEq, Repr

/-- One die's part of the pass map (R516). -/
structure PassDie where
  tested : Bool
  units  : Nat
  hbmOk  : Bool
  failed : List Nat
  deriving DecidableEq, Repr

/-- The pass map (R516); `intact` is whether its digest checks. -/
structure PassMap where
  fw     : Nat
  frame  : Nat
  dies   : NMap PassDie
  intact : Bool
  deriving DecidableEq, Repr

/-- The Tally coefficient table in flash (R468): twelve coefficients in the order of R468, and per die
V_REF (mV), T_REF and TD (°C). -/
structure Coefs where
  coef : List Nat
  vref : Nat
  tref : Int
  td   : Nat
  deriving DecidableEq, Repr

/-! ## Security (spec/20) -/

/-- Fuses that firmware blows (R521 to R523, R527, R529). -/
structure Fuse where
  lifecycle : Nat
  fsvn      : Nat
  revoked0  : Bool
  ownerKey  : Option Bytes
  /-- Number of the free draw that made the device secret. -/
  secret    : Option Nat
  deriving DecidableEq, Repr

/-- One fuse operation; fuses only ever move forward. -/
inductive FuseOp where
  | svn (n : Nat)
  | revoke0
  | advance (state : Nat)
  | owner (hash : Bytes)
  | secret (draw : Nat)
  deriving DecidableEq, Repr

/-- Fused at the factory and never changed (R1, R521): the dies present, and the hashes of the two
Narzer keys; and the identity (EID) of each die's endpoint. -/
structure Conf where
  mask  : Nat
  keyHash0 : Bytes
  keyHash1 : Bytes
  eids  : NMap Nat
  deriving DecidableEq, Repr

/-- A secured SPDM session (R524): identifier, transport (0 to 3 a die's DOE mailbox, 4 management),
its secrets by free draw number, and whether FINISH has been taken. -/
structure Session where
  id     : Nat
  via    : Nat
  draw   : Nat
  est    : Bool
  updates : Nat
  deriving DecidableEq, Repr

/-- The security root. -/
structure SecSt where
  /-- In-force lifecycle and debug mode (0 OFF, 1 OBSERVE, 2 INVASIVE, 3 SCAN), and the highest mode
  entered since module reset (R525). -/
  lifecycle : Nat
  debug  : Nat
  top    : Nat
  fails  : Nat
  /-- The current nonce: its free draw number (R531). -/
  nonce  : Nat
  slot   : Nat
  keyId  : Nat
  svn    : Nat
  fwVer  : Nat
  /-- The running image. -/
  image  : Option Image
  zeroised : Bool
  zeroFail : Bool
  scanOn : Bool
  sessions : List Session
  nextSess : Nat
  /-- SPDM negotiation reached, by transport: 1 version, 2 capabilities, 3 algorithms. -/
  negot  : NMap Nat
  /-- IDE streams Secure, and their keys' draw numbers, by die × 8 + stream (4 to 7 on PF1's link); their address associations, by that
  number × 4 + word: base low and high, limit low and high. -/
  ide    : NMap Bool
  ideKey : NMap Nat
  assoc  : NMap Nat
  /-- The device identity private key is held. -/
  idKey  : Bool
  /-- Control cores halted through the test access port (mask). -/
  halted : Nat
  /-- The instruction in the test access port. -/
  tapIr  : Nat
  /-- The scan chain selected (R530). -/
  scanChain : Nat
  deriving DecidableEq, Repr

/-- OFF, no image, no session. -/
def SecSt.reset : SecSt :=
  { lifecycle := 0, debug := 0, top := 0, fails := 0, nonce := 0, slot := 0, keyId := 0, svn := 0, fwVer := 0
    image := none, zeroised := false, zeroFail := false, scanOn := false, sessions := [], nextSess := 1
    negot := [], ide := [], ideKey := [], assoc := [], idKey := false, halted := 0, tapIr := 2, scanChain := 0 }

/-- A pasture's key at a die, and the key it replaced, kept while that is still accepted (R264). -/
structure PKey where
  key : Bytes
  gen : Nat
  old : Option Bytes
  deriving DecidableEq, Repr

/-! ## Energy (spec/18) -/

/-- One entry of the action table (R476). -/
structure Action where
  up : Nat
  down : Nat
  inj : Nat
  gap : Nat
  quiet : Nat
  deriving DecidableEq, Repr

/-- The Tally: budget and table (R472, R476), level (R477), gain and its span (R470), per-unit energy
carried below a ledger unit (`remd`, by die × 32 + unit), cumulative energies (`energy`, die 4 unit 0
is the Shepherd's), event counts of the open frame (`ev`, by (die × 32 + unit) × 8 + class), mean
voltage and temperature by die, static energy of the last closed frame, and entries waiting to be
applied (R477). -/
structure TlySt where
  budget : Nat
  headroom : Nat
  table  : List Action
  level  : Nat
  gain   : Nat
  frames : Nat
  spanE  : Nat
  total  : Nat
  spent  : Nat
  excess   : Bool
  floor  : Nat
  remd   : NMap Nat
  energy : NMap Nat
  ev     : NMap Nat
  volt   : NMap Nat
  temp   : NMap Int
  due    : NMap Nat
  mstate : Nat
  coefs  : Coefs
  /-- Energy of the last closed frame and its static part, by die (4: the Shepherd). -/
  frameE : NMap Nat
  staticE : NMap Nat
  /-- The nanosecond count since which a die has been ACTIVE in the open frame, and since which each lane
  direction has been in its state (by ((die × 64 + lane) × 2 + direction), 1 receive). -/
  actSince : NMap Nat
  laneSince : NMap Nat
  /-- kv and kvs of the last closed frame by die, and the frames closed since the last trim. -/
  kv : NMap Nat
  deriving DecidableEq, Repr

/-! ## Lanes (spec/05) -/

/-- A decoded training message (R138). -/
structure TMsg where
  kind   : Nat
  compat : Bool
  eid    : Nat
  port   : Nat
  good   : Nat
  req    : Nat
  nonce  : Nat
  seq    : Nat
  deriving DecidableEq, Repr

/-- A port's lane layer; its state, lane sets and width are in LNE_PORT_STATUS.  Symbols in streams are
two bits; 4 marks errored data (R128). -/
structure LPort where
  /-- Physical lanes left out of GOOD_LANES (R572), and lanes that heard their own and another LANE_ID. -/
  out    : Nat
  heard  : Nat
  wrong  : Nat
  nonce  : Nat
  seq    : Nat
  /-- Message sent in every TRAIN block: 0 none, 1 ADVERTISE, 2 REQUEST, 3 ANSWER, 4 READY. -/
  tx     : Nat
  /-- The last message acted on: kind, NONCE and SEQ; its copies on other lanes and in later blocks are the same message. -/
  last   : Option (Nat × Nat × Nat)
  /-- The peer's ADVERTISE, or the REQUEST that agreed a retrain, and its READY seen. -/
  peer   : Option TMsg
  ready  : Bool
  /-- REQUEST outstanding; retrain agreed (this end's role: initiator); leaves ACTIVE at the next block
  boundary. -/
  req    : Bool
  agreed : Option Bool
  leave  : Bool
  /-- Calibration is full. -/
  full   : Bool
  restart : Bool
  resync : Bool
  /-- A RESTART has begun the stream that is being received. -/
  rxOn   : Bool
  /-- Lanes that send LEAVE in their next block; lanes that wake, with 1 WAKE blocks, 2 JOIN due. -/
  leaving : Nat
  waking : NMap Nat
  txStream : List Nat
  rxStream : List Nat
  /-- The cycle in which the last mark block was sent: the first block sent in a later one is a mark block (R99). -/
  mark   : Nat
  /-- The nanosecond count since which the transmit direction has been idle. -/
  idleAt : Nat
  deriving DecidableEq, Repr

/-- A port at reset. -/
def LPort.reset : LPort :=
  { out := 0, heard := 0, wrong := 0, nonce := 0, seq := 0, tx := 0, last := none, peer := none, ready := false, req := false
    agreed := none, leave := false, full := true, restart := false, resync := false, rxOn := false, leaving := 0
    waking := [], txStream := [], rxStream := [], mark := 0, idleAt := 0 }

/-- One lane: scrambler states of its directions, consecutive good and bad sync words, uncorrectable
blocks in the frame. -/
structure Lane where
  txScr : Nat
  rxScr : Nat
  good  : Nat
  bad   : Nat
  unc   : Nat
  deriving DecidableEq, Repr

/-- A lane at reset. -/
def Lane.reset : Lane := { txScr := 0, rxScr := 0, good := 0, bad := 0, unc := 0 }

/-! ## Link layer and crossbar (spec/06, spec/07) -/

/-- A DATA flit inside the module: channel, framing, used bytes, packet and flit numbers, its
reservation, and the input buffer it holds: port code + 1, or 0. -/
structure Flit where
  vc    : Nat
  sop   : Bool
  eop   : Bool
  abort : Bool
  data  : Bytes
  pkt   : Nat
  fid   : Nat
  res   : Option Nat
  org   : Nat
  deriving DecidableEq, Repr

/-- A port's link layer; lists of four are by channel.  Its state, FRESH, STUCK, PEER and counters are in
the LNK registers. -/
structure Link where
  nextTx : Nat
  una    : Nat
  nrx    : Nat
  replay : List Flit
  /-- Position of a running replay. -/
  rpos   : Option Nat
  /-- U, the peer's latest CR_TOTAL and its INIT credits. -/
  used   : List Nat
  total  : List Nat
  credit : List Nat
  /-- Buffers freed and occupied here, and the credits advertised. -/
  freed  : List Nat
  occ    : List Nat
  adv    : List Nat
  crVc   : Nat
  /-- A NAK is due; no further NAK until a flit is accepted (R162). -/
  nakDue : Bool
  nakOff : Bool
  /-- CONTROL messages waiting: 1 INIT, 2 RESUME. -/
  ctl    : List Nat
  expiries : Nat
  rspRun : Nat
  /-- Packet open in transmission, and its reservation, by channel; packet open in reception; continuations
  discarded through EOP. -/
  openTx : List (Option Nat)
  openRx : List (Option Nat)
  dropRx : List Bool
  /-- Reservation of the TIM packet open in reception, and of the one open in transmission (R219). -/
  timRes : Option Nat
  txRes  : Option Nat
  /-- Packets cut off at this exit, whose later flits are discarded. -/
  cut    : List Nat
  /-- NRX and freed totals last sent. -/
  sentAck : Nat
  sentFreed : List Nat
  /-- Calendar slot last used for TIM and the flits started in it. -/
  slot   : Nat
  slotN  : Nat
  /-- Replays begun in the frame, and R225 applies until its end. -/
  replays : Nat
  excess : Bool
  /-- Part of a stalled router cycle, in ten-thousandths (R209). -/
  stallPart : Nat
  deriving DecidableEq, Repr

/-- A link after module reset or a flush. -/
def Link.reset : Link :=
  { nextTx := 0, una := 0, nrx := 0, replay := [], rpos := none, used := [0, 0, 0, 0], total := [0, 0, 0, 0]
    credit := [0, 0, 0, 0], freed := [0, 0, 0, 0], occ := [0, 0, 0, 0], adv := [0, 0, 0, 0], crVc := 0
    nakDue := false, nakOff := false, ctl := [], expiries := 0, rspRun := 0, openTx := [none, none, none, none]
    openRx := [none, none, none, none], dropRx := [false, false, false, false], timRes := none, txRes := none, cut := [], sentAck := 0
    sentFreed := [0, 0, 0, 0], slot := 0, slotN := 0, replays := 0, excess := false, stallPart := 0 }

/-- Sources and exits of the crossbar: 0 to 127 port codes; 128 + 2d the host endpoint of Wd, 129 + 2d its
Drover; 136 + 4e + d (sources and exits) the flock copy from entry die e to die d. -/
structure Xbar where
  /-- Flits not yet decided, by source × 4 + channel, and the exits of the packet open there. -/
  inq   : NMap (List Flit)
  dest  : NMap (List Nat)
  /-- Flits queued for an exit port, by port code × 4 + channel. -/
  outq  : NMap (List Flit)
  /-- Copies of a flit still to leave, by flit number. -/
  refs  : NMap Nat
  /-- Packets being delivered, by packet × 256 + exit. -/
  asm   : NMap Bytes
  /-- Rotating pointers of pass sets, by die × 16 + set (R187). -/
  ptr   : NMap Nat
  /-- Exits at which injection is stopped by HARD, by die × 128 + port code (R199); flits started in the
  256 ns window, by the same key, and the window. -/
  stop  : NMap Bool
  rateN : NMap Nat
  rateW : NMap Nat
  /-- FLOCK_PRUNED notices: frame of the last, by flock × 256 + member; `first` its first prune. -/
  pruned : NMap Nat
  /-- Frame of the last TIMED_VOID, by (die × 16384 + reservation) × 256 + detail (R234). -/
  voids : NMap Nat
  /-- Path records cached, by die × 2^20 + EID, with the time of their last use (R24, R192), and that clock. -/
  cache : NMap Nat
  uses  : Nat
  /-- REQ packets held at their source by R199, by die, oldest first: from the Drover or not, and the bytes. -/
  held  : NMap (List (Bool × Bytes))
  /-- Flits that have crossed a die-to-die link, modulo 4,096, by (from × 5 + to) × 5 + channel: the sender's U and, as the
  far crossbar takes a flit in the same step, the receiver's total of buffers freed (R154, R176). -/
  d2dTx : NMap Nat
  /-- Packets delivered to the transport engine (0xFE) and the Drover (0xFD) of a die, oldest first. -/
  tq    : NMap (List Bytes)
  dq    : NMap (List Bytes)
  nextPkt : Nat
  nextFid : Nat
  deriving DecidableEq, Repr

/-- An empty crossbar. -/
def Xbar.reset : Xbar :=
  { inq := [], dest := [], outq := [], refs := [], asm := [], ptr := [], stop := [], rateN := [], rateW := [], pruned := [], voids := []
    cache := [], uses := 0, held := [], d2dTx := [], tq := [], dq := [], nextPkt := 1, nextFid := 1 }

/-! ## Owners of messages and instances -/

/-- Whom a message's end is told: an entry of a send queue (R296), a BAR4 request (R455), a wait slot
(R336), a mirror (R464), a rendezvous of the matching unit (R352), or nobody. -/
inductive Owner where
  | nobody
  | queue (q idx gen op tag cring : Nat) (signal : Bool)
  | bar4 (win id off : Nat) (write : Bool)
  | slot (k : Nat) (release : Bool)
  | rndv (tok : Nat)
  deriving DecidableEq, Repr

/-! ## Drover and reduction (spec/14, spec/15) -/

/-- One element's accumulator (R369, R395, R396, R404, R407): `fin` a finite contribution, `fl` MFLAGS, `v` the Plainsum
or integer sum or the selected bits, the three bins with their top, and the index of MINLOC and MAXLOC; `any` an
operand has been taken. -/
structure Accu where
  fin  : Bool
  fl   : Nat
  v    : Int
  hi   : Int
  mid  : Int
  lo   : Int
  top  : Nat
  idx  : Nat
  any  : Bool
  deriving DecidableEq, Repr

/-- Nothing taken. -/
def Accu.reset : Accu := { fin := false, fl := 0, v := 0, hi := 0, mid := 0, lo := 0, top := 2, idx := 0, any := false }

/-- A step's accumulator for a chunk: its elements, and for COPY the input's bytes and whether they are a partial
form. -/
structure StepAcc where
  elems : List Accu
  raw   : Option Bytes
  part  : Bool
  deriving DecidableEq, Repr

/-- A program's edge (R367). -/
structure DEdge where
  route : List Nat
  off   : Nat
  hops  : Nat
  kind  : Nat
  target : Nat
  peer  : Nat
  leaves : Nat
  deriving DecidableEq, Repr

/-- A program's step (R368). -/
structure DStep where
  op    : Nat
  dt    : Nat
  round : Nat
  sat   : Bool
  outPart : Bool
  timed : Bool
  partOk : Bool
  twait : Nat
  count : Nat
  next  : Nat
  res   : Nat
  ins   : Nat
  outs  : Nat
  elemOff : Nat
  elemCount : Nat
  timeOff : Nat
  dlOff : Nat
  timeout : Nat
  deriving DecidableEq, Repr

/-- A loaded program (R365, R366) with its owner (function and its die) and the records it takes. -/
structure DProg where
  fn     : Nat
  src    : Nat
  collId : Nat
  arrival : Bool
  pasture : Nat
  window : Nat
  chunk  : Nat
  seed   : Nat
  timeout : Nat
  edges  : List DEdge
  steps  : List DStep
  recs   : Nat
  deriving DecidableEq, Repr

/-- A chunk in flight (R375): the step it is at; 0 it waits for a time, 1 for inputs, 2 for its outputs, 3 it is not yet
admitted; whether it holds an alarm; the end of its time wait, or the start of its timeout; accumulators by step; edges
delivered, steps formed, and steps formed under PARTIAL_OK (masks); the formed result with its form; outputs still to be
sent (mask); NaN count and flags; and when the outputs of a timed step are released. -/
structure Chunk where
  step  : Nat
  phase : Nat
  alarm : Bool
  time  : Nat
  acc   : NMap StepAcc
  got   : Nat
  done  : Nat
  closed : Nat
  result : Bytes
  part  : Bool
  left  : Nat
  nan   : Nat
  afl   : Nat
  release : Nat
  deriving DecidableEq, Repr

/-- An instance (R371, R372): number, elements, base time, the host's part, its work entry, chunks in flight, the
next chunk to be admitted, chunks retired, RETIRED received by edge × 2^20 + source EID, lowest unretired chunk
credited by input edge, total NaN count and flags, bytes written, missing inputs, whether a chunk was
formed under PARTIAL_OK, and the outputs of which silent senders are dropped (edge mask). -/
structure Inst where
  num   : Nat
  n     : Nat
  base  : Nat
  inAddr : Nat
  outAddr : Nat
  ownOff : Nat
  ownCount : Nat
  inOwn : Bool
  outOwn : Bool
  xctx  : Nat
  owner : Owner
  chunks : NMap Chunk
  next  : Nat
  retired : Nat
  rt    : NMap Nat
  credited : NMap Nat
  nan   : Nat
  afl   : Nat
  written : Nat
  missing : Nat
  partialDone : Bool
  dropped : Nat
  deriving DecidableEq, Repr

/-- What the Drover keeps of a program (R371): 1 IDLE, 2 RUNNING, 3 HALTED, its instances and NEXT_INSTANCE; the instance that
completed last, whose final credits may still be owed, and by input edge the time of the last credit and one more (R382). -/
structure DRun where
  state : Nat
  next  : Nat
  cur   : Option Inst
  pend  : Option Inst
  old   : Option Inst
  creditAt : NMap Nat
  deriving DecidableEq, Repr

/-- A program just loaded. -/
def DRun.reset : DRun := { state := 1, next := 0, cur := none, pend := none, old := none, creditAt := [] }

/-- The Drovers' working state: programs by die × 256 + program, and per die the time of the last admission of a
chunk that R479 delays. -/
structure Drv where
  run  : NMap DRun
  gap  : NMap Nat
  deriving DecidableEq, Repr

/-- A working-pool allocation (R88): offset, size, and the function that made it with its die. -/
structure Pool where
  off  : Nat
  size : Nat
  fn   : Nat
  src  : Nat
  deriving DecidableEq, Repr

/-! ## Tables (spec/03, R74; contents in spec/07, 08, 14) -/

/-- A path entry (R191). -/
structure PathEnt where
  route : List Nat
  hops  : Nat
  valid : Bool
  timedOk : Bool
  bias  : Nat
  deriving DecidableEq, Repr

/-- A flock entry (R202). -/
structure FlockEnt where
  out   : Nat
  id    : Nat
  valid : Bool
  toDrv : Bool
  drvDie : Nat
  host  : Nat
  owner : Nat
  pasture : Nat
  deriving DecidableEq, Repr

/-- A port's calendar: CAP and the owned slots (R217). -/
structure Cal where
  cap   : Nat
  slots : NMap Nat
  deriving DecidableEq, Repr

/-- A reservation entry (R212). -/
structure Resv where
  role  : Nat
  path  : Nat
  src   : Nat
  dest  : Nat
  pasture : Nat
  fn    : Nat
  sigma : Nat
  rho   : Nat
  bound : Nat
  allow : Nat
  deriving DecidableEq, Repr

/-- A pasture at an endpoint (R570, R449): the function granted, and FLAGS. -/
structure Past where
  fn    : Nat
  flags : Nat
  deriving DecidableEq, Repr

/-- The tables of R74 as one die (or, authoritative, the Shepherd) holds them.  `path` is by EID × 8 +
path, `drv` by die × 256 + program, `flock` by the low 16 bits of the identifier, calendars by port code, `past` by die × 65536 + pasture,
`part` (authoritative: MiB of the transport buffer) by die, `gen` by table: 0 path, 1 pass
sets, 2 flock, 3 shadow and 4 active calendars, 5 reservations, 6 Drover programs, 7 pastures, 8 pasture
keys, 9 buffer partition, 10 Tally coefficients and budget. -/
structure Tabs where
  path  : NMap PathEnt
  pass  : NMap Nat
  flock : NMap FlockEnt
  calA  : NMap Cal
  calS  : NMap Cal
  res   : NMap Resv
  past  : NMap Past
  drv   : NMap DProg
  part  : NMap Nat
  gen   : NMap Nat
  deriving DecidableEq, Repr

/-- Empty tables. -/
def Tabs.reset : Tabs := { path := [], pass := [], flock := [], calA := [], calS := [], res := [], past := [], drv := [], part := [], gen := [] }

/-- An event ring (R300): phase, whether vector 1 has been sent and EVENTS_LOST written since
WQU_EVR_HEAD was last written. -/
structure Evr where
  phase : Bool
  sig   : Bool
  lost  : Bool
  deriving DecidableEq, Repr

/-- A ring just enabled. -/
def Evr.reset : Evr := { phase := true, sig := false, lost := false }

/-! ## Translation and access control (spec/16) -/

/-- A look-aside entry (R430): context, first 4 KiB page number, log2 of the page size, bus address of the
page, the leaf as read and its slot. -/
structure TlbEnt where
  ctx  : Nat
  vpn  : Nat
  size : Nat
  oa   : Nat
  leaf : Nat
  slot : Nat
  lvl  : Nat
  locked : Bool
  deriving DecidableEq, Repr

/-- A walk-cache entry (R430): context, level, the VA bits above that level's index and the index, and the
entry. -/
structure WalkEnt where
  ctx   : Nat
  lvl   : Nat
  pfx   : Nat
  entry : Nat
  deriving DecidableEq, Repr

/-- One die's translation caches, most recently used first. -/
structure Xlt where
  tlb  : List TlbEnt
  walk : List WalkEnt
  /-- Exclusive sequences at the bridge whose accesses were checked under rules older than the last change (R445). -/
  older : List Nat
  deriving DecidableEq, Repr

/-- Nothing cached. -/
def Xlt.reset : Xlt := { tlb := [], walk := [], older := [] }

/-! ## Transport (spec/09 to spec/13, spec/17) -/

/-- A message being sent on a conduit.  `next` is the offset of its next packet, `all` says that every
packet has started; `buf` is its local buffer (virtual address and length of each fragment) in context
`xctx` under master class `cls`, or `held` its payload; `ask`: 0 no tracker wanted, 1 TRACKER_REQ due, 2 asked;
`wait`: what its end waits for beside its packets' results (0 nothing, 1 GET_RSP, 2 ATOMIC_RSP, 3 LOCK_GRANT,
4 SEND_FIN); `fail`: offset, status and detail of the failing packet with the lowest offset. -/
structure Msg where
  id    : Nat
  op    : Nat
  len   : Nat
  addr  : Nat
  hdr   : Bytes
  buf   : List (Nat × Nat)
  held  : Option Bytes
  xctx  : Nat
  cls   : Nat
  next  : Nat
  all   : Bool
  ask   : Nat
  trk   : Option Nat
  path  : Option Nat
  owner : Owner
  wait  : Nat
  fail  : Option (Nat × Nat × Nat)
  faultAddr : Nat
  result : Nat
  moved : Nat
  resAddr : Nat
  sent  : Nat
  deriving DecidableEq, Repr

/-- The send record of an open packet (R254): its PSN, message, operation, offset and length, the path last
used (none: it found no path), ROUND, time of sending, acknowledgements that carry its ROUND (R262), and
the time at which a NOT_READY sends it again (R257). -/
structure Rec where
  psn   : Nat
  msg   : Nat
  op    : Nat
  off   : Nat
  len   : Nat
  path  : Option Nat
  round : Nat
  time  : Nat
  acks  : Nat
  again : Option Nat
  /-- A leaf's acknowledgement carried CE (R201). -/
  ce    : Bool := false
  deriving DecidableEq, Repr

/-- A message being received on a conduit: its LAST packet's PSN (untracked), bytes accepted, first failure
met, and what its completion needs: address, RMA flags, immediate data, carried status, header bytes.
`step` is the matching token of a SEND. -/
structure RxMsg where
  op    : Nat
  len   : Nat
  firstPsn : Option Nat
  lastPsn : Option Nat
  got   : Nat
  fail  : Option (Nat × Nat)
  hdr   : Bytes
  data  : Bytes
  tracked : Bool
  mtok  : Option Nat
  deriving DecidableEq, Repr

/-- A conduit context (R238, R239), its residency and what the engine keeps for it. -/
structure Cond where
  state : Nat
  adapt : Bool
  spray : Bool
  pinned : Bool
  fromGate : Bool
  mcast : Bool
  rxLog : Nat
  fn    : Nat
  peer  : Nat
  peerRx : Nat
  peerCn : Nat
  retries : Nat
  pasture : Nat
  window : Nat
  txNext : Nat
  txUna : Nat
  rxNext : Nat
  eff   : Nat
  lastPath : Nat
  nrCount : Nat
  scores : Nat
  inflight : Nat
  acked : Nat
  leaves : Nat
  epoch : Nat
  retryAt : Nat
  agedAt : Nat
  rxMap : Nat
  lastMap : Nat
  openedAt : Nat
  retryBase : Nat
  retryLimit : Nat
  mapOff : Nat
  userCtx : Nat
  pktsTx : Nat
  pktsRx : Nat
  bytesTx : Nat
  bytesRx : Nat
  retx  : Nat
  dups  : Nat
  nrRecv : Nat
  nrSent : Nat
  /-- In the conduit cache, last use, and a fetch in progress (R241, R242). -/
  resident : Bool
  used  : Nat
  fetching : Bool
  /-- E has been halved and not yet E bytes acknowledged since (R201). -/
  halved : Bool
  /-- Bytes of ACKED_RUN that were acknowledged with CE (R201). -/
  ackedCe : Nat := 0
  nextMsg : Nat
  msgs  : List Msg
  recs  : List Rec
  rx    : NMap RxMsg
  /-- Detail of the last NOT_READY received (R573), flit buffers held, one of them from the reserve, and
  waiting for one (R323). -/
  nrDetail : Nat
  bufs  : Nat
  fromReserve : Bool
  bufWait : Bool
  /-- The last CLOSE has been sent (R266). -/
  closeSent : Bool
  deriving DecidableEq, Repr

/-- A CLOSED conduit. -/
def Cond.reset : Cond :=
  { state := 0, adapt := false, spray := false, pinned := false, fromGate := false, mcast := false, rxLog := 0, fn := 0
    peer := 0, peerRx := 8, peerCn := 0, retries := 0, pasture := 0, window := 0, txNext := 0, txUna := 0, rxNext := 0
    eff := 0, lastPath := 0, nrCount := 0, scores := 0, inflight := 0, acked := 0, leaves := 0, epoch := 0, retryAt := 0
    agedAt := 0, rxMap := 0, lastMap := 0, openedAt := 0, retryBase := 0, retryLimit := 0, mapOff := 0, userCtx := 0
    pktsTx := 0, pktsRx := 0, bytesTx := 0, bytesRx := 0, retx := 0, dups := 0, nrRecv := 0, nrSent := 0
    resident := false, used := 0, fetching := false, halved := false, nextMsg := 0, msgs := [], recs := [], rx := []
    nrDetail := 0, bufs := 0, fromReserve := false, bufWait := false, closeSent := false }

/-- A reassembly tracker (R259). -/
structure Trk where
  cn    : Nat
  msg   : Nat
  len   : Nat
  count : Nat
  last  : Nat
  deriving DecidableEq, Repr

/-- An accepted timed post (R227): MSG_ID, entry, posting function, conduit, length, deadline, release, payload as
read (none: not whole by release), released, the reservation sequence of its first packet, and that of each
packet acknowledged on time (once for each acknowledgement). -/
structure Post where
  id    : Nat
  owner : Owner
  fn    : Nat
  cn    : Nat
  len   : Nat
  deadline : Nat
  release : Nat
  payload : Option Bytes
  released : Bool
  seq   : Nat
  acked : List Nat
  deriving DecidableEq, Repr

/-- What a die keeps of a reservation beside its entry (R228, R260, R310): as source last_release, tok_last,
the next MSG_ID and packet sequence and the uncompleted posts, oldest first; as destination the MSG_ID and
OFFSET expected; and the conduits it pins (R214). -/
structure ResRun where
  lastRelease : Nat
  tok   : Nat
  nextId : Nat
  seq   : Nat
  posts : List Post
  expId : Nat
  expOff : Nat
  pins  : List Nat
  deriving DecidableEq, Repr

/-- Both counts at 0, an empty bucket record. -/
def ResRun.reset : ResRun := { lastRelease := 0, tok := 0, nextId := 0, seq := 0, posts := [], expId := 0, expOff := 0, pins := [] }

/-- A waiter (R332): conduit, owner tag, priority and EID. -/
structure Waiter where
  cn   : Nat
  tag  : Nat
  prio : Nat
  eid  : Nat
  deriving DecidableEq, Repr

/-- A lock entry (R327): the word's bus address, the virtual address and context it was first named by, the
owning function, holder, ABANDONED, GEN, waiters in arrival order, the effective priority last noticed, and the
time of the last probe.  A bridge lock (R341) has `page` set: its target function and 4 KiB page, and no word. -/
structure Lock where
  bus  : Nat
  va   : Nat
  xctx : Nat
  fn   : Nat
  page : Bool
  holder : Option Waiter
  aband : Bool
  gen  : Nat
  waiters : List Waiter
  eff  : Nat
  probed : Nat
  deriving DecidableEq, Repr

/-- A wait slot (R336, R337): its conduit, tag and lock as requested, the outcome, and the read that stalls, by the function that
reads and the offset it reads at. -/
structure Slot where
  cn    : Nat
  tag   : Nat
  addr  : Nat
  xctx  : Nat
  busy  : Bool
  out   : Option (Nat × Nat)
  stall : Option (Nat × Nat)
  deriving DecidableEq, Repr

/-- An unused slot. -/
def Slot.reset : Slot := { cn := 0, tag := 0, addr := 0, xctx := 0, busy := false, out := none, stall := none }

/-- A posted receive (R353, R355): match data, buffer, completion ring, tag, index and the queue's generation. -/
structure Recv where
  bits  : Nat
  ignore : Nat
  source : Nat
  any   : Bool
  len   : Nat
  buf   : List (Nat × Nat)
  indirect : Bool
  xctx  : Nat
  cring : Nat
  tag   : Nat
  idx   : Nat
  q     : Nat
  gen   : Nat
  time  : Nat
  deriving DecidableEq, Repr

/-- A SEND message at its target: `place` 0 before its matching point, 1 on the unexpected list, 2 in the
overflow ring, 3 waiting for room in the ring, 4 matched, 5 its rendezvous GET done; the bytes stored by offset and the store space
reserved; the receive it matched, bytes placed, first failure, whether the transport has the whole message,
and whether its rendezvous GET runs. -/
structure MMsg where
  dom   : Nat
  cn    : Nat
  msg   : Nat
  bits  : Nat
  eid   : Nat
  len   : Nat
  rndv  : Bool
  srcAddr : Nat
  srcXctx : Nat
  space : Nat
  stored : NMap Bytes
  arrived : Nat
  failed : Bool
  place : Nat
  time  : Nat
  recv  : Option Recv
  placed : Nat
  err   : Option (Nat × Nat)
  whole : Bool
  copying : Bool
  fetching : Bool
  flushed : Bool
  deriving DecidableEq, Repr

/-- A matching domain's lists (R343): posted receives oldest first, tokens of its unexpected messages oldest
first, tokens waiting for room in the overflow ring, the ring's phase, and the message that MTC_BIND_CMD binds. -/
structure Dom where
  posted : List Recv
  unexp  : List Nat
  waits  : List Nat
  phase  : Bool
  bind   : Option Nat
  deriving DecidableEq, Repr

/-- An empty domain. -/
def Dom.reset : Dom := { posted := [], unexp := [], waits := [], phase := true, bind := none }

/-- A send queue (R274, R289, R292) beside its WQU_QSTATE: prefetch slots by index, generation (RESET counts it
up), entries left in the round, the message being injected, entries left of the visit's burst, and the doorbells
that entries not yet taken wait under, oldest first: new tail and time (R549); and SQ_INVAL as last written (R270). -/
structure Sq where
  slots : NMap Bytes
  gen   : Nat
  left  : Nat
  inj   : Option (Nat × Nat)
  burst : Nat
  bells : List (Nat × Nat)
  inval : Nat
  /-- The invalidation last begun is in progress until then (R290). -/
  busyTo : Nat
  deriving DecidableEq, Repr

/-- A queue at reset. -/
def Sq.reset : Sq := { slots := [], gen := 0, left := 0, inj := none, burst := 0, bells := [], inval := 0, busyTo := 0 }

/-- A work entry that the sampler follows (R547 to R549): queue, index and the queue's generation, what its record
copies, sample number, times (nanosecond counts), and its first packet's number, conduit and PSN. -/
structure Follow where
  q    : Nat
  idx  : Nat
  gen  : Nat
  op   : Nat
  len  : Nat
  va   : Nat
  cn   : Nat
  cring : Nat
  tag  : Nat
  fn   : Nat
  num  : Nat
  timed : Bool
  stepped : Bool
  bell : Nat
  fetch : Nat
  first : Option Nat
  ack  : Option Nat
  pkt  : Option Nat
  psn  : Nat
  path : Nat
  deriving DecidableEq, Repr

/-- A die's sampler: entries counted towards the interval, entries followed, the ring's phase, whether HALF has been
signalled since HEAD was written, and the next sample number. -/
structure Smp where
  n      : Nat
  follow : List Follow
  phase  : Bool
  half   : Bool
  num    : Nat
  deriving DecidableEq, Repr

/-- A sampler just enabled. -/
def Smp.reset : Smp := { n := 0, follow := [], phase := true, half := false, num := 0 }

/-- A completion ring: phase and ARM (R297, R298). -/
structure Cring where
  phase : Bool
  arm   : Bool
  deriving DecidableEq, Repr

/-- A ring at reset. -/
def Cring.reset : Cring := { phase := true, arm := false }

/-- A queue group (R292, R293): deficit, tokens in 2^-16 byte and when they were counted, the queue last
served. -/
structure Group where
  deficit : Nat
  tokens : Nat
  since  : Nat
  last   : Nat
  deriving DecidableEq, Repr

/-- A group at reset. -/
def Group.reset : Group := { deficit := 0, tokens := 0, since := 0, last := 0 }

/-- The active set of a peer window (R451). -/
structure Win where
  off  : Nat
  size : Nat
  remote : Nat
  eid  : Nat
  pasture : Nat
  rxctx : Nat
  strict : Bool
  swap : Nat
  xmode : Nat
  deriving DecidableEq, Repr

/-- A BAR4 request not yet finished (R453): window, identifier, kind (0 write, 1 read, 2 AtomicOp), BAR4 offset,
length, operation, operands, whether it has been sent (R458) and when. -/
structure Bar4 where
  die  : Nat
  win  : Nat
  id   : Nat
  kind : Nat
  off  : Nat
  len  : Nat
  op   : Nat
  data : Bytes
  set  : Win
  sent : Bool
  time : Nat
  deriving DecidableEq, Repr

/-- An exclusive sequence that runs at the far bridge (R461): function and 4 KiB page, conduit, MSG_ID, operation (1
FETCH_ADD, 2 CAS, 3 SWAP), size, bus address and operands; `sem` in SEMAPHORE mode; `aband` its lock was abandoned
before. -/
structure Seq where
  num  : Nat
  die  : Nat
  fn   : Nat
  page : Nat
  cn   : Nat
  msg  : Nat
  op   : Nat
  size : Nat
  bus  : Nat
  val  : Bytes
  swp  : Bytes
  sem  : Bool
  aband : Bool
  deriving DecidableEq, Repr

/-- A packet or sequence that waits at the far bridge for a page (R462): function and page, conduit, the packet's
bytes and whether it is an exclusive sequence. -/
structure Hold where
  die  : Nat
  fn   : Nat
  page : Nat
  cn   : Nat
  pkt  : Bytes
  excl : Bool
  deriving DecidableEq, Repr

/-- A mirror's own record (R464): value last sent, polls since, SEQ, and whether an update has been taken. -/
structure Mirror where
  last  : Nat
  polls : Nat
  seq   : Nat
  got   : Bool
  sentOnce : Bool
  deriving DecidableEq, Repr

/-- A mirror at reset. -/
def Mirror.reset : Mirror := { last := 0, polls := 0, seq := 0, got := false, sentOnce := false }

/-- The transport side of the module.  Keys: conduits die × 2^24 + number; trackers die × 4096 + number;
reservations die × 16384 + number; queues, rings die × 65536 + number; groups die × 1024 + number; slots
die × 64 + slot; domains die × 4096 + number; windows die × 256 + window; mirrors die × 64 + mirror; pens,
locks and hold lists name their die; gate pools by die × 2048 + function. -/
structure Trn where
  cond  : NMap Cond
  pen   : NMap (List (Nat × Bytes))
  /-- Packets that were held at the far bridge and resume at step 7 (R462). -/
  resume : NMap (List (Nat × Bytes))
  gate  : NMap (List Nat)
  trk   : NMap Trk
  run   : NMap ResRun
  locks : NMap (List Lock)
  slot  : NMap Slot
  dom   : NMap Dom
  mmsg  : NMap MMsg
  nextTok : Nat
  full  : NMap Nat
  sq    : NMap Sq
  cr    : NMap Cring
  grp   : NMap Group
  win   : NMap Win
  bar4  : List Bar4
  hold  : List Hold
  seqs  : List Seq
  mir   : NMap Mirror
  /-- A write through a strict window has failed since the last read (R458), by window; the posted-write error signal
  has been sent since REARM (R460), by die. -/
  strict : NMap Bool
  pwSig : NMap Bool
  nextSeq : Nat
  /-- Uses counted, for the replacement order of the conduit caches. -/
  clock : Nat
  /-- Frame of the last PASTURE_AUTH event by die (R264); encryption counters by die × 65536 + pasture (R263). -/
  auth  : NMap Nat
  ctr   : NMap Nat
  deriving DecidableEq, Repr

/-- Nothing open. -/
def Trn.reset : Trn :=
  { cond := [], pen := [], resume := [], gate := [], trk := [], run := [], locks := [], slot := [], dom := [], mmsg := [], nextTok := 1
    full := [], sq := [], cr := [], grp := [], win := [], bar4 := [], hold := [], seqs := [], mir := [], strict := [], pwSig := [], nextSeq := 1, clock := 0, auth := [], ctr := [] }

/-- What other units still have to do before the running command ends (the model's own queue, empty
between commands): timed posts hear of exits and die-to-die links that go down and of dies that lose
TIMED_OK (R233). -/
inductive Todo where
  | exitDown (pc : Nat)
  | d2dDown (a b : Nat)
  | timeBad (die : Nat)
  /-- A conduit has closed with a trigger of R301 and the status of its unfinished messages. -/
  | condClosed (die cn code status detail : Nat)
  /-- A message of a conduit has ended: the conduit's peer, owner, status, detail, LENGTH, RESULT. -/
  | msgDone (die cn peer : Nat) (owner : Owner) (status detail len result : Nat)
  /-- A packet held for a page at the far bridge may start (R462). -/
  | bridgeNext (die fn page : Nat)
  /-- A cycle boundary of the die's counter has passed while LIVE writes wait (R12, R96). -/
  | liveDue (die : Nat)
  /-- The die's counter has been stepped: what it passed occurs (R114). -/
  | stepped (die : Nat)
  deriving DecidableEq, Repr

/-! ## The Shepherd and Azrix (spec/03) -/

/-- A command as taken (R85): its issuer (die and function; none: the management interface), its 64 bytes, and its
argument buffer as read (none: it could not be read). -/
structure AzCmd where
  iss : Option (Nat × Nat)
  ent : Bytes
  buf : Option Bytes
  deriving DecidableEq, Repr

/-- What a command taken and not yet answered waits for: an earlier load of its table (R75); the acknowledgements of a
push, by a mask of dies, with those that have acknowledged (R74); the named frame of a CAL_SWITCH; the test of a die or
of a unit; the return of a die or unit; the drain of a die; the shutdown self-test; rails. -/
inductive Wait where
  | turn (table : Nat)
  | push (table wait acked : Nat)
  | frame (f left : Nat)
  | dieTest (die : Nat)
  | dieBack (die : Nat) (activate : Bool)
  | unitTest (die unit : Nat)
  | unitBack (die unit : Nat)
  | drain (die : Nat) (retain : Bool)
  | drainAll (shutdown : Bool)
  | wakeAll
  | testAll
  deriving DecidableEq, Repr

/-- A command taken and not yet answered: when it was taken (Shepherd nanosecond count), what it waits for, its results
so far, and whether its ring has been disabled since, so that no response is written (R83). -/
structure Job where
  cmd  : AzCmd
  t0   : Nat
  wait : Wait
  mute : Bool
  res0 : Nat
  res1 : Nat
  deriving DecidableEq, Repr

/-- A response that is ready while its ring is not served: die, function, OPCODE, STATUS, USER_TAG, DETAIL, DURATION_US and the
results (R86). -/
structure Held where
  die  : Nat
  fn   : Nat
  op   : Nat
  status : Nat
  tag  : Nat
  detail : Nat
  dur  : Nat
  res0 : Nat
  res1 : Nat
  deriving DecidableEq, Repr

/-- A function's rings: entries used are in AZX_CMD_HEAD to AZX_RSP_HEAD; here the response ring's phase (R82). `next` is
the ring from which the Shepherd looks on in its round robin (R81): die × 2048 + function, 8192 the management interface. -/
structure AzxSt where
  phase : NMap Bool
  jobs  : List Job
  next  : Nat
  /-- Commands received over the management interface and not yet taken (R84). -/
  mgmtQ : List AzCmd
  /-- Responses of rings that are not served while their functions issue nothing (R47). -/
  held  : List Held
  /-- Rings whose base could not be read or written since ENABLE was last set (R83), by die × 2048 + function. -/
  broken : NMap Bool
  deriving DecidableEq, Repr

/-- Nothing taken. -/
def AzxSt.reset : AzxSt := { phase := [], jobs := [], next := 0, mgmtQ := [], held := [], broken := [] }

/-- The configuration flash. -/
structure Flash where
  imgA  : Option Image
  imgB  : Option Image
  /-- Boot options: bifurcated dies, HOLD bits, preferred slot. -/
  bifur : Nat
  hold  : Nat
  pref  : Nat
  /-- Buffer partition stored by BUF_PARTITION, by die. -/
  part  : NMap Nat
  passMap : Option PassMap
  crash : List FaultRec
  /-- Certificate slots 0 to 7 (R523). -/
  certs : NMap Bytes
  coefs : Coefs
  /-- Tables pushed at start (R68 step 7), with their generations. -/
  tabs  : Tabs
  deriving DecidableEq, Repr

/-- The die state machine's own records, by die: DIE_ACTIVATE received; waiting for it (R77); send queues stopped for a
sleep (R484); tables that the retained storage of a sleeping die holds (mask of table numbers, R79); the die returns
from repair; and, for the module: firmware runs, the boot failed (R69), a pass map is in use (R516), standby. -/
structure ShepSt where
  go    : NMap Bool
  waits : NMap Bool
  drain : NMap Bool
  kept  : NMap Nat
  repair : NMap Bool
  booted : Bool
  bootFail : Bool
  /-- The boot failure record (R69): for each slot in the order tried, its number and what was wrong with it. -/
  bootRec : Bytes
  /-- The copies of the tables in the dies' Shepherd regions (R73), by die × 4 + the die whose tables they are: its own,
  and the mirror on the next usable die. -/
  region : NMap Tabs
  mapUsed : Bool
  standby : Bool
  deriving DecidableEq, Repr

/-- Nothing started. -/
def ShepSt.reset : ShepSt :=
  { go := [], waits := [], drain := [], kept := [], repair := [], booted := false, bootFail := false, bootRec := []
    region := [], mapUsed := false, standby := false }

/-! ## Pins and supplies (spec/22) -/

/-- The low-speed lands and supplies: module reset asserted, supplies good, Shepherd clock present,
MOD_READY released, readback of the error pair, and rails of group 4 out of tolerance (mask: 0 to 3
the worker rails of a die, 4 VDD_PCIE; R559). -/
structure Pins where
  rst   : Bool
  pwr   : Bool
  refS  : Bool
  ready : Bool
  rail4 : Nat
  /-- Management address straps, sampled when module reset ends (R564). -/
  mgmtAddr : Nat
  /-- Readiness has been signalled since module reset (R71, R505). -/
  sig   : Bool
  /-- Boundary cells driven by EXTEST (R567). -/
  cells : Nat
  deriving DecidableEq, Repr

/-! ## The module -/

/-- Everything the spec gives the module but its blown fuses and the command queue. -/
structure Mod where
  /-- Register fields as last written, and, for a field whose LIVE write waits, the value in force. -/
  regs : NMap Nat
  live : NMap Nat
  /-- Event counters (R537), by die × 1024 + counter (die 4: the Shepherd), WRAPPED bits, epochs. -/
  ctr  : NMap Nat
  ctrWrap : NMap Bool
  ctrEpoch : NMap Nat
  /-- Die-to-die links in service (R26): 0 to 5 the pairs in the order of GEN_D2D_STATUS.PAIR_UP, 6 to 9
  the Shepherd links; and those that a parity error took out of service. -/
  d2d  : NMap Bool
  d2dFail : NMap Bool
  /-- State of each worker die (R72), default ABSENT. -/
  dieSt : NMap Nat
  hif  : Hif
  /-- Counters of W0 to W3 (0 to 3) and of the Shepherd (4). -/
  clk  : NMap Clock
  tm   : TimeSt
  flt  : FltSt
  bst  : BstSt
  flash : Flash
  conf : Conf
  sec  : SecSt
  /-- Pasture keys (R263, R528), by holder × 65536 + pasture; holder 4 is the Shepherd. -/
  keys : NMap PKey
  tly  : TlySt
  pin  : Pins
  /-- Ports and links by die × 32 + port, lanes by die × 64 + lane of the die, event rings by die × 2048 +
  function, tables by die (4: authoritative). -/
  lp   : NMap LPort
  lane : NMap Lane
  lnk  : NMap Link
  xb   : Xbar
  tabs : NMap Tabs
  evr  : NMap Evr
  /-- Translation caches by die; the transport side. -/
  xlt  : NMap Xlt
  trn  : Trn
  /-- Drovers, the working pools' allocations by die, and the pools' bytes by die × 2^40 + offset. -/
  drv  : Drv
  pools : NMap (List Pool)
  pool : NMap Byte
  /-- Samplers by die; the Shepherd's Azrix service and die state machine. -/
  smp  : NMap Smp
  azx  : AzxSt
  shep : ShepSt
  todo : List Todo
  /-- What has left the module, newest first (the model's own record). -/
  out  : List Out
  /-- The number of free values drawn (the model's own field). -/
  free : Nat
  /-- Fuse operations that the running command blows (the model's own field, empty between commands). -/
  burn : List FuseOp
  deriving DecidableEq, Repr

/-! ## Reset -/

/-- The coefficients of R468 (reference values of a typical part) and the references of its example. -/
def Coefs.reset : Coefs :=
  { coef := [14764, 12080, 2684, 2013, 201, 40265, 20133, 23488, 100663, 537, 16777, 1207960]
    vref := 750, tref := 65, td := 25 }

/-- The configuration flash as delivered: no image, every die unsplit and not held. -/
def Flash.reset : Flash :=
  { imgA := none, imgB := none, bifur := 0, hold := 0, pref := 0, part := [], passMap := none, crash := [], certs := []
    coefs := Coefs.reset, tabs := Tabs.reset }

/-- The action table in force after reset (R476). -/
def Action.resetTable : List Action :=
  [ { up := 224, down := 0, inj := 256, gap := 0, quiet := 4096 }, { up := 236, down := 208, inj := 224, gap := 0, quiet := 2048 }
  , { up := 244, down := 220, inj := 192, gap := 64, quiet := 1024 }, { up := 250, down := 230, inj := 160, gap := 128, quiet := 1024 }
  , { up := 254, down := 238, inj := 128, gap := 256, quiet := 512 }, { up := 256, down := 244, inj := 96, gap := 512, quiet := 512 }
  , { up := 262, down := 248, inj := 64, gap := 1024, quiet := 256 }, { up := 0, down := 252, inj := 32, gap := 2048, quiet := 256 } ]

/-- The Tally at module reset: no budget, gain 1 (R470, R472). -/
def TlySt.reset : TlySt :=
  { budget := 0, headroom := 0, table := Action.resetTable, level := 0, gain := 65536, frames := 0, spanE := 0, total := 0, spent := 0
    excess := false, floor := 0, remd := [], energy := [], ev := [], volt := [], temp := [], due := [], mstate := 4
    coefs := Coefs.reset, frameE := [], staticE := [], actSince := [], laneSince := [], kv := [] }

/-- Module reset asserted, supplies down. -/
def Pins.reset : Pins :=
  { rst := true, pwr := false, refS := false, ready := false, rail4 := 0, mgmtAddr := 0, sig := false, cells := 0 }

/-- A module with four worker dies fused in. -/
def Conf.reset : Conf := { mask := 0xF, keyHash0 := [], keyHash1 := [], eids := [] }

/-- The module held in module reset (R68, R557): nothing has started, and every die is fused in and BOOTING (R72). -/
def Mod.reset : Mod :=
  { regs := [], live := [], ctr := [], ctrWrap := [], ctrEpoch := [], d2d := [], d2dFail := [], dieSt := [(0, 1), (1, 1), (2, 1), (3, 1)]
    hif := Hif.reset, clk := [], tm := TimeSt.reset, flt := FltSt.reset, bst := BstSt.reset, flash := Flash.reset
    conf := Conf.reset, sec := SecSt.reset, keys := [], tly := TlySt.reset, pin := Pins.reset
    lp := [], lane := [], lnk := [], xb := Xbar.reset, tabs := [], evr := [], xlt := [], trn := Trn.reset, drv := { run := [], gap := [] }, pools := [], pool := [], smp := [], azx := AzxSt.reset, shep := ShepSt.reset, todo := []
    out := [], free := 0, burn := [] }

/-- Fuses of a part as delivered: BLANK, no SVN, key 0 valid, no owner key, no device secret (R520 to R529). -/
def Fuse.reset : Fuse := { lifecycle := 0, fsvn := 0, revoked0 := false, ownerKey := none, secret := none }

/-- The module, its fuses, and the commands that wait, first in, first out. -/
structure State where
  m : Mod
  fuse : Fuse
  pending : List Instr
  deriving DecidableEq, Repr

/-- Reasons to stop with a fault: there is none.  The spec names no condition in which the module as a whole stops taking
commands; a fault of a unit is recorded and answered within the module (R492 to R510), which is a next state. -/
inductive Fault where
  deriving DecidableEq, Repr

/-- Reasons to refuse a command. -/
inductive Refusal where
  /-- The command has no meaning in the model yet.  Raised by an arm of `exec`.  Safe. -/
  | notModelled (mnemonic : String)
  /-- The command names a die, function, port, queue or other object that the module does not have.  Raised by every
  meaning that takes operands.  Safe. -/
  | noSuchObject
  deriving DecidableEq, Repr

/-- What a command answers. -/
abbrev Result := Host.Outcome State Fault Refusal

/-- The module held in module reset, with no command waiting. -/
def State.reset : State := { m := Mod.reset, fuse := Fuse.reset, pending := [] }

end Sys2Proof.Machine
end

