-- ==== Sys2Proof/Machine/Ops.lean ====
section
/-! DEFINITION. The named operations over the state's tables and registers: sparse tables, byte
strings, register fields (R5 to R14) and the module's output record. -/
namespace Sys2Proof.Machine

/-! ## Sparse tables -/

/-- The value listed under `k`. -/
def NMap.find {α : Type} : NMap α → Nat → Option α
  | [], _ => none
  | (j, v) :: m, k => if j = k then some v else NMap.find m k

/-- The value under `k`, `d` where none is listed. -/
def NMap.get {α : Type} (d : α) (m : NMap α) (k : Nat) : α := (NMap.find m k).getD d

/-- Without the entry of `k`. -/
def NMap.del {α : Type} : NMap α → Nat → NMap α
  | [], _ => []
  | (j, v) :: m, k => if j = k then NMap.del m k else (j, v) :: NMap.del m k

/-- With `v` under `k`, numbers kept rising. -/
def NMap.put {α : Type} : NMap α → Nat → α → NMap α
  | [], k, v => [(k, v)]
  | (j, w) :: m, k, v =>
    if k < j then (k, v) :: (j, w) :: m
    else if j = k then (k, v) :: m
    else (j, w) :: NMap.put m k v

/-- With `v` under `k`; writing the default removes the entry. -/
def NMap.set {α : Type} [DecidableEq α] (d : α) (m : NMap α) (k : Nat) (v : α) : NMap α :=
  if v = d then NMap.del m k else NMap.put m k v

/-- Put or remove an optional entry. -/
def NMap.upd {α : Type} (m : NMap α) (k : Nat) : Option α → NMap α
  | none => NMap.del m k
  | some v => NMap.put m k v

/-- Numbers strictly rising: the canonical order of a table. -/
def NMap.sorted {α : Type} : NMap α → Bool
  | [] => true
  | [_] => true
  | (j, _) :: (k, w) :: m => decide (j < k) && NMap.sorted ((k, w) :: m)

/-- The canonical form: numbers strictly rising and no entry equal to the default. -/
def NMap.wf {α : Type} [DecidableEq α] (d : α) (m : NMap α) : Bool :=
  NMap.sorted m && m.all (fun e => decide (e.2 ≠ d))

/-- The entries whose numbers satisfy `p`. -/
def NMap.keep {α : Type} (p : Nat → Bool) (m : NMap α) : NMap α := m.filter (fun e => p e.1)

/-- The numbers listed. -/
def NMap.keys {α : Type} (m : NMap α) : List Nat := m.map Prod.fst

/-! ## Bits and bytes -/

/-- Bits `lo` to `lo + w - 1` of a number. -/
def bits (v lo w : Nat) : Nat := (v >>> lo) % 2 ^ w

/-- Bit `n` of a number. -/
def bit (v n : Nat) : Bool := (v >>> n) % 2 == 1

/-- 1 or 0. -/
def b2n (b : Bool) : Nat := if b then 1 else 0

/-- A number with bits `lo` to `lo + w - 1` replaced. -/
def setBits (v lo w x : Nat) : Nat :=
  (v >>> (lo + w)) <<< (lo + w) + (x % 2 ^ w) <<< lo + v % 2 ^ lo

/-- A mask with bit `n` set or cleared. -/
def setBit (v n : Nat) (b : Bool) : Nat := setBits v n 1 (b2n b)

/-- The number of bits set among the lowest `n`. -/
def popcount : Nat → Nat → Nat
  | 0, _ => 0
  | n + 1, v => popcount n v + b2n (bit v n)

/-- The numbers of the bits set among the lowest `n`, ascending. -/
def bitList (n v : Nat) : List Nat := (List.range n).filter (bit v)

/-- Saturating sum at a width. -/
def satAdd (w a b : Nat) : Nat := min (2 ^ w - 1) (a + b)

/-- A w-bit two's-complement number as an integer. -/
def toInt (w v : Nat) : Int := if v % 2 ^ w < 2 ^ (w - 1) then (v % 2 ^ w : Nat) else (v % 2 ^ w : Nat) - (2 ^ w : Nat)

/-- An integer as a w-bit two's-complement number. -/
def ofInt (w : Nat) (i : Int) : Nat := (i % (2 ^ w : Nat)).toNat

/-- A signed value saturated to a w-bit two's-complement number. -/
def ofIntSat (w : Nat) (i : Int) : Nat :=
  ofInt w (max (-(2 ^ (w - 1) : Nat)) (min ((2 ^ (w - 1) : Nat) - 1) i))

/-- The byte of a number. -/
def toByte (v : Nat) : Byte := BitVec.ofNat 8 v

/-- Little-endian bytes of a number (R5). -/
def leBytes : Nat → Nat → Bytes
  | 0, _ => []
  | n + 1, v => toByte v :: leBytes n (v / 256)

/-- The number that little-endian bytes hold (R5). -/
def leNat : Bytes → Nat
  | [] => 0
  | b :: bs => b.toNat + 256 * leNat bs

/-- `n` bytes at offset `o`; bytes past the end read zero. -/
def sub (bs : Bytes) (o n : Nat) : Bytes :=
  let r := (bs.drop o).take n
  r ++ List.replicate (n - r.length) 0#8

/-- The little-endian number in `n` bytes at offset `o`. -/
def rdLE (bs : Bytes) (o n : Nat) : Nat := leNat (sub bs o n)

/-- `n` zero bytes. -/
def zeros (n : Nat) : Bytes := List.replicate n 0#8

/-- A byte string cut or padded with zeros to `n` bytes. -/
def padTo (n : Nat) (bs : Bytes) : Bytes := sub bs 0 n

/-- A byte string with the bytes at offset `o` replaced. -/
def wrAt (bs : Bytes) (o : Nat) (x : Bytes) : Bytes :=
  bs.take o ++ x ++ bs.drop (o + x.length)

/-- Whether every byte of a range is zero. -/
def zeroAt (bs : Bytes) (o n : Nat) : Bool := (sub bs o n).all (· == 0#8)

/-- What the host answers to one bus read of `n` bytes; none: UR, CA or timeout (R55). -/
def hostRead : HostAns → Nat → Nat → Option Bytes
  | [], _, _ => none
  | (a, bs) :: r, addr, n =>
    if a ≤ addr ∧ addr + n ≤ a + bs.length then some ((bs.drop (addr - a)).take n) else hostRead r addr n

/-! ## Register fields -/

/-- The key of element `i` of a field on die `d` (4: the Shepherd). -/
def Fld.key (F : Fld) (d i : Nat) : Nat := ((F.reg * 64 + F.lo) * 8 + d) * 2 ^ 24 + i

/-- Reset value of element `i`. -/
def Fld.reset (F : Fld) (i : Nat) : Nat := if i = 0 then F.rst0 else F.rst

/-- The value a read of the field returns: last written, set by hardware, or reset (R9, R11). -/
def rd (F : Fld) (d i : Nat) (m : Mod) : Nat :=
  NMap.get (F.reset i) m.regs (F.key d i)

/-- Store a field's value at its width. -/
def wr (F : Fld) (d i v : Nat) (m : Mod) : Mod :=
  { m with regs := NMap.set (F.reset i) m.regs (F.key d i) (v % 2 ^ F.w) }

/-- The value IN FORCE: while a LIVE write waits for its cycle boundary, the value before it (R11). -/
def cur (F : Fld) (d i : Nat) (m : Mod) : Nat :=
  (NMap.find m.live (F.key d i)).getD (rd F d i m)

/-- A one-bit field in force. -/
def curB (F : Fld) (d i : Nat) (m : Mod) : Bool := cur F d i m == 1

/-- A one-bit field. -/
def rdB (F : Fld) (d i : Nat) (m : Mod) : Bool := rd F d i m == 1

/-- Store a one-bit field. -/
def wrB (F : Fld) (d i : Nat) (b : Bool) (m : Mod) : Mod := wr F d i (b2n b) m

/-- Store a field and put it in force at once. -/
def force (F : Fld) (d i v : Nat) (m : Mod) : Mod :=
  { wr F d i v m with live := NMap.del m.live (F.key d i) }

/-- Add to a saturating counter field. -/
def bumpBy (F : Fld) (d i n : Nat) (m : Mod) : Mod := wr F d i (satAdd F.w (rd F d i m) n) m

/-- Add one to a saturating counter field. -/
def bump (F : Fld) (d i : Nat) (m : Mod) : Mod := bumpBy F d i 1 m

/-- Add one to a wrapping field. -/
def bumpWrap (F : Fld) (d i : Nat) (m : Mod) : Mod := wr F d i (rd F d i m + 1) m

/-- The register, die and element that a key names. -/
def keyReg (k : Nat) : Nat := k / 2 ^ 24 / 8 / 64
def keyLo (k : Nat) : Nat := k / 2 ^ 24 / 8 % 64
def keyDie (k : Nat) : Nat := k / 2 ^ 24 % 8
def keyIdx (k : Nat) : Nat := k % 2 ^ 24

/-- Return every field element that `p register die element` names to its reset value. -/
def clearRegs (p : Nat → Nat → Nat → Bool) (m : Mod) : Mod :=
  { m with regs := NMap.keep (fun k => !p (keyReg k) (keyDie k) (keyIdx k)) m.regs
           live := NMap.keep (fun k => !p (keyReg k) (keyDie k) (keyIdx k)) m.live }

/-! ## Output record -/

/-- Record what leaves the module (newest first). -/
def emit (o : Out) (m : Mod) : Mod := { m with out := o :: m.out }

/-- Something is left to other units, to be done before the running command ends. -/
def later (t : Todo) (m : Mod) : Mod := { m with todo := m.todo ++ [t] }

/-- Do `f` for each number of a list. -/
def each (l : List Nat) (f : Nat → Mod → Mod) (m : Mod) : Mod := l.foldl (fun m i => f i m) m

/-- Do `f` when `c` holds. -/
def when (c : Bool) (f : Mod → Mod) (m : Mod) : Mod := if c then f m else m

/-- The four worker dies. -/
def dies : List Nat := [0, 1, 2, 3]

end Sys2Proof.Machine
end

