-- ==== Sys2Proof/Machine/RegMap.lean ====
section
/-! DEFINITION. The BAR0 register map of a worker die, field by field, written out from the register
tables of spec/01 to spec/21 (R39, R65, R92, R116, R144, R178, R210, R237, R268, R302, R326, R342, R364,
R391, R422, R447, R448, R466, R490, R518, R519, R536, R551, R552).  One constant per field
(register, field) and one row of `regTable` per register.  A reserved bit has no field (R6). -/
namespace Sys2Proof.Machine
namespace F

/-! GEN_ID: 01_module_architecture -/
def GEN_ID_FAMILY : Fld := ⟨0x0, 16, 16, .RO, .STATIC, 9, 9⟩
def GEN_ID_STEPPING : Fld := ⟨0x0, 8, 8, .RO, .STATIC, 1, 1⟩
def GEN_ID_HERE_DIE : Fld := ⟨0x0, 4, 2, .RO, .STATIC, 0, 0⟩
/-! GEN_CONFIG: 01_module_architecture -/
def GEN_CONFIG_ORDER : Fld := ⟨0x8, 16, 8, .RO, .STATIC, 0, 0⟩
def GEN_CONFIG_FUSED_MASK : Fld := ⟨0x8, 4, 4, .RO, .STATIC, 0, 0⟩
def GEN_CONFIG_USABLE_MASK : Fld := ⟨0x8, 0, 4, .RO, .STATIC, 0, 0⟩
/-! GEN_DIE_STATE: 01_module_architecture -/
def GEN_DIE_STATE_DIE0 : Fld := ⟨0x10, 0, 4, .RO, .STATIC, 0, 0⟩
def GEN_DIE_STATE_DIE1 : Fld := ⟨0x10, 4, 4, .RO, .STATIC, 0, 0⟩
def GEN_DIE_STATE_DIE2 : Fld := ⟨0x10, 8, 4, .RO, .STATIC, 0, 0⟩
def GEN_DIE_STATE_DIE3 : Fld := ⟨0x10, 12, 4, .RO, .STATIC, 0, 0⟩
/-! GEN_QUAD_MASK: 01_module_architecture -/
def GEN_QUAD_MASK_USABLE : Fld := ⟨0x18, 0, 64, .RO, .STATIC, 0, 0⟩
/-! GEN_D2D_STATUS: 01_module_architecture -/
def GEN_D2D_STATUS_PAIR_UP : Fld := ⟨0x20, 4, 6, .RO, .STATIC, 0, 0⟩
def GEN_D2D_STATUS_SHEP_UP : Fld := ⟨0x20, 0, 4, .RO, .STATIC, 0, 0⟩
/-! GEN_STATUS: 01_module_architecture -/
def GEN_STATUS_WRITE_REFUSED : Fld := ⟨0x28, 31, 1, .W1C, .STATIC, 0, 0⟩
def GEN_STATUS_DEGRADED : Fld := ⟨0x28, 16, 1, .RO, .STATIC, 0, 0⟩
def GEN_STATUS_CONFIG_SEQ : Fld := ⟨0x28, 0, 16, .RO, .STATIC, 0, 0⟩
/-! GEN_BUF_PART: 01_module_architecture -/
def GEN_BUF_PART_TRANSPORT_MIB : Fld := ⟨0x30, 16, 8, .RO, .STATIC, 12, 12⟩
def GEN_BUF_PART_DROVER_MIB : Fld := ⟨0x30, 8, 8, .RO, .STATIC, 4, 4⟩
/-! GEN_MACRO_STATUS: 01_module_architecture -/
def GEN_MACRO_STATUS_MACROS_TOTAL : Fld := ⟨0x38, 16, 16, .RO, .STATIC, 1920, 1920⟩
def GEN_MACRO_STATUS_MACROS_UNUSABLE : Fld := ⟨0x38, 0, 16, .RO, .STATIC, 0, 0⟩
/-! HIF_CTRL: 02_host_endpoint -/
def HIF_CTRL_HOST_ATOMICS : Fld := ⟨0x100000, 1, 1, .RW, .LIVE, 0, 0⟩
def HIF_CTRL_ENABLE : Fld := ⟨0x100000, 0, 1, .RO, .STATIC, 0, 0⟩
/-! HIF_STATUS: 02_host_endpoint -/
def HIF_STATUS_WRITE_REFUSED : Fld := ⟨0x100008, 31, 1, .W1C, .STATIC, 0, 0⟩
def HIF_STATUS_BIFURCATED : Fld := ⟨0x100008, 1, 1, .RO, .STATIC, 0, 0⟩
def HIF_STATUS_LINK_UP : Fld := ⟨0x100008, 0, 1, .RO, .STATIC, 0, 0⟩
/-! HIF_LINK_STATUS: 02_host_endpoint -/
def HIF_LINK_STATUS_L0P : Fld := ⟨0x100010, 11, 1, .RO, .STATIC, 0, 0⟩
def HIF_LINK_STATUS_WIDTH : Fld := ⟨0x100010, 4, 7, .RO, .STATIC, 0, 0⟩
def HIF_LINK_STATUS_SPEED : Fld := ⟨0x100010, 0, 4, .RO, .STATIC, 0, 0⟩
/-! HIF_TAG_STATUS: 02_host_endpoint -/
def HIF_TAG_STATUS_QUARANTINED : Fld := ⟨0x100018, 32, 10, .RO, .STATIC, 0, 0⟩
def HIF_TAG_STATUS_INBOUND_IN_USE : Fld := ⟨0x100018, 16, 7, .RO, .STATIC, 0, 0⟩
def HIF_TAG_STATUS_GENERAL_IN_USE : Fld := ⟨0x100018, 0, 10, .RO, .STATIC, 0, 0⟩
/-! HIF_ACC_ERR: 02_host_endpoint -/
def HIF_ACC_ERR_UNDECODED : Fld := ⟨0x100020, 16, 16, .RC, .STATIC, 0, 0⟩
def HIF_ACC_ERR_BAD_SIZE : Fld := ⟨0x100020, 0, 16, .RC, .STATIC, 0, 0⟩
/-! HIF_CPL_ERR: 02_host_endpoint -/
def HIF_CPL_ERR_LATE_QUARANTINED : Fld := ⟨0x100024, 16, 16, .RC, .STATIC, 0, 0⟩
def HIF_CPL_ERR_UNEXPECTED : Fld := ⟨0x100024, 0, 16, .RC, .STATIC, 0, 0⟩
/-! HIF_CPL_TIMEOUT: 02_host_endpoint -/
def HIF_CPL_TIMEOUT_TIMEOUT_US : Fld := ⟨0x100028, 0, 32, .RO, .STATIC, 50000, 50000⟩
/-! HIF_VF_PAGES: 02_host_endpoint -/
def HIF_VF_PAGES_PAGES : Fld := ⟨0x100030, 0, 7, .RW, .GUARDED, 16, 16⟩
/-! HIF_FN: 02_host_endpoint -/
def HIF_FN_TAGS_IN_USE : Fld := ⟨0x101000, 32, 10, .RO, .STATIC, 0, 0⟩
def HIF_FN_STATE : Fld := ⟨0x101000, 24, 4, .RO, .STATIC, 0, 0⟩
def HIF_FN_TAG_LIMIT : Fld := ⟨0x101000, 0, 10, .RW, .LIVE, 16, 768⟩
/-! AZX_CTRL: 03_shepherd_and_azrix -/
def AZX_CTRL_RSP_LOG2 : Fld := ⟨0x200000, 16, 4, .RW, .GUARDED, 4, 4⟩
def AZX_CTRL_CMD_LOG2 : Fld := ⟨0x200000, 8, 4, .RW, .GUARDED, 4, 4⟩
def AZX_CTRL_ENABLE : Fld := ⟨0x200000, 0, 1, .RW, .LIVE, 0, 0⟩
/-! AZX_STATUS: 03_shepherd_and_azrix -/
def AZX_STATUS_WRITE_REFUSED : Fld := ⟨0x200008, 31, 1, .W1C, .STATIC, 0, 0⟩
def AZX_STATUS_RING_ERR : Fld := ⟨0x200008, 1, 1, .W1C, .STATIC, 0, 0⟩
def AZX_STATUS_STALLED : Fld := ⟨0x200008, 0, 1, .RO, .STATIC, 0, 0⟩
/-! AZX_CMD_BASE: 03_shepherd_and_azrix -/
def AZX_CMD_BASE_ADDR : Fld := ⟨0x200010, 6, 58, .RW, .GUARDED, 0, 0⟩
/-! AZX_RSP_BASE: 03_shepherd_and_azrix -/
def AZX_RSP_BASE_ADDR : Fld := ⟨0x200018, 5, 59, .RW, .GUARDED, 0, 0⟩
/-! AZX_CMD_TAIL: 03_shepherd_and_azrix -/
def AZX_CMD_TAIL_INDEX : Fld := ⟨0x200020, 0, 12, .RW, .LIVE, 0, 0⟩
/-! AZX_CMD_HEAD: 03_shepherd_and_azrix -/
def AZX_CMD_HEAD_INDEX : Fld := ⟨0x200024, 0, 12, .RO, .LIVE, 0, 0⟩
/-! AZX_RSP_TAIL: 03_shepherd_and_azrix -/
def AZX_RSP_TAIL_INDEX : Fld := ⟨0x200028, 0, 12, .RO, .LIVE, 0, 0⟩
/-! AZX_RSP_HEAD: 03_shepherd_and_azrix -/
def AZX_RSP_HEAD_INDEX : Fld := ⟨0x20002C, 0, 12, .RW, .LIVE, 0, 0⟩
/-! ETL_STATUS: 04_eteel_time -/
def ETL_STATUS_WRITE_REFUSED : Fld := ⟨0x300000, 31, 1, .W1C, .STATIC, 0, 0⟩
def ETL_STATUS_SOURCE_PORT : Fld := ⟨0x300000, 16, 8, .RO, .STATIC, 255, 255⟩
def ETL_STATUS_HOPS : Fld := ⟨0x300000, 12, 4, .RO, .STATIC, 15, 15⟩
def ETL_STATUS_TIME_STATE : Fld := ⟨0x300000, 8, 3, .RO, .STATIC, 0, 0⟩
def ETL_STATUS_PPS_LOCKED : Fld := ⟨0x300000, 3, 1, .RO, .STATIC, 0, 0⟩
def ETL_STATUS_STANDBY_GM : Fld := ⟨0x300000, 2, 1, .RO, .STATIC, 0, 0⟩
def ETL_STATUS_GM_DESIGNATED : Fld := ⟨0x300000, 1, 1, .RO, .STATIC, 0, 0⟩
def ETL_STATUS_TIMED_OK : Fld := ⟨0x300000, 0, 1, .RO, .STATIC, 0, 0⟩
/-! ETL_NOW_NS: 04_eteel_time -/
def ETL_NOW_NS_NS : Fld := ⟨0x300008, 0, 64, .RO, .STATIC, 0, 0⟩
/-! ETL_NOW_FRAC: 04_eteel_time -/
def ETL_NOW_FRAC_FRAC : Fld := ⟨0x300010, 0, 16, .RO, .STATIC, 0, 0⟩
/-! ETL_ERROR: 04_eteel_time -/
def ETL_ERROR_E_D : Fld := ⟨0x300014, 0, 32, .RO, .STATIC, 4294967295, 4294967295⟩
/-! ETL_RATE_TRIM: 04_eteel_time -/
def ETL_RATE_TRIM_TRIM : Fld := ⟨0x300018, 0, 32, .RO, .STATIC, 0, 0⟩
/-! ETL_DIE_OFFSET: 04_eteel_time -/
def ETL_DIE_OFFSET_OFFSET : Fld := ⟨0x30001C, 0, 32, .RO, .STATIC, 0, 0⟩
/-! ETL_GM: 04_eteel_time -/
def ETL_GM_EPOCH : Fld := ⟨0x300020, 32, 16, .RO, .STATIC, 0, 0⟩
def ETL_GM_GM_ID : Fld := ⟨0x300020, 0, 20, .RO, .STATIC, 1048575, 1048575⟩
/-! ETL_TOD_FRAME: 04_eteel_time -/
def ETL_TOD_FRAME_FRAME : Fld := ⟨0x300028, 0, 44, .RO, .STATIC, 0, 0⟩
/-! ETL_TOD_VALUE: 04_eteel_time -/
def ETL_TOD_VALUE_SECONDS : Fld := ⟨0x300030, 30, 34, .RO, .STATIC, 0, 0⟩
def ETL_TOD_VALUE_NANOS : Fld := ⟨0x300030, 0, 30, .RO, .STATIC, 0, 0⟩
/-! ETL_MSG_ERR: 04_eteel_time -/
def ETL_MSG_ERR_PPS_GLITCH : Fld := ⟨0x300038, 16, 16, .RC, .STATIC, 0, 0⟩
def ETL_MSG_ERR_CRC_ERR : Fld := ⟨0x300038, 0, 16, .RC, .STATIC, 0, 0⟩
/-! ETL_PORT_ASYM: 04_eteel_time -/
def ETL_PORT_ASYM_ASYM : Fld := ⟨0x301000, 0, 32, .RW, .LIVE, 0, 0⟩
/-! ETL_PORT_MEAS: 04_eteel_time -/
def ETL_PORT_MEAS_VALID : Fld := ⟨0x301008, 63, 1, .RO, .STATIC, 0, 0⟩
def ETL_PORT_MEAS_SOURCE : Fld := ⟨0x301008, 62, 1, .RO, .STATIC, 0, 0⟩
def ETL_PORT_MEAS_OFFSET : Fld := ⟨0x301008, 40, 16, .RO, .STATIC, 0, 0⟩
def ETL_PORT_MEAS_LB_ERR : Fld := ⟨0x301008, 24, 16, .RO, .STATIC, 0, 0⟩
def ETL_PORT_MEAS_DELAY : Fld := ⟨0x301008, 0, 24, .RO, .STATIC, 0, 0⟩
/-! ETL_ALARM_CMP: 04_eteel_time -/
def ETL_ALARM_CMP_CMP : Fld := ⟨0x302000, 0, 64, .RW, .LIVE, 0, 0⟩
/-! ETL_ALARM_CTL: 04_eteel_time -/
def ETL_ALARM_CTL_PERIOD : Fld := ⟨0x302008, 32, 32, .RW, .LIVE, 0, 0⟩
def ETL_ALARM_CTL_OVERRUN : Fld := ⟨0x302008, 16, 16, .RC, .STATIC, 0, 0⟩
def ETL_ALARM_CTL_FIRED : Fld := ⟨0x302008, 1, 1, .W1C, .STATIC, 0, 0⟩
def ETL_ALARM_CTL_ARM : Fld := ⟨0x302008, 0, 1, .RW, .LIVE, 0, 0⟩
/-! LNE_QCTRL: 05_lanes_and_line_code -/
def LNE_QCTRL_TX_SWING : Fld := ⟨0x400000, 10, 2, .RW, .LIVE, 1, 1⟩
def LNE_QCTRL_COMPAT : Fld := ⟨0x400000, 9, 1, .RW, .GUARDED, 0, 0⟩
def LNE_QCTRL_SPLIT : Fld := ⟨0x400000, 8, 1, .RW, .GUARDED, 0, 0⟩
def LNE_QCTRL_ENABLE : Fld := ⟨0x400000, 0, 1, .RW, .LIVE, 0, 0⟩
/-! LNE_QSTATUS: 05_lanes_and_line_code -/
def LNE_QSTATUS_WRITE_REFUSED : Fld := ⟨0x400008, 31, 1, .W1C, .STATIC, 0, 0⟩
def LNE_QSTATUS_GOOD_LANES : Fld := ⟨0x400008, 4, 4, .RO, .STATIC, 0, 0⟩
def LNE_QSTATUS_POL_INV : Fld := ⟨0x400008, 0, 4, .RO, .STATIC, 0, 0⟩
/-! LNE_PORT_CTRL: 05_lanes_and_line_code -/
def LNE_PORT_CTRL_UNC_LIMIT : Fld := ⟨0x400010, 24, 8, .RW, .LIVE, 16, 16⟩
def LNE_PORT_CTRL_RETRAIN : Fld := ⟨0x400010, 16, 1, .W1S, .LIVE, 0, 0⟩
def LNE_PORT_CTRL_REQ_WIDTH : Fld := ⟨0x400010, 0, 2, .RW, .LIVE, 0, 0⟩
/-! LNE_PORT_STATUS: 05_lanes_and_line_code -/
def LNE_PORT_STATUS_TX_SET : Fld := ⟨0x400020, 24, 4, .RO, .STATIC, 0, 0⟩
def LNE_PORT_STATUS_RX_SET : Fld := ⟨0x400020, 20, 4, .RO, .STATIC, 0, 0⟩
def LNE_PORT_STATUS_LANES : Fld := ⟨0x400020, 16, 4, .RO, .STATIC, 0, 0⟩
def LNE_PORT_STATUS_WIDTH : Fld := ⟨0x400020, 12, 2, .RO, .STATIC, 0, 0⟩
def LNE_PORT_STATUS_LAST_INITIATOR : Fld := ⟨0x400020, 11, 1, .RO, .STATIC, 0, 0⟩
def LNE_PORT_STATUS_COMPAT : Fld := ⟨0x400020, 10, 1, .RO, .STATIC, 0, 0⟩
def LNE_PORT_STATUS_STATE : Fld := ⟨0x400020, 0, 4, .RO, .STATIC, 0, 0⟩
/-! LNE_PORT_CNT: 05_lanes_and_line_code -/
def LNE_PORT_CNT_RETRAINS : Fld := ⟨0x400030, 48, 16, .RC, .STATIC, 0, 0⟩
def LNE_PORT_CNT_RESYNCS : Fld := ⟨0x400030, 32, 16, .RC, .STATIC, 0, 0⟩
def LNE_PORT_CNT_TRAIN_FAIL : Fld := ⟨0x400030, 16, 16, .RC, .STATIC, 0, 0⟩
def LNE_PORT_CNT_SIM_START : Fld := ⟨0x400030, 0, 16, .RC, .STATIC, 0, 0⟩
/-! LNE_LANE_CTRL: 05_lanes_and_line_code -/
def LNE_LANE_CTRL_PEAK_FIXED : Fld := ⟨0x400100, 12, 1, .RW, .GUARDED, 0, 0⟩
def LNE_LANE_CTRL_PEAK_SET : Fld := ⟨0x400100, 8, 4, .RW, .GUARDED, 6, 6⟩
/-! LNE_LANE_STATUS: 05_lanes_and_line_code -/
def LNE_LANE_STATUS_EYE_MARGIN : Fld := ⟨0x400108, 24, 8, .RO, .STATIC, 0, 0⟩
def LNE_LANE_STATUS_PEAK : Fld := ⟨0x400108, 20, 4, .RO, .STATIC, 0, 0⟩
def LNE_LANE_STATUS_TX_STATE : Fld := ⟨0x400108, 16, 2, .RO, .STATIC, 3, 3⟩
def LNE_LANE_STATUS_RX_STATE : Fld := ⟨0x400108, 12, 2, .RO, .STATIC, 3, 3⟩
def LNE_LANE_STATUS_ALIGNED : Fld := ⟨0x400108, 8, 1, .RO, .STATIC, 0, 0⟩
/-! LNE_LANE_CNT: 05_lanes_and_line_code -/
def LNE_LANE_CNT_CORR_SYM : Fld := ⟨0x400110, 32, 32, .RC, .STATIC, 0, 0⟩
def LNE_LANE_CNT_UNC_BLK : Fld := ⟨0x400110, 16, 16, .RC, .STATIC, 0, 0⟩
def LNE_LANE_CNT_STUFF_ERR : Fld := ⟨0x400110, 8, 8, .RC, .STATIC, 0, 0⟩
def LNE_LANE_CNT_SYNC_LOSS : Fld := ⟨0x400110, 0, 8, .RC, .STATIC, 0, 0⟩
/-! LNE_LANE_STUFFED: 05_lanes_and_line_code -/
def LNE_LANE_STUFFED_STUFFED : Fld := ⟨0x400118, 0, 32, .RC, .STATIC, 0, 0⟩
/-! LNK_PORT_CTRL: 06_link_layer -/
def LNK_PORT_CTRL_REPLAY_LIMIT : Fld := ⟨0x500000, 28, 4, .RW, .LIVE, 8, 8⟩
def LNK_PORT_CTRL_REPLAY_TO : Fld := ⟨0x500000, 16, 8, .RW, .LIVE, 32, 32⟩
def LNK_PORT_CTRL_FLUSH : Fld := ⟨0x500000, 1, 1, .W1S, .LIVE, 0, 0⟩
def LNK_PORT_CTRL_ENABLE : Fld := ⟨0x500000, 0, 1, .RW, .LIVE, 0, 0⟩
/-! LNK_PORT_STATUS: 06_link_layer -/
def LNK_PORT_STATUS_WRITE_REFUSED : Fld := ⟨0x500008, 31, 1, .W1C, .STATIC, 0, 0⟩
def LNK_PORT_STATUS_FLUSH_IGNORED : Fld := ⟨0x500008, 30, 1, .W1C, .STATIC, 0, 0⟩
def LNK_PORT_STATUS_CREDIT_DEFAULTED : Fld := ⟨0x500008, 29, 1, .RO, .STATIC, 0, 0⟩
def LNK_PORT_STATUS_UNACKED : Fld := ⟨0x500008, 16, 11, .RO, .STATIC, 0, 0⟩
def LNK_PORT_STATUS_STUCK : Fld := ⟨0x500008, 4, 1, .RO, .STATIC, 0, 0⟩
def LNK_PORT_STATUS_FRESH : Fld := ⟨0x500008, 3, 1, .RO, .STATIC, 1, 1⟩
def LNK_PORT_STATUS_LINK_STATE : Fld := ⟨0x500008, 0, 3, .RO, .STATIC, 0, 0⟩
/-! LNK_CREDIT: 06_link_layer -/
def LNK_CREDIT_BYP : Fld := ⟨0x500010, 48, 12, .RW, .GUARDED, 0, 0⟩
def LNK_CREDIT_TIM : Fld := ⟨0x500010, 32, 12, .RW, .GUARDED, 0, 0⟩
def LNK_CREDIT_RSP : Fld := ⟨0x500010, 16, 12, .RW, .GUARDED, 0, 0⟩
def LNK_CREDIT_REQ : Fld := ⟨0x500010, 0, 12, .RW, .GUARDED, 0, 0⟩
/-! LNK_PEER: 06_link_layer -/
def LNK_PEER_VALID : Fld := ⟨0x500018, 28, 1, .RO, .STATIC, 0, 0⟩
def LNK_PEER_EID : Fld := ⟨0x500018, 8, 20, .RO, .STATIC, 0, 0⟩
def LNK_PEER_PORT_CODE : Fld := ⟨0x500018, 0, 8, .RO, .STATIC, 0, 0⟩
/-! LNK_CNT0: 06_link_layer -/
def LNK_CNT0_CRC_ERR : Fld := ⟨0x500020, 48, 16, .RC, .STATIC, 0, 0⟩
def LNK_CNT0_OUT_OF_SEQ : Fld := ⟨0x500020, 32, 16, .RC, .STATIC, 0, 0⟩
def LNK_CNT0_NAK_SENT : Fld := ⟨0x500020, 16, 16, .RC, .STATIC, 0, 0⟩
def LNK_CNT0_REPLAYS : Fld := ⟨0x500020, 0, 16, .RC, .STATIC, 0, 0⟩
/-! LNK_CNT1: 06_link_layer -/
def LNK_CNT1_REPLAY_TIMEOUTS : Fld := ⟨0x500028, 48, 16, .RC, .STATIC, 0, 0⟩
def LNK_CNT1_ACK_IGNORED : Fld := ⟨0x500028, 32, 16, .RC, .STATIC, 0, 0⟩
def LNK_CNT1_ABORTS : Fld := ⟨0x500028, 16, 16, .RC, .STATIC, 0, 0⟩
def LNK_CNT1_FRAME_ERR : Fld := ⟨0x500028, 8, 8, .RC, .STATIC, 0, 0⟩
def LNK_CNT1_CREDIT_OVERRUN : Fld := ⟨0x500028, 0, 8, .RC, .STATIC, 0, 0⟩
/-! LNK_CNT2: 06_link_layer -/
def LNK_CNT2_FLUSHED_FLITS : Fld := ⟨0x500030, 32, 32, .RC, .STATIC, 0, 0⟩
def LNK_CNT2_DOWN_DISCARD : Fld := ⟨0x500030, 0, 32, .RC, .STATIC, 0, 0⟩
/-! LNK_D2D_STATUS: 06_link_layer -/
def LNK_D2D_STATUS_FAILED : Fld := ⟨0x504000, 63, 1, .RO, .STATIC, 0, 0⟩
def LNK_D2D_STATUS_FIRST_LANE : Fld := ⟨0x504000, 32, 9, .RO, .STATIC, 0, 0⟩
def LNK_D2D_STATUS_PKTS_DISCARDED : Fld := ⟨0x504000, 0, 32, .RO, .STATIC, 0, 0⟩
/-! RTE_CTRL: 07_source_routing -/
def RTE_CTRL_ENABLE : Fld := ⟨0x600000, 0, 1, .RW, .LIVE, 0, 0⟩
/-! RTE_STATUS: 07_source_routing -/
def RTE_STATUS_WRITE_REFUSED : Fld := ⟨0x600008, 31, 1, .W1C, .STATIC, 0, 0⟩
/-! RTE_CONG_CTRL: 07_source_routing -/
def RTE_CONG_CTRL_MARK : Fld := ⟨0x600010, 16, 4, .RW, .LIVE, 8, 8⟩
def RTE_CONG_CTRL_STEP : Fld := ⟨0x600010, 0, 8, .RW, .LIVE, 16, 16⟩
/-! RTE_INJ_CTRL: 07_source_routing -/
def RTE_INJ_CTRL_RATE : Fld := ⟨0x600018, 48, 4, .RW, .LIVE, 4, 4⟩
def RTE_INJ_CTRL_HARD : Fld := ⟨0x600018, 32, 12, .RW, .LIVE, 1024, 1024⟩
def RTE_INJ_CTRL_SOFT : Fld := ⟨0x600018, 0, 12, .RW, .LIVE, 512, 512⟩
/-! RTE_PATH_CTRL: 07_source_routing -/
def RTE_PATH_CTRL_AGE_US : Fld := ⟨0x600020, 8, 8, .RW, .LIVE, 64, 64⟩
/-! RTE_GEN_PATH: 07_source_routing -/
def RTE_GEN_PATH_GEN : Fld := ⟨0x600028, 0, 32, .RO, .STATIC, 0, 0⟩
/-! RTE_GEN_PASS: 07_source_routing -/
def RTE_GEN_PASS_GEN : Fld := ⟨0x60002C, 0, 32, .RO, .STATIC, 0, 0⟩
/-! RTE_GEN_FLOCK: 07_source_routing -/
def RTE_GEN_FLOCK_GEN : Fld := ⟨0x600030, 0, 32, .RO, .STATIC, 0, 0⟩
/-! RTE_ERR_CNT0: 07_source_routing -/
def RTE_ERR_CNT0_ROUTE_ERR : Fld := ⟨0x600038, 48, 16, .RC, .STATIC, 0, 0⟩
def RTE_ERR_CNT0_BAD_CODE : Fld := ⟨0x600038, 32, 16, .RC, .STATIC, 0, 0⟩
def RTE_ERR_CNT0_BAD_PORT : Fld := ⟨0x600038, 16, 16, .RC, .STATIC, 0, 0⟩
def RTE_ERR_CNT0_DELIVER_ERR : Fld := ⟨0x600038, 0, 16, .RC, .STATIC, 0, 0⟩
/-! RTE_ERR_CNT1: 07_source_routing -/
def RTE_ERR_CNT1_PASS_EMPTY : Fld := ⟨0x600040, 48, 16, .RC, .STATIC, 0, 0⟩
def RTE_ERR_CNT1_TIM_PASS : Fld := ⟨0x600040, 32, 16, .RC, .STATIC, 0, 0⟩
def RTE_ERR_CNT1_FLOCK_MISS : Fld := ⟨0x600040, 16, 16, .RC, .STATIC, 0, 0⟩
def RTE_ERR_CNT1_NOTICE_DROP : Fld := ⟨0x600040, 0, 16, .RC, .STATIC, 0, 0⟩
/-! RTE_PASS_LO: 07_source_routing -/
def RTE_PASS_LO_MEMBERS : Fld := ⟨0x601000, 0, 64, .RO, .STATIC, 0, 0⟩
/-! RTE_PASS_HI: 07_source_routing -/
def RTE_PASS_HI_MEMBERS : Fld := ⟨0x601008, 0, 64, .RO, .STATIC, 0, 0⟩
/-! RTE_PORT_FLITS: 07_source_routing -/
def RTE_PORT_FLITS_FLITS_OUT : Fld := ⟨0x602000, 0, 48, .RO, .STATIC, 0, 0⟩
/-! RTE_PORT_PKTS: 07_source_routing -/
def RTE_PORT_PKTS_PKTS_OUT : Fld := ⟨0x602008, 0, 48, .RO, .STATIC, 0, 0⟩
/-! RTE_PORT_STALL: 07_source_routing -/
def RTE_PORT_STALL_STALL_CYCLES : Fld := ⟨0x602020, 0, 48, .RO, .STATIC, 0, 0⟩
/-! RTE_PORT_DEPTH: 07_source_routing -/
def RTE_PORT_DEPTH_BYP : Fld := ⟨0x602010, 48, 16, .RO, .STATIC, 0, 0⟩
def RTE_PORT_DEPTH_TIM : Fld := ⟨0x602010, 32, 16, .RO, .STATIC, 0, 0⟩
def RTE_PORT_DEPTH_RSP : Fld := ⟨0x602010, 16, 16, .RO, .STATIC, 0, 0⟩
def RTE_PORT_DEPTH_REQ : Fld := ⟨0x602010, 0, 16, .RO, .STATIC, 0, 0⟩
/-! RTE_PORT_PEAK: 07_source_routing -/
def RTE_PORT_PEAK_BYP : Fld := ⟨0x602018, 48, 16, .RC, .STATIC, 0, 0⟩
def RTE_PORT_PEAK_TIM : Fld := ⟨0x602018, 32, 16, .RC, .STATIC, 0, 0⟩
def RTE_PORT_PEAK_RSP : Fld := ⟨0x602018, 16, 16, .RC, .STATIC, 0, 0⟩
def RTE_PORT_PEAK_REQ : Fld := ⟨0x602018, 0, 16, .RC, .STATIC, 0, 0⟩
/-! RTE_PORT_SKIP: 07_source_routing -/
def RTE_PORT_SKIP_FLOCK_SKIPS : Fld := ⟨0x602028, 16, 16, .RC, .STATIC, 0, 0⟩
def RTE_PORT_SKIP_PASS_CHOSEN : Fld := ⟨0x602028, 0, 16, .RC, .STATIC, 0, 0⟩
/-! CAL_CTRL: 08_delivery_contract -/
def CAL_CTRL_ENABLE : Fld := ⟨0x800000, 0, 1, .RO, .STATIC, 0, 0⟩
/-! CAL_STATUS: 08_delivery_contract -/
def CAL_STATUS_WRITE_REFUSED : Fld := ⟨0x800008, 31, 1, .W1C, .STATIC, 0, 0⟩
def CAL_STATUS_SWITCH_PENDING : Fld := ⟨0x800008, 0, 1, .RO, .STATIC, 0, 0⟩
/-! CAL_GEN: 08_delivery_contract -/
def CAL_GEN_SHADOW_GEN : Fld := ⟨0x800010, 32, 32, .RO, .STATIC, 0, 0⟩
def CAL_GEN_ACTIVE_GEN : Fld := ⟨0x800010, 0, 32, .RO, .STATIC, 0, 0⟩
/-! CAL_GEN_RES: 08_delivery_contract -/
def CAL_GEN_RES_GEN : Fld := ⟨0x800018, 0, 32, .RO, .STATIC, 0, 0⟩
/-! CAL_SWITCH: 08_delivery_contract -/
def CAL_SWITCH_VALID : Fld := ⟨0x800020, 63, 1, .RO, .STATIC, 0, 0⟩
def CAL_SWITCH_FRAME : Fld := ⟨0x800020, 0, 44, .RO, .STATIC, 0, 0⟩
/-! CAL_ADMIT_CNT: 08_delivery_contract -/
def CAL_ADMIT_CNT_ACCEPTED : Fld := ⟨0x800028, 32, 32, .RC, .STATIC, 0, 0⟩
def CAL_ADMIT_CNT_REFUSED : Fld := ⟨0x800028, 0, 32, .RC, .STATIC, 0, 0⟩
/-! CAL_DEST_CNT: 08_delivery_contract -/
def CAL_DEST_CNT_ON_TIME : Fld := ⟨0x800030, 32, 32, .RC, .STATIC, 0, 0⟩
def CAL_DEST_CNT_LATE_DROPS : Fld := ⟨0x800030, 0, 32, .RC, .STATIC, 0, 0⟩
/-! CAL_RES_SEL: 08_delivery_contract -/
def CAL_RES_SEL_RES : Fld := ⟨0x800040, 0, 14, .RW, .LIVE, 0, 0⟩
/-! CAL_RES_VIEW0: 08_delivery_contract -/
def CAL_RES_VIEW0_POSTS : Fld := ⟨0x800048, 4, 7, .RO, .STATIC, 0, 0⟩
def CAL_RES_VIEW0_ROLE : Fld := ⟨0x800048, 0, 4, .RO, .STATIC, 0, 0⟩
/-! CAL_RES_VIEW1: 08_delivery_contract -/
def CAL_RES_VIEW1_LAST_RELEASE : Fld := ⟨0x800050, 0, 64, .RO, .STATIC, 0, 0⟩
/-! CAL_RES_VIEW2: 08_delivery_contract -/
def CAL_RES_VIEW2_TOK_LAST : Fld := ⟨0x800058, 0, 37, .RO, .STATIC, 0, 0⟩
/-! CAL_PORT_CTRL: 08_delivery_contract -/
def CAL_PORT_CTRL_REPLAY_ALLOW : Fld := ⟨0x801000, 0, 4, .RW, .LIVE, 1, 1⟩
/-! CAL_PORT_STATE: 08_delivery_contract -/
def CAL_PORT_STATE_CAP_SHADOW : Fld := ⟨0x801008, 24, 8, .RO, .STATIC, 0, 0⟩
def CAL_PORT_STATE_CAP_ACTIVE : Fld := ⟨0x801008, 16, 8, .RO, .STATIC, 0, 0⟩
def CAL_PORT_STATE_OWNED : Fld := ⟨0x801008, 0, 13, .RO, .STATIC, 0, 0⟩
/-! CAL_PORT_CNT: 08_delivery_contract -/
def CAL_PORT_CNT_NO_SLOT : Fld := ⟨0x801010, 48, 16, .RC, .STATIC, 0, 0⟩
def CAL_PORT_CNT_SWITCH_DISCARD : Fld := ⟨0x801010, 32, 16, .RC, .STATIC, 0, 0⟩
def CAL_PORT_CNT_REPLAY_EXCESS : Fld := ⟨0x801010, 16, 16, .RC, .STATIC, 0, 0⟩
/-! CAL_SLOT: 08_delivery_contract -/
def CAL_SLOT_SLOT_ODD : Fld := ⟨0x880000, 16, 16, .RO, .STATIC, 0, 0⟩
def CAL_SLOT_SLOT_EVEN : Fld := ⟨0x880000, 0, 16, .RO, .STATIC, 0, 0⟩
/-! CND_CTRL: 09_conduits_and_transport -/
def CND_CTRL_ENABLE : Fld := ⟨0x900000, 0, 1, .RO, .STATIC, 0, 0⟩
/-! CND_STATUS: 09_conduits_and_transport -/
def CND_STATUS_WRITE_REFUSED : Fld := ⟨0x900008, 31, 1, .W1C, .STATIC, 0, 0⟩
def CND_STATUS_RANGE_CONFLICT : Fld := ⟨0x900008, 1, 1, .W1C, .STATIC, 0, 0⟩
def CND_STATUS_PEN_FULL : Fld := ⟨0x900008, 0, 1, .RO, .STATIC, 0, 0⟩
/-! CND_TIMING: 09_conduits_and_transport -/
def CND_TIMING_TRK_IDLE_US : Fld := ⟨0x900010, 48, 16, .RW, .LIVE, 1000, 1000⟩
def CND_TIMING_NR_BACKOFF_NS : Fld := ⟨0x900010, 32, 16, .RW, .LIVE, 2000, 2000⟩
def CND_TIMING_SPRAY_MIN_KIB : Fld := ⟨0x900010, 16, 16, .RW, .LIVE, 64, 64⟩
/-! CND_PEN: 09_conduits_and_transport -/
def CND_PEN_PKTS : Fld := ⟨0x900018, 32, 15, .RO, .STATIC, 0, 0⟩
def CND_PEN_BYTES : Fld := ⟨0x900018, 0, 24, .RO, .STATIC, 0, 0⟩
/-! CND_CACHE: 09_conduits_and_transport -/
def CND_CACHE_PINNED : Fld := ⟨0x900020, 32, 13, .RO, .STATIC, 0, 0⟩
def CND_CACHE_RESIDENT : Fld := ⟨0x900020, 0, 17, .RO, .STATIC, 0, 0⟩
/-! CND_TRK: 09_conduits_and_transport -/
def CND_TRK_IN_USE : Fld := ⟨0x900028, 0, 13, .RO, .STATIC, 0, 0⟩
/-! CND_CNT0: 09_conduits_and_transport -/
def CND_CNT0_FORMAT_ERR : Fld := ⟨0x900030, 48, 16, .RC, .STATIC, 0, 0⟩
def CND_CNT0_PASTURE_MISS : Fld := ⟨0x900030, 32, 16, .RC, .STATIC, 0, 0⟩
def CND_CNT0_AUTH_FAIL : Fld := ⟨0x900030, 16, 16, .RC, .STATIC, 0, 0⟩
def CND_CNT0_NO_CONDUIT : Fld := ⟨0x900030, 0, 16, .RC, .STATIC, 0, 0⟩
/-! CND_CNT1: 09_conduits_and_transport -/
def CND_CNT1_NR_SENT : Fld := ⟨0x900038, 48, 16, .RC, .STATIC, 0, 0⟩
def CND_CNT1_ACK_DISCARD : Fld := ⟨0x900038, 32, 16, .RC, .STATIC, 0, 0⟩
def CND_CNT1_STALE : Fld := ⟨0x900038, 16, 16, .RC, .STATIC, 0, 0⟩
def CND_CNT1_DUPS : Fld := ⟨0x900038, 8, 8, .RC, .STATIC, 0, 0⟩
def CND_CNT1_GATE_EMPTY : Fld := ⟨0x900038, 0, 8, .RC, .STATIC, 0, 0⟩
/-! CND_CNT2: 09_conduits_and_transport -/
def CND_CNT2_FETCH_CTX : Fld := ⟨0x900040, 32, 32, .RC, .STATIC, 0, 0⟩
def CND_CNT2_FETCH_HOST : Fld := ⟨0x900040, 0, 32, .RC, .STATIC, 0, 0⟩
/-! CND_STRAY_DEF: 09_conduits_and_transport -/
def CND_STRAY_DEF_WINDOW : Fld := ⟨0x900048, 48, 16, .RW, .LIVE, 64, 64⟩
def CND_STRAY_DEF_RETRY_LIMIT : Fld := ⟨0x900048, 40, 8, .RW, .LIVE, 8, 8⟩
def CND_STRAY_DEF_RETRY_BASE_US : Fld := ⟨0x900048, 24, 16, .RW, .LIVE, 16, 16⟩
def CND_STRAY_DEF_SPRAY : Fld := ⟨0x900048, 1, 1, .RW, .LIVE, 1, 1⟩
def CND_STRAY_DEF_ADAPT : Fld := ⟨0x900048, 0, 1, .RW, .LIVE, 1, 1⟩
/-! CND_FN_RANGE: 09_conduits_and_transport -/
def CND_FN_RANGE_COUNT : Fld := ⟨0x910000, 32, 17, .RW, .GUARDED, 0, 65536⟩
def CND_FN_RANGE_BASE : Fld := ⟨0x910000, 8, 16, .RW, .GUARDED, 0, 0⟩
/-! CND_FN_GATE: 09_conduits_and_transport -/
def CND_FN_GATE_GATE_COUNT : Fld := ⟨0x910008, 32, 17, .RW, .GUARDED, 0, 256⟩
def CND_FN_GATE_GATE_READY : Fld := ⟨0x910008, 16, 9, .RO, .STATIC, 0, 0⟩
def CND_FN_GATE_GATE_TARGET : Fld := ⟨0x910008, 0, 9, .RW, .LIVE, 64, 64⟩
/-! CND_FN_SPILL: 09_conduits_and_transport -/
def CND_FN_SPILL_ADDR : Fld := ⟨0x910010, 12, 52, .RW, .GUARDED, 0, 0⟩
def CND_FN_SPILL_SPILL_EN : Fld := ⟨0x910010, 0, 1, .RW, .GUARDED, 0, 0⟩
/-! CND_FN_STATUS: 09_conduits_and_transport -/
def CND_FN_STATUS_WRITE_REFUSED : Fld := ⟨0x910018, 31, 1, .W1C, .STATIC, 0, 0⟩
def CND_FN_STATUS_EPOCH : Fld := ⟨0x910018, 0, 16, .RO, .STATIC, 0, 0⟩
/-! CND_FN_CTL: 09_conduits_and_transport -/
def CND_FN_CTL_ENABLE : Fld := ⟨0x91001C, 0, 1, .RW, .LIVE, 0, 0⟩
/-! WQU_CTRL: 10_work_queues -/
def WQU_CTRL_ENABLE : Fld := ⟨0xA00000, 0, 1, .RO, .STATIC, 0, 0⟩
/-! WQU_STATUS: 10_work_queues -/
def WQU_STATUS_WRITE_REFUSED : Fld := ⟨0xA00008, 31, 1, .W1C, .STATIC, 0, 0⟩
def WQU_STATUS_SLOTS_IN_USE : Fld := ⟨0xA00008, 0, 13, .RO, .STATIC, 0, 0⟩
/-! WQU_CNT: 10_work_queues -/
def WQU_CNT_MALFORMED : Fld := ⟨0xA00010, 32, 32, .RC, .STATIC, 0, 0⟩
def WQU_CNT_LATE_CPL : Fld := ⟨0xA00010, 16, 16, .RC, .STATIC, 0, 0⟩
def WQU_CNT_CRING_OVERFLOWS : Fld := ⟨0xA00010, 0, 16, .RC, .STATIC, 0, 0⟩
/-! WQU_FMR_BASE: 10_work_queues -/
def WQU_FMR_BASE_ADDR : Fld := ⟨0xA00020, 6, 58, .RW, .GUARDED, 0, 0⟩
/-! WQU_FMR_CFG: 10_work_queues -/
def WQU_FMR_CFG_DROPPED : Fld := ⟨0xA00028, 48, 16, .RC, .STATIC, 0, 0⟩
def WQU_FMR_CFG_HEAD : Fld := ⟨0xA00028, 32, 16, .RW, .LIVE, 0, 0⟩
def WQU_FMR_CFG_TAIL : Fld := ⟨0xA00028, 16, 16, .RO, .STATIC, 0, 0⟩
def WQU_FMR_CFG_LOG2 : Fld := ⟨0xA00028, 8, 4, .RW, .GUARDED, 6, 6⟩
def WQU_FMR_CFG_ENABLE : Fld := ⟨0xA00028, 0, 1, .RW, .LIVE, 0, 0⟩
/-! WQU_FN_STATUS: 10_work_queues -/
def WQU_FN_STATUS_WRITE_REFUSED : Fld := ⟨0xA01000, 31, 1, .W1C, .STATIC, 0, 0⟩
/-! WQU_FN_RX: 10_work_queues -/
def WQU_FN_RX_RX_EN : Fld := ⟨0xA01004, 16, 1, .RW, .LIVE, 0, 0⟩
def WQU_FN_RX_RX_CRING : Fld := ⟨0xA01004, 0, 16, .RW, .LIVE, 0, 0⟩
/-! WQU_QSEL: 10_work_queues -/
def WQU_QSEL_KIND : Fld := ⟨0xA01008, 16, 2, .RW, .LIVE, 0, 0⟩
def WQU_QSEL_NUMBER : Fld := ⟨0xA01008, 0, 16, .RW, .LIVE, 0, 0⟩
/-! WQU_QBASE: 10_work_queues -/
def WQU_QBASE_ADDR : Fld := ⟨0xA01010, 6, 58, .RW, .GUARDED, 0, 0⟩
/-! WQU_QCMD: 10_work_queues -/
def WQU_QCMD_RESET : Fld := ⟨0xA01020, 2, 1, .W1S, .LIVE, 0, 0⟩
def WQU_QCMD_DISABLE : Fld := ⟨0xA01020, 1, 1, .W1S, .LIVE, 0, 0⟩
def WQU_QCMD_ENABLE : Fld := ⟨0xA01020, 0, 1, .W1S, .LIVE, 0, 0⟩
/-! WQU_QCFG_Q: 10_work_queues -/
def WQU_QCFG_Q_LOG2 : Fld := ⟨0xA01018, 32, 4, .RW, .GUARDED, 6, 6⟩
def WQU_QCFG_Q_GROUP : Fld := ⟨0xA01018, 20, 10, .RW, .GUARDED, 0, 0⟩
def WQU_QCFG_Q_PREFETCH : Fld := ⟨0xA01018, 15, 5, .RW, .LIVE, 8, 8⟩
def WQU_QCFG_Q_BURST : Fld := ⟨0xA01018, 8, 7, .RW, .LIVE, 8, 8⟩
def WQU_QCFG_Q_WEIGHT : Fld := ⟨0xA01018, 0, 8, .RW, .LIVE, 1, 1⟩
/-! WQU_QCFG_R: 10_work_queues -/
def WQU_QCFG_R_LOG2 : Fld := ⟨0xA01019, 32, 4, .RW, .GUARDED, 6, 6⟩
def WQU_QCFG_R_VECTOR : Fld := ⟨0xA01019, 0, 11, .RW, .GUARDED, 0, 0⟩
/-! WQU_QCFG_G: 10_work_queues -/
def WQU_QCFG_G_OVERHEAD : Fld := ⟨0xA0101A, 56, 8, .RW, .LIVE, 0, 0⟩
def WQU_QCFG_G_RATE_MBPS : Fld := ⟨0xA0101A, 36, 20, .RW, .LIVE, 800000, 800000⟩
def WQU_QCFG_G_BURST_KIB : Fld := ⟨0xA0101A, 21, 15, .RW, .LIVE, 64, 64⟩
def WQU_QCFG_G_QUANTUM_64 : Fld := ⟨0xA0101A, 6, 15, .RW, .LIVE, 64, 64⟩
def WQU_QCFG_G_RESET_FULL : Fld := ⟨0xA0101A, 1, 1, .RW, .LIVE, 0, 0⟩
def WQU_QCFG_G_SHAPE_EN : Fld := ⟨0xA0101A, 0, 1, .RW, .LIVE, 0, 0⟩
/-! WQU_QSTATE: 10_work_queues -/
def WQU_QSTATE_TAIL : Fld := ⟨0xA01028, 48, 16, .RO, .STATIC, 0, 0⟩
def WQU_QSTATE_FETCH : Fld := ⟨0xA01028, 32, 16, .RO, .STATIC, 0, 0⟩
def WQU_QSTATE_TAKEN_OPEN : Fld := ⟨0xA01028, 16, 16, .RO, .STATIC, 0, 0⟩
def WQU_QSTATE_CAUSE : Fld := ⟨0xA01028, 12, 4, .RO, .STATIC, 0, 0⟩
def WQU_QSTATE_STATE : Fld := ⟨0xA01028, 0, 4, .RO, .STATIC, 0, 0⟩
/-! WQU_EVR_BASE: 10_work_queues -/
def WQU_EVR_BASE_ADDR : Fld := ⟨0xA01030, 5, 59, .RW, .GUARDED, 0, 0⟩
/-! WQU_EVR_CFG: 10_work_queues -/
def WQU_EVR_CFG_LOG2 : Fld := ⟨0xA01038, 16, 4, .RW, .GUARDED, 6, 6⟩
def WQU_EVR_CFG_ENABLE : Fld := ⟨0xA01038, 0, 1, .RW, .LIVE, 0, 0⟩
/-! WQU_EVR_HEAD: 10_work_queues -/
def WQU_EVR_HEAD_INDEX : Fld := ⟨0xA0103C, 0, 12, .RW, .LIVE, 0, 0⟩
/-! WQU_EVR_STATUS: 10_work_queues -/
def WQU_EVR_STATUS_LOST : Fld := ⟨0xA01040, 32, 32, .RC, .STATIC, 0, 0⟩
def WQU_EVR_STATUS_TAIL : Fld := ⟨0xA01040, 0, 12, .RO, .STATIC, 0, 0⟩
/-! RMA_CTRL: 11_remote_memory_access -/
def RMA_CTRL_ENABLE : Fld := ⟨0xB00000, 0, 1, .RO, .STATIC, 0, 0⟩
/-! RMA_STATUS: 11_remote_memory_access -/
def RMA_STATUS_WRITE_REFUSED : Fld := ⟨0xB00008, 31, 1, .W1C, .STATIC, 0, 0⟩
/-! RMA_TB_CTRL: 11_remote_memory_access -/
def RMA_TB_CTRL_CONDUIT_MAX : Fld := ⟨0xB00010, 32, 16, .RW, .LIVE, 1024, 1024⟩
def RMA_TB_CTRL_RESERVE : Fld := ⟨0xB00010, 0, 10, .RW, .LIVE, 64, 64⟩
/-! RMA_TB_STATUS: 11_remote_memory_access -/
def RMA_TB_STATUS_TOTAL : Fld := ⟨0xB00018, 48, 16, .RO, .STATIC, 49152, 49152⟩
def RMA_TB_STATUS_IN_USE : Fld := ⟨0xB00018, 32, 16, .RO, .STATIC, 0, 0⟩
def RMA_TB_STATUS_RECORDS : Fld := ⟨0xB00018, 0, 20, .RO, .STATIC, 0, 0⟩
/-! RMA_CNT0: 11_remote_memory_access -/
def RMA_CNT0_PUT_PKTS : Fld := ⟨0xB00020, 32, 32, .RC, .STATIC, 0, 0⟩
def RMA_CNT0_GET_SEGS : Fld := ⟨0xB00020, 0, 32, .RC, .STATIC, 0, 0⟩
/-! RMA_CNT1: 11_remote_memory_access -/
def RMA_CNT1_ATOMICS : Fld := ⟨0xB00028, 32, 32, .RC, .STATIC, 0, 0⟩
def RMA_CNT1_HOST_ERR : Fld := ⟨0xB00028, 16, 16, .RC, .STATIC, 0, 0⟩
def RMA_CNT1_REFUSED : Fld := ⟨0xB00028, 0, 16, .RC, .STATIC, 0, 0⟩
/-! RMA_TLAND_SEL: 11_remote_memory_access -/
def RMA_TLAND_SEL_RES : Fld := ⟨0xB00040, 0, 14, .RW, .LIVE, 0, 0⟩
/-! RMA_TLAND_ADDR: 11_remote_memory_access -/
def RMA_TLAND_ADDR_ADDR : Fld := ⟨0xB00048, 12, 52, .RW, .GUARDED, 0, 0⟩
/-! RMA_TLAND_CFG: 11_remote_memory_access -/
def RMA_TLAND_CFG_XCTX : Fld := ⟨0xB00050, 16, 12, .RW, .GUARDED, 0, 0⟩
def RMA_TLAND_CFG_SLOT_LOG2 : Fld := ⟨0xB00050, 8, 5, .RW, .GUARDED, 14, 14⟩
def RMA_TLAND_CFG_COUNT_LOG2 : Fld := ⟨0xB00050, 4, 4, .RW, .GUARDED, 0, 0⟩
def RMA_TLAND_CFG_ENABLE : Fld := ⟨0xB00050, 0, 1, .RW, .LIVE, 0, 0⟩
/-! CRK_CTRL: 12_crook_locks -/
def CRK_CTRL_PROBE_MS : Fld := ⟨0xC00000, 16, 16, .RW, .LIVE, 10, 10⟩
def CRK_CTRL_PRIO_EN : Fld := ⟨0xC00000, 1, 1, .RW, .LIVE, 1, 1⟩
def CRK_CTRL_ENABLE : Fld := ⟨0xC00000, 0, 1, .RO, .STATIC, 0, 0⟩
/-! CRK_STATUS: 12_crook_locks -/
def CRK_STATUS_WRITE_REFUSED : Fld := ⟨0xC00008, 31, 1, .W1C, .STATIC, 0, 0⟩
/-! CRK_TABLE: 12_crook_locks -/
def CRK_TABLE_WAITERS : Fld := ⟨0xC00010, 32, 19, .RO, .STATIC, 0, 0⟩
def CRK_TABLE_LOCKS : Fld := ⟨0xC00010, 0, 17, .RO, .STATIC, 0, 0⟩
/-! CRK_CNT: 12_crook_locks -/
def CRK_CNT_GRANTS : Fld := ⟨0xC00018, 32, 32, .RC, .STATIC, 0, 0⟩
def CRK_CNT_ABANDONS : Fld := ⟨0xC00018, 16, 16, .RC, .STATIC, 0, 0⟩
def CRK_CNT_REFUSED : Fld := ⟨0xC00018, 0, 16, .RC, .STATIC, 0, 0⟩
/-! CRK_SLOT_CFG: 12_crook_locks -/
def CRK_SLOT_CFG_FN : Fld := ⟨0xC10000, 16, 11, .RW, .GUARDED, 0, 0⟩
def CRK_SLOT_CFG_ENABLE : Fld := ⟨0xC10000, 0, 1, .RW, .LIVE, 0, 0⟩
/-! CRK_SLOT_LOCK: 12_crook_locks -/
def CRK_SLOT_LOCK_ADDR : Fld := ⟨0xC10008, 3, 61, .RW, .LIVE, 0, 0⟩
/-! CRK_SLOT_REQ: 12_crook_locks -/
def CRK_SLOT_REQ_OWNER_TAG : Fld := ⟨0xC10010, 32, 32, .RW, .LIVE, 0, 0⟩
def CRK_SLOT_REQ_PRIORITY : Fld := ⟨0xC10010, 24, 8, .RW, .LIVE, 0, 0⟩
def CRK_SLOT_REQ_CONDUIT : Fld := ⟨0xC10010, 0, 24, .RW, .LIVE, 0, 0⟩
/-! CRK_SLOT_CMD: 12_crook_locks -/
def CRK_SLOT_CMD_RXCTX : Fld := ⟨0xC10018, 16, 12, .RW, .LIVE, 0, 0⟩
def CRK_SLOT_CMD_RELEASE : Fld := ⟨0xC10018, 1, 1, .W1S, .LIVE, 0, 0⟩
def CRK_SLOT_CMD_ACQUIRE : Fld := ⟨0xC10018, 0, 1, .W1S, .LIVE, 0, 0⟩
/-! CRK_SLOT_WAIT: 12_crook_locks -/
def CRK_SLOT_WAIT_WAITING : Fld := ⟨0xC10020, 17, 1, .RO, .STATIC, 0, 0⟩
def CRK_SLOT_WAIT_HELD : Fld := ⟨0xC10020, 16, 1, .RO, .STATIC, 0, 0⟩
def CRK_SLOT_WAIT_DETAIL : Fld := ⟨0xC10020, 8, 8, .RO, .STATIC, 0, 0⟩
def CRK_SLOT_WAIT_STATUS : Fld := ⟨0xC10020, 0, 8, .RO, .STATIC, 0, 0⟩
/-! MTC_CTRL: 13_message_matching -/
def MTC_CTRL_EAGER_KIB : Fld := ⟨0xD00000, 16, 5, .RW, .LIVE, 16, 16⟩
def MTC_CTRL_ENABLE : Fld := ⟨0xD00000, 0, 1, .RO, .STATIC, 0, 0⟩
/-! MTC_STATUS: 13_message_matching -/
def MTC_STATUS_WRITE_REFUSED : Fld := ⟨0xD00008, 31, 1, .W1C, .STATIC, 0, 0⟩
def MTC_STATUS_STORE_FULL : Fld := ⟨0xD00008, 1, 1, .RO, .STATIC, 0, 0⟩
def MTC_STATUS_POOL_FULL : Fld := ⟨0xD00008, 0, 1, .RO, .STATIC, 0, 0⟩
/-! MTC_STORE_BASE: 13_message_matching -/
def MTC_STORE_BASE_OFFSET : Fld := ⟨0xD00010, 8, 56, .RW, .GUARDED, 0, 0⟩
/-! MTC_STORE_CFG: 13_message_matching -/
def MTC_STORE_CFG_SIZE_MIB : Fld := ⟨0xD00018, 16, 16, .RW, .GUARDED, 0, 0⟩
def MTC_STORE_CFG_ENABLE : Fld := ⟨0xD00018, 0, 1, .RW, .LIVE, 0, 0⟩
/-! MTC_USE: 13_message_matching -/
def MTC_USE_STORE_USED : Fld := ⟨0xD00020, 40, 24, .RO, .STATIC, 0, 0⟩
def MTC_USE_ENTRIES : Fld := ⟨0xD00020, 0, 24, .RO, .STATIC, 0, 0⟩
/-! MTC_CNT0: 13_message_matching -/
def MTC_CNT0_MATCHED : Fld := ⟨0xD00028, 32, 32, .RC, .STATIC, 0, 0⟩
def MTC_CNT0_UNEXPECTED : Fld := ⟨0xD00028, 0, 32, .RC, .STATIC, 0, 0⟩
/-! MTC_CNT1: 13_message_matching -/
def MTC_CNT1_NO_STORE : Fld := ⟨0xD00030, 48, 16, .RC, .STATIC, 0, 0⟩
def MTC_CNT1_TRUNCATED : Fld := ⟨0xD00030, 32, 16, .RC, .STATIC, 0, 0⟩
def MTC_CNT1_RING_WRITES : Fld := ⟨0xD00030, 16, 16, .RC, .STATIC, 0, 0⟩
def MTC_CNT1_REFUSED : Fld := ⟨0xD00030, 0, 16, .RC, .STATIC, 0, 0⟩
/-! MTC_DSEL: 13_message_matching -/
def MTC_DSEL_DOMAIN : Fld := ⟨0xD01000, 0, 12, .RW, .LIVE, 0, 0⟩
/-! MTC_DCFG: 13_message_matching -/
def MTC_DCFG_PASTURE : Fld := ⟨0xD01008, 48, 16, .RW, .GUARDED, 0, 0⟩
def MTC_DCFG_FN : Fld := ⟨0xD01008, 32, 11, .RW, .GUARDED, 0, 0⟩
def MTC_DCFG_MAX_KENTRIES : Fld := ⟨0xD01008, 0, 13, .RW, .GUARDED, 0, 0⟩
/-! MTC_DCTL: 13_message_matching -/
def MTC_DCTL_RESUME : Fld := ⟨0xD01010, 2, 1, .W1S, .LIVE, 0, 0⟩
def MTC_DCTL_ENABLE : Fld := ⟨0xD01010, 0, 1, .RW, .LIVE, 0, 0⟩
/-! MTC_DSTATUS: 13_message_matching -/
def MTC_DSTATUS_WRITE_REFUSED : Fld := ⟨0xD01014, 31, 1, .W1C, .STATIC, 0, 0⟩
def MTC_DSTATUS_RESUME_REFUSED : Fld := ⟨0xD01014, 3, 1, .W1C, .STATIC, 0, 0⟩
def MTC_DSTATUS_RING_WAIT : Fld := ⟨0xD01014, 2, 1, .RO, .STATIC, 0, 0⟩
def MTC_DSTATUS_STATE : Fld := ⟨0xD01014, 0, 2, .RO, .STATIC, 0, 0⟩
/-! MTC_DCOUNT: 13_message_matching -/
def MTC_DCOUNT_UNEXPECTED : Fld := ⟨0xD01018, 32, 24, .RO, .STATIC, 0, 0⟩
def MTC_DCOUNT_POSTED : Fld := ⟨0xD01018, 0, 24, .RO, .STATIC, 0, 0⟩
/-! MTC_OVF_BASE: 13_message_matching -/
def MTC_OVF_BASE_ADDR : Fld := ⟨0xD01020, 6, 58, .RW, .GUARDED, 0, 0⟩
/-! MTC_OVF_CFG: 13_message_matching -/
def MTC_OVF_CFG_LOG2 : Fld := ⟨0xD01028, 16, 4, .RW, .GUARDED, 8, 8⟩
/-! MTC_OVF_IDX: 13_message_matching -/
def MTC_OVF_IDX_TAIL : Fld := ⟨0xD0102C, 16, 16, .RO, .STATIC, 0, 0⟩
def MTC_OVF_IDX_HEAD : Fld := ⟨0xD0102C, 0, 16, .RW, .LIVE, 0, 0⟩
/-! MTC_BIND_BUF: 13_message_matching -/
def MTC_BIND_BUF_ADDR : Fld := ⟨0xD01030, 0, 64, .RW, .LIVE, 0, 0⟩
/-! MTC_BIND_ARG: 13_message_matching -/
def MTC_BIND_ARG_LENGTH : Fld := ⟨0xD01038, 32, 32, .RW, .LIVE, 0, 0⟩
def MTC_BIND_ARG_CRING : Fld := ⟨0xD01038, 16, 16, .RW, .LIVE, 0, 0⟩
def MTC_BIND_ARG_XCTX : Fld := ⟨0xD01038, 0, 12, .RW, .LIVE, 0, 0⟩
/-! MTC_BIND_TAG: 13_message_matching -/
def MTC_BIND_TAG_USER_TAG : Fld := ⟨0xD01040, 32, 32, .RW, .LIVE, 0, 0⟩
def MTC_BIND_TAG_TOKEN : Fld := ⟨0xD01040, 0, 32, .RW, .LIVE, 0, 0⟩
/-! MTC_BIND_CMD: 13_message_matching -/
def MTC_BIND_CMD_PENDING : Fld := ⟨0xD01048, 2, 1, .RO, .STATIC, 0, 0⟩
def MTC_BIND_CMD_BIND_ERR : Fld := ⟨0xD01048, 1, 1, .W1C, .STATIC, 0, 0⟩
def MTC_BIND_CMD_GO : Fld := ⟨0xD01048, 0, 1, .W1S, .LIVE, 0, 0⟩
/-! DRV_CTRL: 14_drover_collectives -/
def DRV_CTRL_ENABLE : Fld := ⟨0xE00000, 0, 1, .RO, .STATIC, 0, 0⟩
/-! DRV_STATUS: 14_drover_collectives -/
def DRV_STATUS_WRITE_REFUSED : Fld := ⟨0xE00008, 31, 1, .W1C, .STATIC, 0, 0⟩
/-! DRV_STORE: 14_drover_collectives -/
def DRV_STORE_RECORDS : Fld := ⟨0xE00010, 32, 13, .RO, .STATIC, 0, 0⟩
def DRV_STORE_STAGING_KIB : Fld := ⟨0xE00010, 14, 15, .RO, .STATIC, 0, 0⟩
def DRV_STORE_PROGRAMS : Fld := ⟨0xE00010, 0, 9, .RO, .STATIC, 0, 0⟩
/-! DRV_GEN: 14_drover_collectives -/
def DRV_GEN_GEN : Fld := ⟨0xE00018, 0, 32, .RO, .STATIC, 0, 0⟩
/-! DRV_CNT0: 14_drover_collectives -/
def DRV_CNT0_FORMAT_ERR : Fld := ⟨0xE00020, 48, 16, .RC, .STATIC, 0, 0⟩
def DRV_CNT0_NO_PROGRAM : Fld := ⟨0xE00020, 32, 16, .RC, .STATIC, 0, 0⟩
def DRV_CNT0_STALE : Fld := ⟨0xE00020, 16, 16, .RC, .STATIC, 0, 0⟩
def DRV_CNT0_DUP : Fld := ⟨0xE00020, 0, 16, .RC, .STATIC, 0, 0⟩
/-! DRV_CNT1: 14_drover_collectives -/
def DRV_CNT1_LATE : Fld := ⟨0xE00028, 48, 16, .RC, .STATIC, 0, 0⟩
def DRV_CNT1_OVERRUN : Fld := ⟨0xE00028, 32, 16, .RC, .STATIC, 0, 0⟩
def DRV_CNT1_LATE_ARRIVAL : Fld := ⟨0xE00028, 16, 16, .RC, .STATIC, 0, 0⟩
def DRV_CNT1_ALARM_FALLBACK : Fld := ⟨0xE00028, 0, 16, .RC, .STATIC, 0, 0⟩
/-! DRV_PSEL: 14_drover_collectives -/
def DRV_PSEL_PROGRAM : Fld := ⟨0xE00040, 0, 8, .RW, .LIVE, 0, 0⟩
/-! DRV_PSTATE: 14_drover_collectives -/
def DRV_PSTATE_LAST_DETAIL : Fld := ⟨0xE00048, 56, 8, .RO, .STATIC, 0, 0⟩
def DRV_PSTATE_COLL_ID : Fld := ⟨0xE00048, 32, 24, .RO, .STATIC, 0, 0⟩
def DRV_PSTATE_NEXT_INSTANCE : Fld := ⟨0xE00048, 16, 16, .RO, .STATIC, 0, 0⟩
def DRV_PSTATE_LAST_STATUS : Fld := ⟨0xE00048, 8, 8, .RO, .STATIC, 0, 0⟩
def DRV_PSTATE_STATE : Fld := ⟨0xE00048, 0, 2, .RO, .STATIC, 0, 0⟩
/-! DRV_PINFO: 14_drover_collectives -/
def DRV_PINFO_CHUNKS_RETIRED : Fld := ⟨0xE00050, 32, 32, .RO, .STATIC, 0, 0⟩
def DRV_PINFO_WAIT_STEP : Fld := ⟨0xE00050, 8, 8, .RO, .STATIC, 255, 255⟩
def DRV_PINFO_WAIT_EDGE : Fld := ⟨0xE00050, 0, 8, .RO, .STATIC, 255, 255⟩
/-! DRV_PARITH: 14_drover_collectives -/
def DRV_PARITH_AFLAGS : Fld := ⟨0xE00058, 32, 8, .RO, .STATIC, 0, 0⟩
def DRV_PARITH_NAN_COUNT : Fld := ⟨0xE00058, 0, 32, .RO, .STATIC, 0, 0⟩
/-! DRV_PCMD: 14_drover_collectives -/
def DRV_PCMD_INSTANCE : Fld := ⟨0xE00060, 16, 16, .RW, .LIVE, 0, 0⟩
def DRV_PCMD_RESET : Fld := ⟨0xE00060, 0, 1, .W1S, .LIVE, 0, 0⟩
/-! RDU_CTRL: 15_reduction_arithmetic -/
def RDU_CTRL_ENABLE : Fld := ⟨0xF00000, 0, 1, .RO, .STATIC, 0, 0⟩
/-! RDU_STATUS: 15_reduction_arithmetic -/
def RDU_STATUS_WRITE_REFUSED : Fld := ⟨0xF00008, 31, 1, .W1C, .STATIC, 0, 0⟩
/-! RDU_OPERANDS: 15_reduction_arithmetic -/
def RDU_OPERANDS_BYTES_IN : Fld := ⟨0xF00010, 0, 48, .RO, .STATIC, 0, 0⟩
/-! RDU_ARITH_CNT: 15_reduction_arithmetic -/
def RDU_ARITH_CNT_NAN_INPUTS : Fld := ⟨0xF00018, 48, 16, .RC, .STATIC, 0, 0⟩
def RDU_ARITH_CNT_INVALID : Fld := ⟨0xF00018, 32, 16, .RC, .STATIC, 0, 0⟩
def RDU_ARITH_CNT_CONV_OVERFLOW : Fld := ⟨0xF00018, 16, 16, .RC, .STATIC, 0, 0⟩
def RDU_ARITH_CNT_INT_OVERFLOW : Fld := ⟨0xF00018, 0, 16, .RC, .STATIC, 0, 0⟩
/-! RDU_EXHAUST: 15_reduction_arithmetic -/
def RDU_EXHAUST_MALFORMED : Fld := ⟨0xF00020, 16, 16, .RC, .STATIC, 0, 0⟩
def RDU_EXHAUST_EXHAUSTED : Fld := ⟨0xF00020, 0, 16, .RC, .STATIC, 0, 0⟩
/-! RDU_DRAW_SEED: 15_reduction_arithmetic -/
def RDU_DRAW_SEED_SEED : Fld := ⟨0xF00040, 0, 64, .RW, .LIVE, 0, 0⟩
/-! RDU_DRAW_ARG: 15_reduction_arithmetic -/
def RDU_DRAW_ARG_INSTANCE : Fld := ⟨0xF00048, 32, 16, .RW, .LIVE, 0, 0⟩
def RDU_DRAW_ARG_INDEX : Fld := ⟨0xF00048, 0, 32, .RW, .LIVE, 0, 0⟩
/-! RDU_DRAW_OUT: 15_reduction_arithmetic -/
def RDU_DRAW_OUT_DRAW : Fld := ⟨0xF00050, 0, 32, .RO, .STATIC, 0, 0⟩
/-! XLT_CTRL: 16_translation_and_protection -/
def XLT_CTRL_ENABLE : Fld := ⟨0x1000000, 0, 1, .RO, .STATIC, 0, 0⟩
/-! XLT_STATUS: 16_translation_and_protection -/
def XLT_STATUS_WRITE_REFUSED : Fld := ⟨0x1000008, 31, 1, .W1C, .STATIC, 0, 0⟩
/-! XLT_TLB: 16_translation_and_protection -/
def XLT_TLB_LOCKED : Fld := ⟨0x1000010, 32, 10, .RO, .STATIC, 0, 0⟩
def XLT_TLB_VALID : Fld := ⟨0x1000010, 0, 14, .RO, .STATIC, 0, 0⟩
/-! XLT_CNT: 16_translation_and_protection -/
def XLT_CNT_WALKS : Fld := ⟨0x1000018, 32, 32, .RC, .STATIC, 0, 0⟩
def XLT_CNT_FAULTS : Fld := ⟨0x1000018, 16, 16, .RC, .STATIC, 0, 0⟩
def XLT_CNT_WALK_DEVICE : Fld := ⟨0x1000018, 0, 16, .RC, .STATIC, 0, 0⟩
/-! XLT_INV_ADDR: 16_translation_and_protection -/
def XLT_INV_ADDR_VA : Fld := ⟨0x1000020, 12, 52, .RW, .LIVE, 0, 0⟩
/-! XLT_INV_CMD: 16_translation_and_protection -/
def XLT_INV_CMD_PAGES : Fld := ⟨0x1000028, 32, 20, .RW, .LIVE, 0, 0⟩
def XLT_INV_CMD_CTX : Fld := ⟨0x1000028, 16, 12, .RW, .LIVE, 0, 0⟩
def XLT_INV_CMD_SCOPE : Fld := ⟨0x1000028, 4, 2, .RW, .LIVE, 0, 0⟩
def XLT_INV_CMD_BUSY : Fld := ⟨0x1000028, 1, 1, .RO, .STATIC, 0, 0⟩
def XLT_INV_CMD_GO : Fld := ⟨0x1000028, 0, 1, .W1S, .LIVE, 0, 0⟩
/-! XLT_LOCK_ADDR: 16_translation_and_protection -/
def XLT_LOCK_ADDR_VA : Fld := ⟨0x1000030, 12, 52, .RW, .LIVE, 0, 0⟩
/-! XLT_LOCK_CMD: 16_translation_and_protection -/
def XLT_LOCK_CMD_PAGES : Fld := ⟨0x1000038, 32, 20, .RW, .LIVE, 0, 0⟩
def XLT_LOCK_CMD_CTX : Fld := ⟨0x1000038, 16, 12, .RW, .LIVE, 0, 0⟩
def XLT_LOCK_CMD_HOST_ERR : Fld := ⟨0x1000038, 4, 1, .W1C, .STATIC, 0, 0⟩
def XLT_LOCK_CMD_FULL : Fld := ⟨0x1000038, 3, 1, .W1C, .STATIC, 0, 0⟩
def XLT_LOCK_CMD_FAULT : Fld := ⟨0x1000038, 2, 1, .W1C, .STATIC, 0, 0⟩
def XLT_LOCK_CMD_BUSY : Fld := ⟨0x1000038, 1, 1, .RO, .STATIC, 0, 0⟩
def XLT_LOCK_CMD_GO : Fld := ⟨0x1000038, 0, 1, .W1S, .LIVE, 0, 0⟩
/-! XLT_FLOG_IDX: 16_translation_and_protection -/
def XLT_FLOG_IDX_TOTAL : Fld := ⟨0x1000040, 16, 16, .RC, .STATIC, 0, 0⟩
def XLT_FLOG_IDX_NEXT : Fld := ⟨0x1000040, 0, 4, .RO, .STATIC, 0, 0⟩
/-! XLT_FLOG_VA: 16_translation_and_protection -/
def XLT_FLOG_VA_VA : Fld := ⟨0x1000100, 0, 64, .RO, .STATIC, 0, 0⟩
/-! XLT_FLOG_SLOT: 16_translation_and_protection -/
def XLT_FLOG_SLOT_SLOT : Fld := ⟨0x1000108, 0, 64, .RO, .STATIC, 0, 0⟩
/-! XLT_FLOG_INFO: 16_translation_and_protection -/
def XLT_FLOG_INFO_VALID : Fld := ⟨0x1000110, 63, 1, .RO, .STATIC, 0, 0⟩
def XLT_FLOG_INFO_CTX : Fld := ⟨0x1000110, 32, 12, .RO, .STATIC, 0, 0⟩
def XLT_FLOG_INFO_FN : Fld := ⟨0x1000110, 16, 11, .RO, .STATIC, 0, 0⟩
def XLT_FLOG_INFO_DETAIL : Fld := ⟨0x1000110, 8, 8, .RO, .STATIC, 0, 0⟩
def XLT_FLOG_INFO_KIND : Fld := ⟨0x1000110, 3, 2, .RO, .STATIC, 0, 0⟩
def XLT_FLOG_INFO_MASTER : Fld := ⟨0x1000110, 0, 3, .RO, .STATIC, 0, 0⟩
/-! XLT_FLOG_WHEN: 16_translation_and_protection -/
def XLT_FLOG_WHEN_WHEN : Fld := ⟨0x1000118, 0, 64, .RO, .STATIC, 0, 0⟩
/-! XLT_CTX_ROOT: 16_translation_and_protection -/
def XLT_CTX_ROOT_ROOT : Fld := ⟨0x1010000, 12, 52, .RW, .GUARDED, 0, 0⟩
/-! XLT_CTX_CFG: 16_translation_and_protection -/
def XLT_CTX_CFG_FN : Fld := ⟨0x1010008, 16, 11, .RW, .GUARDED, 0, 0⟩
def XLT_CTX_CFG_LEVELS : Fld := ⟨0x1010008, 4, 3, .RW, .GUARDED, 4, 4⟩
def XLT_CTX_CFG_DRAINING : Fld := ⟨0x1010008, 2, 1, .RO, .STATIC, 0, 0⟩
def XLT_CTX_CFG_AD_EN : Fld := ⟨0x1010008, 1, 1, .RW, .GUARDED, 0, 0⟩
def XLT_CTX_CFG_ENABLE : Fld := ⟨0x1010008, 0, 1, .RW, .LIVE, 0, 0⟩
/-! ACP_CTRL: 16_translation_and_protection -/
def ACP_CTRL_ENABLE : Fld := ⟨0x1100000, 0, 1, .RO, .STATIC, 0, 0⟩
/-! ACP_STATUS: 16_translation_and_protection -/
def ACP_STATUS_WRITE_REFUSED : Fld := ⟨0x1100008, 31, 1, .W1C, .STATIC, 0, 0⟩
/-! ACP_DEFAULT: 16_translation_and_protection -/
def ACP_DEFAULT_PERM : Fld := ⟨0x1100010, 0, 15, .RW, .LIVE, 12295, 12295⟩
/-! ACP_FENCE: 16_translation_and_protection -/
def ACP_FENCE_PENDING : Fld := ⟨0x1100018, 0, 32, .RO, .STATIC, 0, 0⟩
/-! ACP_VIOL: 16_translation_and_protection -/
def ACP_VIOL_TOTAL : Fld := ⟨0x1100020, 16, 16, .RC, .STATIC, 0, 0⟩
def ACP_VIOL_NEXT : Fld := ⟨0x1100020, 0, 4, .RO, .STATIC, 0, 0⟩
/-! ACP_VLOG_START: 16_translation_and_protection -/
def ACP_VLOG_START_START : Fld := ⟨0x1100100, 0, 64, .RO, .STATIC, 0, 0⟩
/-! ACP_VLOG_BAD: 16_translation_and_protection -/
def ACP_VLOG_BAD_FIRST_BAD : Fld := ⟨0x1100108, 0, 64, .RO, .STATIC, 0, 0⟩
/-! ACP_VLOG_INFO: 16_translation_and_protection -/
def ACP_VLOG_INFO_LENGTH : Fld := ⟨0x1100110, 32, 32, .RO, .STATIC, 0, 0⟩
def ACP_VLOG_INFO_VALID : Fld := ⟨0x1100110, 31, 1, .RO, .STATIC, 0, 0⟩
def ACP_VLOG_INFO_FN : Fld := ⟨0x1100110, 16, 11, .RO, .STATIC, 0, 0⟩
def ACP_VLOG_INFO_REGION : Fld := ⟨0x1100110, 6, 10, .RO, .STATIC, 0, 0⟩
def ACP_VLOG_INFO_DEFAULT : Fld := ⟨0x1100110, 5, 1, .RO, .STATIC, 0, 0⟩
def ACP_VLOG_INFO_KIND : Fld := ⟨0x1100110, 3, 2, .RO, .STATIC, 0, 0⟩
def ACP_VLOG_INFO_MASTER : Fld := ⟨0x1100110, 0, 3, .RO, .STATIC, 0, 0⟩
/-! ACP_VLOG_WHEN: 16_translation_and_protection -/
def ACP_VLOG_WHEN_WHEN : Fld := ⟨0x1100118, 0, 64, .RO, .STATIC, 0, 0⟩
/-! ACP_RSTART: 16_translation_and_protection -/
def ACP_RSTART_START : Fld := ⟨0x1110000, 6, 58, .RW, .GUARDED, 0, 0⟩
/-! ACP_REND: 16_translation_and_protection -/
def ACP_REND_END : Fld := ⟨0x1110008, 6, 58, .RW, .GUARDED, 0, 0⟩
/-! ACP_RPERM: 16_translation_and_protection -/
def ACP_RPERM_PERM : Fld := ⟨0x1110010, 0, 15, .RW, .LIVE, 0, 0⟩
/-! ACP_RATTR: 16_translation_and_protection -/
def ACP_RATTR_ST : Fld := ⟨0x1110014, 24, 8, .RW, .LIVE, 0, 0⟩
def ACP_RATTR_PH : Fld := ⟨0x1110014, 22, 2, .RW, .LIVE, 0, 0⟩
def ACP_RATTR_TPH_EN : Fld := ⟨0x1110014, 21, 1, .RW, .LIVE, 0, 0⟩
def ACP_RATTR_NS : Fld := ⟨0x1110014, 20, 1, .RW, .LIVE, 0, 0⟩
def ACP_RATTR_RO : Fld := ⟨0x1110014, 19, 1, .RW, .LIVE, 0, 0⟩
def ACP_RATTR_SE : Fld := ⟨0x1110014, 18, 1, .RW, .LIVE, 0, 0⟩
/-! ACP_RCTL: 16_translation_and_protection -/
def ACP_RCTL_FN : Fld := ⟨0x1110018, 16, 11, .RW, .GUARDED, 0, 0⟩
def ACP_RCTL_ANY_FN : Fld := ⟨0x1110018, 15, 1, .RW, .GUARDED, 0, 0⟩
def ACP_RCTL_LOCK : Fld := ⟨0x1110018, 2, 1, .W1S, .LIVE, 0, 0⟩
def ACP_RCTL_ENABLE : Fld := ⟨0x1110018, 0, 1, .RW, .LIVE, 0, 0⟩
/-! PWN_CTRL: 17_peer_windows -/
def PWN_CTRL_ENABLE : Fld := ⟨0x1200000, 0, 1, .RO, .STATIC, 0, 0⟩
/-! PWN_STATUS: 17_peer_windows -/
def PWN_STATUS_WRITE_REFUSED : Fld := ⟨0x1200008, 31, 1, .W1C, .STATIC, 0, 0⟩
/-! PWN_CFG: 17_peer_windows -/
def PWN_CFG_READ_TO_US : Fld := ⟨0x1200010, 16, 16, .RW, .LIVE, 10000, 10000⟩
/-! PWN_PWLOG_IDX: 17_peer_windows -/
def PWN_PWLOG_IDX_TOTAL : Fld := ⟨0x1200018, 16, 16, .RC, .STATIC, 0, 0⟩
def PWN_PWLOG_IDX_REARM : Fld := ⟨0x1200018, 8, 1, .W1S, .LIVE, 0, 0⟩
def PWN_PWLOG_IDX_NEXT : Fld := ⟨0x1200018, 0, 6, .RO, .STATIC, 0, 0⟩
/-! PWN_CNT: 17_peer_windows -/
def PWN_CNT_SEQUENCES : Fld := ⟨0x1200020, 32, 32, .RC, .STATIC, 0, 0⟩
def PWN_CNT_HOLD_FULL : Fld := ⟨0x1200020, 16, 16, .RC, .STATIC, 0, 0⟩
def PWN_CNT_LATE_RSP : Fld := ⟨0x1200020, 0, 16, .RC, .STATIC, 0, 0⟩
/-! PWN_PWLOG_ADDR: 17_peer_windows -/
def PWN_PWLOG_ADDR_OFFSET : Fld := ⟨0x1200100, 0, 64, .RO, .STATIC, 0, 0⟩
/-! PWN_PWLOG_INFO: 17_peer_windows -/
def PWN_PWLOG_INFO_VALID : Fld := ⟨0x1200108, 31, 1, .RO, .STATIC, 0, 0⟩
def PWN_PWLOG_INFO_WINDOW : Fld := ⟨0x1200108, 16, 8, .RO, .STATIC, 0, 0⟩
def PWN_PWLOG_INFO_DETAIL : Fld := ⟨0x1200108, 8, 8, .RO, .STATIC, 0, 0⟩
def PWN_PWLOG_INFO_STATUS : Fld := ⟨0x1200108, 0, 8, .RO, .STATIC, 0, 0⟩
/-! PWN_PWLOG_WHEN: 17_peer_windows -/
def PWN_PWLOG_WHEN_WHEN : Fld := ⟨0x1200110, 0, 64, .RO, .STATIC, 0, 0⟩
/-! PWN_WIN_BASE: 17_peer_windows -/
def PWN_WIN_BASE_OFFSET : Fld := ⟨0x1210000, 12, 28, .RW, .LIVE, 0, 0⟩
def PWN_WIN_BASE_SIZE_LOG2 : Fld := ⟨0x1210000, 0, 6, .RW, .LIVE, 12, 12⟩
/-! PWN_WIN_REMOTE: 17_peer_windows -/
def PWN_WIN_REMOTE_REMOTE : Fld := ⟨0x1210008, 12, 52, .RW, .LIVE, 0, 0⟩
/-! PWN_WIN_TARGET: 17_peer_windows -/
def PWN_WIN_TARGET_EID : Fld := ⟨0x1210010, 32, 20, .RW, .LIVE, 0, 0⟩
def PWN_WIN_TARGET_PASTURE : Fld := ⟨0x1210010, 16, 16, .RW, .LIVE, 0, 0⟩
def PWN_WIN_TARGET_RXCTX : Fld := ⟨0x1210010, 0, 12, .RW, .LIVE, 0, 0⟩
/-! PWN_WIN_MODE: 17_peer_windows -/
def PWN_WIN_MODE_ENABLE : Fld := ⟨0x1210018, 8, 1, .RW, .LIVE, 0, 0⟩
def PWN_WIN_MODE_XMODE : Fld := ⟨0x1210018, 4, 2, .RW, .LIVE, 0, 0⟩
def PWN_WIN_MODE_STRICT : Fld := ⟨0x1210018, 2, 1, .RW, .LIVE, 1, 1⟩
def PWN_WIN_MODE_SWAP : Fld := ⟨0x1210018, 0, 2, .RW, .LIVE, 0, 0⟩
/-! PWN_WIN_CMD: 17_peer_windows -/
def PWN_WIN_CMD_ERR_CAUSE : Fld := ⟨0x1210020, 4, 4, .RO, .STATIC, 0, 0⟩
def PWN_WIN_CMD_COMMIT_ERR : Fld := ⟨0x1210020, 1, 1, .W1C, .STATIC, 0, 0⟩
def PWN_WIN_CMD_COMMIT : Fld := ⟨0x1210020, 0, 1, .W1S, .LIVE, 0, 0⟩
/-! PWN_WIN_STATUS: 17_peer_windows -/
def PWN_WIN_STATUS_INFLIGHT : Fld := ⟨0x1210028, 48, 16, .RO, .STATIC, 0, 0⟩
def PWN_WIN_STATUS_COMMITS : Fld := ⟨0x1210028, 32, 16, .RO, .STATIC, 0, 0⟩
def PWN_WIN_STATUS_STRICT_ERR : Fld := ⟨0x1210028, 1, 1, .W1C, .STATIC, 0, 0⟩
def PWN_WIN_STATUS_ACTIVE : Fld := ⟨0x1210028, 0, 1, .RO, .STATIC, 0, 0⟩
/-! PWN_MIR_CFG: 17_peer_windows -/
def PWN_MIR_CFG_EID : Fld := ⟨0x1220000, 32, 20, .RW, .GUARDED, 0, 0⟩
def PWN_MIR_CFG_PASTURE : Fld := ⟨0x1220000, 16, 16, .RW, .GUARDED, 0, 0⟩
def PWN_MIR_CFG_PEER_MIR : Fld := ⟨0x1220000, 0, 6, .RW, .GUARDED, 0, 0⟩
/-! PWN_MIR_CTL: 17_peer_windows -/
def PWN_MIR_CTL_PERIOD_US : Fld := ⟨0x1220008, 16, 16, .RW, .LIVE, 1, 1⟩
def PWN_MIR_CTL_VECTOR : Fld := ⟨0x1220008, 5, 11, .RW, .LIVE, 0, 0⟩
def PWN_MIR_CTL_MSI_EN : Fld := ⟨0x1220008, 1, 1, .RW, .LIVE, 0, 0⟩
def PWN_MIR_CTL_ENABLE : Fld := ⟨0x1220008, 0, 1, .RW, .LIVE, 0, 0⟩
/-! PWN_MIR_OUT: 17_peer_windows -/
def PWN_MIR_OUT_VALUE : Fld := ⟨0x1220010, 0, 32, .RW, .LIVE, 0, 0⟩
/-! PWN_MIR_IN: 17_peer_windows -/
def PWN_MIR_IN_VALUE : Fld := ⟨0x1220018, 32, 32, .RO, .STATIC, 0, 0⟩
def PWN_MIR_IN_PEER_PERIOD : Fld := ⟨0x1220018, 16, 16, .RO, .STATIC, 0, 0⟩
def PWN_MIR_IN_SEQ : Fld := ⟨0x1220018, 0, 16, .RO, .STATIC, 0, 0⟩
/-! TLY_CTRL: 18_energy_and_power_states -/
def TLY_CTRL_ENABLE : Fld := ⟨0x1300000, 0, 1, .RO, .STATIC, 0, 0⟩
/-! TLY_STATUS: 18_energy_and_power_states -/
def TLY_STATUS_WRITE_REFUSED : Fld := ⟨0x1300008, 31, 1, .W1C, .STATIC, 0, 0⟩
def TLY_STATUS_OVER : Fld := ⟨0x1300008, 11, 1, .W1C, .STATIC, 0, 0⟩
def TLY_STATUS_MSTATE : Fld := ⟨0x1300008, 8, 3, .RO, .STATIC, 0, 0⟩
def TLY_STATUS_LEVEL : Fld := ⟨0x1300008, 0, 3, .RO, .STATIC, 0, 0⟩
/-! TLY_BUDGET: 18_energy_and_power_states -/
def TLY_BUDGET_RESERVED_E : Fld := ⟨0x1300010, 32, 32, .RO, .STATIC, 0, 0⟩
def TLY_BUDGET_BUDGET : Fld := ⟨0x1300010, 0, 32, .RO, .STATIC, 0, 0⟩
/-! TLY_FRAME: 18_energy_and_power_states -/
def TLY_FRAME_FRAME : Fld := ⟨0x1300018, 0, 44, .RO, .STATIC, 0, 0⟩
/-! TLY_SPENT: 18_energy_and_power_states -/
def TLY_SPENT_OVER_FRAMES : Fld := ⟨0x1300020, 32, 32, .RC, .STATIC, 0, 0⟩
def TLY_SPENT_SPENT : Fld := ⟨0x1300020, 0, 32, .RO, .STATIC, 0, 0⟩
/-! TLY_ACTION: 18_energy_and_power_states -/
def TLY_ACTION_QUIET_IDLE_NS : Fld := ⟨0x1300028, 32, 32, .RO, .STATIC, 4096, 4096⟩
def TLY_ACTION_DROVER_GAP_NS : Fld := ⟨0x1300028, 16, 16, .RO, .STATIC, 0, 0⟩
def TLY_ACTION_INJ_SCALE : Fld := ⟨0x1300028, 0, 9, .RO, .STATIC, 256, 256⟩
/-! TLY_WAKE: 18_energy_and_power_states -/
def TLY_WAKE_WAKE_FLITS : Fld := ⟨0x1300030, 0, 12, .RW, .LIVE, 64, 64⟩
/-! TLY_ENV: 18_energy_and_power_states -/
def TLY_ENV_KT : Fld := ⟨0x1300038, 44, 20, .RO, .STATIC, 65536, 65536⟩
def TLY_ENV_KV : Fld := ⟨0x1300038, 24, 20, .RO, .STATIC, 65536, 65536⟩
def TLY_ENV_VOLT_MV : Fld := ⟨0x1300038, 12, 12, .RO, .STATIC, 0, 0⟩
def TLY_ENV_TEMP : Fld := ⟨0x1300038, 0, 12, .RO, .STATIC, 0, 0⟩
/-! TLY_GAIN: 18_energy_and_power_states -/
def TLY_GAIN_KVS : Fld := ⟨0x1300040, 32, 20, .RO, .STATIC, 65536, 65536⟩
def TLY_GAIN_GAIN : Fld := ⟨0x1300040, 0, 20, .RO, .STATIC, 65536, 65536⟩
/-! TLY_MODULE_E: 18_energy_and_power_states -/
def TLY_MODULE_E_ENERGY : Fld := ⟨0x1300048, 0, 64, .RO, .STATIC, 0, 0⟩
/-! TLY_UNIT_E: 18_energy_and_power_states -/
def TLY_UNIT_E_ENERGY : Fld := ⟨0x1301000, 0, 64, .RO, .STATIC, 0, 0⟩
/-! FLT_CTRL: 19_faults_and_self_test -/
def FLT_CTRL_ENABLE : Fld := ⟨0x1400000, 0, 1, .RO, .STATIC, 0, 0⟩
/-! FLT_STATUS: 19_faults_and_self_test -/
def FLT_STATUS_WRITE_REFUSED : Fld := ⟨0x1400008, 31, 1, .W1C, .STATIC, 0, 0⟩
def FLT_STATUS_OPEN : Fld := ⟨0x1400008, 0, 28, .RO, .STATIC, 0, 0⟩
/-! FLT_CFG: 19_faults_and_self_test -/
def FLT_CFG_IRQ_EN : Fld := ⟨0x1400010, 16, 1, .RW, .LIVE, 0, 0⟩
def FLT_CFG_VECTOR : Fld := ⟨0x1400010, 0, 11, .RW, .LIVE, 0, 0⟩
/-! FLT_CNT: 19_faults_and_self_test -/
def FLT_CNT_RECORDS : Fld := ⟨0x1400018, 32, 32, .RC, .STATIC, 0, 0⟩
def FLT_CNT_MERGES : Fld := ⟨0x1400018, 16, 16, .RC, .STATIC, 0, 0⟩
def FLT_CNT_REFUSED_CLEARS : Fld := ⟨0x1400018, 0, 16, .RC, .STATIC, 0, 0⟩
/-! FLT_USTATE0: 19_faults_and_self_test -/
def FLT_USTATE0_UNIT0 : Fld := ⟨0x1400020, 0, 4, .RO, .STATIC, 1, 1⟩
def FLT_USTATE0_UNIT1 : Fld := ⟨0x1400020, 4, 4, .RO, .STATIC, 1, 1⟩
def FLT_USTATE0_UNIT2 : Fld := ⟨0x1400020, 8, 4, .RO, .STATIC, 1, 1⟩
def FLT_USTATE0_UNIT3 : Fld := ⟨0x1400020, 12, 4, .RO, .STATIC, 1, 1⟩
def FLT_USTATE0_UNIT4 : Fld := ⟨0x1400020, 16, 4, .RO, .STATIC, 1, 1⟩
def FLT_USTATE0_UNIT5 : Fld := ⟨0x1400020, 20, 4, .RO, .STATIC, 1, 1⟩
def FLT_USTATE0_UNIT6 : Fld := ⟨0x1400020, 24, 4, .RO, .STATIC, 1, 1⟩
def FLT_USTATE0_UNIT7 : Fld := ⟨0x1400020, 28, 4, .RO, .STATIC, 1, 1⟩
def FLT_USTATE0_UNIT8 : Fld := ⟨0x1400020, 32, 4, .RO, .STATIC, 1, 1⟩
def FLT_USTATE0_UNIT9 : Fld := ⟨0x1400020, 36, 4, .RO, .STATIC, 1, 1⟩
def FLT_USTATE0_UNIT10 : Fld := ⟨0x1400020, 40, 4, .RO, .STATIC, 1, 1⟩
def FLT_USTATE0_UNIT11 : Fld := ⟨0x1400020, 44, 4, .RO, .STATIC, 1, 1⟩
def FLT_USTATE0_UNIT12 : Fld := ⟨0x1400020, 48, 4, .RO, .STATIC, 1, 1⟩
def FLT_USTATE0_UNIT13 : Fld := ⟨0x1400020, 52, 4, .RO, .STATIC, 1, 1⟩
def FLT_USTATE0_UNIT14 : Fld := ⟨0x1400020, 56, 4, .RO, .STATIC, 1, 1⟩
def FLT_USTATE0_UNIT15 : Fld := ⟨0x1400020, 60, 4, .RO, .STATIC, 1, 1⟩
/-! FLT_USTATE1: 19_faults_and_self_test -/
def FLT_USTATE1_UNIT16 : Fld := ⟨0x1400028, 0, 4, .RO, .STATIC, 1, 1⟩
def FLT_USTATE1_UNIT17 : Fld := ⟨0x1400028, 4, 4, .RO, .STATIC, 1, 1⟩
def FLT_USTATE1_UNIT18 : Fld := ⟨0x1400028, 8, 4, .RO, .STATIC, 1, 1⟩
def FLT_USTATE1_UNIT19 : Fld := ⟨0x1400028, 12, 4, .RO, .STATIC, 1, 1⟩
def FLT_USTATE1_UNIT20 : Fld := ⟨0x1400028, 16, 4, .RO, .STATIC, 1, 1⟩
def FLT_USTATE1_UNIT21 : Fld := ⟨0x1400028, 20, 4, .RO, .STATIC, 1, 1⟩
def FLT_USTATE1_UNIT22 : Fld := ⟨0x1400028, 24, 4, .RO, .STATIC, 1, 1⟩
def FLT_USTATE1_UNIT23 : Fld := ⟨0x1400028, 28, 4, .RO, .STATIC, 1, 1⟩
def FLT_USTATE1_UNIT24 : Fld := ⟨0x1400028, 32, 4, .RO, .STATIC, 1, 1⟩
def FLT_USTATE1_UNIT25 : Fld := ⟨0x1400028, 36, 4, .RO, .STATIC, 1, 1⟩
def FLT_USTATE1_UNIT26 : Fld := ⟨0x1400028, 40, 4, .RO, .STATIC, 1, 1⟩
def FLT_USTATE1_UNIT27 : Fld := ⟨0x1400028, 44, 4, .RO, .STATIC, 1, 1⟩
/-! FLT_UREC_INFO: 19_faults_and_self_test -/
def FLT_UREC_INFO_SEQ : Fld := ⟨0x1401000, 32, 32, .RO, .STATIC, 0, 0⟩
def FLT_UREC_INFO_OPEN : Fld := ⟨0x1401000, 31, 1, .RO, .STATIC, 0, 0⟩
def FLT_UREC_INFO_PERSISTS : Fld := ⟨0x1401000, 30, 1, .RO, .STATIC, 0, 0⟩
def FLT_UREC_INFO_SEVERITY : Fld := ⟨0x1401000, 27, 3, .RO, .STATIC, 0, 0⟩
def FLT_UREC_INFO_REACTED : Fld := ⟨0x1401000, 21, 6, .RO, .STATIC, 0, 0⟩
def FLT_UREC_INFO_SOURCE : Fld := ⟨0x1401000, 16, 5, .RO, .STATIC, 0, 0⟩
def FLT_UREC_INFO_MERGES : Fld := ⟨0x1401000, 0, 16, .RO, .STATIC, 0, 0⟩
/-! FLT_UREC_CAUSE: 19_faults_and_self_test -/
def FLT_UREC_CAUSE_CAUSE : Fld := ⟨0x1401008, 0, 32, .RO, .STATIC, 0, 0⟩
/-! FLT_UREC_CLR: 19_faults_and_self_test -/
def FLT_UREC_CLR_CLEAR : Fld := ⟨0x140100C, 0, 1, .W1S, .LIVE, 0, 0⟩
/-! FLT_UREC_FIRST: 19_faults_and_self_test -/
def FLT_UREC_FIRST_FIRST : Fld := ⟨0x1401010, 0, 64, .RO, .STATIC, 0, 0⟩
/-! FLT_UREC_LAST: 19_faults_and_self_test -/
def FLT_UREC_LAST_LAST : Fld := ⟨0x1401018, 0, 64, .RO, .STATIC, 0, 0⟩
/-! FLT_UREC_ADDR: 19_faults_and_self_test -/
def FLT_UREC_ADDR_ADDR : Fld := ⟨0x1401020, 0, 64, .RO, .STATIC, 0, 0⟩
/-! FLT_UREC_DETAIL: 19_faults_and_self_test -/
def FLT_UREC_DETAIL_DETAIL : Fld := ⟨0x1401028, 0, 64, .RO, .STATIC, 0, 0⟩
/-! FLT_UREC_FN: 19_faults_and_self_test -/
def FLT_UREC_FN_FN_VALID : Fld := ⟨0x1401030, 15, 1, .RO, .STATIC, 0, 0⟩
def FLT_UREC_FN_FN : Fld := ⟨0x1401030, 0, 11, .RO, .STATIC, 0, 0⟩
/-! FLT_REACT: 19_faults_and_self_test -/
def FLT_REACT_SEVERITY : Fld := ⟨0x1404000, 8, 3, .RO, .STATIC, 0, 0⟩
def FLT_REACT_REACT : Fld := ⟨0x1404000, 0, 6, .RW, .LIVE, 0, 0⟩
/-! BST_CTRL: 19_faults_and_self_test -/
def BST_CTRL_SLICES : Fld := ⟨0x1500000, 8, 4, .RW, .LIVE, 9, 9⟩
def BST_CTRL_ENABLE : Fld := ⟨0x1500000, 0, 1, .RW, .LIVE, 0, 0⟩
/-! BST_STATUS: 19_faults_and_self_test -/
def BST_STATUS_WRITE_REFUSED : Fld := ⟨0x1500008, 31, 1, .W1C, .STATIC, 0, 0⟩
def BST_STATUS_NO_SPARE : Fld := ⟨0x1500008, 3, 1, .RO, .STATIC, 0, 0⟩
def BST_STATUS_COND_OK : Fld := ⟨0x1500008, 2, 1, .RO, .STATIC, 0, 0⟩
def BST_STATUS_RUNNING : Fld := ⟨0x1500008, 1, 1, .RO, .STATIC, 0, 0⟩
/-! BST_CNT: 19_faults_and_self_test -/
def BST_CNT_SLICES_DONE : Fld := ⟨0x1500010, 32, 32, .RC, .STATIC, 0, 0⟩
def BST_CNT_SKIPPED_FRAMES : Fld := ⟨0x1500010, 16, 16, .RC, .STATIC, 0, 0⟩
def BST_CNT_ABORTED : Fld := ⟨0x1500010, 8, 8, .RC, .STATIC, 0, 0⟩
def BST_CNT_FAILED : Fld := ⟨0x1500010, 0, 8, .RC, .STATIC, 0, 0⟩
/-! BST_PASS: 19_faults_and_self_test -/
def BST_PASS_PASSES : Fld := ⟨0x1500018, 48, 16, .RO, .STATIC, 0, 0⟩
def BST_PASS_LAST_PASS_FRAME : Fld := ⟨0x1500018, 0, 44, .RO, .STATIC, 0, 0⟩
/-! BST_SPARES: 19_faults_and_self_test -/
def BST_SPARES_REPAIRED : Fld := ⟨0x1500020, 16, 16, .RO, .STATIC, 0, 0⟩
def BST_SPARES_SPARES_LEFT : Fld := ⟨0x1500020, 0, 4, .RO, .STATIC, 12, 12⟩
/-! BST_LAST_FAIL: 19_faults_and_self_test -/
def BST_LAST_FAIL_FRAME : Fld := ⟨0x1500028, 20, 44, .RO, .STATIC, 0, 0⟩
def BST_LAST_FAIL_MACRO : Fld := ⟨0x1500028, 0, 11, .RO, .STATIC, 0, 0⟩
/-! BST_BOOT: 19_faults_and_self_test -/
def BST_BOOT_MAP_USED : Fld := ⟨0x1500030, 31, 1, .RO, .STATIC, 0, 0⟩
def BST_BOOT_FAILED_AT_START : Fld := ⟨0x1500030, 0, 11, .RO, .STATIC, 0, 0⟩
/-! SEC_STATUS: 20_security_and_debug -/
def SEC_STATUS_WRITE_REFUSED : Fld := ⟨0x1600000, 31, 1, .W1C, .STATIC, 0, 0⟩
def SEC_STATUS_ZERO_FAIL : Fld := ⟨0x1600000, 19, 1, .RO, .STATIC, 0, 0⟩
def SEC_STATUS_ZEROISED : Fld := ⟨0x1600000, 18, 1, .RO, .STATIC, 0, 0⟩
def SEC_STATUS_KEY0_REVOKED : Fld := ⟨0x1600000, 17, 1, .RO, .STATIC, 0, 0⟩
def SEC_STATUS_SLOT : Fld := ⟨0x1600000, 16, 1, .RO, .STATIC, 0, 0⟩
def SEC_STATUS_KEY_ID : Fld := ⟨0x1600000, 8, 2, .RO, .STATIC, 0, 0⟩
def SEC_STATUS_DEBUG : Fld := ⟨0x1600000, 4, 2, .RO, .STATIC, 0, 0⟩
def SEC_STATUS_LIFECYCLE : Fld := ⟨0x1600000, 0, 2, .RO, .STATIC, 0, 0⟩
/-! SEC_SVN: 20_security_and_debug -/
def SEC_SVN_FW_VERSION : Fld := ⟨0x1600008, 32, 32, .RO, .STATIC, 0, 0⟩
def SEC_SVN_FSVN : Fld := ⟨0x1600008, 16, 7, .RO, .STATIC, 0, 0⟩
def SEC_SVN_SVN : Fld := ⟨0x1600008, 0, 7, .RO, .STATIC, 0, 0⟩
/-! SEC_IDE: 20_security_and_debug -/
def SEC_IDE_INTEGRITY_FAIL : Fld := ⟨0x1600010, 16, 16, .RC, .STATIC, 0, 0⟩
def SEC_IDE_SECURE : Fld := ⟨0x1600010, 0, 4, .RO, .STATIC, 0, 0⟩
/-! SEC_DEBUG: 20_security_and_debug -/
def SEC_DEBUG_SESSIONS : Fld := ⟨0x1600018, 8, 8, .RO, .STATIC, 0, 0⟩
def SEC_DEBUG_FAILS : Fld := ⟨0x1600018, 0, 4, .RO, .STATIC, 0, 0⟩
/-! CNT_STATUS: 21_counters_and_sampling -/
def CNT_STATUS_WRITE_REFUSED : Fld := ⟨0x1700000, 31, 1, .W1C, .STATIC, 0, 0⟩
/-! CNT_WRAP_SUM: 21_counters_and_sampling -/
def CNT_WRAP_SUM_GROUPS : Fld := ⟨0x1700008, 0, 10, .RO, .STATIC, 0, 0⟩
/-! CNT_PAGE_TIME: 21_counters_and_sampling -/
def CNT_PAGE_TIME_WHEN : Fld := ⟨0x1710000, 0, 64, .RO, .STATIC, 0, 0⟩
/-! CNT_PAGE_STATUS: 21_counters_and_sampling -/
def CNT_PAGE_STATUS_EPOCH : Fld := ⟨0x1710008, 48, 16, .RO, .STATIC, 0, 0⟩
def CNT_PAGE_STATUS_ALLOWED : Fld := ⟨0x1710008, 0, 10, .RO, .STATIC, 0, 0⟩
/-! CNT_CTR: 21_counters_and_sampling -/
def CNT_CTR_WRAPPED : Fld := ⟨0x1710800, 63, 1, .W1C, .STATIC, 0, 0⟩
def CNT_CTR_COUNT : Fld := ⟨0x1710800, 0, 48, .RO, .STATIC, 0, 0⟩
/-! CNT_FN_ALLOW: 21_counters_and_sampling -/
def CNT_FN_ALLOW_GROUPS : Fld := ⟨0x1720000, 0, 10, .RW, .LIVE, 0, 1023⟩
/-! SMP_CTRL: 21_counters_and_sampling -/
def SMP_CTRL_ENABLE : Fld := ⟨0x1800000, 0, 1, .RW, .LIVE, 0, 0⟩
/-! SMP_STATUS: 21_counters_and_sampling -/
def SMP_STATUS_WRITE_REFUSED : Fld := ⟨0x1800008, 31, 1, .W1C, .STATIC, 0, 0⟩
def SMP_STATUS_TRACKED : Fld := ⟨0x1800008, 0, 7, .RO, .STATIC, 0, 0⟩
/-! SMP_FILTER: 21_counters_and_sampling -/
def SMP_FILTER_QUEUE_EN : Fld := ⟨0x1800010, 40, 1, .RW, .GUARDED, 0, 0⟩
def SMP_FILTER_QUEUE : Fld := ⟨0x1800010, 24, 16, .RW, .GUARDED, 0, 0⟩
def SMP_FILTER_FN_EN : Fld := ⟨0x1800010, 12, 1, .RW, .GUARDED, 0, 0⟩
def SMP_FILTER_FN : Fld := ⟨0x1800010, 0, 11, .RW, .GUARDED, 0, 0⟩
/-! SMP_INTERVAL: 21_counters_and_sampling -/
def SMP_INTERVAL_INTERVAL : Fld := ⟨0x1800018, 0, 24, .RW, .GUARDED, 4096, 4096⟩
/-! SMP_RING_BASE: 21_counters_and_sampling -/
def SMP_RING_BASE_ADDR : Fld := ⟨0x1800020, 6, 58, .RW, .GUARDED, 0, 0⟩
/-! SMP_RING_CFG: 21_counters_and_sampling -/
def SMP_RING_CFG_VECTOR : Fld := ⟨0x1800028, 16, 11, .RW, .LIVE, 0, 0⟩
def SMP_RING_CFG_IRQ_EN : Fld := ⟨0x1800028, 12, 1, .RW, .LIVE, 0, 0⟩
def SMP_RING_CFG_LOG2 : Fld := ⟨0x1800028, 8, 4, .RW, .GUARDED, 6, 6⟩
/-! SMP_RING_IDX: 21_counters_and_sampling -/
def SMP_RING_IDX_TAIL : Fld := ⟨0x180002C, 16, 16, .RO, .STATIC, 0, 0⟩
def SMP_RING_IDX_HEAD : Fld := ⟨0x180002C, 0, 16, .RW, .LIVE, 0, 0⟩
/-! SMP_CNT: 21_counters_and_sampling -/
def SMP_CNT_SAMPLES : Fld := ⟨0x1800030, 32, 32, .RC, .STATIC, 0, 0⟩
def SMP_CNT_SKIPPED : Fld := ⟨0x1800030, 16, 16, .RC, .STATIC, 0, 0⟩
def SMP_CNT_LOST : Fld := ⟨0x1800030, 0, 16, .RC, .STATIC, 0, 0⟩

end F

/-- The registers of block GEN (offset, width, array, selection, fields, block). -/
def regsGEN : List Reg :=
  [⟨0x0, 32, [], .plain, [F.GEN_ID_FAMILY, F.GEN_ID_STEPPING, F.GEN_ID_HERE_DIE], none, 0, F.GEN_STATUS_WRITE_REFUSED, 0⟩,
   ⟨0x8, 32, [], .plain, [F.GEN_CONFIG_ORDER, F.GEN_CONFIG_FUSED_MASK, F.GEN_CONFIG_USABLE_MASK], none, 0, F.GEN_STATUS_WRITE_REFUSED, 0⟩,
   ⟨0x10, 32, [], .plain, [F.GEN_DIE_STATE_DIE0, F.GEN_DIE_STATE_DIE1, F.GEN_DIE_STATE_DIE2, F.GEN_DIE_STATE_DIE3], none, 0, F.GEN_STATUS_WRITE_REFUSED, 0⟩,
   ⟨0x18, 64, [], .plain, [F.GEN_QUAD_MASK_USABLE], none, 0, F.GEN_STATUS_WRITE_REFUSED, 0⟩,
   ⟨0x20, 32, [], .plain, [F.GEN_D2D_STATUS_PAIR_UP, F.GEN_D2D_STATUS_SHEP_UP], none, 0, F.GEN_STATUS_WRITE_REFUSED, 0⟩,
   ⟨0x28, 32, [], .plain, [F.GEN_STATUS_WRITE_REFUSED, F.GEN_STATUS_DEGRADED, F.GEN_STATUS_CONFIG_SEQ], none, 0, F.GEN_STATUS_WRITE_REFUSED, 0⟩,
   ⟨0x30, 32, [], .plain, [F.GEN_BUF_PART_TRANSPORT_MIB, F.GEN_BUF_PART_DROVER_MIB], none, 0, F.GEN_STATUS_WRITE_REFUSED, 0⟩,
   ⟨0x38, 32, [], .plain, [F.GEN_MACRO_STATUS_MACROS_TOTAL, F.GEN_MACRO_STATUS_MACROS_UNUSABLE], none, 0, F.GEN_STATUS_WRITE_REFUSED, 0⟩]

/-- The registers of block HIF (offset, width, array, selection, fields, block). -/
def regsHIF : List Reg :=
  [⟨0x100000, 32, [], .plain, [F.HIF_CTRL_HOST_ATOMICS, F.HIF_CTRL_ENABLE], (some F.HIF_CTRL_ENABLE), 0, F.HIF_STATUS_WRITE_REFUSED, 0⟩,
   ⟨0x100008, 32, [], .plain, [F.HIF_STATUS_WRITE_REFUSED, F.HIF_STATUS_BIFURCATED, F.HIF_STATUS_LINK_UP], (some F.HIF_CTRL_ENABLE), 0, F.HIF_STATUS_WRITE_REFUSED, 0⟩,
   ⟨0x100010, 32, [], .plain, [F.HIF_LINK_STATUS_L0P, F.HIF_LINK_STATUS_WIDTH, F.HIF_LINK_STATUS_SPEED], (some F.HIF_CTRL_ENABLE), 0, F.HIF_STATUS_WRITE_REFUSED, 0⟩,
   ⟨0x100018, 64, [], .plain, [F.HIF_TAG_STATUS_QUARANTINED, F.HIF_TAG_STATUS_INBOUND_IN_USE, F.HIF_TAG_STATUS_GENERAL_IN_USE], (some F.HIF_CTRL_ENABLE), 0, F.HIF_STATUS_WRITE_REFUSED, 0⟩,
   ⟨0x100020, 32, [], .plain, [F.HIF_ACC_ERR_UNDECODED, F.HIF_ACC_ERR_BAD_SIZE], (some F.HIF_CTRL_ENABLE), 0, F.HIF_STATUS_WRITE_REFUSED, 0⟩,
   ⟨0x100024, 32, [], .plain, [F.HIF_CPL_ERR_LATE_QUARANTINED, F.HIF_CPL_ERR_UNEXPECTED], (some F.HIF_CTRL_ENABLE), 0, F.HIF_STATUS_WRITE_REFUSED, 0⟩,
   ⟨0x100028, 32, [], .plain, [F.HIF_CPL_TIMEOUT_TIMEOUT_US], (some F.HIF_CTRL_ENABLE), 0, F.HIF_STATUS_WRITE_REFUSED, 0⟩,
   ⟨0x100030, 32, [], .plain, [F.HIF_VF_PAGES_PAGES], (some F.HIF_CTRL_ENABLE), 0, F.HIF_STATUS_WRITE_REFUSED, 0⟩,
   ⟨0x101000, 64, [(1026, 0x8, 1)], .plain, [F.HIF_FN_TAGS_IN_USE, F.HIF_FN_STATE, F.HIF_FN_TAG_LIMIT], (some F.HIF_CTRL_ENABLE), 0, F.HIF_STATUS_WRITE_REFUSED, 0⟩]

/-- The registers of block AZX (offset, width, array, selection, fields, block). -/
def regsAZX : List Reg :=
  [⟨0x200000, 32, [], .fn, [F.AZX_CTRL_RSP_LOG2, F.AZX_CTRL_CMD_LOG2, F.AZX_CTRL_ENABLE], (some F.AZX_CTRL_ENABLE), 1, F.AZX_STATUS_WRITE_REFUSED, 1⟩,
   ⟨0x200008, 32, [], .fn, [F.AZX_STATUS_WRITE_REFUSED, F.AZX_STATUS_RING_ERR, F.AZX_STATUS_STALLED], (some F.AZX_CTRL_ENABLE), 1, F.AZX_STATUS_WRITE_REFUSED, 1⟩,
   ⟨0x200010, 64, [], .fn, [F.AZX_CMD_BASE_ADDR], (some F.AZX_CTRL_ENABLE), 1, F.AZX_STATUS_WRITE_REFUSED, 1⟩,
   ⟨0x200018, 64, [], .fn, [F.AZX_RSP_BASE_ADDR], (some F.AZX_CTRL_ENABLE), 1, F.AZX_STATUS_WRITE_REFUSED, 1⟩,
   ⟨0x200020, 32, [], .fn, [F.AZX_CMD_TAIL_INDEX], (some F.AZX_CTRL_ENABLE), 1, F.AZX_STATUS_WRITE_REFUSED, 1⟩,
   ⟨0x200024, 32, [], .fn, [F.AZX_CMD_HEAD_INDEX], (some F.AZX_CTRL_ENABLE), 1, F.AZX_STATUS_WRITE_REFUSED, 1⟩,
   ⟨0x200028, 32, [], .fn, [F.AZX_RSP_TAIL_INDEX], (some F.AZX_CTRL_ENABLE), 1, F.AZX_STATUS_WRITE_REFUSED, 1⟩,
   ⟨0x20002C, 32, [], .fn, [F.AZX_RSP_HEAD_INDEX], (some F.AZX_CTRL_ENABLE), 1, F.AZX_STATUS_WRITE_REFUSED, 1⟩]

/-- The registers of block ETL (offset, width, array, selection, fields, block). -/
def regsETL : List Reg :=
  [⟨0x300000, 32, [], .plain, [F.ETL_STATUS_WRITE_REFUSED, F.ETL_STATUS_SOURCE_PORT, F.ETL_STATUS_HOPS, F.ETL_STATUS_TIME_STATE, F.ETL_STATUS_PPS_LOCKED, F.ETL_STATUS_STANDBY_GM, F.ETL_STATUS_GM_DESIGNATED, F.ETL_STATUS_TIMED_OK], none, 0, F.ETL_STATUS_WRITE_REFUSED, 0⟩,
   ⟨0x300008, 64, [], .plain, [F.ETL_NOW_NS_NS], none, 0, F.ETL_STATUS_WRITE_REFUSED, 0⟩,
   ⟨0x300010, 32, [], .plain, [F.ETL_NOW_FRAC_FRAC], none, 0, F.ETL_STATUS_WRITE_REFUSED, 0⟩,
   ⟨0x300014, 32, [], .plain, [F.ETL_ERROR_E_D], none, 0, F.ETL_STATUS_WRITE_REFUSED, 0⟩,
   ⟨0x300018, 32, [], .plain, [F.ETL_RATE_TRIM_TRIM], none, 0, F.ETL_STATUS_WRITE_REFUSED, 0⟩,
   ⟨0x30001C, 32, [], .plain, [F.ETL_DIE_OFFSET_OFFSET], none, 0, F.ETL_STATUS_WRITE_REFUSED, 0⟩,
   ⟨0x300020, 64, [], .plain, [F.ETL_GM_EPOCH, F.ETL_GM_GM_ID], none, 0, F.ETL_STATUS_WRITE_REFUSED, 0⟩,
   ⟨0x300028, 64, [], .plain, [F.ETL_TOD_FRAME_FRAME], none, 0, F.ETL_STATUS_WRITE_REFUSED, 0⟩,
   ⟨0x300030, 64, [], .plain, [F.ETL_TOD_VALUE_SECONDS, F.ETL_TOD_VALUE_NANOS], none, 0, F.ETL_STATUS_WRITE_REFUSED, 0⟩,
   ⟨0x300038, 32, [], .plain, [F.ETL_MSG_ERR_PPS_GLITCH, F.ETL_MSG_ERR_CRC_ERR], none, 0, F.ETL_STATUS_WRITE_REFUSED, 0⟩,
   ⟨0x301000, 32, [(32, 0x10, 1)], .plain, [F.ETL_PORT_ASYM_ASYM], none, 0, F.ETL_STATUS_WRITE_REFUSED, 0⟩,
   ⟨0x301008, 64, [(32, 0x10, 1)], .plain, [F.ETL_PORT_MEAS_VALID, F.ETL_PORT_MEAS_SOURCE, F.ETL_PORT_MEAS_OFFSET, F.ETL_PORT_MEAS_LB_ERR, F.ETL_PORT_MEAS_DELAY], none, 0, F.ETL_STATUS_WRITE_REFUSED, 0⟩,
   ⟨0x302000, 64, [(32, 0x10, 1)], .plain, [F.ETL_ALARM_CMP_CMP], none, 0, F.ETL_STATUS_WRITE_REFUSED, 0⟩,
   ⟨0x302008, 64, [(32, 0x10, 1)], .plain, [F.ETL_ALARM_CTL_PERIOD, F.ETL_ALARM_CTL_OVERRUN, F.ETL_ALARM_CTL_FIRED, F.ETL_ALARM_CTL_ARM], none, 0, F.ETL_STATUS_WRITE_REFUSED, 0⟩]

/-- The registers of block LNE (offset, width, array, selection, fields, block). -/
def regsLNE : List Reg :=
  [⟨0x400000, 32, [(16, 0x10000, 1)], .plain, [F.LNE_QCTRL_TX_SWING, F.LNE_QCTRL_COMPAT, F.LNE_QCTRL_SPLIT, F.LNE_QCTRL_ENABLE], (some F.LNE_QCTRL_ENABLE), 1, F.LNE_QSTATUS_WRITE_REFUSED, 1⟩,
   ⟨0x400008, 32, [(16, 0x10000, 1)], .plain, [F.LNE_QSTATUS_WRITE_REFUSED, F.LNE_QSTATUS_GOOD_LANES, F.LNE_QSTATUS_POL_INV], (some F.LNE_QCTRL_ENABLE), 1, F.LNE_QSTATUS_WRITE_REFUSED, 1⟩,
   ⟨0x400010, 32, [(16, 0x10000, 2), (2, 0x8, 1)], .plain, [F.LNE_PORT_CTRL_UNC_LIMIT, F.LNE_PORT_CTRL_RETRAIN, F.LNE_PORT_CTRL_REQ_WIDTH], (some F.LNE_QCTRL_ENABLE), 2, F.LNE_QSTATUS_WRITE_REFUSED, 2⟩,
   ⟨0x400020, 32, [(16, 0x10000, 2), (2, 0x8, 1)], .plain, [F.LNE_PORT_STATUS_TX_SET, F.LNE_PORT_STATUS_RX_SET, F.LNE_PORT_STATUS_LANES, F.LNE_PORT_STATUS_WIDTH, F.LNE_PORT_STATUS_LAST_INITIATOR, F.LNE_PORT_STATUS_COMPAT, F.LNE_PORT_STATUS_STATE], (some F.LNE_QCTRL_ENABLE), 2, F.LNE_QSTATUS_WRITE_REFUSED, 2⟩,
   ⟨0x400030, 64, [(16, 0x10000, 2), (2, 0x8, 1)], .plain, [F.LNE_PORT_CNT_RETRAINS, F.LNE_PORT_CNT_RESYNCS, F.LNE_PORT_CNT_TRAIN_FAIL, F.LNE_PORT_CNT_SIM_START], (some F.LNE_QCTRL_ENABLE), 2, F.LNE_QSTATUS_WRITE_REFUSED, 2⟩,
   ⟨0x400100, 32, [(16, 0x10000, 4), (4, 0x20, 1)], .plain, [F.LNE_LANE_CTRL_PEAK_FIXED, F.LNE_LANE_CTRL_PEAK_SET], (some F.LNE_QCTRL_ENABLE), 4, F.LNE_QSTATUS_WRITE_REFUSED, 4⟩,
   ⟨0x400108, 32, [(16, 0x10000, 4), (4, 0x20, 1)], .plain, [F.LNE_LANE_STATUS_EYE_MARGIN, F.LNE_LANE_STATUS_PEAK, F.LNE_LANE_STATUS_TX_STATE, F.LNE_LANE_STATUS_RX_STATE, F.LNE_LANE_STATUS_ALIGNED], (some F.LNE_QCTRL_ENABLE), 4, F.LNE_QSTATUS_WRITE_REFUSED, 4⟩,
   ⟨0x400110, 64, [(16, 0x10000, 4), (4, 0x20, 1)], .plain, [F.LNE_LANE_CNT_CORR_SYM, F.LNE_LANE_CNT_UNC_BLK, F.LNE_LANE_CNT_STUFF_ERR, F.LNE_LANE_CNT_SYNC_LOSS], (some F.LNE_QCTRL_ENABLE), 4, F.LNE_QSTATUS_WRITE_REFUSED, 4⟩,
   ⟨0x400118, 32, [(16, 0x10000, 4), (4, 0x20, 1)], .plain, [F.LNE_LANE_STUFFED_STUFFED], (some F.LNE_QCTRL_ENABLE), 4, F.LNE_QSTATUS_WRITE_REFUSED, 4⟩]

/-- The registers of block LNK (offset, width, array, selection, fields, block). -/
def regsLNK : List Reg :=
  [⟨0x500000, 32, [(32, 0x100, 1)], .plain, [F.LNK_PORT_CTRL_REPLAY_LIMIT, F.LNK_PORT_CTRL_REPLAY_TO, F.LNK_PORT_CTRL_FLUSH, F.LNK_PORT_CTRL_ENABLE], (some F.LNK_PORT_CTRL_ENABLE), 1, F.LNK_PORT_STATUS_WRITE_REFUSED, 1⟩,
   ⟨0x500008, 32, [(32, 0x100, 1)], .plain, [F.LNK_PORT_STATUS_WRITE_REFUSED, F.LNK_PORT_STATUS_FLUSH_IGNORED, F.LNK_PORT_STATUS_CREDIT_DEFAULTED, F.LNK_PORT_STATUS_UNACKED, F.LNK_PORT_STATUS_STUCK, F.LNK_PORT_STATUS_FRESH, F.LNK_PORT_STATUS_LINK_STATE], (some F.LNK_PORT_CTRL_ENABLE), 1, F.LNK_PORT_STATUS_WRITE_REFUSED, 1⟩,
   ⟨0x500010, 64, [(32, 0x100, 1)], .plain, [F.LNK_CREDIT_BYP, F.LNK_CREDIT_TIM, F.LNK_CREDIT_RSP, F.LNK_CREDIT_REQ], (some F.LNK_PORT_CTRL_ENABLE), 1, F.LNK_PORT_STATUS_WRITE_REFUSED, 1⟩,
   ⟨0x500018, 64, [(32, 0x100, 1)], .plain, [F.LNK_PEER_VALID, F.LNK_PEER_EID, F.LNK_PEER_PORT_CODE], (some F.LNK_PORT_CTRL_ENABLE), 1, F.LNK_PORT_STATUS_WRITE_REFUSED, 1⟩,
   ⟨0x500020, 64, [(32, 0x100, 1)], .plain, [F.LNK_CNT0_CRC_ERR, F.LNK_CNT0_OUT_OF_SEQ, F.LNK_CNT0_NAK_SENT, F.LNK_CNT0_REPLAYS], (some F.LNK_PORT_CTRL_ENABLE), 1, F.LNK_PORT_STATUS_WRITE_REFUSED, 1⟩,
   ⟨0x500028, 64, [(32, 0x100, 1)], .plain, [F.LNK_CNT1_REPLAY_TIMEOUTS, F.LNK_CNT1_ACK_IGNORED, F.LNK_CNT1_ABORTS, F.LNK_CNT1_FRAME_ERR, F.LNK_CNT1_CREDIT_OVERRUN], (some F.LNK_PORT_CTRL_ENABLE), 1, F.LNK_PORT_STATUS_WRITE_REFUSED, 1⟩,
   ⟨0x500030, 64, [(32, 0x100, 1)], .plain, [F.LNK_CNT2_FLUSHED_FLITS, F.LNK_CNT2_DOWN_DISCARD], (some F.LNK_PORT_CTRL_ENABLE), 1, F.LNK_PORT_STATUS_WRITE_REFUSED, 1⟩,
   ⟨0x504000, 64, [(4, 0x8, 1)], .plain, [F.LNK_D2D_STATUS_FAILED, F.LNK_D2D_STATUS_FIRST_LANE, F.LNK_D2D_STATUS_PKTS_DISCARDED], none, 0, F.LNK_PORT_STATUS_WRITE_REFUSED, 0⟩]

/-- The registers of block RTE (offset, width, array, selection, fields, block). -/
def regsRTE : List Reg :=
  [⟨0x600000, 32, [], .plain, [F.RTE_CTRL_ENABLE], (some F.RTE_CTRL_ENABLE), 0, F.RTE_STATUS_WRITE_REFUSED, 0⟩,
   ⟨0x600008, 32, [], .plain, [F.RTE_STATUS_WRITE_REFUSED], (some F.RTE_CTRL_ENABLE), 0, F.RTE_STATUS_WRITE_REFUSED, 0⟩,
   ⟨0x600010, 32, [], .plain, [F.RTE_CONG_CTRL_MARK, F.RTE_CONG_CTRL_STEP], (some F.RTE_CTRL_ENABLE), 0, F.RTE_STATUS_WRITE_REFUSED, 0⟩,
   ⟨0x600018, 64, [], .plain, [F.RTE_INJ_CTRL_RATE, F.RTE_INJ_CTRL_HARD, F.RTE_INJ_CTRL_SOFT], (some F.RTE_CTRL_ENABLE), 0, F.RTE_STATUS_WRITE_REFUSED, 0⟩,
   ⟨0x600020, 32, [], .plain, [F.RTE_PATH_CTRL_AGE_US], (some F.RTE_CTRL_ENABLE), 0, F.RTE_STATUS_WRITE_REFUSED, 0⟩,
   ⟨0x600028, 32, [], .plain, [F.RTE_GEN_PATH_GEN], (some F.RTE_CTRL_ENABLE), 0, F.RTE_STATUS_WRITE_REFUSED, 0⟩,
   ⟨0x60002C, 32, [], .plain, [F.RTE_GEN_PASS_GEN], (some F.RTE_CTRL_ENABLE), 0, F.RTE_STATUS_WRITE_REFUSED, 0⟩,
   ⟨0x600030, 32, [], .plain, [F.RTE_GEN_FLOCK_GEN], (some F.RTE_CTRL_ENABLE), 0, F.RTE_STATUS_WRITE_REFUSED, 0⟩,
   ⟨0x600038, 64, [], .plain, [F.RTE_ERR_CNT0_ROUTE_ERR, F.RTE_ERR_CNT0_BAD_CODE, F.RTE_ERR_CNT0_BAD_PORT, F.RTE_ERR_CNT0_DELIVER_ERR], (some F.RTE_CTRL_ENABLE), 0, F.RTE_STATUS_WRITE_REFUSED, 0⟩,
   ⟨0x600040, 64, [], .plain, [F.RTE_ERR_CNT1_PASS_EMPTY, F.RTE_ERR_CNT1_TIM_PASS, F.RTE_ERR_CNT1_FLOCK_MISS, F.RTE_ERR_CNT1_NOTICE_DROP], (some F.RTE_CTRL_ENABLE), 0, F.RTE_STATUS_WRITE_REFUSED, 0⟩,
   ⟨0x601000, 64, [(16, 0x10, 1)], .plain, [F.RTE_PASS_LO_MEMBERS], (some F.RTE_CTRL_ENABLE), 0, F.RTE_STATUS_WRITE_REFUSED, 0⟩,
   ⟨0x601008, 64, [(16, 0x10, 1)], .plain, [F.RTE_PASS_HI_MEMBERS], (some F.RTE_CTRL_ENABLE), 0, F.RTE_STATUS_WRITE_REFUSED, 0⟩,
   ⟨0x602000, 64, [(32, 0x40, 1)], .plain, [F.RTE_PORT_FLITS_FLITS_OUT], (some F.RTE_CTRL_ENABLE), 0, F.RTE_STATUS_WRITE_REFUSED, 0⟩,
   ⟨0x602008, 64, [(32, 0x40, 1)], .plain, [F.RTE_PORT_PKTS_PKTS_OUT], (some F.RTE_CTRL_ENABLE), 0, F.RTE_STATUS_WRITE_REFUSED, 0⟩,
   ⟨0x602020, 64, [(32, 0x40, 1)], .plain, [F.RTE_PORT_STALL_STALL_CYCLES], (some F.RTE_CTRL_ENABLE), 0, F.RTE_STATUS_WRITE_REFUSED, 0⟩,
   ⟨0x602010, 64, [(32, 0x40, 1)], .plain, [F.RTE_PORT_DEPTH_BYP, F.RTE_PORT_DEPTH_TIM, F.RTE_PORT_DEPTH_RSP, F.RTE_PORT_DEPTH_REQ], (some F.RTE_CTRL_ENABLE), 0, F.RTE_STATUS_WRITE_REFUSED, 0⟩,
   ⟨0x602018, 64, [(32, 0x40, 1)], .plain, [F.RTE_PORT_PEAK_BYP, F.RTE_PORT_PEAK_TIM, F.RTE_PORT_PEAK_RSP, F.RTE_PORT_PEAK_REQ], (some F.RTE_CTRL_ENABLE), 0, F.RTE_STATUS_WRITE_REFUSED, 0⟩,
   ⟨0x602028, 32, [(32, 0x40, 1)], .plain, [F.RTE_PORT_SKIP_FLOCK_SKIPS, F.RTE_PORT_SKIP_PASS_CHOSEN], (some F.RTE_CTRL_ENABLE), 0, F.RTE_STATUS_WRITE_REFUSED, 0⟩]

/-- The registers of block CAL (offset, width, array, selection, fields, block). -/
def regsCAL : List Reg :=
  [⟨0x800000, 32, [], .plain, [F.CAL_CTRL_ENABLE], (some F.CAL_CTRL_ENABLE), 0, F.CAL_STATUS_WRITE_REFUSED, 0⟩,
   ⟨0x800008, 32, [], .plain, [F.CAL_STATUS_WRITE_REFUSED, F.CAL_STATUS_SWITCH_PENDING], (some F.CAL_CTRL_ENABLE), 0, F.CAL_STATUS_WRITE_REFUSED, 0⟩,
   ⟨0x800010, 64, [], .plain, [F.CAL_GEN_SHADOW_GEN, F.CAL_GEN_ACTIVE_GEN], (some F.CAL_CTRL_ENABLE), 0, F.CAL_STATUS_WRITE_REFUSED, 0⟩,
   ⟨0x800018, 32, [], .plain, [F.CAL_GEN_RES_GEN], (some F.CAL_CTRL_ENABLE), 0, F.CAL_STATUS_WRITE_REFUSED, 0⟩,
   ⟨0x800020, 64, [], .plain, [F.CAL_SWITCH_VALID, F.CAL_SWITCH_FRAME], (some F.CAL_CTRL_ENABLE), 0, F.CAL_STATUS_WRITE_REFUSED, 0⟩,
   ⟨0x800028, 64, [], .plain, [F.CAL_ADMIT_CNT_ACCEPTED, F.CAL_ADMIT_CNT_REFUSED], (some F.CAL_CTRL_ENABLE), 0, F.CAL_STATUS_WRITE_REFUSED, 0⟩,
   ⟨0x800030, 64, [], .plain, [F.CAL_DEST_CNT_ON_TIME, F.CAL_DEST_CNT_LATE_DROPS], (some F.CAL_CTRL_ENABLE), 0, F.CAL_STATUS_WRITE_REFUSED, 0⟩,
   ⟨0x800040, 32, [], .plain, [F.CAL_RES_SEL_RES], (some F.CAL_CTRL_ENABLE), 0, F.CAL_STATUS_WRITE_REFUSED, 0⟩,
   ⟨0x800048, 64, [], .calres, [F.CAL_RES_VIEW0_POSTS, F.CAL_RES_VIEW0_ROLE], (some F.CAL_CTRL_ENABLE), 0, F.CAL_STATUS_WRITE_REFUSED, 0⟩,
   ⟨0x800050, 64, [], .calres, [F.CAL_RES_VIEW1_LAST_RELEASE], (some F.CAL_CTRL_ENABLE), 0, F.CAL_STATUS_WRITE_REFUSED, 0⟩,
   ⟨0x800058, 64, [], .calres, [F.CAL_RES_VIEW2_TOK_LAST], (some F.CAL_CTRL_ENABLE), 0, F.CAL_STATUS_WRITE_REFUSED, 0⟩,
   ⟨0x801000, 32, [(32, 0x20, 1)], .plain, [F.CAL_PORT_CTRL_REPLAY_ALLOW], (some F.CAL_CTRL_ENABLE), 0, F.CAL_STATUS_WRITE_REFUSED, 0⟩,
   ⟨0x801008, 32, [(32, 0x20, 1)], .plain, [F.CAL_PORT_STATE_CAP_SHADOW, F.CAL_PORT_STATE_CAP_ACTIVE, F.CAL_PORT_STATE_OWNED], (some F.CAL_CTRL_ENABLE), 0, F.CAL_STATUS_WRITE_REFUSED, 0⟩,
   ⟨0x801010, 64, [(32, 0x20, 1)], .plain, [F.CAL_PORT_CNT_NO_SLOT, F.CAL_PORT_CNT_SWITCH_DISCARD, F.CAL_PORT_CNT_REPLAY_EXCESS], (some F.CAL_CTRL_ENABLE), 0, F.CAL_STATUS_WRITE_REFUSED, 0⟩,
   ⟨0x880000, 32, [(32, 0x4000, 4096), (2, 0x2000, 2048), (2048, 0x4, 1)], .plain, [F.CAL_SLOT_SLOT_ODD, F.CAL_SLOT_SLOT_EVEN], (some F.CAL_CTRL_ENABLE), 0, F.CAL_STATUS_WRITE_REFUSED, 0⟩]

/-- The registers of block CND (offset, width, array, selection, fields, block). -/
def regsCND : List Reg :=
  [⟨0x900000, 32, [], .plain, [F.CND_CTRL_ENABLE], (some F.CND_CTRL_ENABLE), 0, F.CND_STATUS_WRITE_REFUSED, 0⟩,
   ⟨0x900008, 32, [], .plain, [F.CND_STATUS_WRITE_REFUSED, F.CND_STATUS_RANGE_CONFLICT, F.CND_STATUS_PEN_FULL], (some F.CND_CTRL_ENABLE), 0, F.CND_STATUS_WRITE_REFUSED, 0⟩,
   ⟨0x900010, 64, [], .plain, [F.CND_TIMING_TRK_IDLE_US, F.CND_TIMING_NR_BACKOFF_NS, F.CND_TIMING_SPRAY_MIN_KIB], (some F.CND_CTRL_ENABLE), 0, F.CND_STATUS_WRITE_REFUSED, 0⟩,
   ⟨0x900018, 64, [], .plain, [F.CND_PEN_PKTS, F.CND_PEN_BYTES], (some F.CND_CTRL_ENABLE), 0, F.CND_STATUS_WRITE_REFUSED, 0⟩,
   ⟨0x900020, 64, [], .plain, [F.CND_CACHE_PINNED, F.CND_CACHE_RESIDENT], (some F.CND_CTRL_ENABLE), 0, F.CND_STATUS_WRITE_REFUSED, 0⟩,
   ⟨0x900028, 32, [], .plain, [F.CND_TRK_IN_USE], (some F.CND_CTRL_ENABLE), 0, F.CND_STATUS_WRITE_REFUSED, 0⟩,
   ⟨0x900030, 64, [], .plain, [F.CND_CNT0_FORMAT_ERR, F.CND_CNT0_PASTURE_MISS, F.CND_CNT0_AUTH_FAIL, F.CND_CNT0_NO_CONDUIT], (some F.CND_CTRL_ENABLE), 0, F.CND_STATUS_WRITE_REFUSED, 0⟩,
   ⟨0x900038, 64, [], .plain, [F.CND_CNT1_NR_SENT, F.CND_CNT1_ACK_DISCARD, F.CND_CNT1_STALE, F.CND_CNT1_DUPS, F.CND_CNT1_GATE_EMPTY], (some F.CND_CTRL_ENABLE), 0, F.CND_STATUS_WRITE_REFUSED, 0⟩,
   ⟨0x900040, 64, [], .plain, [F.CND_CNT2_FETCH_CTX, F.CND_CNT2_FETCH_HOST], (some F.CND_CTRL_ENABLE), 0, F.CND_STATUS_WRITE_REFUSED, 0⟩,
   ⟨0x900048, 64, [], .plain, [F.CND_STRAY_DEF_WINDOW, F.CND_STRAY_DEF_RETRY_LIMIT, F.CND_STRAY_DEF_RETRY_BASE_US, F.CND_STRAY_DEF_SPRAY, F.CND_STRAY_DEF_ADAPT], (some F.CND_CTRL_ENABLE), 0, F.CND_STATUS_WRITE_REFUSED, 0⟩,
   ⟨0x910000, 64, [(1026, 0x20, 1)], .plain, [F.CND_FN_RANGE_COUNT, F.CND_FN_RANGE_BASE], (some F.CND_FN_CTL_ENABLE), 1, F.CND_FN_STATUS_WRITE_REFUSED, 1⟩,
   ⟨0x910008, 64, [(1026, 0x20, 1)], .plain, [F.CND_FN_GATE_GATE_COUNT, F.CND_FN_GATE_GATE_READY, F.CND_FN_GATE_GATE_TARGET], (some F.CND_FN_CTL_ENABLE), 1, F.CND_FN_STATUS_WRITE_REFUSED, 1⟩,
   ⟨0x910010, 64, [(1026, 0x20, 1)], .plain, [F.CND_FN_SPILL_ADDR, F.CND_FN_SPILL_SPILL_EN], (some F.CND_FN_CTL_ENABLE), 1, F.CND_FN_STATUS_WRITE_REFUSED, 1⟩,
   ⟨0x910018, 32, [(1026, 0x20, 1)], .plain, [F.CND_FN_STATUS_WRITE_REFUSED, F.CND_FN_STATUS_EPOCH], (some F.CND_FN_CTL_ENABLE), 1, F.CND_FN_STATUS_WRITE_REFUSED, 1⟩,
   ⟨0x91001C, 32, [(1026, 0x20, 1)], .plain, [F.CND_FN_CTL_ENABLE], (some F.CND_FN_CTL_ENABLE), 1, F.CND_FN_STATUS_WRITE_REFUSED, 1⟩]

/-- The registers of block WQU (offset, width, array, selection, fields, block). -/
def regsWQU : List Reg :=
  [⟨0xA00000, 32, [], .plain, [F.WQU_CTRL_ENABLE], (some F.WQU_CTRL_ENABLE), 0, F.WQU_STATUS_WRITE_REFUSED, 0⟩,
   ⟨0xA00008, 32, [], .plain, [F.WQU_STATUS_WRITE_REFUSED, F.WQU_STATUS_SLOTS_IN_USE], (some F.WQU_CTRL_ENABLE), 0, F.WQU_STATUS_WRITE_REFUSED, 0⟩,
   ⟨0xA00010, 64, [], .plain, [F.WQU_CNT_MALFORMED, F.WQU_CNT_LATE_CPL, F.WQU_CNT_CRING_OVERFLOWS], (some F.WQU_CTRL_ENABLE), 0, F.WQU_STATUS_WRITE_REFUSED, 0⟩,
   ⟨0xA00020, 64, [], .plain, [F.WQU_FMR_BASE_ADDR], (some F.WQU_FMR_CFG_ENABLE), 0, F.WQU_STATUS_WRITE_REFUSED, 0⟩,
   ⟨0xA00028, 64, [], .plain, [F.WQU_FMR_CFG_DROPPED, F.WQU_FMR_CFG_HEAD, F.WQU_FMR_CFG_TAIL, F.WQU_FMR_CFG_LOG2, F.WQU_FMR_CFG_ENABLE], (some F.WQU_FMR_CFG_ENABLE), 0, F.WQU_STATUS_WRITE_REFUSED, 0⟩,
   ⟨0xA01000, 32, [], .fn, [F.WQU_FN_STATUS_WRITE_REFUSED], (some F.WQU_CTRL_ENABLE), 0, F.WQU_FN_STATUS_WRITE_REFUSED, 1⟩,
   ⟨0xA01004, 32, [], .fn, [F.WQU_FN_RX_RX_EN, F.WQU_FN_RX_RX_CRING], (some F.WQU_CTRL_ENABLE), 0, F.WQU_FN_STATUS_WRITE_REFUSED, 1⟩,
   ⟨0xA01008, 32, [], .fn, [F.WQU_QSEL_KIND, F.WQU_QSEL_NUMBER], (some F.WQU_CTRL_ENABLE), 0, F.WQU_FN_STATUS_WRITE_REFUSED, 1⟩,
   ⟨0xA01010, 64, [], .wqu, [F.WQU_QBASE_ADDR], (some F.WQU_CTRL_ENABLE), 0, F.WQU_FN_STATUS_WRITE_REFUSED, 1⟩,
   ⟨0xA01020, 32, [], .wqu, [F.WQU_QCMD_RESET, F.WQU_QCMD_DISABLE, F.WQU_QCMD_ENABLE], (some F.WQU_CTRL_ENABLE), 0, F.WQU_FN_STATUS_WRITE_REFUSED, 1⟩,
   ⟨0xA01018, 64, [], .wquQ, [F.WQU_QCFG_Q_LOG2, F.WQU_QCFG_Q_GROUP, F.WQU_QCFG_Q_PREFETCH, F.WQU_QCFG_Q_BURST, F.WQU_QCFG_Q_WEIGHT], (some F.WQU_CTRL_ENABLE), 0, F.WQU_FN_STATUS_WRITE_REFUSED, 1⟩,
   ⟨0xA01018, 64, [], .wquR, [F.WQU_QCFG_R_LOG2, F.WQU_QCFG_R_VECTOR], (some F.WQU_CTRL_ENABLE), 0, F.WQU_FN_STATUS_WRITE_REFUSED, 1⟩,
   ⟨0xA01018, 64, [], .wquG, [F.WQU_QCFG_G_OVERHEAD, F.WQU_QCFG_G_RATE_MBPS, F.WQU_QCFG_G_BURST_KIB, F.WQU_QCFG_G_QUANTUM_64, F.WQU_QCFG_G_RESET_FULL, F.WQU_QCFG_G_SHAPE_EN], (some F.WQU_CTRL_ENABLE), 0, F.WQU_FN_STATUS_WRITE_REFUSED, 1⟩,
   ⟨0xA01028, 64, [], .wqu, [F.WQU_QSTATE_TAIL, F.WQU_QSTATE_FETCH, F.WQU_QSTATE_TAKEN_OPEN, F.WQU_QSTATE_CAUSE, F.WQU_QSTATE_STATE], (some F.WQU_CTRL_ENABLE), 0, F.WQU_FN_STATUS_WRITE_REFUSED, 1⟩,
   ⟨0xA01030, 64, [], .fn, [F.WQU_EVR_BASE_ADDR], (some F.WQU_EVR_CFG_ENABLE), 1, F.WQU_FN_STATUS_WRITE_REFUSED, 1⟩,
   ⟨0xA01038, 32, [], .fn, [F.WQU_EVR_CFG_LOG2, F.WQU_EVR_CFG_ENABLE], (some F.WQU_EVR_CFG_ENABLE), 1, F.WQU_FN_STATUS_WRITE_REFUSED, 1⟩,
   ⟨0xA0103C, 32, [], .fn, [F.WQU_EVR_HEAD_INDEX], (some F.WQU_EVR_CFG_ENABLE), 1, F.WQU_FN_STATUS_WRITE_REFUSED, 1⟩,
   ⟨0xA01040, 64, [], .fn, [F.WQU_EVR_STATUS_LOST, F.WQU_EVR_STATUS_TAIL], (some F.WQU_EVR_CFG_ENABLE), 1, F.WQU_FN_STATUS_WRITE_REFUSED, 1⟩]

/-- The registers of block RMA (offset, width, array, selection, fields, block). -/
def regsRMA : List Reg :=
  [⟨0xB00000, 32, [], .plain, [F.RMA_CTRL_ENABLE], (some F.RMA_CTRL_ENABLE), 0, F.RMA_STATUS_WRITE_REFUSED, 0⟩,
   ⟨0xB00008, 32, [], .plain, [F.RMA_STATUS_WRITE_REFUSED], (some F.RMA_CTRL_ENABLE), 0, F.RMA_STATUS_WRITE_REFUSED, 0⟩,
   ⟨0xB00010, 64, [], .plain, [F.RMA_TB_CTRL_CONDUIT_MAX, F.RMA_TB_CTRL_RESERVE], (some F.RMA_CTRL_ENABLE), 0, F.RMA_STATUS_WRITE_REFUSED, 0⟩,
   ⟨0xB00018, 64, [], .plain, [F.RMA_TB_STATUS_TOTAL, F.RMA_TB_STATUS_IN_USE, F.RMA_TB_STATUS_RECORDS], (some F.RMA_CTRL_ENABLE), 0, F.RMA_STATUS_WRITE_REFUSED, 0⟩,
   ⟨0xB00020, 64, [], .plain, [F.RMA_CNT0_PUT_PKTS, F.RMA_CNT0_GET_SEGS], (some F.RMA_CTRL_ENABLE), 0, F.RMA_STATUS_WRITE_REFUSED, 0⟩,
   ⟨0xB00028, 64, [], .plain, [F.RMA_CNT1_ATOMICS, F.RMA_CNT1_HOST_ERR, F.RMA_CNT1_REFUSED], (some F.RMA_CTRL_ENABLE), 0, F.RMA_STATUS_WRITE_REFUSED, 0⟩,
   ⟨0xB00040, 32, [], .plain, [F.RMA_TLAND_SEL_RES], (some F.RMA_CTRL_ENABLE), 0, F.RMA_STATUS_WRITE_REFUSED, 0⟩,
   ⟨0xB00048, 64, [], .tland, [F.RMA_TLAND_ADDR_ADDR], (some F.RMA_TLAND_CFG_ENABLE), 1, F.RMA_STATUS_WRITE_REFUSED, 0⟩,
   ⟨0xB00050, 32, [], .tland, [F.RMA_TLAND_CFG_XCTX, F.RMA_TLAND_CFG_SLOT_LOG2, F.RMA_TLAND_CFG_COUNT_LOG2, F.RMA_TLAND_CFG_ENABLE], (some F.RMA_TLAND_CFG_ENABLE), 1, F.RMA_STATUS_WRITE_REFUSED, 0⟩]

/-- The registers of block CRK (offset, width, array, selection, fields, block). -/
def regsCRK : List Reg :=
  [⟨0xC00000, 32, [], .plain, [F.CRK_CTRL_PROBE_MS, F.CRK_CTRL_PRIO_EN, F.CRK_CTRL_ENABLE], (some F.CRK_CTRL_ENABLE), 0, F.CRK_STATUS_WRITE_REFUSED, 0⟩,
   ⟨0xC00008, 32, [], .plain, [F.CRK_STATUS_WRITE_REFUSED], (some F.CRK_CTRL_ENABLE), 0, F.CRK_STATUS_WRITE_REFUSED, 0⟩,
   ⟨0xC00010, 64, [], .plain, [F.CRK_TABLE_WAITERS, F.CRK_TABLE_LOCKS], (some F.CRK_CTRL_ENABLE), 0, F.CRK_STATUS_WRITE_REFUSED, 0⟩,
   ⟨0xC00018, 64, [], .plain, [F.CRK_CNT_GRANTS, F.CRK_CNT_ABANDONS, F.CRK_CNT_REFUSED], (some F.CRK_CTRL_ENABLE), 0, F.CRK_STATUS_WRITE_REFUSED, 0⟩,
   ⟨0xC10000, 32, [(64, 0x1000, 1)], .plain, [F.CRK_SLOT_CFG_FN, F.CRK_SLOT_CFG_ENABLE], (some F.CRK_SLOT_CFG_ENABLE), 1, F.CRK_STATUS_WRITE_REFUSED, 0⟩,
   ⟨0xC10008, 64, [(64, 0x1000, 1)], .plain, [F.CRK_SLOT_LOCK_ADDR], (some F.CRK_SLOT_CFG_ENABLE), 1, F.CRK_STATUS_WRITE_REFUSED, 0⟩,
   ⟨0xC10010, 64, [(64, 0x1000, 1)], .plain, [F.CRK_SLOT_REQ_OWNER_TAG, F.CRK_SLOT_REQ_PRIORITY, F.CRK_SLOT_REQ_CONDUIT], (some F.CRK_SLOT_CFG_ENABLE), 1, F.CRK_STATUS_WRITE_REFUSED, 0⟩,
   ⟨0xC10018, 32, [(64, 0x1000, 1)], .plain, [F.CRK_SLOT_CMD_RXCTX, F.CRK_SLOT_CMD_RELEASE, F.CRK_SLOT_CMD_ACQUIRE], (some F.CRK_SLOT_CFG_ENABLE), 1, F.CRK_STATUS_WRITE_REFUSED, 0⟩,
   ⟨0xC10020, 64, [(64, 0x1000, 1)], .plain, [F.CRK_SLOT_WAIT_WAITING, F.CRK_SLOT_WAIT_HELD, F.CRK_SLOT_WAIT_DETAIL, F.CRK_SLOT_WAIT_STATUS], (some F.CRK_SLOT_CFG_ENABLE), 1, F.CRK_STATUS_WRITE_REFUSED, 0⟩]

/-- The registers of block MTC (offset, width, array, selection, fields, block). -/
def regsMTC : List Reg :=
  [⟨0xD00000, 32, [], .plain, [F.MTC_CTRL_EAGER_KIB, F.MTC_CTRL_ENABLE], (some F.MTC_CTRL_ENABLE), 0, F.MTC_STATUS_WRITE_REFUSED, 0⟩,
   ⟨0xD00008, 32, [], .plain, [F.MTC_STATUS_WRITE_REFUSED, F.MTC_STATUS_STORE_FULL, F.MTC_STATUS_POOL_FULL], (some F.MTC_CTRL_ENABLE), 0, F.MTC_STATUS_WRITE_REFUSED, 0⟩,
   ⟨0xD00010, 64, [], .plain, [F.MTC_STORE_BASE_OFFSET], (some F.MTC_STORE_CFG_ENABLE), 0, F.MTC_STATUS_WRITE_REFUSED, 0⟩,
   ⟨0xD00018, 32, [], .plain, [F.MTC_STORE_CFG_SIZE_MIB, F.MTC_STORE_CFG_ENABLE], (some F.MTC_STORE_CFG_ENABLE), 0, F.MTC_STATUS_WRITE_REFUSED, 0⟩,
   ⟨0xD00020, 64, [], .plain, [F.MTC_USE_STORE_USED, F.MTC_USE_ENTRIES], (some F.MTC_CTRL_ENABLE), 0, F.MTC_STATUS_WRITE_REFUSED, 0⟩,
   ⟨0xD00028, 64, [], .plain, [F.MTC_CNT0_MATCHED, F.MTC_CNT0_UNEXPECTED], (some F.MTC_CTRL_ENABLE), 0, F.MTC_STATUS_WRITE_REFUSED, 0⟩,
   ⟨0xD00030, 64, [], .plain, [F.MTC_CNT1_NO_STORE, F.MTC_CNT1_TRUNCATED, F.MTC_CNT1_RING_WRITES, F.MTC_CNT1_REFUSED], (some F.MTC_CTRL_ENABLE), 0, F.MTC_STATUS_WRITE_REFUSED, 0⟩,
   ⟨0xD01000, 32, [], .fn, [F.MTC_DSEL_DOMAIN], (some F.MTC_CTRL_ENABLE), 0, F.MTC_STATUS_WRITE_REFUSED, 0⟩,
   ⟨0xD01008, 64, [], .mtc, [F.MTC_DCFG_PASTURE, F.MTC_DCFG_FN, F.MTC_DCFG_MAX_KENTRIES], (some F.MTC_DCTL_ENABLE), 1, F.MTC_DSTATUS_WRITE_REFUSED, 1⟩,
   ⟨0xD01010, 32, [], .mtc, [F.MTC_DCTL_RESUME, F.MTC_DCTL_ENABLE], (some F.MTC_DCTL_ENABLE), 1, F.MTC_DSTATUS_WRITE_REFUSED, 1⟩,
   ⟨0xD01014, 32, [], .mtc, [F.MTC_DSTATUS_WRITE_REFUSED, F.MTC_DSTATUS_RESUME_REFUSED, F.MTC_DSTATUS_RING_WAIT, F.MTC_DSTATUS_STATE], (some F.MTC_DCTL_ENABLE), 1, F.MTC_DSTATUS_WRITE_REFUSED, 1⟩,
   ⟨0xD01018, 64, [], .mtc, [F.MTC_DCOUNT_UNEXPECTED, F.MTC_DCOUNT_POSTED], (some F.MTC_DCTL_ENABLE), 1, F.MTC_DSTATUS_WRITE_REFUSED, 1⟩,
   ⟨0xD01020, 64, [], .mtc, [F.MTC_OVF_BASE_ADDR], (some F.MTC_DCTL_ENABLE), 1, F.MTC_DSTATUS_WRITE_REFUSED, 1⟩,
   ⟨0xD01028, 32, [], .mtc, [F.MTC_OVF_CFG_LOG2], (some F.MTC_DCTL_ENABLE), 1, F.MTC_DSTATUS_WRITE_REFUSED, 1⟩,
   ⟨0xD0102C, 32, [], .mtc, [F.MTC_OVF_IDX_TAIL, F.MTC_OVF_IDX_HEAD], (some F.MTC_DCTL_ENABLE), 1, F.MTC_DSTATUS_WRITE_REFUSED, 1⟩,
   ⟨0xD01030, 64, [], .mtc, [F.MTC_BIND_BUF_ADDR], (some F.MTC_DCTL_ENABLE), 1, F.MTC_DSTATUS_WRITE_REFUSED, 1⟩,
   ⟨0xD01038, 64, [], .mtc, [F.MTC_BIND_ARG_LENGTH, F.MTC_BIND_ARG_CRING, F.MTC_BIND_ARG_XCTX], (some F.MTC_DCTL_ENABLE), 1, F.MTC_DSTATUS_WRITE_REFUSED, 1⟩,
   ⟨0xD01040, 64, [], .mtc, [F.MTC_BIND_TAG_USER_TAG, F.MTC_BIND_TAG_TOKEN], (some F.MTC_DCTL_ENABLE), 1, F.MTC_DSTATUS_WRITE_REFUSED, 1⟩,
   ⟨0xD01048, 32, [], .mtc, [F.MTC_BIND_CMD_PENDING, F.MTC_BIND_CMD_BIND_ERR, F.MTC_BIND_CMD_GO], (some F.MTC_DCTL_ENABLE), 1, F.MTC_DSTATUS_WRITE_REFUSED, 1⟩]

/-- The registers of block DRV (offset, width, array, selection, fields, block). -/
def regsDRV : List Reg :=
  [⟨0xE00000, 32, [], .plain, [F.DRV_CTRL_ENABLE], (some F.DRV_CTRL_ENABLE), 0, F.DRV_STATUS_WRITE_REFUSED, 0⟩,
   ⟨0xE00008, 32, [], .plain, [F.DRV_STATUS_WRITE_REFUSED], (some F.DRV_CTRL_ENABLE), 0, F.DRV_STATUS_WRITE_REFUSED, 0⟩,
   ⟨0xE00010, 64, [], .plain, [F.DRV_STORE_RECORDS, F.DRV_STORE_STAGING_KIB, F.DRV_STORE_PROGRAMS], (some F.DRV_CTRL_ENABLE), 0, F.DRV_STATUS_WRITE_REFUSED, 0⟩,
   ⟨0xE00018, 32, [], .plain, [F.DRV_GEN_GEN], (some F.DRV_CTRL_ENABLE), 0, F.DRV_STATUS_WRITE_REFUSED, 0⟩,
   ⟨0xE00020, 64, [], .plain, [F.DRV_CNT0_FORMAT_ERR, F.DRV_CNT0_NO_PROGRAM, F.DRV_CNT0_STALE, F.DRV_CNT0_DUP], (some F.DRV_CTRL_ENABLE), 0, F.DRV_STATUS_WRITE_REFUSED, 0⟩,
   ⟨0xE00028, 64, [], .plain, [F.DRV_CNT1_LATE, F.DRV_CNT1_OVERRUN, F.DRV_CNT1_LATE_ARRIVAL, F.DRV_CNT1_ALARM_FALLBACK], (some F.DRV_CTRL_ENABLE), 0, F.DRV_STATUS_WRITE_REFUSED, 0⟩,
   ⟨0xE00040, 32, [], .plain, [F.DRV_PSEL_PROGRAM], (some F.DRV_CTRL_ENABLE), 0, F.DRV_STATUS_WRITE_REFUSED, 0⟩,
   ⟨0xE00048, 64, [], .drv, [F.DRV_PSTATE_LAST_DETAIL, F.DRV_PSTATE_COLL_ID, F.DRV_PSTATE_NEXT_INSTANCE, F.DRV_PSTATE_LAST_STATUS, F.DRV_PSTATE_STATE], (some F.DRV_CTRL_ENABLE), 0, F.DRV_STATUS_WRITE_REFUSED, 0⟩,
   ⟨0xE00050, 64, [], .drv, [F.DRV_PINFO_CHUNKS_RETIRED, F.DRV_PINFO_WAIT_STEP, F.DRV_PINFO_WAIT_EDGE], (some F.DRV_CTRL_ENABLE), 0, F.DRV_STATUS_WRITE_REFUSED, 0⟩,
   ⟨0xE00058, 64, [], .drv, [F.DRV_PARITH_AFLAGS, F.DRV_PARITH_NAN_COUNT], (some F.DRV_CTRL_ENABLE), 0, F.DRV_STATUS_WRITE_REFUSED, 0⟩,
   ⟨0xE00060, 32, [], .drv, [F.DRV_PCMD_INSTANCE, F.DRV_PCMD_RESET], (some F.DRV_CTRL_ENABLE), 0, F.DRV_STATUS_WRITE_REFUSED, 0⟩]

/-- The registers of block RDU (offset, width, array, selection, fields, block). -/
def regsRDU : List Reg :=
  [⟨0xF00000, 32, [], .plain, [F.RDU_CTRL_ENABLE], (some F.RDU_CTRL_ENABLE), 0, F.RDU_STATUS_WRITE_REFUSED, 0⟩,
   ⟨0xF00008, 32, [], .plain, [F.RDU_STATUS_WRITE_REFUSED], (some F.RDU_CTRL_ENABLE), 0, F.RDU_STATUS_WRITE_REFUSED, 0⟩,
   ⟨0xF00010, 64, [], .plain, [F.RDU_OPERANDS_BYTES_IN], (some F.RDU_CTRL_ENABLE), 0, F.RDU_STATUS_WRITE_REFUSED, 0⟩,
   ⟨0xF00018, 64, [], .plain, [F.RDU_ARITH_CNT_NAN_INPUTS, F.RDU_ARITH_CNT_INVALID, F.RDU_ARITH_CNT_CONV_OVERFLOW, F.RDU_ARITH_CNT_INT_OVERFLOW], (some F.RDU_CTRL_ENABLE), 0, F.RDU_STATUS_WRITE_REFUSED, 0⟩,
   ⟨0xF00020, 32, [], .plain, [F.RDU_EXHAUST_MALFORMED, F.RDU_EXHAUST_EXHAUSTED], (some F.RDU_CTRL_ENABLE), 0, F.RDU_STATUS_WRITE_REFUSED, 0⟩,
   ⟨0xF00040, 64, [], .plain, [F.RDU_DRAW_SEED_SEED], (some F.RDU_CTRL_ENABLE), 0, F.RDU_STATUS_WRITE_REFUSED, 0⟩,
   ⟨0xF00048, 64, [], .plain, [F.RDU_DRAW_ARG_INSTANCE, F.RDU_DRAW_ARG_INDEX], (some F.RDU_CTRL_ENABLE), 0, F.RDU_STATUS_WRITE_REFUSED, 0⟩,
   ⟨0xF00050, 32, [], .plain, [F.RDU_DRAW_OUT_DRAW], (some F.RDU_CTRL_ENABLE), 0, F.RDU_STATUS_WRITE_REFUSED, 0⟩]

/-- The registers of block XLT (offset, width, array, selection, fields, block). -/
def regsXLT : List Reg :=
  [⟨0x1000000, 32, [], .plain, [F.XLT_CTRL_ENABLE], (some F.XLT_CTRL_ENABLE), 0, F.XLT_STATUS_WRITE_REFUSED, 0⟩,
   ⟨0x1000008, 32, [], .plain, [F.XLT_STATUS_WRITE_REFUSED], (some F.XLT_CTRL_ENABLE), 0, F.XLT_STATUS_WRITE_REFUSED, 0⟩,
   ⟨0x1000010, 64, [], .plain, [F.XLT_TLB_LOCKED, F.XLT_TLB_VALID], (some F.XLT_CTRL_ENABLE), 0, F.XLT_STATUS_WRITE_REFUSED, 0⟩,
   ⟨0x1000018, 64, [], .plain, [F.XLT_CNT_WALKS, F.XLT_CNT_FAULTS, F.XLT_CNT_WALK_DEVICE], (some F.XLT_CTRL_ENABLE), 0, F.XLT_STATUS_WRITE_REFUSED, 0⟩,
   ⟨0x1000020, 64, [], .fn, [F.XLT_INV_ADDR_VA], (some F.XLT_CTRL_ENABLE), 0, F.XLT_STATUS_WRITE_REFUSED, 0⟩,
   ⟨0x1000028, 64, [], .fn, [F.XLT_INV_CMD_PAGES, F.XLT_INV_CMD_CTX, F.XLT_INV_CMD_SCOPE, F.XLT_INV_CMD_BUSY, F.XLT_INV_CMD_GO], (some F.XLT_CTRL_ENABLE), 0, F.XLT_STATUS_WRITE_REFUSED, 0⟩,
   ⟨0x1000030, 64, [], .fn, [F.XLT_LOCK_ADDR_VA], (some F.XLT_CTRL_ENABLE), 0, F.XLT_STATUS_WRITE_REFUSED, 0⟩,
   ⟨0x1000038, 64, [], .fn, [F.XLT_LOCK_CMD_PAGES, F.XLT_LOCK_CMD_CTX, F.XLT_LOCK_CMD_HOST_ERR, F.XLT_LOCK_CMD_FULL, F.XLT_LOCK_CMD_FAULT, F.XLT_LOCK_CMD_BUSY, F.XLT_LOCK_CMD_GO], (some F.XLT_CTRL_ENABLE), 0, F.XLT_STATUS_WRITE_REFUSED, 0⟩,
   ⟨0x1000040, 32, [], .plain, [F.XLT_FLOG_IDX_TOTAL, F.XLT_FLOG_IDX_NEXT], (some F.XLT_CTRL_ENABLE), 0, F.XLT_STATUS_WRITE_REFUSED, 0⟩,
   ⟨0x1000100, 64, [(16, 0x20, 1)], .plain, [F.XLT_FLOG_VA_VA], (some F.XLT_CTRL_ENABLE), 0, F.XLT_STATUS_WRITE_REFUSED, 0⟩,
   ⟨0x1000108, 64, [(16, 0x20, 1)], .plain, [F.XLT_FLOG_SLOT_SLOT], (some F.XLT_CTRL_ENABLE), 0, F.XLT_STATUS_WRITE_REFUSED, 0⟩,
   ⟨0x1000110, 64, [(16, 0x20, 1)], .plain, [F.XLT_FLOG_INFO_VALID, F.XLT_FLOG_INFO_CTX, F.XLT_FLOG_INFO_FN, F.XLT_FLOG_INFO_DETAIL, F.XLT_FLOG_INFO_KIND, F.XLT_FLOG_INFO_MASTER], (some F.XLT_CTRL_ENABLE), 0, F.XLT_STATUS_WRITE_REFUSED, 0⟩,
   ⟨0x1000118, 64, [(16, 0x20, 1)], .plain, [F.XLT_FLOG_WHEN_WHEN], (some F.XLT_CTRL_ENABLE), 0, F.XLT_STATUS_WRITE_REFUSED, 0⟩,
   ⟨0x1010000, 64, [(4096, 0x10, 1)], .plain, [F.XLT_CTX_ROOT_ROOT], (some F.XLT_CTX_CFG_ENABLE), 1, F.XLT_STATUS_WRITE_REFUSED, 0⟩,
   ⟨0x1010008, 32, [(4096, 0x10, 1)], .plain, [F.XLT_CTX_CFG_FN, F.XLT_CTX_CFG_LEVELS, F.XLT_CTX_CFG_DRAINING, F.XLT_CTX_CFG_AD_EN, F.XLT_CTX_CFG_ENABLE], (some F.XLT_CTX_CFG_ENABLE), 1, F.XLT_STATUS_WRITE_REFUSED, 0⟩]

/-- The registers of block ACP (offset, width, array, selection, fields, block). -/
def regsACP : List Reg :=
  [⟨0x1100000, 32, [], .plain, [F.ACP_CTRL_ENABLE], (some F.ACP_CTRL_ENABLE), 0, F.ACP_STATUS_WRITE_REFUSED, 0⟩,
   ⟨0x1100008, 32, [], .plain, [F.ACP_STATUS_WRITE_REFUSED], (some F.ACP_CTRL_ENABLE), 0, F.ACP_STATUS_WRITE_REFUSED, 0⟩,
   ⟨0x1100010, 32, [], .plain, [F.ACP_DEFAULT_PERM], (some F.ACP_CTRL_ENABLE), 0, F.ACP_STATUS_WRITE_REFUSED, 0⟩,
   ⟨0x1100018, 32, [], .plain, [F.ACP_FENCE_PENDING], (some F.ACP_CTRL_ENABLE), 0, F.ACP_STATUS_WRITE_REFUSED, 0⟩,
   ⟨0x1100020, 32, [], .plain, [F.ACP_VIOL_TOTAL, F.ACP_VIOL_NEXT], (some F.ACP_CTRL_ENABLE), 0, F.ACP_STATUS_WRITE_REFUSED, 0⟩,
   ⟨0x1100100, 64, [(16, 0x20, 1)], .plain, [F.ACP_VLOG_START_START], (some F.ACP_CTRL_ENABLE), 0, F.ACP_STATUS_WRITE_REFUSED, 0⟩,
   ⟨0x1100108, 64, [(16, 0x20, 1)], .plain, [F.ACP_VLOG_BAD_FIRST_BAD], (some F.ACP_CTRL_ENABLE), 0, F.ACP_STATUS_WRITE_REFUSED, 0⟩,
   ⟨0x1100110, 64, [(16, 0x20, 1)], .plain, [F.ACP_VLOG_INFO_LENGTH, F.ACP_VLOG_INFO_VALID, F.ACP_VLOG_INFO_FN, F.ACP_VLOG_INFO_REGION, F.ACP_VLOG_INFO_DEFAULT, F.ACP_VLOG_INFO_KIND, F.ACP_VLOG_INFO_MASTER], (some F.ACP_CTRL_ENABLE), 0, F.ACP_STATUS_WRITE_REFUSED, 0⟩,
   ⟨0x1100118, 64, [(16, 0x20, 1)], .plain, [F.ACP_VLOG_WHEN_WHEN], (some F.ACP_CTRL_ENABLE), 0, F.ACP_STATUS_WRITE_REFUSED, 0⟩,
   ⟨0x1110000, 64, [(1024, 0x20, 1)], .plain, [F.ACP_RSTART_START], (some F.ACP_RCTL_ENABLE), 1, F.ACP_STATUS_WRITE_REFUSED, 0⟩,
   ⟨0x1110008, 64, [(1024, 0x20, 1)], .plain, [F.ACP_REND_END], (some F.ACP_RCTL_ENABLE), 1, F.ACP_STATUS_WRITE_REFUSED, 0⟩,
   ⟨0x1110010, 32, [(1024, 0x20, 1)], .plain, [F.ACP_RPERM_PERM], (some F.ACP_RCTL_ENABLE), 1, F.ACP_STATUS_WRITE_REFUSED, 0⟩,
   ⟨0x1110014, 32, [(1024, 0x20, 1)], .plain, [F.ACP_RATTR_ST, F.ACP_RATTR_PH, F.ACP_RATTR_TPH_EN, F.ACP_RATTR_NS, F.ACP_RATTR_RO, F.ACP_RATTR_SE], (some F.ACP_RCTL_ENABLE), 1, F.ACP_STATUS_WRITE_REFUSED, 0⟩,
   ⟨0x1110018, 32, [(1024, 0x20, 1)], .plain, [F.ACP_RCTL_FN, F.ACP_RCTL_ANY_FN, F.ACP_RCTL_LOCK, F.ACP_RCTL_ENABLE], (some F.ACP_RCTL_ENABLE), 1, F.ACP_STATUS_WRITE_REFUSED, 0⟩]

/-- The registers of block PWN (offset, width, array, selection, fields, block). -/
def regsPWN : List Reg :=
  [⟨0x1200000, 32, [], .plain, [F.PWN_CTRL_ENABLE], (some F.PWN_CTRL_ENABLE), 0, F.PWN_STATUS_WRITE_REFUSED, 0⟩,
   ⟨0x1200008, 32, [], .plain, [F.PWN_STATUS_WRITE_REFUSED], (some F.PWN_CTRL_ENABLE), 0, F.PWN_STATUS_WRITE_REFUSED, 0⟩,
   ⟨0x1200010, 32, [], .plain, [F.PWN_CFG_READ_TO_US], (some F.PWN_CTRL_ENABLE), 0, F.PWN_STATUS_WRITE_REFUSED, 0⟩,
   ⟨0x1200018, 32, [], .plain, [F.PWN_PWLOG_IDX_TOTAL, F.PWN_PWLOG_IDX_REARM, F.PWN_PWLOG_IDX_NEXT], (some F.PWN_CTRL_ENABLE), 0, F.PWN_STATUS_WRITE_REFUSED, 0⟩,
   ⟨0x1200020, 64, [], .plain, [F.PWN_CNT_SEQUENCES, F.PWN_CNT_HOLD_FULL, F.PWN_CNT_LATE_RSP], (some F.PWN_CTRL_ENABLE), 0, F.PWN_STATUS_WRITE_REFUSED, 0⟩,
   ⟨0x1200100, 64, [(64, 0x20, 1)], .plain, [F.PWN_PWLOG_ADDR_OFFSET], (some F.PWN_CTRL_ENABLE), 0, F.PWN_STATUS_WRITE_REFUSED, 0⟩,
   ⟨0x1200108, 32, [(64, 0x20, 1)], .plain, [F.PWN_PWLOG_INFO_VALID, F.PWN_PWLOG_INFO_WINDOW, F.PWN_PWLOG_INFO_DETAIL, F.PWN_PWLOG_INFO_STATUS], (some F.PWN_CTRL_ENABLE), 0, F.PWN_STATUS_WRITE_REFUSED, 0⟩,
   ⟨0x1200110, 64, [(64, 0x20, 1)], .plain, [F.PWN_PWLOG_WHEN_WHEN], (some F.PWN_CTRL_ENABLE), 0, F.PWN_STATUS_WRITE_REFUSED, 0⟩,
   ⟨0x1210000, 64, [(256, 0x40, 1)], .plain, [F.PWN_WIN_BASE_OFFSET, F.PWN_WIN_BASE_SIZE_LOG2], none, 0, F.PWN_STATUS_WRITE_REFUSED, 0⟩,
   ⟨0x1210008, 64, [(256, 0x40, 1)], .plain, [F.PWN_WIN_REMOTE_REMOTE], none, 0, F.PWN_STATUS_WRITE_REFUSED, 0⟩,
   ⟨0x1210010, 64, [(256, 0x40, 1)], .plain, [F.PWN_WIN_TARGET_EID, F.PWN_WIN_TARGET_PASTURE, F.PWN_WIN_TARGET_RXCTX], none, 0, F.PWN_STATUS_WRITE_REFUSED, 0⟩,
   ⟨0x1210018, 32, [(256, 0x40, 1)], .plain, [F.PWN_WIN_MODE_ENABLE, F.PWN_WIN_MODE_XMODE, F.PWN_WIN_MODE_STRICT, F.PWN_WIN_MODE_SWAP], none, 0, F.PWN_STATUS_WRITE_REFUSED, 0⟩,
   ⟨0x1210020, 32, [(256, 0x40, 1)], .plain, [F.PWN_WIN_CMD_ERR_CAUSE, F.PWN_WIN_CMD_COMMIT_ERR, F.PWN_WIN_CMD_COMMIT], none, 0, F.PWN_STATUS_WRITE_REFUSED, 0⟩,
   ⟨0x1210028, 64, [(256, 0x40, 1)], .plain, [F.PWN_WIN_STATUS_INFLIGHT, F.PWN_WIN_STATUS_COMMITS, F.PWN_WIN_STATUS_STRICT_ERR, F.PWN_WIN_STATUS_ACTIVE], none, 0, F.PWN_STATUS_WRITE_REFUSED, 0⟩,
   ⟨0x1220000, 64, [(64, 0x20, 1)], .plain, [F.PWN_MIR_CFG_EID, F.PWN_MIR_CFG_PASTURE, F.PWN_MIR_CFG_PEER_MIR], (some F.PWN_MIR_CTL_ENABLE), 1, F.PWN_STATUS_WRITE_REFUSED, 0⟩,
   ⟨0x1220008, 32, [(64, 0x20, 1)], .plain, [F.PWN_MIR_CTL_PERIOD_US, F.PWN_MIR_CTL_VECTOR, F.PWN_MIR_CTL_MSI_EN, F.PWN_MIR_CTL_ENABLE], (some F.PWN_MIR_CTL_ENABLE), 1, F.PWN_STATUS_WRITE_REFUSED, 0⟩,
   ⟨0x1220010, 32, [(64, 0x20, 1)], .plain, [F.PWN_MIR_OUT_VALUE], (some F.PWN_MIR_CTL_ENABLE), 1, F.PWN_STATUS_WRITE_REFUSED, 0⟩,
   ⟨0x1220018, 64, [(64, 0x20, 1)], .plain, [F.PWN_MIR_IN_VALUE, F.PWN_MIR_IN_PEER_PERIOD, F.PWN_MIR_IN_SEQ], (some F.PWN_MIR_CTL_ENABLE), 1, F.PWN_STATUS_WRITE_REFUSED, 0⟩]

/-- The registers of block TLY (offset, width, array, selection, fields, block). -/
def regsTLY : List Reg :=
  [⟨0x1300000, 32, [], .plain, [F.TLY_CTRL_ENABLE], (some F.TLY_CTRL_ENABLE), 0, F.TLY_STATUS_WRITE_REFUSED, 0⟩,
   ⟨0x1300008, 32, [], .plain, [F.TLY_STATUS_WRITE_REFUSED, F.TLY_STATUS_OVER, F.TLY_STATUS_MSTATE, F.TLY_STATUS_LEVEL], (some F.TLY_CTRL_ENABLE), 0, F.TLY_STATUS_WRITE_REFUSED, 0⟩,
   ⟨0x1300010, 64, [], .plain, [F.TLY_BUDGET_RESERVED_E, F.TLY_BUDGET_BUDGET], (some F.TLY_CTRL_ENABLE), 0, F.TLY_STATUS_WRITE_REFUSED, 0⟩,
   ⟨0x1300018, 64, [], .plain, [F.TLY_FRAME_FRAME], (some F.TLY_CTRL_ENABLE), 0, F.TLY_STATUS_WRITE_REFUSED, 0⟩,
   ⟨0x1300020, 64, [], .plain, [F.TLY_SPENT_OVER_FRAMES, F.TLY_SPENT_SPENT], (some F.TLY_CTRL_ENABLE), 0, F.TLY_STATUS_WRITE_REFUSED, 0⟩,
   ⟨0x1300028, 64, [], .plain, [F.TLY_ACTION_QUIET_IDLE_NS, F.TLY_ACTION_DROVER_GAP_NS, F.TLY_ACTION_INJ_SCALE], (some F.TLY_CTRL_ENABLE), 0, F.TLY_STATUS_WRITE_REFUSED, 0⟩,
   ⟨0x1300030, 32, [], .plain, [F.TLY_WAKE_WAKE_FLITS], (some F.TLY_CTRL_ENABLE), 0, F.TLY_STATUS_WRITE_REFUSED, 0⟩,
   ⟨0x1300038, 64, [], .plain, [F.TLY_ENV_KT, F.TLY_ENV_KV, F.TLY_ENV_VOLT_MV, F.TLY_ENV_TEMP], (some F.TLY_CTRL_ENABLE), 0, F.TLY_STATUS_WRITE_REFUSED, 0⟩,
   ⟨0x1300040, 64, [], .plain, [F.TLY_GAIN_KVS, F.TLY_GAIN_GAIN], (some F.TLY_CTRL_ENABLE), 0, F.TLY_STATUS_WRITE_REFUSED, 0⟩,
   ⟨0x1300048, 64, [], .plain, [F.TLY_MODULE_E_ENERGY], (some F.TLY_CTRL_ENABLE), 0, F.TLY_STATUS_WRITE_REFUSED, 0⟩,
   ⟨0x1301000, 64, [(25, 0x8, 1)], .plain, [F.TLY_UNIT_E_ENERGY], (some F.TLY_CTRL_ENABLE), 0, F.TLY_STATUS_WRITE_REFUSED, 0⟩]

/-- The registers of block FLT (offset, width, array, selection, fields, block). -/
def regsFLT : List Reg :=
  [⟨0x1400000, 32, [], .plain, [F.FLT_CTRL_ENABLE], (some F.FLT_CTRL_ENABLE), 0, F.FLT_STATUS_WRITE_REFUSED, 0⟩,
   ⟨0x1400008, 32, [], .plain, [F.FLT_STATUS_WRITE_REFUSED, F.FLT_STATUS_OPEN], (some F.FLT_CTRL_ENABLE), 0, F.FLT_STATUS_WRITE_REFUSED, 0⟩,
   ⟨0x1400010, 32, [], .plain, [F.FLT_CFG_IRQ_EN, F.FLT_CFG_VECTOR], (some F.FLT_CTRL_ENABLE), 0, F.FLT_STATUS_WRITE_REFUSED, 0⟩,
   ⟨0x1400018, 64, [], .plain, [F.FLT_CNT_RECORDS, F.FLT_CNT_MERGES, F.FLT_CNT_REFUSED_CLEARS], (some F.FLT_CTRL_ENABLE), 0, F.FLT_STATUS_WRITE_REFUSED, 0⟩,
   ⟨0x1400020, 64, [], .plain, [F.FLT_USTATE0_UNIT0, F.FLT_USTATE0_UNIT1, F.FLT_USTATE0_UNIT2, F.FLT_USTATE0_UNIT3, F.FLT_USTATE0_UNIT4, F.FLT_USTATE0_UNIT5, F.FLT_USTATE0_UNIT6, F.FLT_USTATE0_UNIT7, F.FLT_USTATE0_UNIT8, F.FLT_USTATE0_UNIT9, F.FLT_USTATE0_UNIT10, F.FLT_USTATE0_UNIT11, F.FLT_USTATE0_UNIT12, F.FLT_USTATE0_UNIT13, F.FLT_USTATE0_UNIT14, F.FLT_USTATE0_UNIT15], (some F.FLT_CTRL_ENABLE), 0, F.FLT_STATUS_WRITE_REFUSED, 0⟩,
   ⟨0x1400028, 64, [], .plain, [F.FLT_USTATE1_UNIT16, F.FLT_USTATE1_UNIT17, F.FLT_USTATE1_UNIT18, F.FLT_USTATE1_UNIT19, F.FLT_USTATE1_UNIT20, F.FLT_USTATE1_UNIT21, F.FLT_USTATE1_UNIT22, F.FLT_USTATE1_UNIT23, F.FLT_USTATE1_UNIT24, F.FLT_USTATE1_UNIT25, F.FLT_USTATE1_UNIT26, F.FLT_USTATE1_UNIT27], (some F.FLT_CTRL_ENABLE), 0, F.FLT_STATUS_WRITE_REFUSED, 0⟩,
   ⟨0x1401000, 64, [(28, 0x40, 1)], .plain, [F.FLT_UREC_INFO_SEQ, F.FLT_UREC_INFO_OPEN, F.FLT_UREC_INFO_PERSISTS, F.FLT_UREC_INFO_SEVERITY, F.FLT_UREC_INFO_REACTED, F.FLT_UREC_INFO_SOURCE, F.FLT_UREC_INFO_MERGES], (some F.FLT_CTRL_ENABLE), 0, F.FLT_STATUS_WRITE_REFUSED, 0⟩,
   ⟨0x1401008, 32, [(28, 0x40, 1)], .plain, [F.FLT_UREC_CAUSE_CAUSE], (some F.FLT_CTRL_ENABLE), 0, F.FLT_STATUS_WRITE_REFUSED, 0⟩,
   ⟨0x140100C, 32, [(28, 0x40, 1)], .plain, [F.FLT_UREC_CLR_CLEAR], (some F.FLT_CTRL_ENABLE), 0, F.FLT_STATUS_WRITE_REFUSED, 0⟩,
   ⟨0x1401010, 64, [(28, 0x40, 1)], .plain, [F.FLT_UREC_FIRST_FIRST], (some F.FLT_CTRL_ENABLE), 0, F.FLT_STATUS_WRITE_REFUSED, 0⟩,
   ⟨0x1401018, 64, [(28, 0x40, 1)], .plain, [F.FLT_UREC_LAST_LAST], (some F.FLT_CTRL_ENABLE), 0, F.FLT_STATUS_WRITE_REFUSED, 0⟩,
   ⟨0x1401020, 64, [(28, 0x40, 1)], .plain, [F.FLT_UREC_ADDR_ADDR], (some F.FLT_CTRL_ENABLE), 0, F.FLT_STATUS_WRITE_REFUSED, 0⟩,
   ⟨0x1401028, 64, [(28, 0x40, 1)], .plain, [F.FLT_UREC_DETAIL_DETAIL], (some F.FLT_CTRL_ENABLE), 0, F.FLT_STATUS_WRITE_REFUSED, 0⟩,
   ⟨0x1401030, 32, [(28, 0x40, 1)], .plain, [F.FLT_UREC_FN_FN_VALID, F.FLT_UREC_FN_FN], (some F.FLT_CTRL_ENABLE), 0, F.FLT_STATUS_WRITE_REFUSED, 0⟩,
   ⟨0x1404000, 32, [(28, 0x80, 32), (32, 0x4, 1)], .plain, [F.FLT_REACT_SEVERITY, F.FLT_REACT_REACT], (some F.FLT_CTRL_ENABLE), 0, F.FLT_STATUS_WRITE_REFUSED, 0⟩]

/-- The registers of block BST (offset, width, array, selection, fields, block). -/
def regsBST : List Reg :=
  [⟨0x1500000, 32, [], .plain, [F.BST_CTRL_SLICES, F.BST_CTRL_ENABLE], (some F.BST_CTRL_ENABLE), 0, F.BST_STATUS_WRITE_REFUSED, 0⟩,
   ⟨0x1500008, 32, [], .plain, [F.BST_STATUS_WRITE_REFUSED, F.BST_STATUS_NO_SPARE, F.BST_STATUS_COND_OK, F.BST_STATUS_RUNNING], (some F.BST_CTRL_ENABLE), 0, F.BST_STATUS_WRITE_REFUSED, 0⟩,
   ⟨0x1500010, 64, [], .plain, [F.BST_CNT_SLICES_DONE, F.BST_CNT_SKIPPED_FRAMES, F.BST_CNT_ABORTED, F.BST_CNT_FAILED], (some F.BST_CTRL_ENABLE), 0, F.BST_STATUS_WRITE_REFUSED, 0⟩,
   ⟨0x1500018, 64, [], .plain, [F.BST_PASS_PASSES, F.BST_PASS_LAST_PASS_FRAME], (some F.BST_CTRL_ENABLE), 0, F.BST_STATUS_WRITE_REFUSED, 0⟩,
   ⟨0x1500020, 32, [], .plain, [F.BST_SPARES_REPAIRED, F.BST_SPARES_SPARES_LEFT], (some F.BST_CTRL_ENABLE), 0, F.BST_STATUS_WRITE_REFUSED, 0⟩,
   ⟨0x1500028, 64, [], .plain, [F.BST_LAST_FAIL_FRAME, F.BST_LAST_FAIL_MACRO], (some F.BST_CTRL_ENABLE), 0, F.BST_STATUS_WRITE_REFUSED, 0⟩,
   ⟨0x1500030, 32, [], .plain, [F.BST_BOOT_MAP_USED, F.BST_BOOT_FAILED_AT_START], (some F.BST_CTRL_ENABLE), 0, F.BST_STATUS_WRITE_REFUSED, 0⟩]

/-- The registers of block SEC (offset, width, array, selection, fields, block). -/
def regsSEC : List Reg :=
  [⟨0x1600000, 32, [], .plain, [F.SEC_STATUS_WRITE_REFUSED, F.SEC_STATUS_ZERO_FAIL, F.SEC_STATUS_ZEROISED, F.SEC_STATUS_KEY0_REVOKED, F.SEC_STATUS_SLOT, F.SEC_STATUS_KEY_ID, F.SEC_STATUS_DEBUG, F.SEC_STATUS_LIFECYCLE], none, 0, F.SEC_STATUS_WRITE_REFUSED, 0⟩,
   ⟨0x1600008, 64, [], .plain, [F.SEC_SVN_FW_VERSION, F.SEC_SVN_FSVN, F.SEC_SVN_SVN], none, 0, F.SEC_STATUS_WRITE_REFUSED, 0⟩,
   ⟨0x1600010, 32, [], .pf, [F.SEC_IDE_INTEGRITY_FAIL, F.SEC_IDE_SECURE], none, 0, F.SEC_STATUS_WRITE_REFUSED, 0⟩,
   ⟨0x1600018, 32, [], .plain, [F.SEC_DEBUG_SESSIONS, F.SEC_DEBUG_FAILS], none, 0, F.SEC_STATUS_WRITE_REFUSED, 0⟩]

/-- The registers of block CNT (offset, width, array, selection, fields, block). -/
def regsCNT : List Reg :=
  [⟨0x1700000, 32, [], .plain, [F.CNT_STATUS_WRITE_REFUSED], none, 0, F.CNT_STATUS_WRITE_REFUSED, 0⟩,
   ⟨0x1700008, 32, [], .plain, [F.CNT_WRAP_SUM_GROUPS], none, 0, F.CNT_STATUS_WRITE_REFUSED, 0⟩,
   ⟨0x1710000, 64, [], .fn, [F.CNT_PAGE_TIME_WHEN], none, 0, F.CNT_STATUS_WRITE_REFUSED, 0⟩,
   ⟨0x1710008, 64, [], .fn, [F.CNT_PAGE_STATUS_EPOCH, F.CNT_PAGE_STATUS_ALLOWED], none, 0, F.CNT_STATUS_WRITE_REFUSED, 0⟩,
   ⟨0x1710800, 64, [(704, 0x8, 1)], .plain, [F.CNT_CTR_WRAPPED, F.CNT_CTR_COUNT], none, 0, F.CNT_STATUS_WRITE_REFUSED, 0⟩,
   ⟨0x1720000, 32, [(1026, 0x4, 1)], .plain, [F.CNT_FN_ALLOW_GROUPS], none, 0, F.CNT_STATUS_WRITE_REFUSED, 0⟩]

/-- The registers of block SMP (offset, width, array, selection, fields, block). -/
def regsSMP : List Reg :=
  [⟨0x1800000, 32, [], .plain, [F.SMP_CTRL_ENABLE], (some F.SMP_CTRL_ENABLE), 0, F.SMP_STATUS_WRITE_REFUSED, 0⟩,
   ⟨0x1800008, 32, [], .plain, [F.SMP_STATUS_WRITE_REFUSED, F.SMP_STATUS_TRACKED], (some F.SMP_CTRL_ENABLE), 0, F.SMP_STATUS_WRITE_REFUSED, 0⟩,
   ⟨0x1800010, 64, [], .plain, [F.SMP_FILTER_QUEUE_EN, F.SMP_FILTER_QUEUE, F.SMP_FILTER_FN_EN, F.SMP_FILTER_FN], (some F.SMP_CTRL_ENABLE), 0, F.SMP_STATUS_WRITE_REFUSED, 0⟩,
   ⟨0x1800018, 32, [], .plain, [F.SMP_INTERVAL_INTERVAL], (some F.SMP_CTRL_ENABLE), 0, F.SMP_STATUS_WRITE_REFUSED, 0⟩,
   ⟨0x1800020, 64, [], .plain, [F.SMP_RING_BASE_ADDR], (some F.SMP_CTRL_ENABLE), 0, F.SMP_STATUS_WRITE_REFUSED, 0⟩,
   ⟨0x1800028, 32, [], .plain, [F.SMP_RING_CFG_VECTOR, F.SMP_RING_CFG_IRQ_EN, F.SMP_RING_CFG_LOG2], (some F.SMP_CTRL_ENABLE), 0, F.SMP_STATUS_WRITE_REFUSED, 0⟩,
   ⟨0x180002C, 32, [], .plain, [F.SMP_RING_IDX_TAIL, F.SMP_RING_IDX_HEAD], (some F.SMP_CTRL_ENABLE), 0, F.SMP_STATUS_WRITE_REFUSED, 0⟩,
   ⟨0x1800030, 64, [], .plain, [F.SMP_CNT_SAMPLES, F.SMP_CNT_SKIPPED, F.SMP_CNT_LOST], (some F.SMP_CTRL_ENABLE), 0, F.SMP_STATUS_WRITE_REFUSED, 0⟩]

/-- Every BAR0 register, in the order of R51. -/
def regTable : List Reg :=
  regsGEN ++ regsHIF ++ regsAZX ++ regsETL ++ regsLNE ++ regsLNK ++ regsRTE ++ regsCAL ++ regsCND ++ regsWQU ++ regsRMA ++ regsCRK ++ regsMTC ++ regsDRV ++ regsRDU ++ regsXLT ++ regsACP ++ regsPWN ++ regsTLY ++ regsFLT ++ regsBST ++ regsSEC ++ regsCNT ++ regsSMP

end Sys2Proof.Machine
end

