-- ==== Sys2Proof/Machine/Flags.lean ====
section
/-! DEFINITION. Status codes (R15 to R17), event counters (R537, R538), free values, and the small
readings of die and unit state that every family uses. -/
namespace Sys2Proof.Machine

/-! ## Completion status codes (R15, R90) -/
namespace St
def ok : Nat := 0x00
def partialDone : Nat := 0x01
def malformed : Nat := 0x02
def xltFault : Nat := 0x03
def accessDenied : Nat := 0x04
def remoteAccess : Nat := 0x05
def conduitClosed : Nat := 0x06
def retryExceeded : Nat := 0x07
def deadline : Nat := 0x08
def linkLost : Nat := 0x09
def hostAbort : Nat := 0x0A
def flushed : Nat := 0x0B
def abandoned : Nat := 0x0C
def truncated : Nat := 0x0D
def wouldBlock : Nat := 0x0E
def arithFlag : Nat := 0x0F
def notReady : Nat := 0x10
def unknownOpcode : Nat := 0x80
def badArgument : Nat := 0x81
def dieNotReady : Nat := 0x82
def noResource : Nat := 0x83
def unaffordable : Nat := 0x84
def tooLate : Nat := 0x85
def restoreFailed : Nat := 0x86
def inUse : Nat := 0x87
end St

/-- Event counter `i` of die `d` (4: the Shepherd) counts `n` events; a wrap sets WRAPPED (R537). -/
def count (d i n : Nat) (m : Mod) : Mod :=
  let k := d * 1024 + i
  let v := NMap.get 0 m.ctr k + n
  { m with ctr := NMap.set 0 m.ctr k (v % 2 ^ 48)
           ctrWrap := if 2 ^ 48 ≤ v then NMap.set false m.ctrWrap k true else m.ctrWrap }

/-- Draw a free value below 2^w; the draw counter advances. -/
def draw (w : Nat) (m : Mod) : Nat × Mod :=
  (Config.free m.free % 2 ^ w, { m with free := m.free + 1 })

/-! ## Eteel counters read -/

/-- The counter of die `d` (4: the Shepherd). -/
def clock (d : Nat) (m : Mod) : Clock := NMap.get Clock.reset m.clk d

/-- Its nanosecond count (R93). -/
def now (d : Nat) (m : Mod) : Nat := (clock d m).count / 2 ^ 40

/-- Its Eteel time in 2^-16 ns (R93). -/
def now16 (d : Nat) (m : Mod) : Nat := (clock d m).count / 2 ^ 24

/-! ## Dies and units -/

/-! Die state codes of GEN_DIE_STATE. -/
namespace DieSt
def absent : Nat := 0
def booting : Nat := 1
def quarantine : Nat := 2
def active : Nat := 3
def fenced : Nat := 4
def sleep : Nat := 5
def unusable : Nat := 6
end DieSt

/-! Unit state codes of FLT_USTATE0 (R501). -/
namespace UnitSt
def active : Nat := 0
def quarantine : Nat := 1
def fenced : Nat := 2
def unusable : Nat := 3
def sleep : Nat := 4
end UnitSt

/-- The state field of worker unit `u` (R494). -/
def ustate (u : Nat) : Fld := ⟨0x1400020 + 8 * (u / 16), 4 * (u % 16), 4, .RO, .STATIC, 1, 1⟩

/-- The state of unit `u` of die `d`. -/
def unitState (d u : Nat) (m : Mod) : Nat := rd (ustate u) d 0 m

/-- Set it. -/
def setUnit (d u st : Nat) (m : Mod) : Mod := wr (ustate u) d 0 st m

/-- The state of die `d`, as the Shepherd decides it (R72). -/
def dieState (d : Nat) (m : Mod) : Nat := NMap.get 0 m.dieSt d

/-- Die `d` is ACTIVE. -/
def dieActive (d : Nat) (m : Mod) : Bool := dieState d m == DieSt.active

/-- The die is fused in (R1). -/
def fusedIn (d : Nat) (m : Mod) : Bool := bit m.conf.mask d

/-- Wn is fused in, not marked unusable and not fenced: its bit of GEN_CONFIG.USABLE_MASK (R40). -/
def dieUsable (d : Nat) (m : Mod) : Bool := fusedIn d m && !([DieSt.unusable, DieSt.fenced].contains (dieState d m))

/-- Macros of a die that are marked unusable (R36). -/
def macrosBad (d : Nat) (m : Mod) : Nat := (m.bst.bad.filter (fun e => e.1 / 2048 == d)).length

/-- MiB of the transport buffer in the partition in force on a die (R22, R23). -/
def partOf (d : Nat) (m : Mod) : Nat := NMap.get 12 (NMap.get Tabs.reset m.tabs d).part d

/-- The identity of die `d`'s endpoint; 0xF_FFFF before one has been configured (R137). -/
def eidOf (d : Nat) (m : Mod) : Nat := NMap.get 0xFFFFF m.conf.eids d

/-- The die whose endpoint has identity `e`. -/
def dieOfEid (e : Nat) (m : Mod) : Option Nat :=
  dies.find? (fun d => fusedIn d m && NMap.find m.conf.eids d == some e)

end Sys2Proof.Machine
end

