-- ==== Sys2Proof/Machine/Arith.lean ====
section
/-! DEFINITION. Reduction arithmetic (spec/15): formats, Plainsum, binned and integer sums, selection, and the one
final rounding (R392 to R420). -/
namespace Sys2Proof.Machine

/-! ## Formats (R392) -/

/-- A floating-point format: exponent and fraction bits; `e4m3` has no infinity. -/
structure Fmt where
  eb : Nat
  fb : Nat
  e4m3 : Bool
  deriving DecidableEq, Repr

/-- The format of a DTYPE. -/
def fmt (dt : Nat) : Fmt :=
  match dt with
  | 0 => ⟨11, 52, false⟩
  | 1 => ⟨8, 23, false⟩
  | 2 => ⟨5, 10, false⟩
  | 3 => ⟨8, 7, false⟩
  | 4 => ⟨4, 3, true⟩
  | _ => ⟨5, 2, false⟩

/-- Element size in bytes of a DTYPE. -/
def dtSize (dt : Nat) : Nat := [8, 4, 2, 2, 1, 1, 0, 0, 1, 2, 4, 8, 1, 2, 4, 8].getD dt 0

def isFloat (dt : Nat) : Bool := decide (dt < 6)
def isSigned (dt : Nat) : Bool := decide (8 ≤ dt ∧ dt < 12)

/-- DTYPE is assigned. -/
def dtKnown (dt : Nat) : Bool := decide (dt < 6) || decide (8 ≤ dt ∧ dt < 16)

def Fmt.bias (f : Fmt) : Nat := 2 ^ (f.eb - 1) - 1

/-- Canonical quiet NaN and infinity. -/
def Fmt.qnan (f : Fmt) : Nat := if f.e4m3 then 0x7F else (2 ^ f.eb - 1) * 2 ^ f.fb + 2 ^ (f.fb - 1)
def Fmt.inf (f : Fmt) : Nat := (2 ^ f.eb - 1) * 2 ^ f.fb
def Fmt.signed (f : Fmt) (neg : Bool) (b : Nat) : Nat := b + b2n neg * 2 ^ (f.eb + f.fb)

/-- What an encoding stands for: a finite value is (−1)^neg × a × 2^w. -/
inductive Flt where
  | nan
  | inf (neg : Bool)
  | fin (neg : Bool) (a : Nat) (w : Int)
  deriving DecidableEq, Repr

/-- Decode a pattern. -/
def Fmt.decode (f : Fmt) (b : Nat) : Flt :=
  let neg := bit b (f.eb + f.fb)
  let e := bits b f.fb f.eb
  let m := bits b 0 f.fb
  if e = 2 ^ f.eb - 1 ∧ !f.e4m3 then (if m = 0 then .inf neg else .nan)
  else if e = 2 ^ f.eb - 1 ∧ f.e4m3 ∧ m = 7 then .nan
  else if e = 0 then .fin neg m (1 - (f.bias : Int) - f.fb)
  else .fin neg (2 ^ f.fb + m) ((e : Int) - f.bias - f.fb)

/-- Bits needed for a number. -/
def bitLen (n : Nat) : Nat := if n = 0 then 0 else Nat.log2 n + 1

/-! ## The draw (R413) -/

/-- draw(seed, instance, k). -/
def rduDraw (seed inst k : Nat) : Nat :=
  let x := Nat.xor (Nat.xor (seed % 2 ^ 64) ((inst <<< 32) % 2 ^ 64)) (k % 2 ^ 64)
  let x := Nat.xor x (x >>> 33)
  let x := x * 0x9E6C63D0676A9A99 % 2 ^ 64
  let x := Nat.xor x (x >>> 29)
  let x := x * 0xD35A2D97A1B83F55 % 2 ^ 64
  let x := Nat.xor x (x >>> 32)
  x >>> 32

/-! ## Rounding (R409, R411) -/

/-- Counts that arithmetic raises: native NaNs, flags by kind, malformed partials, exhaustions. -/
structure Tal where
  nan : Nat
  inv : Nat
  conv : Nat
  intv : Nat
  mal : Nat
  exh : Nat
  deriving DecidableEq, Repr

def Tal.zero : Tal := ⟨0, 0, 0, 0, 0, 0⟩
def Tal.add (a b : Tal) : Tal := ⟨a.nan + b.nan, a.inv + b.inv, a.conv + b.conv, a.intv + b.intv, a.mal + b.mal, a.exh + b.exh⟩

/-- AFLAGS of what was raised (R419). -/
def Tal.flags (t : Tal) : Nat :=
  b2n (t.nan != 0) + 2 * b2n (t.inv != 0) + 4 * b2n (t.conv != 0) + 8 * b2n (t.intv != 0)

/-- The overflow rule. -/
def Fmt.excess (f : Fmt) (neg : Bool) : Nat := f.signed neg (if f.e4m3 then 0x7E else f.inf)

/-- Whether the discarded part moves the result away from zero. -/
def roundsUp (mode : Nat) (neg : Bool) (n rem width draw : Nat) : Bool :=
  if rem = 0 then false
  else match mode with
    | 0 => let half := 2 ^ (width - 1); decide (half < rem) || (rem == half && n % 2 == 1)
    | 1 => false
    | 2 => !neg
    | 3 => neg
    | _ =>
      let f32 := if 32 ≤ width then rem >>> (width - 32) else rem <<< (32 - width)
      decide (2 ^ 32 ≤ f32 + draw)

/-- Round (−1)^neg × a × 2^w, a positive, to a format; the flag says that the overflow rule applied. -/
def Fmt.round (f : Fmt) (mode : Nat) (neg : Bool) (a : Nat) (w : Int) (draw : Nat) : Nat × Bool :=
  let p := f.fb + 1
  let emin : Int := 1 - f.bias
  let e : Int := (bitLen a : Int) - 1 + w
  let q : Int := max e emin - p + 1
  let n0 := if q ≤ w then a <<< (w - q).toNat else a >>> (q - w).toNat
  let width := (q - w).toNat
  let rem := if q ≤ w then 0 else a % 2 ^ width
  let n := if roundsUp mode neg n0 rem width draw then n0 + 1 else n0
  let maxN := if f.e4m3 then 14 else 2 ^ p - 1
  let emax : Int := if f.e4m3 then 8 else f.bias
  let qmax : Int := emax - p + 1
  let excess := if qmax ≤ q then decide (maxN < n <<< (q - qmax).toNat) else decide (maxN <<< (qmax - q).toNat < n)
  if excess then (f.excess neg, true)
  else
    let q := if n = 2 ^ p then q + 1 else q
    let n := if n = 2 ^ p then 2 ^ (p - 1) else n
    if n < 2 ^ (p - 1) then (f.signed neg n, false)
    else (f.signed neg (((q + p - 1 + f.bias).toNat) * 2 ^ f.fb + (n - 2 ^ (p - 1))), false)

/-! ## SUM accumulators (R395 to R408) -/

/-- A marker with MFLAGS: NZERO is cleared beside any special flag. -/
def markerOf (fl : Nat) : Accu := { Accu.reset with fl := if fl / 2 = 0 then fl else fl / 2 * 2, any := true }

/-- A finite Plainsum, or its exhaustion (R400). -/
def plainOf (v : Int) : Accu × Tal :=
  if v < -(2 ^ 319 : Nat) + (2 ^ 288 : Nat) ∨ (2 ^ 319 : Nat) - 1 < v then
    (markerOf (if 0 < v then 16 else 32), { Tal.zero with exh := 1 })
  else ({ Accu.reset with fin := true, v := v, any := true }, Tal.zero)

/-- Raise an accumulator's bins to top `t` (R402). -/
def Accu.raise (a : Accu) (t : Nat) : Accu :=
  match t - a.top with
  | 0 => a
  | 1 => { a with top := t, hi := 0, mid := a.hi, lo := a.mid }
  | 2 => { a with top := t, hi := 0, mid := 0, lo := a.hi }
  | _ => { a with top := t, hi := 0, mid := 0, lo := 0 }

/-- A count of 64 signed bits. -/
def fits64 (x : Int) : Bool := decide (-(2 ^ 63 : Nat) ≤ x ∧ x < (2 ^ 63 : Nat))

/-- The value of the bins in units of the lowest. -/
def Accu.binValue (a : Accu) : Int := a.hi * (2 ^ 80 : Nat) + a.mid * (2 ^ 40 : Nat) + a.lo

/-- A finite binned sum, or its exhaustion (R405). -/
def binOf (a : Accu) : Accu × Tal :=
  if fits64 a.hi && fits64 a.mid && fits64 a.lo then ({ a with fin := true, fl := 0, any := true }, Tal.zero)
  else (markerOf (if 0 < a.binValue then 16 else 32), { Tal.zero with exh := 1 })

/-- Combine two contributions to a sum (R399, R405); `bin`: binary64. -/
def sumJoin (bin : Bool) (a b : Accu) : Accu × Tal :=
  if a.fin ∧ b.fin then
    (if bin then
       let t := max a.top b.top
       let x := a.raise t
       let y := b.raise t
       binOf { x with hi := x.hi + y.hi, mid := x.mid + y.mid, lo := x.lo + y.lo }
     else plainOf (a.v + b.v))
  else if a.fin then (if b.fl / 2 = 0 then { a with any := true } else b, Tal.zero)
  else if b.fin then (if a.fl / 2 = 0 then { b with any := true } else a, Tal.zero)
  else (markerOf (Nat.lor a.fl b.fl), Tal.zero)

/-- RNE(x, 2^k) / 2^k for x = a × 2^w (R403). -/
def rneUnits (a : Nat) (w k : Int) : Nat :=
  if k ≤ w then a <<< (w - k).toNat
  else
    let s := (k - w).toNat
    let n := a >>> s
    let rem := a % 2 ^ s
    let half := 2 ^ (s - 1)
    if half < rem ∨ (rem = half ∧ n % 2 = 1) then n + 1 else n

/-- Exponent of the unit of bin j (R401). -/
def binUnit (j : Nat) : Int := 40 * (j : Int) - 1074

/-- The pieces of a finite binary64 (R401, R403). -/
def binsOf (neg : Bool) (a : Nat) (w : Int) : Accu :=
  if a = 0 then { Accu.reset with fin := true, any := true }
  else
    let e : Int := (bitLen a : Int) - 1 + w
    let t := max 2 ((e + 1075) / 40).toNat
    let piece := fun j : Nat =>
      let x : Int := (rneUnits a w (binUnit j) : Int) - (rneUnits a w (binUnit (j + 1)) : Int) * (2 ^ 40 : Nat)
      if neg then -x else x
    { Accu.reset with fin := true, any := true, top := t, hi := piece t, mid := piece (t - 1), lo := piece (t - 2) }

/-- A native operand of SUM (R397, R404). -/
def sumNative (dt b : Nat) : Accu × Tal :=
  match (fmt dt).decode b with
  | .nan => (markerOf 8, { Tal.zero with nan := 1 })
  | .inf neg => (markerOf (if neg then 4 else 2), Tal.zero)
  | .fin neg a w =>
    if a = 0 ∧ neg then (markerOf 1, Tal.zero)
    else if dt = 0 then (binsOf neg a w, Tal.zero)
    else
      let v : Int := (a <<< (w + 160).toNat : Nat)
      ({ Accu.reset with fin := true, v := if neg then -v else v, any := true }, Tal.zero)

/-- A Plainsum partial (R396). -/
def plainPartial (b : Bytes) : Accu × Tal :=
  let p := rdLE b 0 40
  if p >>> 288 = 0x80000000 then
    (if bits p 6 282 = 0 then ((if p % 64 = 0 then Accu.reset else markerOf (p % 64)), Tal.zero)
     else (markerOf (Nat.lor (p % 64) 8), { Tal.zero with mal := 1 }))
  else ({ Accu.reset with fin := true, v := toInt 320 p, any := true }, Tal.zero)

/-- A binned partial (R404). -/
def binPartial (b : Bytes) : Accu × Tal :=
  let lo := toInt 64 (rdLE b 0 8)
  let mid := toInt 64 (rdLE b 8 8)
  let hi := toInt 64 (rdLE b 16 8)
  let top := rdLE b 24 1
  let s := rdLE b 25 1
  let fin := bit s 6
  let bad := decide (top < 2 ∨ 52 < top) || bit s 7 || !zeroAt b 26 6 || (fin && decide (s % 64 / 2 ≠ 0))
    || (!fin && decide (lo ≠ 0 ∨ mid ≠ 0 ∨ hi ≠ 0))
  if bad then (markerOf 8, { Tal.zero with mal := 1 })
  else if fin then ({ Accu.reset with fin := true, any := true, top := top, hi := hi, mid := mid, lo := lo }, Tal.zero)
  else ((if s % 64 = 0 then Accu.reset else markerOf (s % 64)), Tal.zero)

/-- The partial form of a floating-point SUM. -/
def sumImage (dt : Nat) (a : Accu) : Bytes :=
  if dt = 0 then
    leBytes 8 (ofInt 64 a.lo) ++ leBytes 8 (ofInt 64 a.mid) ++ leBytes 8 (ofInt 64 a.hi) ++ leBytes 1 a.top
      ++ leBytes 1 (a.fl + 64 * b2n a.fin) ++ zeros 6
  else if a.fin then leBytes 40 (ofInt 320 a.v)
  else leBytes 40 (0x80000000 * 2 ^ 288 + a.fl)

/-- The result of a floating-point SUM (R410). -/
def sumRound (dt mode : Nat) (a : Accu) (draw : Nat) : Nat × Tal :=
  let f := fmt dt
  let conv : Tal := { Tal.zero with conv := 1 }
  let fl := a.fl
  if !a.fin && bit fl 3 then (f.qnan, Tal.zero)
  else if !a.fin && bit fl 1 && bit fl 2 then (f.qnan, { Tal.zero with inv := 1 })
  else if !a.fin && bit fl 1 then (f.excess false, if f.e4m3 then conv else Tal.zero)
  else if !a.fin && bit fl 2 then (f.excess true, if f.e4m3 then conv else Tal.zero)
  else if !a.fin && bit fl 4 && bit fl 5 then (f.qnan, { Tal.zero with inv := 1 })
  else if !a.fin && bit fl 4 then (f.excess false, conv)
  else if !a.fin && bit fl 5 then (f.excess true, conv)
  else if !a.fin && bit fl 0 then (f.signed true 0, Tal.zero)
  else if !a.fin then (0, Tal.zero)
  else
    let v := if dt = 0 then a.binValue else a.v
    let w : Int := if dt = 0 then binUnit (a.top - 2) else -160
    if v = 0 then (0, Tal.zero)
    else
      let r := f.round mode (decide (v < 0)) v.natAbs w draw
      (r.1, if r.2 then conv else Tal.zero)

/-! ### Integer sums (R407, R408) -/

/-- Width of the accumulator. -/
def intAccBits (dt : Nat) : Nat := if dtSize dt = 8 then 128 else 64

/-- A native integer as a number. -/
def intOf (dt b : Nat) : Int := if isSigned dt then toInt (8 * dtSize dt) b else (b : Int)

/-- The result of an integer SUM. -/
def intRound (dt : Nat) (sat : Bool) (a : Accu) : Nat × Tal :=
  let k := 8 * dtSize dt
  let v := toInt (intAccBits dt) (ofInt (intAccBits dt) a.v)
  let lo : Int := if isSigned dt then -(2 ^ (k - 1) : Nat) else 0
  let hi : Int := if isSigned dt then (2 ^ (k - 1) : Nat) - 1 else (2 ^ k : Nat) - 1
  let out := decide (v < lo) || decide (hi < v)
  (ofInt k (if sat then max lo (min hi v) else v), if out then { Tal.zero with intv := 1 } else Tal.zero)

/-! ## Selection (R415, R416) -/

/-- The ordering key of a pattern. -/
def orderKey (dt b : Nat) : Int :=
  if isFloat dt then
    let k := 8 * dtSize dt - 1
    if bit b k then -((b % 2 ^ k : Nat) : Int) - 1 else (b % 2 ^ k : Nat)
  else intOf dt b

/-- The pattern is a NaN. -/
def isNan (dt b : Nat) : Bool := isFloat dt && (fmt dt).decode b == .nan

/-- Take one element of MIN, MAX, MINLOC or MAXLOC. -/
def selectTake (op dt : Nat) (b idx : Nat) (a : Accu) : Accu :=
  let loc := op == 8 || op == 9
  let nan := isNan dt b
  let b := if nan then (fmt dt).qnan else b
  let new : Accu := { Accu.reset with any := true, v := b, idx := if loc then idx else 0, fl := if nan then 8 else 0 }
  if !a.any then new
  else if bit a.fl 3 then (if nan && loc && decide (idx < a.idx) then new else a)
  else if nan then new
  else
    let x := orderKey dt a.v.toNat
    let y := orderKey dt b
    let better := if op = 3 ∨ op = 8 then decide (y < x) else decide (x < y)
    if better || (loc && y == x && decide (idx < a.idx)) then new else a

/-! ## Steps (R369, R377, R378, R394) -/

/-- PSIZE (R369). -/
def pSize (op dt : Nat) : Nat :=
  match op with
  | 0 => 0
  | 2 => if dt = 0 then 32 else if isFloat dt then 40 else if dtSize dt = 8 then 16 else 8
  | 8 | 9 => dtSize dt + 4
  | _ => dtSize dt

/-- Size of an element in native form; MINLOC and MAXLOC elements carry their index. -/
def elemSize (op dt : Nat) : Nat := if op = 0 then 0 else if op = 8 ∨ op = 9 then dtSize dt + 4 else dtSize dt

/-- Take one element's operand into an accumulator. -/
def takeElem (op dt : Nat) (part : Bool) (b : Bytes) (a : Accu) : Accu × Tal :=
  let n := dtSize dt
  let v := rdLE b 0 n
  match op with
  | 2 =>
    if isFloat dt then
      let x := if part then (if dt = 0 then binPartial b else plainPartial b) else sumNative dt v
      let r := sumJoin (dt == 0) a x.1
      (r.1, x.2.add r.2)
    else
      let w := intAccBits dt
      let x := if part then toInt w (rdLE b 0 (w / 8)) else intOf dt v
      ({ a with v := toInt w (ofInt w (a.v + x)), any := true, fin := true }, Tal.zero)
  | 5 => ({ a with v := if a.any then (Nat.land a.v.toNat v : Nat) else v, any := true }, Tal.zero)
  | 6 => ({ a with v := if a.any then (Nat.lor a.v.toNat v : Nat) else v, any := true }, Tal.zero)
  | 7 => ({ a with v := if a.any then (Nat.xor a.v.toNat v : Nat) else v, any := true }, Tal.zero)
  | _ => (selectTake op dt v (rdLE b n 4) a, if isNan dt v && !part then { Tal.zero with nan := 1 } else Tal.zero)

/-- The bytes of one element's result: the partial form, or rounded to DTYPE. -/
def formElem (op dt mode : Nat) (sat part : Bool) (draw : Nat) (a : Accu) : Bytes × Tal :=
  let n := dtSize dt
  match op with
  | 2 =>
    if part then
      ((if isFloat dt then sumImage dt a else leBytes (intAccBits dt / 8) (ofInt (intAccBits dt) a.v)), Tal.zero)
    else
      let r := if isFloat dt then sumRound dt mode a draw else intRound dt sat a
      (leBytes n r.1, r.2)
  | 8 | 9 => (leBytes n a.v.toNat ++ leBytes 4 a.idx, Tal.zero)
  | _ => (leBytes n a.v.toNat, Tal.zero)

/-- Cut bytes into `k` pieces of `n`. -/
def pieces (n : Nat) : Nat → Bytes → List Bytes
  | 0, _ => []
  | k + 1, b => padTo n (b.take n) :: pieces n k (b.drop n)

/-- Take a payload of `k` elements. -/
def takeChunk (op dt : Nat) (part : Bool) (k : Nat) (b : Bytes) (l : List Accu) : List Accu × Tal :=
  let sz := if part then pSize op dt else elemSize op dt
  let base := if l.isEmpty then List.replicate k Accu.reset else l
  (base.zip (pieces sz k b)).foldr (fun e acc =>
    let r := takeElem op dt part e.2 e.1
    (r.1 :: acc.1, r.2.add acc.2)) ([], Tal.zero)

/-- Form a chunk whose first element has index `k0`. -/
def formChunk (op dt mode : Nat) (sat part : Bool) (seed inst k0 : Nat) (l : List Accu) : Bytes × Tal :=
  (l.zip (List.range l.length)).foldr (fun e acc =>
    let r := formElem op dt mode sat part (rduDraw seed inst (k0 + e.2)) e.1
    (r.1 ++ acc.1, r.2.add acc.2)) ([], Tal.zero)

/-- Round the elements of a SUM partial that a COPY step took (R378, R393). -/
def copyRound (dt mode : Nat) (sat : Bool) (seed inst k0 k : Nat) (b : Bytes) : Bytes × Tal :=
  let x := takeChunk 2 dt true k b []
  let r := formChunk 2 dt mode sat false seed inst k0 x.1
  (r.1, x.2.add r.2)

end Sys2Proof.Machine
end

