-- ==== Sys2Proof/Machine/Coding.lean ====
section
/-! DEFINITION. The line code (spec/05, R117 to R129): levels, stuffing, scrambling, the Reed–Solomon
code, control bits and blocks; and the CRC-64 of flits (R147). -/
namespace Sys2Proof.Machine

/-! ## CRC-64 (R147) -/

/-- One byte into the CRC, most significant bit first. -/
def crc64Byte (c : Nat) (b : Byte) : Nat :=
  (List.range 8).foldl (fun c i =>
    let top := bit c 63 != bit b.toNat (7 - i)
    let c := (c * 2) % 2 ^ 64
    if top then Nat.xor c 0x42F0E1EBA9EA3693 else c) c

/-- CRC-64/ECMA-182, not reflected, initial value and final XOR all ones. -/
def crc64 (bs : Bytes) : Nat := Nat.xor (bs.foldl crc64Byte (2 ^ 64 - 1)) (2 ^ 64 - 1)

/-! ## Symbols and levels (R117, R118) -/

/-- The level of two bits, and the bits of a level: Gray code, its own inverse. -/
def gray (b : Nat) : Nat := [0, 1, 3, 2].getD (b % 4) 0

/-- The two-bit symbols of `n` bits of a number, lowest bits first. -/
def symsOf : Nat → Nat → List Nat
  | 0, _ => []
  | n + 1, v => v % 4 :: symsOf n (v / 4)

/-- The number that two-bit symbols hold. -/
def symsNat : List Nat → Nat
  | [] => 0
  | s :: r => s % 4 + 4 * symsNat r

/-- The four symbols of each byte. -/
def byteSyms (bs : Bytes) : List Nat := (bs.map (fun b => symsOf 4 b.toNat)).flatten

/-- Bytes of two-bit symbols, four to a byte; a symbol of 4 or more marks errored data (R128). -/
def symBytes : List Nat → Option Bytes
  | a :: b :: c :: d :: r =>
    if a < 4 ∧ b < 4 ∧ c < 4 ∧ d < 4 then
      (symBytes r).map (fun t => toByte (a + 4 * b + 16 * c + 64 * d) :: t)
    else none
  | _ => some []

/-- The sync word's levels (R120). -/
def syncLevels : List Nat := [3, 0, 3, 3, 0, 0, 3, 0, 0, 0, 3, 3, 3, 0, 3, 0]

/-! ## Stuffing (R121, R122, R127) -/

/-- Positions left, last level, run, data left to send (`d`), data levels: the field's levels. -/
def stuffTx : Nat → Nat → Nat → Nat → List Nat → List Nat
  | 0, _, _, _, _ => []
  | n + 1, prev, run, d, data =>
    let forced := (prev + 2) % 4
    if d = 0 ∨ run = 31 then forced :: stuffTx n forced 1 d data
    else match data with
      | [] => forced :: stuffTx n forced 1 0 []
      | x :: r => x :: stuffTx n x (if x = prev then run + 1 else 1) (d - 1) r

/-- How many data symbols fit in the positions left under R121. -/
def stuffFit : Nat → Nat → Nat → List Nat → Nat
  | 0, _, _, _ => 0
  | n + 1, prev, run, data =>
    if run = 31 then stuffFit n ((prev + 2) % 4) 1 data
    else match data with
      | [] => 0
      | x :: r => 1 + stuffFit n x (if x = prev then run + 1 else 1) r

/-- The payload field's data levels, or none where a forced symbol is wrong (R127 step 4). -/
def destuff : Nat → Nat → Nat → List Nat → Option (List Nat)
  | _, _, _, [] => some []
  | prev, run, d, x :: r =>
    let run' := if x = prev then run + 1 else 1
    if d = 0 ∨ run = 31 then
      if x = (prev + 2) % 4 then destuff x run' d r else none
    else (destuff x run' (d - 1) r).map (x :: ·)

/-! ## Scrambling (R123) -/

/-- One step of the scrambler: its output bit and next state. -/
def scrStep (s : Nat) : Nat × Nat :=
  let new := b2n (bit s 30 != bit s 27)
  (new, (s * 2 + new) % 2 ^ 31)

/-- `n` steps without output. -/
def scrSkip : Nat → Nat → Nat
  | 0, s => s
  | n + 1, s => scrSkip n (scrStep s).2

/-- Scramble or descramble data symbols, bit 0 of a symbol first. -/
def scramble : Nat → List Nat → List Nat
  | _, [] => []
  | s, x :: r =>
    let a := scrStep s
    let b := scrStep a.2
    (if x < 4 then Nat.xor x (a.1 + 2 * b.1) else x) :: scramble b.2 r

/-- The state at the start of a RESTART or TRAIN block on logical lane λ. -/
def scrSeed (lane : Nat) : Nat := 0x7FFFFF00 + 0x5A + lane

/-! ## The Reed–Solomon code (R124) -/

/-- Product in GF(2^12), modulo x^12 + x^6 + x^4 + x + 1. -/
def gfMul (a b : Nat) : Nat :=
  ((List.range 12).foldl (fun (acc : Nat × Nat) i =>
    let r := if bit b i then Nat.xor acc.1 acc.2 else acc.1
    let a := acc.2 * 2
    (r, if bit a 12 then Nat.xor a 0x1053 else a)) (0, a % 4096)).1

/-- Powers, by repeated squaring over 12 bits of the exponent. -/
def gfPow (a n : Nat) : Nat :=
  ((List.range 12).foldl (fun (acc : Nat × Nat) i =>
    (if bit n i then gfMul acc.1 acc.2 else acc.1, gfMul acc.2 acc.2)) (1, a)).1

/-- The inverse of a non-zero element. -/
def gfInv (a : Nat) : Nat := gfPow a 4094

/-- α^n. -/
def alpha (n : Nat) : Nat := gfPow 2 (n % 4095)

/-- A polynomial's value, coefficients from the highest degree. -/
def polyEval (p : List Nat) (x : Nat) : Nat := p.foldl (fun acc c => Nat.xor (gfMul acc x) c) 0

/-- The generator polynomial without its leading 1, from degree 15 down. -/
def rsGen : List Nat :=
  ((List.range 16).foldl (fun g i =>
    -- g(x) × (x + α^i), coefficients from the highest degree
    let a := alpha i
    List.zipWith Nat.xor (g ++ [0]) (0 :: g.map (gfMul a))) [1]).drop 1

/-- The 16 parity symbols, from the coefficient of x^15 down. -/
def rsParity (msg : List Nat) : List Nat :=
  let g := rsGen
  msg.foldl (fun r c =>
    match r with
    | [] => []
    | h :: t =>
      let f := Nat.xor h c
      List.zipWith (fun x y => Nat.xor x (gfMul f y)) (t ++ [0]) g) (List.replicate 16 0)

/-- The 16 syndromes of a codeword (coefficients from the highest degree). -/
def syndromes (cw : List Nat) : List Nat := (List.range 16).map (fun j => polyEval cw (alpha j))

/-- Add `c × x^k` times a polynomial to another (coefficients from the lowest degree). -/
def polyAddMul (p q : List Nat) (c k : Nat) : List Nat :=
  let q' := List.replicate k 0 ++ q.map (gfMul c)
  let n := max p.length q'.length
  (List.range n).map (fun i => Nat.xor (p.getD i 0) (q'.getD i 0))

/-- Berlekamp–Massey: the error locator (coefficients from the lowest degree) and its length. -/
def errorLocator (s : List Nat) : List Nat × Nat :=
  let r := (List.range 16).foldl (fun (st : List Nat × List Nat × Nat × Nat × Nat) n =>
    let c := st.1
    let b := st.2.1
    let l := st.2.2.1
    let k := st.2.2.2.1
    let bb := st.2.2.2.2
    let disc := (List.range (l + 1)).foldl (fun a i => Nat.xor a (gfMul (c.getD i 0) (s.getD (n - i) 0))) 0
    if disc = 0 then (c, b, l, k + 1, bb)
    else
      let c' := polyAddMul c b (gfMul disc (gfInv bb)) k
      if 2 * l ≤ n then (c', c, n + 1 - l, 1, disc) else (c', b, l, k + 1, bb))
    ([1], [1], 0, 1, 1)
  (r.1, r.2.2.1)

/-- Value of a polynomial with coefficients from the lowest degree. -/
def polyLow (p : List Nat) (x : Nat) : Nat := polyEval p.reverse x

/-- Decode a codeword of 338 symbols: the corrected symbols and how many were corrected, or none where
it cannot be corrected (more than 8 symbols in error). -/
def rsDecode (cw : List Nat) : Option (List Nat × Nat) :=
  let s := syndromes cw
  if s.all (· == 0) then some (cw, 0)
  else
    let el := errorLocator s
    let loc := el.1
    let n := cw.length
    -- position i counts from the lowest degree
    let pos := (List.range n).filter (fun i => polyLow loc (alpha (4095 - i % 4095)) == 0)
    if 8 < el.2 ∨ pos.length ≠ el.2 then none
    else
      let omega := (List.range 16).map (fun i =>
        (List.range (i + 1)).foldl (fun a j => Nat.xor a (gfMul (loc.getD j 0) (s.getD (i - j) 0))) 0)
      let deriv := (List.range loc.length).map (fun i => if i % 2 = 0 then loc.getD (i + 1) 0 else 0)
      let fix := (List.range n).map (fun k =>
        let i := n - 1 - k
        let c := cw.getD k 0
        if pos.contains i then
          let xi := alpha i
          let xinv := alpha (4095 - i % 4095)
          Nat.xor c (gfMul xi (gfMul (polyLow omega xinv) (gfInv (polyLow deriv xinv))))
        else c)
      if (syndromes fix).all (· == 0) then some (fix, pos.length) else none

/-! ## Blocks (R119, R125) -/

/-- The control bits of a block. -/
structure Ctl where
  mark   : Bool
  lane   : Nat
  resync : Bool
  /-- 0 DATA, 1 RESTART, 2 LEAVE, 3 JOIN, 4 WAKE, 5 TRAIN. -/
  status : Nat
  stuff  : Nat
  time   : Nat
  deriving DecidableEq, Repr

/-- The 24 control bits (R125). -/
def ctlBits (c : Ctl) : Nat :=
  c.time % 256 + (c.stuff % 64) * 2 ^ 8 + (c.status % 8) * 2 ^ 14 + b2n c.resync * 2 ^ 17
    + (c.lane % 4) * 2 ^ 18 + b2n c.mark * 2 ^ 20

/-- Read them back. -/
def ctlOf (v : Nat) : Ctl :=
  { mark := bit v 20, lane := bits v 18 2, resync := bit v 17, status := bits v 14 3, stuff := bits v 8 6
    time := bits v 0 8 }

/-- Groups of `n`. -/
def chunks : Nat → Nat → List Nat → List (List Nat)
  | 0, _, _ => []
  | k + 1, n, l => l.take n :: chunks k n (l.drop n)

/-- The message symbols of a payload field (two-bit symbols) and control bits. -/
def rsMessage (field : List Nat) (ctl : Nat) : List Nat :=
  (chunks 320 6 field).map symsNat ++ [ctl % 4096, ctl / 4096]

/-- Put a pilot after the last level of a list (R120). -/
def withPilot (l : List Nat) : List Nat := l ++ [(l.getLast?.getD 0 + 2) % 4]

/-- The 2,048 levels of a block with a payload field of 1,920 levels and control bits (R119). -/
def blockLevels (field : List Nat) (ctl : Nat) : List Nat :=
  let par := rsParity (rsMessage (field.map gray) ctl)
  let code := ((par.map (symsOf 6)).flatten).map gray
  let a := withPilot (syncLevels ++ field)
  let b := withPilot (a ++ code.take 30)
  let c := withPilot (b ++ (code.drop 30).take 30)
  let d := withPilot (c ++ (code.drop 60).take 29)
  d ++ (code.drop 89).take 7 ++ (symsOf 12 ctl).map gray

/-- The parts of a received block: field, code symbols, control symbols, as two-bit symbols. -/
def blockParts (lv : List Nat) : List Nat × List Nat × List Nat :=
  let s := lv.map gray
  ((s.drop 16).take 1920,
   (s.drop 1937).take 30 ++ (s.drop 1968).take 30 ++ (s.drop 1999).take 29 ++ (s.drop 2029).take 7,
   (s.drop 2036).take 12)

/-- Symbols of the sync word in error. -/
def syncErrors (lv : List Nat) : Nat :=
  ((List.zip syncLevels (padToNat 16 lv)).filter (fun e => e.1 != e.2)).length
where
  /-- The first `n`, missing ones as an impossible level. -/
  padToNat (n : Nat) (l : List Nat) : List Nat := l.take n ++ List.replicate (n - l.length) 9

/-- Decode a block's payload field and control bits (R124): levels of the field, control bits, and the
number of symbols corrected. -/
def blockDecode (lv : List Nat) : Option (List Nat × Nat × Nat) :=
  let p := blockParts lv
  let ctl := symsNat p.2.2
  let cw := rsMessage p.1 ctl ++ (chunks 16 6 p.2.1).map symsNat
  (rsDecode cw).map (fun r =>
    ((((r.1.take 320).map (symsOf 6)).flatten).map gray, r.1.getD 320 0 + 4096 * r.1.getD 321 0, r.2))

end Sys2Proof.Machine
end

