-- ==== Sys2Proof/Machine/Host.lean ====
section
/-! DEFINITION. The host endpoint (spec/02): functions and their states, tags, MSI-X, bus writes. -/
namespace Sys2Proof.Machine

/-- Key of a function's entry: die and function. -/
def fk (d f : Nat) : Nat := d * 2048 + f

/-- Die `d` runs bifurcated (R43). -/
def bifurcated (d : Nat) (m : Mod) : Bool := bit m.flash.bifur d

/-- The PF, 0 or 1, whose functions include function `f` of die `d` (R44). -/
def pfOf (d f : Nat) (m : Mod) : Nat :=
  if bifurcated d m then (if f = 1025 ∨ 512 < f ∧ f ≤ 1024 then 1 else 0) else 0

/-- The function number of PF `p`. -/
def pfFn (p : Nat) : Nat := if p = 0 then 0 else 1025

/-- Function `f` is a PF of die `d`. -/
def isPf (d f : Nat) (m : Mod) : Bool := f == 0 || (bifurcated d m && f == 1025)

/-- The VF number of `f` on its own link. -/
def vfNum (d f : Nat) (m : Mod) : Nat := if pfOf d f m = 1 then f - 512 else f

/-- A function exists while it is a PF, or VF v with VF Enable 1 and v ≤ NumVFs (R47). -/
def fnExists (d f : Nat) (m : Mod) : Bool :=
  isPf d f m ||
    (decide (1 ≤ f ∧ f ≤ 1024) && NMap.get false m.hif.vfEn (d * 2 + pfOf d f m)
      && decide (vfNum d f m ≤ NMap.get 0 m.hif.numVf (d * 2 + pfOf d f m)))

/-! HIF_FN[f].STATE codes (R47). -/
namespace FnSt
def disabled : Nat := 0
def running : Nat := 1
def draining : Nat := 2
def halted : Nat := 3
def resetting : Nat := 4
def d3hot : Nat := 5
end FnSt

/-- The state of function `f`. -/
def fnState (d f : Nat) (m : Mod) : Nat := rd F.HIF_FN_STATE d f m

/-- Set it. -/
def setFn (d f st : Nat) (m : Mod) : Mod := wr F.HIF_FN_STATE d f st m

/-- Bus Master Enable of function `f`. -/
def bme (d f : Nat) (m : Mod) : Bool := NMap.get false m.hif.bme (fk d f)

/-- In D3hot or on the way there. -/
def inD3 (d f : Nat) (m : Mod) : Bool := NMap.get false m.hif.d3 (fk d f)

/-- The function may issue requests: Bus Master Enable is 1 and it is in D0 (R46, R59). -/
def canIssue (d f : Nat) (m : Mod) : Bool := bme d f m && !inD3 d f m

/-! ## The PFs' configuration space (R41, R49, R55)

The places of the fields are those of PCI Express Base 6.0 (PRESUMED: the spec names the registers only). -/

/-- Device Control of PF `p`; after reset 128-byte payloads and 512-byte read requests. -/
def devCtl (d p : Nat) (m : Mod) : Nat := NMap.get 0x2000 m.hif.devCtl (d * 2 + p)

/-- Max Payload Size and Max Read Request Size in force for a function: its PF's. -/
def maxPayload (d f : Nat) (m : Mod) : Nat := 128 * 2 ^ min 2 (bits (devCtl d (pfOf d f m) m) 5 3)
def maxRead (d f : Nat) (m : Mod) : Nat := 128 * 2 ^ min 5 (bits (devCtl d (pfOf d f m) m) 12 3)

/-- The completion timeout in force on PF `p`'s link in µs (R55). -/
def cplTimeout (d p : Nat) (m : Mod) : Nat :=
  match NMap.get 0 m.hif.devCtl2 (d * 2 + p) % 16 with
  | 0 => 50000
  | c => Config.cplTimeout c % 2 ^ 32

/-- log2 of the size of the BAR that a base address register belongs to (R43, R48). -/
def barLog2 (d p k : Nat) (m : Mod) : Nat :=
  if k < 2 then 26 else if k < 4 then (if bifurcated d m then 27 else 28) else NMap.get 30 m.hif.bar4 (d * 2 + p)

/-- A base address register: only the bits above the BAR's size are writable (R49); the low four bits tell its type. -/
def barRead (d p k : Nat) (m : Mod) : Nat :=
  let v := NMap.get 0 m.hif.bars ((d * 2 + p) * 8 + k)
  if k % 2 = 1 then v / 2 ^ (barLog2 d p k m - 32) * 2 ^ (barLog2 d p k m - 32)
  else v / 2 ^ barLog2 d p k m * 2 ^ barLog2 d p k m + (if k = 0 then 4 else 12)

/-- Where a register of a PF's configuration space stands in the model's register offsets. -/
def cfgBase : Nat := 0x80000000

/-- A read of the configuration space: base address registers at 0x10, and at places of the model's own Device Control,
Device Control 2, and the Resizable BAR capability and control of BAR4. -/
def cfgRead (d p o : Nat) (m : Mod) : Nat :=
  if 0x10 ≤ o ∧ o < 0x28 then barRead d p ((o - 0x10) / 4) m
  else if o = 0x100 then devCtl d p m
  else if o = 0x104 then NMap.get 0 m.hif.devCtl2 (d * 2 + p)
  else if o = 0x108 then 0x7FF * 2 ^ 14
  else if o = 0x10C then 4 + (NMap.get 30 m.hif.bar4 (d * 2 + p) - 20) * 256
  else 0

/-- The function is RUNNING: inbound operations are carried out only then (R47). -/
def fnRunning (d f : Nat) (m : Mod) : Bool := fnState d f m == FnSt.running

/-- The Shepherd serves the function's Azrix ring (R47). -/
def azxServed (d f : Nat) (m : Mod) : Bool :=
  fnExists d f m && !inD3 d f m && fnState d f m != FnSt.resetting && bme d f m

/-- Every function number of a die: PF0, VF 1 to 1,024, PF1. -/
def allFns : List Nat := List.range 1026

/-- The functions of die `d` that exist. -/
def liveFns (d : Nat) (m : Mod) : List Nat := allFns.filter (fun f => fnExists d f m)

/-! ## Regions (R440) -/

/-- An enabled region as in force. -/
structure Region where
  num   : Nat
  start : Nat
  stop  : Nat
  perm  : Nat
  fn    : Nat
  anyFn : Bool
  se    : Bool
  attr  : Nat
  deriving DecidableEq, Repr

/-- The numbers of regions whose ENABLE has been written, in a table of fields. -/
def regionKeys (d : Nat) (t : NMap Nat) : List Nat :=
  ((t.map Prod.fst).filter (fun k =>
    keyReg k == F.ACP_RCTL_ENABLE.reg && keyLo k == F.ACP_RCTL_ENABLE.lo && keyDie k == d)).map keyIdx

/-- Bus attributes of a region (R443): [0] relaxed ordering, [1] no-snoop, [2] TPH, [4:3] PH, [12:5] ST. -/
def attrOf (d r : Nat) (m : Mod) : Nat :=
  cur F.ACP_RATTR_RO d r m + 2 * cur F.ACP_RATTR_NS d r m + 4 * cur F.ACP_RATTR_TPH_EN d r m
    + 8 * cur F.ACP_RATTR_PH d r m + 32 * cur F.ACP_RATTR_ST d r m

/-- The enabled regions of die `d`. -/
def regions (d : Nat) (m : Mod) : List Region :=
  let ns := (regionKeys d m.regs ++ (regionKeys d m.live).filter (fun n => !(regionKeys d m.regs).contains n)).filter
    (fun r => curB F.ACP_RCTL_ENABLE d r m)
  ns.map (fun r =>
    { num := r, start := cur F.ACP_RSTART_START d r m * 64, stop := cur F.ACP_REND_END d r m * 64 + 63
      perm := cur F.ACP_RPERM_PERM d r m, fn := cur F.ACP_RCTL_FN d r m, anyFn := curB F.ACP_RCTL_ANY_FN d r m
      se := curB F.ACP_RATTR_SE d r m, attr := attrOf d r m })

/-- The lowest-numbered region that applies to a byte for function `f` (R440). -/
def decider (l : List Region) (f b : Nat) : Option Region :=
  l.foldl (fun best r =>
    if (r.anyFn || r.fn == f) && decide (r.start ≤ b ∧ b ≤ r.stop) then
      (match best with
       | some x => if r.num < x.num then some r else some x
       | none => some r)
    else best) none

/-- Whether any byte of a range lies in an enabled side-effect region (R436). -/
def seHit (l : List Region) (a n : Nat) : Bool := l.any (fun r => r.se && decide (r.start < a + n ∧ a ≤ r.stop))

/-- Attributes of a bus byte for a function. -/
def attrAt (l : List Region) (f b : Nat) : Nat := ((decider l f b).map Region.attr).getD 0

/-- Split a bus range where its attributes change (R443): address, length, attributes. -/
def splitAttr (l : List Region) (f : Nat) : Nat → Nat → Nat → List (Nat × Nat × Nat)
  | 0, _, _ => []
  | k + 1, a, n =>
    if n = 0 then []
    else
      let g := min n (64 - a % 64)
      match splitAttr l f k (a + g) (n - g) with
      | (b, c, t) :: r => if t = attrAt l f a then (a, g + c, t) :: r else (a, g, attrAt l f a) :: (b, c, t) :: r
      | [] => [(a, g, attrAt l f a)]

/-- A bus range cut into requests of at most `n` bytes, none across a 4 KiB boundary. -/
def cutReq (n : Nat) : Nat → Nat → Nat → List (Nat × Nat)
  | 0, _, _ => []
  | k + 1, a, len =>
    if len = 0 then []
    else
      let g := min len (min n (4096 - a % 4096))
      (a, g) :: cutReq n k (a + g) (len - g)

/-- The requests for a range: address, length, attributes (R41, R443). -/
def requests (d f n a len : Nat) (m : Mod) : List (Nat × Nat × Nat) :=
  (splitAttr (regions d m) f (len / 64 + 2) a len).flatMap
    (fun p => (cutReq n (p.2.1 / n + p.2.1 / 4096 + 2) p.1 p.2.1).map (fun q => (q.1, q.2, p.2.2)))

/-! ## Tags (R53 to R55, R62) -/

/-- Key of a tag. -/
def tk (d t : Nat) : Nat := d * 1024 + t

/-- The record of tag `t` of die `d`. -/
def tagOf (d t : Nat) (m : Mod) : Option Tag := NMap.find m.hif.tags (tk d t)

/-- The tags of die `d` that satisfy `p`. -/
def tagsWhere (d : Nat) (p : Nat → Tag → Bool) (m : Mod) : List Nat :=
  (m.hif.tags.filter (fun e => e.1 / 1024 == d && p (e.1 % 1024) e.2)).map (fun e => e.1 % 1024)

/-- General tags that function `f` holds, quarantine not counted (R62). -/
def tagsHeld (d f : Nat) (m : Mod) : Nat :=
  (tagsWhere d (fun t g => t < 0x300 && g.fn == f && !g.quar) m).length

/-- The tag limit in force; values above 768 act as 768 (R54). -/
def tagLimit (d f : Nat) (m : Mod) : Nat := min 768 (cur F.HIF_FN_TAG_LIMIT d f m)

/-- The lowest free tag in `[lo, hi)`. -/
def freeTag (d lo hi : Nat) (m : Mod) : Option Nat :=
  ((List.range (hi - lo)).map (· + lo)).find? (fun t => (tagOf d t m).isNone)

/-- The pool of a request: the reserved inbound pool or the general pool, halved per link when
bifurcated (R43, R53). R43 gives the two links the counts and no values: DESIGN CHOICE, link A has the lower half of each
range and link B the upper. -/
def pool (d f : Nat) (inb : Bool) (m : Mod) : Nat × Nat :=
  match inb, bifurcated d m, pfOf d f m with
  | true, true, 0 => (0x300, 0x320)
  | true, true, _ => (0x320, 0x340)
  | true, false, _ => (0x300, 0x340)
  | false, true, 0 => (0, 384)
  | false, true, _ => (384, 768)
  | false, false, _ => (0, 768)

/-- Whether a request may take a tag now, and which (R54, R56, R59): the function may issue requests and is below its
limit, and its pool has a free tag. -/
def tagFor (q : TagReq) (m : Mod) : Option Nat :=
  if !canIssue q.die q.fn m then none
  else if q.inb || decide (tagsHeld q.die q.fn m < tagLimit q.die q.fn m) then
    freeTag q.die (pool q.die q.fn q.inb m).1 (pool q.die q.fn q.inb m).2 m
  else none

/-! ## IDE streams (R526) -/

/-- The base and the limit of a stream's address association. -/
def assocOf (k : Nat) (m : Mod) : Nat × Nat :=
  let w := fun n => NMap.get 0 m.sec.assoc (k * 4 + n)
  (w 0 + w 1 * 2 ^ 32, w 2 + w 3 * 2 ^ 32)

/-- A request of function `f` at an address goes with the Secure stream of its link whose association holds the address: 256 × (1 + stream)
beside its attributes, 0 without IDE. A stream that is not Secure is applied to nothing (DESIGN CHOICE). -/
def ideOf (d f addr : Nat) (m : Mod) : Nat :=
  let k := d * 8 + 4 * pfOf d f m
  match [0, 1, 2, 3].find? (fun n => NMap.get false m.sec.ide (k + n)
      && decide ((assocOf (k + n) m).1 ≤ addr ∧ addr ≤ (assocOf (k + n) m).2 ∧ (assocOf (k + n) m).2 ≠ 0)) with
  | some n => 256 * (1 + n)
  | none => 0

/-! ## Bus writes and MSI-X -/

/-- A posted write to host memory; a function that may not issue requests sends nothing (R46, R59). -/
def hostWr (d f addr : Nat) (data : Bytes) (m : Mod) : Mod :=
  if canIssue d f m && !data.isEmpty then
    let ps := requests d f (maxPayload d f m) addr data.length m
    let m := ps.foldl (fun m p => emit (.hostWrite d f p.1 (p.2.2 + ideOf d f p.1 m) ((data.drop (p.1 - addr)).take p.2.1)) m) m
    let m := if ps.any (fun p => bit p.2.2 0) then { m with hif := { m.hif with ro := NMap.set false m.hif.ro (fk d f) true } } else m
    count d 417 data.length m
  else m

/-- The tag under which a request goes that is answered within the command: the lowest free one of its pool. -/
def passingTag (d f : Nat) (inb : Bool) (m : Mod) : Nat :=
  (freeTag d (pool d f inb m).1 (pool d f inb m).2 m).getD (pool d f inb m).1

/-- Function `f` may take a tag of the pool now (R54, R56): work that would have to wait for one does not start. -/
def tagOpen (d f : Nat) (inb : Bool) (m : Mod) : Bool :=
  (tagFor { die := d, fn := f, addr := 0, len := 0, work := .discard, inb := inb } m).isSome

/-- Read requests that the host answers within the command: each takes a tag of its pool and returns it (R53). -/
def askHost (d f : Nat) (inb : Bool) (a n : Nat) (m : Mod) : Mod :=
  let t := passingTag d f inb m
  (requests d f (maxRead d f m) a n m).foldl (fun m p => count d 418 1 (emit (.hostRead d f t p.1 p.2.1 (p.2.2 + ideOf d f p.1 m)) m)) m

/-- A completion or acknowledgement waits for the writes it covers: where one carried relaxed ordering, a
zero-length read to the same function completes first (R297, R319). -/
def flushRo (d f : Nat) (inb : Bool) (m : Mod) : Mod :=
  if NMap.get false m.hif.ro (fk d f) then
    count d 418 1 (emit (.hostRead d f (passingTag d f inb m) 0 0 (ideOf d f 0 m)) { m with hif := { m.hif with ro := NMap.set false m.hif.ro (fk d f) false } })
  else m

/-- A write by the module's own rings: it follows the payload writes it covers and carries no relaxed
ordering. -/
def hostWrOrd (d f addr : Nat) (data : Bytes) (m : Mod) : Mod :=
  let m := flushRo d f false m
  if canIssue d f m then
    count d 417 data.length (emit (.hostWrite d f addr (attrAt (regions d m) f addr / 2 * 2 + ideOf d f addr m) data) m)
  else m

/-- An AtomicOp on host memory: 0 FetchAdd, 1 Swap, 2 CAS (R57). -/
def hostAtomicOut (d f : Nat) (inb : Bool) (op addr : Nat) (operands : Bytes) (m : Mod) : Mod :=
  count d 418 1 (count d 419 1 (emit (.hostAtomic d f (passingTag d f inb m) op addr (attrAt (regions d m) f addr + ideOf d f addr m) operands) m))

/-- Vectors in a function's table (R58). -/
def vecCount (d f : Nat) (m : Mod) : Nat := if isPf d f m then 2048 else 64

/-- Key of an MSI-X entry. -/
def vk (d f v : Nat) : Nat := fk d f * 2048 + v

/-- An entry nobody has written: masked. -/
def MsixEnt.reset : MsixEnt := { addr := 0, data := 0, masked := true }

/-- The entry of vector `v`. -/
def msixEnt (d f v : Nat) (m : Mod) : MsixEnt := NMap.get MsixEnt.reset m.hif.msix (vk d f v)

/-- Vector `v` can be sent: not masked, and the function may issue requests (R46, R58). -/
def msixOpen (d f v : Nat) (m : Mod) : Bool := canIssue d f m && !(msixEnt d f v m).masked

/-- Signal vector `v` of function `f`, or set its PBA bit (R58). A vector beyond the table acts as 0. -/
def msix (d f v : Nat) (m : Mod) : Mod :=
  let v := if v < vecCount d f m then v else 0
  if msixOpen d f v m then count d 420 1 (emit (.msix d f v) m)
  else { m with hif := { m.hif with pba := NMap.set false m.hif.pba (vk d f v) true } }

/-- A pending vector is sent once it is unmasked and bus mastering is enabled (R58). -/
def msixPending (d f v : Nat) (m : Mod) : Mod :=
  if NMap.get false m.hif.pba (vk d f v) && msixOpen d f v m then
    msix d f v { m with hif := { m.hif with pba := NMap.set false m.hif.pba (vk d f v) false } }
  else m

/-- A write to an MSI-X table entry takes effect at once (R58). -/
def msixWrite (d f v addr data : Nat) (masked : Bool) (m : Mod) : Mod :=
  if v < vecCount d f m ∧ fnExists d f m then
    { m with hif := { m.hif with
        msix := NMap.set MsixEnt.reset m.hif.msix (vk d f v)
          { addr := addr % 2 ^ 64, data := data % 2 ^ 32, masked := masked } } }
  else m

/-! ## Requests that take tags (R53 to R55, R62) -/

/-- Issue a read request under tag `t`. -/
def issueRead (q : TagReq) (t : Nat) (m : Mod) : Mod :=
  count q.die 418 1 (emit (.hostRead q.die q.fn t q.addr q.len (attrAt (regions q.die m) q.fn q.addr + ideOf q.die q.fn q.addr m))
    { m with hif := { m.hif with tags := NMap.put m.hif.tags (tk q.die t) { fn := q.fn, work := q.work, quar := false } } })

/-- A request waits for a tag. -/
def queueRead (q : TagReq) (m : Mod) : Mod := { m with hif := { m.hif with waitQ := m.hif.waitQ ++ [q] } }

/-- The first waiting request of die `d` that may take a tag takes it (R54). -/
def grantTag (d : Nat) (m : Mod) : Mod :=
  match m.hif.waitQ.find? (fun q => q.die == d && (tagFor q m).isSome) with
  | none => m
  | some q =>
    match tagFor q m with
    | none => m
    | some t => issueRead q t { m with hif := { m.hif with waitQ := m.hif.waitQ.erase q } }

/-- A request of the reserved inbound pool is issued at once where a tag is free, else it waits (R56). -/
def readInbound (q : TagReq) (m : Mod) : Mod :=
  match tagFor q m with
  | some t => issueRead q t m
  | none => queueRead q m

/-- The tag returns to its pool. -/
def freeTagNow (d t : Nat) (m : Mod) : Mod :=
  { m with hif := { m.hif with tags := NMap.del m.hif.tags (tk d t) } }

/-- Function `f` has no read outstanding. -/
def drained (d f : Nat) (m : Mod) : Bool :=
  (tagsWhere d (fun _ g => g.fn == f && !g.quar) m).isEmpty

/-! ## Function states (R47, R59, R60) -/

/-- DISABLED to RUNNING once the function exists, is in D0, and both enables are 1. -/
def functionRun (d f : Nat) (m : Mod) : Mod :=
  if fnState d f m == FnSt.disabled && fnExists d f m && !inD3 d f m && bme d f m && rdB F.HIF_CTRL_ENABLE d 0 m
  then setFn d f FnSt.running m else m

/-- The completions of the function's outstanding reads will be discarded (R59). -/
def discardReads (d f : Nat) (m : Mod) : Mod :=
  { m with hif := { m.hif with
      tags := m.hif.tags.map (fun e =>
        if e.1 / 1024 == d && e.2.fn == f && !e.2.quar then (e.1, { e.2 with work := .discard }) else e)
      waitQ := m.hif.waitQ.filter (fun q => !(q.die == d && q.fn == f)) } }

/-- RUNNING to DRAINING (R47). -/
def startDrain (d f : Nat) (m : Mod) : Mod :=
  discardReads d f (if fnRunning d f m then setFn d f FnSt.draining m else m)

/-- A configuration request reaches the function: it exists and does not answer Request Retry Status (R61). -/
def cfgReaches (d f : Nat) (m : Mod) : Bool := fnExists d f m && fnState d f m != FnSt.resetting

/-- Bus Master Enable set again: HALTED to RUNNING (R47); HALTED queues stay HALTED (R60). -/
def bmeSet (d f : Nat) (m : Mod) : Mod :=
  if cfgReaches d f m then
    let m := { m with hif := { m.hif with bme := NMap.set false m.hif.bme (fk d f) true } }
    if fnState d f m == FnSt.halted then setFn d f FnSt.running m else m
  else m

/-- The last outstanding read of a DRAINING function has ended (R47). -/
def drainComplete (d f : Nat) (m : Mod) : Mod :=
  if fnState d f m == FnSt.draining && drained d f m then
    setFn d f (if inD3 d f m then FnSt.d3hot else if bme d f m then FnSt.running else FnSt.halted) m
  else m

/-- SR-IOV enable with NumVFs; a change of NumVFs while VF Enable is 1 is ignored (R45). -/
def vfEnable (d p n : Nat) (m : Mod) : Mod :=
  if NMap.get false m.hif.vfEn (d * 2 + p) || !cfgReaches d (pfFn p) m then m
  else { m with hif := { m.hif with
          vfEn := NMap.set false m.hif.vfEn (d * 2 + p) true
          numVf := NMap.set 0 m.hif.numVf (d * 2 + p) (min n (if bifurcated d m then 512 else 1024)) } }

/-- The VFs of PF `p`. -/
def vfsOf (d p : Nat) (m : Mod) : List Nat :=
  (liveFns d m).filter (fun f => !isPf d f m && pfOf d f m == p)

/-- The BAR4 size in bytes of PF `p` (R48): 1 GiB by default. -/
def bar4Size (d p : Nat) (m : Mod) : Nat := 2 ^ (NMap.get 30 m.hif.bar4 (d * 2 + p))

/-- BAR2 pages per VF in force (HIF_VF_PAGES): other values act as 16. -/
def vfPages (d : Nat) (m : Mod) : Nat :=
  let p := cur F.HIF_VF_PAGES_PAGES d 0 m
  if [1, 2, 4, 8, 16, 32, 64].contains p then p else 16

/-- BAR2 pages of one PF. -/
def bar2Pages (d : Nat) (m : Mod) : Nat := if bifurcated d m then 32768 else 65536

/-- The PF BAR2 page that page `i` of function `f`'s own BAR2 reaches, with the PF's base of queue
numbers added (R44, R50); none where the access is discarded. -/
def pageOf (d f i : Nat) (m : Mod) : Option Nat :=
  let n := bar2Pages d m
  let p := pfOf d f m
  if isPf d f m then
    let nvf := if NMap.get false m.hif.vfEn (d * 2 + p) then NMap.get 0 m.hif.numVf (d * 2 + p) else 0
    if i < n - nvf * vfPages d m then some (p * n + i) else none
  else if fnExists d f m && decide (i < vfPages d m) then some (p * n + (n - vfNum d f m * vfPages d m + i))
  else none

/-- The PF to which queue and ring number `q` belongs, and the one to which queue group `g` belongs (R44). -/
def queuePf (d q : Nat) (m : Mod) : Nat := if q < bar2Pages d m then 0 else 1
def groupPf (d g : Nat) (m : Mod) : Nat := if bifurcated d m && decide (512 ≤ g) then 1 else 0

/-- The function that owns queue and ring number `q` of die `d` (R50). -/
def ownerOf (d q : Nat) (m : Mod) : Nat :=
  let n := bar2Pages d m
  let p := if q < n then 0 else 1
  let back := p * n + n - 1 - q
  let v := back / vfPages d m + 1
  if NMap.get false m.hif.vfEn (d * 2 + p) && decide (v ≤ NMap.get 0 m.hif.numVf (d * 2 + p)) then
    (if p = 1 then 512 + v else v) else pfFn p

end Sys2Proof.Machine
end

