-- ==== Sys2Proof/Machine/Time.lean ====
section
/-! DEFINITION. Eteel time (spec/04): counters and boundaries, time messages, source selection, the
servo, time states, the 1 PPS input and output. -/
namespace Sys2Proof.Machine

/-- Replace the counter of die `d` (4: the Shepherd). -/
def setClock (d : Nat) (c : Clock) (m : Mod) : Mod :=
  { m with clk := NMap.set Clock.reset m.clk d c }

/-- The limit of a rate trim: ±200 ppm (R95). -/
def trimMax : Int := 219902325

/-- Clamp to a symmetric bound. -/
def clampTo (b x : Int) : Int := max (-b) (min b x)

/-- What one tick adds, in 2^-40 ns: 2^40 + T (R95). -/
def Clock.rate (c : Clock) : Nat := (2 ^ 40 + c.trim).toNat

/-- `n` ticks of a running counter. -/
def Clock.ticks (n : Nat) (c : Clock) : Clock :=
  if c.run then
    let k := c.count + n * c.rate
    { c with count := k, high := max c.high (k / 2 ^ 40) }
  else c

/-- 1.6 GHz cycles from one counter value to another, both in 2^-40 ns. -/
def cyclesTo (k l : Nat) : Nat := l / 2 ^ 40 * 8 / 5 - k / 2 ^ 40 * 8 / 5

/-- Cycles with the general pool empty are counted over the time that passes (R538). -/
def poolWait (f : Clock → Clock) (d : Nat) (m : Mod) : Mod :=
  if (freeTag d 0 768 m).isNone then count d 422 (cyclesTo (clock d m).count (f (clock d m)).count) m else m

/-- Every counter changes by `f`; a die whose counter passes a cycle boundary for the first time while LIVE writes wait has
them put in force (R12, R96). -/
def elapse (f : Clock → Clock) (m : Mod) : Mod :=
  let due := dies.filter (fun d => m.live.any (fun e => keyDie e.1 == d)
    && decide ((clock d m).high / 1024 < (f (clock d m)).high / 1024))
  let n := each dies (poolWait f) m
  { n with clk := m.clk.map (fun e => (e.1, f e.2)), todo := m.todo ++ due.map Todo.liveDue }

/-- `n` ticks of the time clock on every running counter (R95). -/
def runTicks (n : Nat) (m : Mod) : Mod := elapse (Clock.ticks n) m

/-- The ticks until a counter's nanosecond count reaches `t` (R95: the first tick at which the count
reaches or passes it). -/
def Clock.ticksTo (c : Clock) (t : Nat) : Nat :=
  let target := t * 2 ^ 40
  if target ≤ c.count then 0 else (target - c.count + c.rate - 1) / c.rate

/-- Let time run until the counter of `d` has reached `t` ns. -/
def runTo (d t : Nat) (m : Mod) : Mod := runTicks ((clock d m).ticksTo t) m

/-- A counter takes a new count. The boundaries that a forward step passes occur once, at once: of each kind the last one
passed is still to be handled. After a backward step none occurs again, as those handled stay handled (R114). -/
def Clock.stepTo (k : Nat) (c : Clock) : Clock :=
  let n := k / 2 ^ 40
  { c with count := k, high := max c.high n, cyc := max c.cyc (n / 1024 - 1), frame := max c.frame (n / 1048576 - 1)
           slot := max c.slot (n / 256 - 1), servo := max c.servo (n / 65536 - 1) }

/-- Step a counter by `δ` in 2^-16 ns. -/
def Clock.step (δ : Int) (c : Clock) : Clock := c.stepTo ((c.count : Int) + δ * 2 ^ 24).toNat

/-- The first count at which an event set for `t` may occur: after a backward step not before the highest count reached has
been passed again (R114). -/
def Clock.notBefore (t : Nat) (c : Clock) : Nat := if c.count / 2 ^ 40 < c.high then max t (c.high + 1) else t

/-- The PPS output rises: at a multiple of 10^9 ns, but not in FREE (R109). -/
def ppsHighNow (m : Mod) : Mod := if m.tm.state = 0 then m else emit (.pps true) { m with tm := { m.tm with ppsHigh := true } }

/-- The entries that the sampler of a die follows show that its counter was stepped (R549). -/
def smpStepped (d : Nat) (m : Mod) : Mod :=
  { m with smp := m.smp.map (fun e =>
      (e.1, if e.1 = d then { e.2 with follow := e.2.follow.map (fun f => { f with stepped := true }) } else e.2)) }

/-- A Shepherd step is applied to every worker die in the same cycle; what it passes occurs (R114). -/
def stepAll (δ : Int) (m : Mod) : Mod :=
  let was := (clock 4 m).high / 1000000000
  let m := dies.foldl (fun m d => if (clock d m).run then later (.stepped d) (count d 674 1 m) else m)
    { each (dies.filter (fun d => (clock d m).run)) smpStepped m with
      clk := m.clk.map (fun e => (e.1, if e.2.run then Clock.step δ e.2 else e.2)) }
  if was < (clock 4 m).high / 1000000000 then ppsHighNow m else m

/-! ## Boundaries (R94, R96) -/

/-- Index of a worker pair's link, or of a Shepherd link (far die 4). -/
def pairIx (a b : Nat) : Nat :=
  let lo := min a b
  let hi := max a b
  if hi = 4 then 6 + lo else if lo = 0 then hi - 1 else if lo = 1 then hi + 1 else 5

/-- The link between two dies, or between a die and the Shepherd (4), is in service. -/
def d2dUp (a b : Nat) (m : Mod) : Bool := NMap.get false m.d2d (pairIx a b)

/-- The next cycle boundary of `d`: the die's offset from the Shepherd is measured (R104), in 2^-17 ns. -/
def cycleBoundary (d : Nat) (m : Mod) : Mod :=
  if (clock d m).run then
    let b := (clock d m).cyc + 1
    let m := runTo d (b * 1024) m
    let c := clock d m
    let th : List Int :=
      if d < 4 && d2dUp d 4 m then [2 * ((now16 d m : Int) - (now16 4 m : Int))] else []
    setClock d { c with cyc := b, thetas := c.thetas ++ th } m
  else m

/-- Reach the next frame boundary of `d`. -/
def reachFrame (d : Nat) (m : Mod) : Mod :=
  let b := (clock d m).frame + 1
  let m := runTo d (b * 1048576) m
  setClock d { clock d m with frame := b } m

/-- Reach the next slot boundary of `d`. -/
def reachSlot (d : Nat) (m : Mod) : Mod :=
  let b := (clock d m).slot + 1
  let m := runTo d (b * 256) m
  setClock d { clock d m with slot := b } m

/-- Reach the next servo interval boundary of `d`. -/
def reachServo (d : Nat) (m : Mod) : Mod :=
  let b := (clock d m).servo + 1
  let m := runTo d (b * 65536) m
  setClock d { clock d m with servo := b } m

/-! ## Time messages (R99, R100, R103) -/

/-- One bit of the CRC-16 of R100. -/
def crc16Bit (c : Nat) (b : Bool) : Nat :=
  let top := bit c 15 != b
  let c := (c * 2) % 65536
  if top then Nat.xor c 0x1021 else c

/-- CRC-16: polynomial 0x1021, initial 0xFFFF, each byte from bit 7 down (R100). -/
def crc16 (bs : Bytes) : Nat :=
  bs.foldl (fun c b => (List.range 8).foldl (fun c i => crc16Bit c (bit b.toNat (7 - i))) c) 0xFFFF

/-- What port code `pc` keeps of its time messages. -/
def portTime (pc : Nat) (m : Mod) : PortTime := NMap.get PortTime.reset m.tm.ports pc

/-- Replace it. -/
def setPortTime (pc : Nat) (t : PortTime) (m : Mod) : Mod :=
  { m with tm := { m.tm with ports := NMap.set PortTime.reset m.tm.ports pc t } }

/-- ACQUIRED is advertised in LOCKED, HOLDOVER and GM (R111). -/
def acquired (m : Mod) : Bool := decide (2 ≤ m.tm.state)

/-- FLAGS of a message sent now. -/
def timeFlags (turnValid : Bool) (m : Mod) : Nat :=
  b2n (acquired m) + 2 * b2n (m.tm.state == 4) + 4 * b2n m.tm.ppsLock + 8 * b2n turnValid
    + 16 * b2n (m.tm.state == 3)

/-- Bytes 0 to 21 of a message whose mark is sent at `tx` (2^-16 ns) on port `pc` (R100). -/
def timeMsgBody (pc tx : Nat) (m : Mod) : Bytes :=
  let cyc := tx / 2 ^ 26
  let echo := (portTime pc m).peer.filter (fun e => cyc ≤ e.1 / 2 ^ 26 + 1)
  let turn := match echo with
    | some (st, pcyc) => (tx - st) % 2 ^ 28 + (pcyc % 16) * 2 ^ 28
    | none => 0
  leBytes 10 tx ++ leBytes 4 turn ++ leBytes 3 (m.tm.gmId % 2 ^ 20 + (m.tm.hops % 16) * 2 ^ 20)
    ++ leBytes 1 (timeFlags echo.isSome m) ++ leBytes 2 m.tm.epoch ++ zeros 2

/-- The 24 bytes of the message (R100). -/
def timeMsg (pc tx : Nat) (m : Mod) : Bytes :=
  let b := timeMsgBody pc tx m
  b ++ leBytes 2 (crc16 b)

/-- A time message whose mark met the land of port `p` of die `d` at `stamp` (2^-16 ns) (R103). -/
def timeMsgReceive (d p stamp : Nat) (bs : Bytes) (m : Mod) : Mod :=
  if rdB F.LNE_QCTRL_COMPAT d (p / 2) m then m
  else if rdLE bs 22 2 ≠ crc16 (sub bs 0 22) then bump F.ETL_MSG_ERR_CRC_ERR d 0 m
  else
    let pc := 0x20 * d + p
    let t := portTime pc m
    let tx := rdLE bs 0 10
    let w := rdLE bs 10 4
    let g := rdLE bs 14 3
    let fl := rdLE bs 17 1
    let cyc := stamp / 2 ^ 26
    let fit := bit fl 0 && !bit fl 4 && decide (g / 2 ^ 20 ≤ 14)
    let good := if !fit then 0 else if t.good ≠ 0 ∧ cyc = t.lastCyc then t.good
      else if t.good ≠ 0 ∧ cyc = t.lastCyc + 1 then t.good + 1 else 1
    let meas : Option (Int × Int) :=
      if bit fl 3 then
        (t.marks.find? (fun t3 => t3 / 2 ^ 26 % 16 == w / 2 ^ 28 && decide (cyc ≤ t3 / 2 ^ 26 + 1))).map (fun t3 =>
          let rtt : Int := (stamp : Int) - t3 - (w % 2 ^ 28 : Nat)
          let asym : Int := toInt 32 (cur F.ETL_PORT_ASYM_ASYM d p m)
          (2 * ((stamp : Int) - tx) - rtt - asym, rtt))
      else none
    let t := { t with
      peer := some (stamp, tx / 2 ^ 26), gmId := g % 2 ^ 20, hops := g / 2 ^ 20, epoch := rdLE bs 18 2
      flags := fl, good := good, lastCyc := cyc
      thetas := t.thetas ++ (meas.map Prod.fst).toList, rtts := t.rtts ++ (meas.map Prod.snd).toList }
    count 4 128 1 (count d 672 1 (setPortTime pc t m))

/-- n / d rounded to nearest, ties away from zero. -/
def rdivAway (n : Int) (d : Nat) : Int :=
  if d = 0 then 0
  else if 0 ≤ n then (2 * n + d) / (2 * d) else -((2 * -n + d) / (2 * d))

/-- The loopback of R101 has measured loop time `l`: all in 2^-16 ns, `share` in 1/256. LB_ERR in 2^-8 ns is the error
rounded down (DESIGN CHOICE: the spec does not say how it is rounded). -/
def loopbackMeasure (d p l txpd rxpd lbd share : Nat) (m : Mod) : Mod :=
  let e : Int := (l : Int) - (txpd + rxpd + lbd : Nat)
  let eTx := rdivAway (e * share) 256
  let ok := decide (e.natAbs ≤ 2 * 65536)
  let t := portTime (0x20 * d + p) m
  wr F.ETL_PORT_MEAS_LB_ERR d p (ofIntSat 16 (e / 256))
    (wrB F.ETL_PORT_MEAS_VALID d p (ok && rdB F.ETL_PORT_MEAS_VALID d p m)
      (setPortTime (0x20 * d + p) { t with lbErr := e, capable := ok, txpd := txpd + eTx, rxpd := rxpd + (e - eTx) } m))

/-! ## The servo (R110) -/

/-- The mean of values in 2^-17 ns, in 2^-16 ns. -/
def meanTheta (l : List Int) : Option Int :=
  if l.isEmpty then none else some (rdivAway l.sum (2 * l.length))

/-- One run of the servo on an offset in 2^-16 ns: the new frequency term and trim; `lim` bounds the
phase term. -/
def servo (freq : Int) (theta : Option Int) (lim : Int) : Int × Int :=
  match theta with
  | none => (freq, clampTo trimMax freq)
  | some th =>
    let x := th * 256
    let f := clampTo trimMax (freq - x / 16)
    (f, clampTo trimMax (f + clampTo lim (-(x / 2))))

/-- The servo of die `d` with no limit on its phase term. -/
def servoDie (d : Nat) (theta : Option Int) (m : Mod) : Mod :=
  let c := clock d m
  let r := servo c.freq theta (2 ^ 62)
  setClock d { c with freq := r.1, trim := r.2, thetas := [], mean := theta.getD c.mean } m

/-! ## Source selection (R105, R106) -/

/-- Port code `pc` lies on a usable die (R105). -/
def portUsable (pc : Nat) (m : Mod) : Bool := dieUsable (pc / 0x20) m

/-- A candidate port (R105). -/
def isCand (pc : Nat) (m : Mod) : Bool :=
  let t := portTime pc m
  portUsable pc m && t.capable && rdB F.ETL_PORT_MEAS_VALID (pc / 0x20) (pc % 0x20) m
    && decide (16 ≤ t.good) && decide (now (pc / 0x20) m / 1024 ≤ t.lastCyc + 1)

/-- Order of candidates: lowest GM_ID, then HOPS, then port code. -/
def candKey (pc : Nat) (m : Mod) : Nat :=
  ((portTime pc m).gmId * 16 + (portTime pc m).hops) * 256 + pc

/-- The best candidate port. -/
def bestCand (m : Mod) : Option Nat :=
  (m.tm.ports.filter (fun e => isCand e.1 m)).foldl (fun b e =>
    match b with
    | none => some e.1
    | some x => if candKey e.1 m < candKey x m then some e.1 else some x) none

/-- A source stays valid while its port is ACTIVE and its last message was within 16 cycles, ACQUIRED and not HOLDOVER
(R111). -/
def srcOk (pc : Nat) (m : Mod) : Bool :=
  let t := portTime pc m
  portUsable pc m && rd F.LNE_PORT_STATUS_STATE (pc / 0x20) (pc % 0x20) m == 6 && decide (now (pc / 0x20) m / 1024 ≤ t.lastCyc + 16) && bit t.flags 0 && !bit t.flags 4

/-- The module's time identity: the EID of its lowest-numbered ACTIVE endpoint (R105); with none ACTIVE, where the spec gives
no identity, 0xFFFFF (DESIGN CHOICE). -/
def moduleId (m : Mod) : Nat :=
  match dies.find? (fun d => dieActive d m) with
  | some d => eidOf d m
  | none => 0xFFFFF

/-- The source after R106 is applied. -/
def chooseSrc (m : Mod) : Option Nat × Option Nat × Nat :=
  let b := bestCand m
  match m.tm.src with
  | none => (b, none, 0)
  | some s =>
    if !srcOk s m then (b, none, 0)
    else if b = some s ∨ b = none then (some s, none, 0)
    else
      let run := if m.tm.cand = b then m.tm.candRun + 1 else 1
      if 16 ≤ run then (b, none, 0) else (some s, b, run)

/-- 10 ns in 2^-16 ns. -/
def tenNs : Nat := 655360

/-- The Shepherd's error bound E_S in 2^-16 ns (R112); none where no bound is known. -/
def errS (m : Mod) : Option Nat :=
  if m.tm.state = 4 then some 0
  else if m.tm.state = 2 then some m.tm.lockE
  else if m.tm.state = 3 then
    some (m.tm.lockE + (50 * 65536 * (now 4 m - m.tm.lastMeas)) / 1000000000)
  else none

/-- The next time state (R111): grandmaster wanted, a candidate exists, the source is valid, it is a
new source, and the interval's offset. -/
def nextTimeState (gm hasCand valid fresh : Bool) (th : Option Int) (run : Nat) (m : Mod) : Nat :=
  let near : Bool := match th with | some x => decide (x.natAbs ≤ tenNs) | none => true
  match m.tm.state with
  | 0 => if gm && (!m.tm.ppsOn || m.tm.ppsLock) then 4 else if hasCand then 1 else 0
  | 1 => if gm && (!m.tm.ppsOn || m.tm.ppsLock) then 4 else if 16 ≤ run then 2 else 1
  | 2 => if !valid then 3 else if near then 2 else 1
  | 3 =>
    if fresh && th.isSome then (if near then 2 else 1)
    else if !hasCand && decide (tenNs < (errS m).getD 0) then 0 else 3
  | _ => if gm then 4 else if hasCand then 1 else 0

/-- Publish the module's time state to every die's ETL registers. -/
def publishTime (m : Mod) : Mod :=
  each dies (fun d m =>
    let h := m.tm.hops
    wr F.ETL_STATUS_SOURCE_PORT d 0 (m.tm.src.getD 0xFF)
      (wr F.ETL_STATUS_HOPS d 0 h (wr F.ETL_STATUS_TIME_STATE d 0 m.tm.state
        (wrB F.ETL_STATUS_PPS_LOCKED d 0 m.tm.ppsLock (wrB F.ETL_STATUS_STANDBY_GM d 0 m.tm.standby
          (wrB F.ETL_STATUS_GM_DESIGNATED d 0 m.tm.gmOn (wr F.ETL_GM_EPOCH d 0 m.tm.epoch
            (wr F.ETL_GM_GM_ID d 0 m.tm.gmId m)))))))) m

/-- What the module advertises in a state, with its source (R105, R106); that it has advertised ACQUIRED is kept (R108). -/
def advertise (st : Nat) (m : Mod) : Mod :=
  let tm := { m.tm with advert := m.tm.advert || decide (2 ≤ st) }
  if st = 4 then
    { m with tm := { tm with
        gmId := moduleId m, hops := 0
        epoch := if tm.state = 4 then tm.epoch else (tm.epoch + 1) % 65536 } }
  else match tm.src with
    | some s =>
      let t := portTime s m
      { m with tm := { tm with gmId := t.gmId, hops := min 15 (t.hops + 1), epoch := t.epoch } }
    | none => if st = 3 then { m with tm := tm } else { m with tm := { tm with gmId := 0xFFFFF, hops := 15 } }

/-- A servo interval boundary of the Shepherd: source, servo, state (R105, R106, R110, R111, R114). A grandmaster's servo is
the one of its PPS edges while it has a prediction of them (R107), and R110's without a measurement otherwise; in FREE the
PPS output is held low (R109). -/
def servoShepherd (m : Mod) : Mod :=
  let best := bestCand m
  let better := match best with
    | some b => decide ((portTime b m).gmId < moduleId m)
    | none => false
  let gm := m.tm.gmOn && !better
  let ch := chooseSrc m
  let src := if gm && m.tm.state == 4 then none else ch.1
  let fresh := match src with
    | some s => m.tm.src != some s || (portTime s m).gmId != m.tm.srcGm || (portTime s m).epoch != m.tm.srcEpoch
    | none => false
  let valid := match m.tm.src with | some s => srcOk s m | none => false
  let th : Option Int := src.bind (fun s =>
    let t := portTime s m
    if t.fresh then some (t.mean - (clock (s / 0x20) m).mean) else none)
  let near : Bool := match th with | some x => decide (x.natAbs ≤ tenNs) | none => false
  let run := if m.tm.state == 1 && near then m.tm.lockRun + 1 else 0
  let anew := fresh || (m.tm.newSrc && src.isSome)
  let st := nextTimeState gm best.isSome valid anew th run m
  -- step (R114): the first interval with a source in ACQUIRING
  let stepBy : Option Int := match th with
    | some x => if m.tm.state = 1 ∧ !m.tm.seen ∧ 1000 * 65536 < x.natAbs then some (-x) else none
    | none => none
  let m := match src with
    | some s => setPortTime s { portTime s m with fresh := false } m
    | none => m
  let m := { m with tm := { m.tm with
      src := src, cand := ch.2.1, candRun := ch.2.2, standby := m.tm.gmOn && better
      srcGm := match src with | some s => (portTime s m).gmId | none => m.tm.srcGm
      srcEpoch := match src with | some s => (portTime s m).epoch | none => m.tm.srcEpoch
      newSrc := anew && decide (st = 3)
      lockRun := run, seen := if m.tm.state = 1 ∧ st = 1 then m.tm.seen || th.isSome else false
      lockE := match th with | some x => if st = 2 then x.natAbs else m.tm.lockE | none => m.tm.lockE
      lastMeas := if th.isSome then now 4 m else m.tm.lastMeas } }
  let m := advertise st m
  let m := { m with tm := { m.tm with state := st } }
  let m := match stepBy with
    | some δ => stepAll δ m
    | none => if st = 4 ∧ m.tm.ppsOn ∧ m.tm.valid.isSome then m else servoDie 4 th m
  let m := if st = 0 ∧ m.tm.ppsHigh then emit (.pps false) { m with tm := { m.tm with ppsHigh := false } } else m
  publishTime m

/-- The registers of the ports of die `d` at the end of an interval (R103). -/
def portMeans (d : Nat) (m : Mod) : Mod :=
  (m.tm.ports.filter (fun e => e.1 / 0x20 == d)).foldl (fun m e =>
    let t := e.2
    let p := e.1 % 0x20
    let any := !t.thetas.isEmpty
    let mean := (meanTheta t.thetas).getD t.mean
    let m := wrB F.ETL_PORT_MEAS_VALID d p (t.capable && any) m
    let m := if any then
        wr F.ETL_PORT_MEAS_OFFSET d p (ofIntSat 16 (rdivAway t.thetas.sum (512 * t.thetas.length)))
          (wr F.ETL_PORT_MEAS_DELAY d p (ofIntSat 24 (rdivAway t.rtts.sum (512 * t.rtts.length))) m)
      else m
    setPortTime e.1 { t with thetas := [], rtts := [], mean := mean, fresh := t.fresh || any } m) m

/-- E_d in 2^-16 ns (R112). -/
def errD (d : Nat) (m : Mod) : Option Nat := (errS m).map (· + (clock d m).mean.natAbs)

/-- The condition of TIMED_OK: the counter runs, E_d is within 10 ns and the state is LOCKED, HOLDOVER or GM (R113). -/
def timedWithin (d : Nat) (m : Mod) : Bool :=
  (clock d m).run && acquired m && match errD d m with | some e => decide (e ≤ tenNs) | none => false

/-- TIMED_OK clears at once where its condition fails, and the die's timed posts hear of it (R113, R233). -/
def timedCheck (m : Mod) : Mod :=
  each dies (fun d m =>
    if rdB F.ETL_STATUS_TIMED_OK d 0 m && !timedWithin d m then
      later (.timeBad d) (wrB F.ETL_STATUS_TIMED_OK d 0 false { m with tm := { m.tm with okRun := NMap.set 0 m.tm.okRun d 0 } })
    else m) m

/-- TIMED_OK sets after 16 servo intervals in which its condition held (R113). -/
def timedOkStep (d : Nat) (m : Mod) : Mod :=
  let run := if timedWithin d m then NMap.get 0 m.tm.okRun d + 1 else 0
  let m := { m with tm := { m.tm with okRun := NMap.set 0 m.tm.okRun d run } }
  if 16 ≤ run then wrB F.ETL_STATUS_TIMED_OK d 0 true m else m

/-- A servo interval boundary of worker die `d` (R110, R112, R113). -/
def servoWorker (d : Nat) (m : Mod) : Mod :=
  let m := portMeans d m
  let th := (clock d m).thetas
  let m := servoDie d (meanTheta th) m
  let m := wr F.ETL_RATE_TRIM_TRIM d 0 (ofInt 32 (clock d m).trim) m
  let m := if th.isEmpty then m
    else wr F.ETL_DIE_OFFSET_OFFSET d 0 (ofIntSat 32 (rdivAway th.sum (512 * th.length))) m
  let m := wr F.ETL_ERROR_E_D d 0 (match errD d m with | some e => min (2 ^ 32 - 1) (e / 256) | none => 2 ^ 32 - 1) m
  count d 673 1 (timedOkStep d m)

/-- A servo interval boundary of `d` (4: the Shepherd). -/
def servoInterval (d : Nat) (m : Mod) : Mod :=
  if (clock d m).run then
    let m := reachServo d m
    if d = 4 then servoShepherd m else servoWorker d m
  else m

/-! ## 1 PPS (R107 to R109) -/

/-- 1 s in 2^-16 ns. -/
def sec16 : Nat := 1000000000 * 65536

/-- The servo of R110 run on a phase error of the PPS input: its phase term is at most 1 ppm. An error is to be removed at 1 ns
per ms or slower (R107), so the rate never moves by more than 1 ppm from the frequency term, which itself does not learn
while the phase term is at its limit (DEDUCED). -/
def ppsServo (freq φ : Int) : Int × Int :=
  let p := clampTo 1099512 (-(φ * 256 / 2))
  let f := if p.natAbs = 1099512 then freq else (servo freq (some φ) 1099512).1
  (f, clampTo trimMax (freq + clampTo 1099512 (f - freq + p)))

/-- A rising edge of ETEEL_PPS_IN stamped at `t` (2^-16 ns, input delay taken off). An edge ignored counts in every die's
PPS_GLITCH, as the spec names none (DESIGN CHOICE). -/
def ppsEdgeAt (t : Nat) (m : Mod) : Mod :=
  let tm := m.tm
  let glitch := fun m => each dies (fun d m => bump F.ETL_MSG_ERR_PPS_GLITCH d 0 m) m
  let valid : Option (Nat × Bool) :=
    match tm.valid with
    | some (last, iv) =>
      if (((last + iv : Nat) : Int) - (t : Int)).natAbs ≤ 10000 * 65536 then some (t - last, false) else none
    | none =>
      match tm.edge with
      | some e =>
        if (((t : Int) - (e : Int)) - (sec16 : Int)).natAbs ≤ 250000 * 65536 then some (t - e, true) else none
      | none => none
  let m := { m with tm := { tm with edge := some t } }
  match valid with
  | none => glitch m
  | some (iv, first) =>
    let r : Nat := t % sec16
    let φ : Int := if r ≤ sec16 / 2 then (r : Int) else (r : Int) - (sec16 : Int)
    if first && !tm.advert && decide (1000 * 65536 < φ.natAbs) then
      let t' := ((t : Int) - φ).toNat
      stepAll (-φ) { m with tm := { m.tm with valid := some (t', iv), edge := some t', ppsRun := 0
                                              epoch := (tm.epoch + 1) % 65536 } }
    else
      let run := if φ.natAbs ≤ tenNs then tm.ppsRun + 1 else 0
      let c := clock 4 m
      let s := ppsServo c.freq φ
      setClock 4 { c with freq := s.1, trim := s.2 }
        { m with tm := { m.tm with valid := some (t, iv), ppsRun := run, ppsLock := tm.ppsLock || decide (3 ≤ run) } }

/-- An edge at the land: used only by a grandmaster whose TIME_ROLE enables it (R107), not while it stands by (R105). -/
def ppsEdge (stamp : Nat) (m : Mod) : Mod :=
  if m.tm.gmOn && m.tm.ppsOn && !m.tm.standby then
    publishTime (count 4 129 1 (ppsEdgeAt (stamp - m.tm.ppsDly * 65536 / 1000) m))
  else m

/-- 3 s without a valid edge (R107, R108). An edge from before is forgotten with the prediction: it is not the first of the
pair that starts the next (DESIGN CHOICE). -/
def ppsTimeout (m : Mod) : Mod :=
  publishTime { m with tm := { m.tm with valid := none, edge := none, ppsRun := 0, ppsLock := false } }

/-- ETEEL_PPS_OUT goes high at the next multiple of 10^9 ns that the counter has not had (R109, R114). -/
def ppsOutRise (m : Mod) : Mod :=
  if (clock 4 m).run then ppsHighNow (runTo 4 ((max (now 4 m) (clock 4 m).high / 1000000000 + 1) * 1000000000) m)
  else m

/-- It goes low 100,000 ns later (R109). -/
def ppsOutFall (m : Mod) : Mod :=
  if m.tm.ppsHigh then
    let m := runTo 4 (now 4 m / 1000000000 * 1000000000 + 100000) m
    emit (.pps false) { m with tm := { m.tm with ppsHigh := false } }
  else m

end Sys2Proof.Machine
end

