-- ==== Sys2Proof/Machine/Faults.lean ====
section
/-! DEFINITION. Fault records, reactions and clearing (spec/19, R491 to R508). -/
namespace Sys2Proof.Machine

/-- The severity of source `s` (R491, R495); D2D_PARITY is DIE_FATAL on the Shepherd link. -/
def severity (s detail : Nat) : Nat :=
  match s with
  | 0 | 17 | 18 | 21 | 29 => 0
  | 1 | 5 | 6 | 19 | 22 | 24 | 26 | 30 => 1
  | 2 | 3 | 4 | 7 => 2
  | 16 => if detail % 8 = 4 then 3 else 2
  | 20 => 3
  | 25 | 27 | 28 => 4
  | _ => 0

/-- The source exists at the unit (R495: the Units column). Which units have no memory the spec does not say: SRAM sources are taken at
any unit (DESIGN CHOICE). -/
def sourceKnown (u s : Nat) : Bool :=
  match s with
  | 0 | 1 | 2 | 3 | 4 | 5 => true
  | 6 => u == 26
  | 7 => decide (u < 28)
  | 16 => u == 22
  | 17 => decide (u < 16)
  | 18 | 19 | 20 => u == 23
  | 21 => u == 20
  | 22 => u == 17
  | 24 | 25 | 26 | 27 => u == 24
  | 28 => decide (32 ≤ u ∧ u < 40)
  | 29 => u == 41
  | 30 => u == 47
  | _ => false

/-- A unit that exists (R494): worker units 0 to 27, Shepherd units 32 to 47. -/
def unitKnown (d u : Nat) : Bool := if d < 4 then decide (u < 28) else decide (32 ≤ u ∧ u < 48)

/-- Sources whose cause does not persist at all (R495). -/
def transient (s : Nat) : Bool := [0, 1, 5, 17, 18, 19, 21, 22, 29].contains s

/-- Sources whose cause ends when the unit or die has returned (R495). -/
def endsOnReturn : Nat := 2 ^ 2 + 2 ^ 3 + 2 ^ 4 + 2 ^ 7 + 2 ^ 16 + 2 ^ 20

/-- Those of them that end when the die has returned, whatever the unit's own state. -/
def endsOnDie : Nat := 2 ^ 16 + 2 ^ 20

/-- The floor and the default of a severity's reaction mask (R492). -/
def reactFloor : Nat → Nat
  | 0 => 0b000001 | 1 => 0b000001 | 2 => 0b000101 | 3 => 0b001001 | _ => 0b110001
def reactDefault : Nat → Nat
  | 0 => 0b000001 | 1 => 0b000011 | 2 => 0b000111 | 3 => 0b011011 | _ => 0b110011

/-- The reaction mask of unit `u` and source `s` of die `d` at a severity: the mask written (kept as its difference from the
source's default), or the severity's default, with the severity's floor set. -/
def reactMask (d u s sev : Nat) (m : Mod) : Nat :=
  let x := cur F.FLT_REACT_REACT d (u * 32 + s) m
  Nat.lor (if x = 0 then reactDefault sev else Nat.xor x (reactDefault (severity s 0))) (reactFloor sev) % 64

/-- Set a reaction mask (R492). -/
def setReact (d u s mask : Nat) (m : Mod) : Mod :=
  force F.FLT_REACT_REACT d (u * 32 + s) (Nat.xor (mask % 64) (reactDefault (severity s 0))) m

/-- The open record of a unit (R497). -/
def openRec (d u : Nat) (m : Mod) : Option FaultRec :=
  m.flt.log.find? (fun r => r.isOpen && r.die == d && r.unit == u)

/-- Replace the open record of a unit. -/
def updRec (d u : Nat) (f : FaultRec → FaultRec) (m : Mod) : Mod :=
  { m with flt := { m.flt with
      log := m.flt.log.map (fun r => if r.isOpen && r.die == d && r.unit == u then f r else r) } }

/-- Add a record; a full log of 8,192 drops its CLOSED record with the lowest SEQ (R498). -/
def addRec (r : FaultRec) (m : Mod) : Mod :=
  let l := m.flt.log
  let l := if l.length < 8192 then l
    else match l.reverse.find? (fun x => !x.isOpen) with
      | some x => l.erase x
      | none => l
  { m with flt := { m.flt with log := r :: l, nextSeq := (m.flt.nextSeq + 1) % 2 ^ 32 } }

/-- The unit can be fenced on its own (R500). -/
def fenceable (u : Nat) : Bool := decide (u < 16) || u == 21 || u == 22 || u == 25

/-- The reaction that falls due for a mask (R493, R500): STOP_MODULE supersedes FENCE_DIE, and that FENCE_UNIT. A unit in QUARANTINE is
fenced only by a UNIT_FATAL fault (R501). -/
def dueOf (d u detail mask sev : Nat) (m : Mod) : List Due :=
  if bit mask 5 then [.stop]
  else if 4 ≤ d then []
  else if bit mask 3 then [.fenceDie d]
  else if bit mask 2 then
    (if fenceable u && !(u == 22 && detail % 8 == 4) then
      (if unitState d u m = UnitSt.quarantine ∧ sev ≠ 2 then [] else [.fenceUnit d u detail])
    else [.fenceDie d])
  else []

/-- The reactions of a mask that are carried out: one that another supersedes is not, and a Shepherd unit is not fenced (R493, R496). -/
def carried (d mask : Nat) : Nat :=
  let mask := if bit mask 5 ∨ 4 ≤ d then setBit (setBit mask 2 false) 3 false else mask
  if bit mask 3 then setBit mask 2 false else mask

/-- The 64-byte image of a record (R496). -/
def recBytes (r : FaultRec) : Bytes :=
  leBytes 4 r.seq ++ leBytes 1 r.die ++ leBytes 1 r.unit ++ leBytes 1 r.src
    ++ leBytes 1 (r.sev + 8 * b2n r.isOpen + 16 * b2n (r.pers != 0) + 32 * b2n r.inj + 64 * b2n r.crash)
    ++ leBytes 4 r.cause ++ leBytes 2 r.merges ++ leBytes 1 r.reacted ++ zeros 1
    ++ leBytes 2 (match r.fn with | some f => f + 0x8000 | none => 0) ++ zeros 6
    ++ leBytes 8 r.first ++ leBytes 8 r.last ++ leBytes 8 r.addr ++ leBytes 8 r.detail ++ leBytes 8 r.cleared

/-- INTERRUPT (R493): MSI-X of the die's PF, or of the PF of every ACTIVE die for a Shepherd unit, and a
notification on the management interface. -/
def interrupt (d u : Nat) (m : Mod) : Mod :=
  let ds := if d < 4 then [d] else dies.filter (fun x => dieActive x m)
  let m := each ds (fun x m =>
    if curB F.FLT_CFG_IRQ_EN x 0 m then msix x 0 (cur F.FLT_CFG_VECTOR x 0 m) m else m) m
  match openRec d u m with
  | some r => emit (.mgmt 2 (recBytes r)) m
  | none => m

/-- A fault is detected (R497): the record is opened or merged, and its reactions are carried out or
fall due (a fence already in effect is not repeated: the fences themselves look). -/
def raiseInj (inj : Bool) (d u s addr detail : Nat) (fn : Option Nat) (m : Mod) : Mod :=
  let sev := severity s detail
  let mask := reactMask d u s sev m
  let t := now d m
  let pers := if transient s then 0 else 2 ^ s
  let m := match openRec d u m with
    | some _ =>
      count 4 161 1 ((if d < 4 then bump F.FLT_CNT_MERGES d 0 else id)
        (updRec d u (fun r => { r with
          merges := satAdd 16 r.merges 1, cause := Nat.lor r.cause (2 ^ s), last := t, sev := max r.sev sev
          pers := Nat.lor r.pers pers, inj := r.inj || inj }) m))
    | none =>
      count 4 160 1 ((if d < 4 then bump F.FLT_CNT_RECORDS d 0 else id)
        (addRec { seq := m.flt.nextSeq, die := d, unit := u, src := s, sev := sev, isOpen := true, pers := pers
                  inj := inj, crash := false, cause := 2 ^ s, merges := 0, reacted := 0, fn := fn, first := t
                  last := t, addr := addr, detail := detail, cleared := 0 } m))
  let m := if s = 18 ∧ d < 4 then count d 610 1 m else m
  let m := updRec d u (fun r => { r with reacted := Nat.lor r.reacted (carried d mask) }) m
  let m := if bit mask 1 then interrupt d u m else m
  { m with flt := { m.flt with due := m.flt.due ++ dueOf d u detail mask sev m } }

/-- A fault that is not injected. -/
def raise (d u s addr detail : Nat) (fn : Option Nat) (m : Mod) : Mod := raiseInj false d u s addr detail fn m

/-- A cause ends (R495). -/
def causeEnd (d u mask : Nat) (m : Mod) : Mod :=
  updRec d u (fun r => { r with pers := Nat.land r.pers (Nat.xor mask (2 ^ 32 - 1)) }) m

/-- The unit has returned: the causes that last until then end. -/
def unitReturned (d u : Nat) (m : Mod) : Mod := causeEnd d u endsOnReturn m

/-- Close a unit's open record, or refuse while a cause persists (R507). The flag says it was cleared. -/
def clearRec (d u : Nat) (m : Mod) : Mod × Bool :=
  match openRec d u m with
  | none => (m, false)
  | some r =>
    if r.pers ≠ 0 then ((if d < 4 then bump F.FLT_CNT_REFUSED_CLEARS d 0 m else m), false)
    else (updRec d u (fun r => { r with isOpen := false, cleared := now d m }) m, true)

/-- ERR_P and ERR_N show Fault (R505). -/
def errFault (m : Mod) : Bool :=
  !m.pin.sig || m.flt.stopped || m.flt.log.any (fun r => r.isOpen && bit r.reacted 4)

/-- The error pair is read back (R506): ten equal readings in a row raise PAIR_FAULT; complementary
levels end its cause. -/
def pairReadback (p n : Bool) (m : Mod) : Mod :=
  if p == n then
    let k := m.flt.pairEq + 1
    let m := { m with flt := { m.flt with pairEq := k } }
    if k = 10 then raise 4 47 30 0 (b2n p + 2 * b2n n) none m else m
  else causeEnd 4 47 (2 ^ 30) { m with flt := { m.flt with pairEq := 0 } }

end Sys2Proof.Machine
end

