-- ==== Sys2Proof/Machine/Tally.lean ====
section
/-! DEFINITION. The energy ledger and planner (spec/18, R467 to R477). -/
namespace Sys2Proof.Machine

/-- Key of an energy event count: unit `u` of die `d`, class `c` (the rows of R468 in order). -/
def ek (d u c : Nat) : Nat := (d * 32 + u) * 16 + c

/-- `n` events of class `c` in unit `u` of die `d` in the open frame (R468). -/
def energy (d u c n : Nat) (m : Mod) : Mod :=
  { m with tly := { m.tly with ev := NMap.set 0 m.tly.ev (ek d u c) (NMap.get 0 m.tly.ev (ek d u c) + n) } }

/-- The coefficient of class `c` in CU (R468). -/
def coefOf (c : Nat) (m : Mod) : Nat := m.tly.coefs.coef.getD c 0

/-- round(2^16 × v² / vref²) and round(2^16 × v / vref) (R469). -/
def kvOf (v vref : Nat) : Nat := if vref = 0 then 0 else (2 * 2 ^ 16 * v * v + vref * vref) / (2 * vref * vref)
def kvsOf (v vref : Nat) : Nat := if vref = 0 then 0 else (2 * 2 ^ 16 * v + vref) / (2 * vref)

/-- Key of a unit's ledger. -/
def lk (d u : Nat) : Nat := d * 32 + u

/-- One unit's energy of the closed frame enters the ledger (R469): dynamic sum `dyn`, static sum `sta`.
Answers the ledger units added. -/
def ledgerUnit (d u dyn sta kv kvs kt : Nat) (m : Mod) : Mod × Nat :=
  let e := (dyn * kv) / 2 ^ 16 + (((sta * kvs) / 2 ^ 16) * kt) / 2 ^ 16
  let e := (e * m.tly.gain) / 2 ^ 16 + NMap.get 0 m.tly.remd (lk d u)
  let add := e / 2 ^ 16
  ({ m with tly := { m.tly with
      energy := NMap.set 0 m.tly.energy (lk d u) ((NMap.get 0 m.tly.energy (lk d u) + add) % 2 ^ 64)
      remd := NMap.set 0 m.tly.remd (lk d u) (e % 2 ^ 16) } }, add)

/-- The dynamic sum of a unit in CU. -/
def dynSum (d u : Nat) (m : Mod) : Nat :=
  ((List.range 11).map (fun c => NMap.get 0 m.tly.ev (ek d u c) * coefOf c m)).sum

/-- kt of R469 rounded from the exact power: the largest y with y - 1/2 at most 2^16 × 2^(n/w), found from bit `k` down. -/
def ktExact (n : Int) (w : Nat) : Nat → Nat → Nat
  | 0, y => y
  | k + 1, y =>
    let z := y + 2 ^ k
    ktExact n w k (if (2 * z - 1) ^ w * 2 ^ (-n).toNat ≤ 2 ^ (17 * w + n.toNat) then z else y)

/-- kt of R469 for a temperature difference and a doubling interval, both in 1/8 °C: the part evaluates the power to
2^-16 or better, so any value within 1 of the exact one; with interval 0 the rule gives none. -/
def ktOf (n : Int) (w : Nat) : Nat :=
  let f := Config.exp2 n w
  if w = 0 then f
  else
    let e := ktExact n w (18 + n.toNat / w) 0
    if f ≤ e + 1 && e ≤ f + 1 then f else e

/-- The ledger of die `d` for the frame just closed, with its mean voltage (mV) and temperature (1/8 °C). -/
def ledgerDie (d v : Nat) (t : Int) (m : Mod) : Mod :=
  let kv := kvOf v m.tly.coefs.vref
  let kvs := kvsOf v m.tly.coefs.vref
  let kt := ktOf (t - 8 * m.tly.coefs.tref) (8 * m.tly.coefs.td)
  let r := (List.range 25).foldl (fun (acc : Mod × Nat) u =>
    let sta := if u = 24 then NMap.get 0 m.tly.ev (ek d 24 11) * coefOf 11 m else 0
    let x := ledgerUnit d u (dynSum d u acc.1) sta kv kvs kt acc.1
    (x.1, acc.2 + x.2)) (m, 0)
  let st := ((((NMap.get 0 m.tly.ev (ek d 24 11) * coefOf 11 m * kvs) / 2 ^ 16) * kt) / 2 ^ 16 * m.tly.gain) / 2 ^ 32
  let m := r.1
  let m := { m with tly := { m.tly with
      frameE := NMap.set 0 m.tly.frameE d r.2, staticE := NMap.set 0 m.tly.staticE d st
      ev := NMap.keep (fun k => k / 512 != d) m.tly.ev
      volt := NMap.set 0 m.tly.volt d v, temp := NMap.set 0 m.tly.temp d t, kv := NMap.set 0 m.tly.kv d kv } }
  wr F.TLY_ENV_KT d 0 kt (wr F.TLY_ENV_KV d 0 kv (wr F.TLY_GAIN_KVS d 0 kvs
    (wr F.TLY_ENV_VOLT_MV d 0 v (wr F.TLY_ENV_TEMP d 0 (ofInt 12 t) m))))

/-- An action table entry; a level beyond the table reads as no action. -/
def actionOf (l : Nat) (m : Mod) : Action :=
  m.tly.table.getD l { up := 0, down := 0, inj := 256, gap := 0, quiet := 4096 }

/-- The level after a frame that spent `s` (R477). -/
def nextLevel (s : Nat) (m : Mod) : Nat :=
  if m.tly.budget = 0 then 0
  else
    let q := s * 256 / m.tly.budget
    let a := actionOf m.tly.level m
    if m.tly.level < 7 ∧ 0 < a.up ∧ a.up ≤ q then m.tly.level + 1
    else if 0 < m.tly.level ∧ q < a.down then m.tly.level - 1
    else m.tly.level

/-- The planner's step at a frame boundary of the Shepherd (R477). The frame's total is that of every die's counters whose closed frame
has been entered since the last step (R467). The Shepherd's own energy of the frame is a value the spec does not give: a free
value. -/
def plannerStep (m : Mod) : Mod :=
  let dr := draw 24 m
  let m := dr.2
  let s := (dies.map (fun d => NMap.get 0 m.tly.frameE d)).sum + dr.1
  let floor := ((dies.filter (fun d => dieActive d m)).map (fun d => NMap.get 0 m.tly.staticE d)).sum + dr.1
  let excess := decide (m.tly.budget ≠ 0 ∧ m.tly.budget < s)
  let lvl := nextLevel s m
  let m := { m with tly := { m.tly with
      level := lvl, spent := s, floor := floor, excess := m.tly.excess || excess
      total := (m.tly.total + s) % 2 ^ 64, spanE := m.tly.spanE + s, frames := m.tly.frames + 1
      energy := NMap.set 0 m.tly.energy (lk 4 0) ((NMap.get 0 m.tly.energy (lk 4 0) + dr.1) % 2 ^ 64)
      frameE := NMap.set 0 [] 4 dr.1, staticE := NMap.set 0 m.tly.staticE 4 dr.1
      due := (dies.filter (fun d => dieActive d m)).foldl (fun q d => NMap.put q d lvl) m.tly.due } }
  let m := count 4 96 1 m
  let m := each dies (fun d m =>
    wr F.TLY_SPENT_SPENT d 0 (min (2 ^ 32 - 1) s) (wr F.TLY_FRAME_FRAME d 0 ((clock 4 m).frame - 1)
      (wr F.TLY_MODULE_E_ENERGY d 0 m.tly.total (wr F.TLY_STATUS_LEVEL d 0 lvl m)))) m
  if excess then each dies (fun d m =>
      count d 676 1 (bump F.TLY_SPENT_OVER_FRAMES d 0 (wrB F.TLY_STATUS_OVER d 0 true m))) m
  else m

/-- A die takes the entry pushed to it (R477). -/
def actionApply (d : Nat) (m : Mod) : Mod :=
  match NMap.find m.tly.due d with
  | none => m
  | some l =>
    let a := actionOf l m
    wr F.TLY_ACTION_QUIET_IDLE_NS d 0 a.quiet (wr F.TLY_ACTION_DROVER_GAP_NS d 0 a.gap
      (wr F.TLY_ACTION_INJ_SCALE d 0 a.inj { m with tly := { m.tly with due := NMap.del m.tly.due d } }))

/-- The gain is trimmed every 1,024 frames against telemetry energy `tel` over the span (R470). -/
def gainTrim (tel : Nat) (m : Mod) : Mod :=
  let l := m.tly.spanE
  let m := count 4 97 1 { m with tly := { m.tly with spanE := 0, frames := 0 } }
  let r := if l = 0 then 0 else tel * 2 ^ 16 / l
  if r < 49152 ∨ 81920 < r then raise 4 41 29 0 r none m
  else
    let g : Int := m.tly.gain
    let g' := (max 57344 (min 73728 (g + (g * ((r : Int) - 65536)) / 2 ^ 18))).toNat
    each dies (fun d m => wr F.TLY_GAIN_GAIN d 0 g' m) { m with tly := { m.tly with gain := g' } }

/-- A budget covers reserved energy `e` (R474). -/
def covers (budget headroom e : Nat) (m : Mod) : Bool :=
  budget == 0 || decide (m.tly.floor + e + (e * headroom) / 256 ≤ budget)

/-- The module state (R487, R488) after a change of die states; `m1` is whether every port that may
rest is at rest. -/
def moduleState (m1 : Bool) (m : Mod) : Nat :=
  if m.tly.mstate = 3 then 3
  else if dies.any (fun d => dieState d m == DieSt.sleep) then 2
  else if m1 then 1 else 0

/-- Store the module state and show it in TLY_STATUS. -/
def setMState (st : Nat) (m : Mod) : Mod :=
  each dies (fun d m => wr F.TLY_STATUS_MSTATE d 0 st m) { m with tly := { m.tly with mstate := st } }

end Sys2Proof.Machine
end

