-- ==== Sys2Proof/Machine/Security.lean ====
section
/-! DEFINITION. The security root (spec/20): fuses, boot verification, debug tokens and modes,
zeroisation, SPDM and IDE. -/
namespace Sys2Proof.Machine

/-! ## Fuses -/

/-- Blow one fuse operation: nothing moves backward (R522, R529). -/
def Fuse.burn1 (fz : Fuse) : FuseOp → Fuse
  | .svn n => { fz with fsvn := max fz.fsvn (min 64 n) }
  | .revoke0 => { fz with revoked0 := true }
  | .advance s => { fz with lifecycle := max fz.lifecycle (min 3 s) }
  | .owner h => { fz with ownerKey := fz.ownerKey <|> some h }
  | .secret k => { fz with secret := fz.secret <|> some k }

/-- Blow a list of operations, in order. -/
def Fuse.burn (fz : Fuse) (l : List FuseOp) : Fuse := l.foldl Fuse.burn1 fz

/-- Record a fuse operation of the running command. -/
def blow (o : FuseOp) (m : Mod) : Mod := { m with burn := m.burn ++ [o] }

/-! ## Boot verification (R520, R521) -/

/-- SVN of an image. -/
def Image.svn (im : Image) : Nat := rdLE im.hdr 4 2

/-- An image is accepted (R521). -/
def acceptImage (fz : Fuse) (c : Conf) (im : Image) : Bool :=
  let h := im.hdr
  let kid := rdLE h 2 1
  rdLE h 0 2 == 1 && zeroAt h 3 1 && zeroAt h 6 2 && zeroAt h 64 96
    && ((kid == 0 && !fz.revoked0) || kid == 1)
    && Config.sha384 im.key == (if kid = 0 then c.keyHash0 else c.keyHash1)
    && Config.sigOk im.key (Config.sha384 (sub h 0 160)) (sub h 160 96)
    && decide (rdLE h 12 4 = im.body.length) && sub h 16 48 == Config.sha384 im.body
    && decide (fz.fsvn ≤ im.svn)

/-- What is wrong with a slot, by the first condition of R521 that fails: 1 header, 2 key, 3 signature, 4 body, 5 SVN; 6 the
slot is empty. -/
def slotFault (fz : Fuse) (c : Conf) (im : Option Image) : Nat :=
  match im with
  | none => 6
  | some im =>
    let h := im.hdr
    let kid := rdLE h 2 1
    if rdLE h 0 2 ≠ 1 ∨ !zeroAt h 3 1 ∨ !zeroAt h 6 2 ∨ !zeroAt h 64 96 then 1
    else if !((kid == 0 && !fz.revoked0) || kid == 1) ∨ Config.sha384 im.key ≠ (if kid = 0 then c.keyHash0 else c.keyHash1) then 2
    else if !Config.sigOk im.key (Config.sha384 (sub h 0 160)) (sub h 160 96) then 3
    else if rdLE h 12 4 ≠ im.body.length ∨ sub h 16 48 ≠ Config.sha384 im.body then 4
    else 5

/-- The order in which the slots are tried: the higher SVN first, the preferred slot on a tie (R521). -/
def slotOrder (f : Flash) : List (Nat × Option Image) :=
  let a := (f.imgA.map Image.svn).getD 0
  let b := (f.imgB.map Image.svn).getD 0
  if b < a ∨ (a = b ∧ f.pref = 0) then [(0, f.imgA), (1, f.imgB)] else [(1, f.imgB), (0, f.imgA)]

/-- The first image accepted, with its slot (R521). -/
def bootImage (fz : Fuse) (m : Mod) : Option (Nat × Image) :=
  (slotOrder m.flash).findSome? (fun e =>
    match e.2 with
    | some im => if acceptImage fz m.conf im then some (e.1, im) else none
    | none => none)

/-- The boot failure record (R69): each slot in the order tried, and what was wrong with it. -/
def bootRecord (fz : Fuse) (m : Mod) : Bytes := (slotOrder m.flash).flatMap (fun e => leBytes 1 e.1 ++ leBytes 1 (slotFault fz m.conf e.2))

/-- A new nonce (R531). -/
def newNonce (m : Mod) : Mod := { m with sec := { m.sec with nonce := m.free }, free := m.free + 1 }

/-- The 32 bytes of the current nonce. -/
def nonceBytes (m : Mod) : Bytes := leBytes 32 (Config.free m.sec.nonce)

/-- The security root at module reset: the fused lifecycle takes effect, debug is OFF, and the device identity key is derived where
a device secret has been fused (R523, R529, R532). -/
def secReset (fz : Fuse) (m : Mod) : Mod :=
  newNonce { m with sec := { SecSt.reset with lifecycle := fz.lifecycle, idKey := fz.secret.isSome }, keys := [] }

/-- The running image (R521, R536). -/
def runImage (slot : Nat) (im : Image) (m : Mod) : Mod :=
  { m with sec := { m.sec with
      slot := slot, keyId := rdLE im.hdr 2 1, svn := im.svn, fwVer := rdLE im.hdr 8 4, image := some im } }

/-! ## Zeroisation (R533, R534) -/

/-- Step 2: every key is cleared. The random-number state is the source of the free draws (Config.free): nothing of it is held. -/
def clearKeys (m : Mod) : Mod :=
  { m with keys := []
           sec := { m.sec with sessions := [], ideKey := [], ide := [], idKey := false } }

/-- Step 3: every cleared store reads back as zero. -/
def keysCleared (m : Mod) : Bool :=
  m.keys.isEmpty && m.sec.sessions.isEmpty && m.sec.ideKey.isEmpty && !m.sec.idKey

/-- Every worker die is due to be fenced (R534 step 1). -/
def dueFenceAll (m : Mod) : Mod :=
  { m with flt := { m.flt with due := m.flt.due ++ (dies.filter (fun d => fusedIn d m)).map Due.fenceDie } }

/-- Steps 1 to 4; `scan`: SCAN_SELECT is enabled at the end. -/
def zeroise (scan : Bool) (m : Mod) : Mod :=
  let m := clearKeys (dueFenceAll m)
  if keysCleared m then { m with sec := { m.sec with zeroised := true, scanOn := m.sec.scanOn || scan } }
  else { m with sec := { m.sec with zeroFail := true } }

/-! ## Debug tokens (R531, R532, R535) -/

/-- The matrix of R535: `signer` 0 Narzer, 1 owner, 2 none; `ps` the module state M0 to M3. -/
def mayEnter (life mode signer ps : Nat) : Bool :=
  match life, mode with
  | 0, 1 => true
  | 0, 2 => true
  | 0, 3 => decide (ps ≤ 1)
  | 1, 1 => decide (signer ≤ 1)
  | 1, 2 => signer == 0
  | 2, 1 => decide (signer ≤ 1)
  | 3, 1 => signer == 0
  | 3, 2 => signer == 0
  | 3, 3 => signer == 0 && decide (ps ≤ 1)
  | _, _ => false

/-- A 184-byte token checks: layout, device, nonce, signature by Narzer key 1 or the owner key, which is ignored
from the move to RETURNED on (R529, R531).
In BLANK none is needed for modes 1 to 3 and the signature is zero (R535). -/
def tokenOk (fz : Fuse) (tok owner : Bytes) (m : Mod) : Bool :=
  let signer := rdLE tok 2 1
  let dev := match fz.secret with
    | some k => sub tok 4 48 == Config.sha384 (Config.devicePub k)
    | none => false
  let sig := sub tok 88 96
  let dig := Config.sha384 (sub tok 0 88)
  let byNarzer := signer == 0 && Config.sigOk Config.narzerKey1 dig sig
  let byOwner := signer == 1 && m.sec.lifecycle != 3 && fz.lifecycle != 3 && (match fz.ownerKey with
    | some h => Config.sha384 owner == h && Config.sigOk owner dig sig
    | none => false)
  decide (tok.length = 184) && rdLE tok 0 1 == 1 && zeroAt tok 3 1 && zeroAt tok 84 4
    && sub tok 52 32 == nonceBytes m && dev && (byNarzer || byOwner)

/-- BLANK: a mode is entered by its MODE with the signature left zero. -/
def blankToken (tok : Bytes) (m : Mod) : Bool := m.sec.lifecycle == 0 && zeroAt tok 88 96

/-- Enter a debug mode (R533, R534). -/
def enterMode (mode : Nat) (m : Mod) : Mod :=
  let m := if mode = 3 then zeroise true m else if mode = 2 ∧ m.sec.debug < 2 then clearKeys m else m
  if mode = 3 ∧ m.sec.zeroFail then m
  else { m with sec := { m.sec with debug := mode, top := max m.sec.top mode } }

/-- A token is accepted: fewer than 8 failures, a mode not below the one in force, a valid token or none needed, and the
matrix of R535. -/
def tokenGood (fz : Fuse) (tok owner : Bytes) (m : Mod) : Bool :=
  let mode := rdLE tok 1 1
  let blank := blankToken tok m
  decide (m.sec.fails < 8) && decide (1 ≤ mode ∧ mode ≤ 3) && decide (m.sec.debug ≤ mode)
    && (blank || tokenOk fz tok owner m) && mayEnter m.sec.lifecycle mode (if blank then 2 else rdLE tok 2 1) m.tly.mstate

/-- A token is presented (R531): a new nonce is drawn whether it succeeds or not; after 8 failures every
token is refused. The flag says that the mode was entered. -/
def presentToken (fz : Fuse) (tok owner : Bytes) (m : Mod) : Mod × Bool :=
  if tokenGood fz tok owner m then (newNonce (enterMode (rdLE tok 1 1) m), true)
  else (newNonce { m with sec := { m.sec with fails := min 8 (m.sec.fails + 1) } }, false)

/-- DEBUG_LOCK: OBSERVE returns to OFF; INVASIVE and SCAN stay (R532). The flag says it was accepted. -/
def debugLock (m : Mod) : Mod × Bool :=
  if 2 ≤ m.sec.debug then (m, false) else ({ m with sec := { m.sec with debug := 0 } }, true)

/-- SEC_COMMIT (R522). -/
def secCommit (revoke : Bool) (m : Mod) : Mod :=
  let m := blow (.svn m.sec.svn) m
  if revoke && m.sec.keyId == 1 then blow .revoke0 m else m

/-- LIFECYCLE_ADVANCE to `s` (R529); `tok` is the Narzer token for RETURNED. The status answered. -/
def lifecycleAdvance (fz : Fuse) (s : Nat) (tok : Bytes) (m : Mod) : Mod × Nat :=
  if fz.lifecycle = 0 ∧ s = 1 then
    (blow (.advance 1) (blow (.secret m.free) { m with free := m.free + 1 }), St.ok)
  else if fz.lifecycle = 1 ∧ s = 2 then (blow (.advance 2) m, St.ok)
  else if (fz.lifecycle = 1 ∨ fz.lifecycle = 2) ∧ s = 3 then
    let good := rdLE tok 1 1 == 0xFF && rdLE tok 2 1 == 0 && decide (m.sec.fails < 8) && tokenOk fz tok [] m
    if good then
      let m := zeroise false (newNonce m)
      (blow (.advance 3) { m with flash := { m.flash with certs := NMap.keep (· == 0) m.flash.certs } }, St.ok)
    else (newNonce { m with sec := { m.sec with fails := min 8 (m.sec.fails + 1) } }, St.dieNotReady)
  else (m, St.badArgument)

/-- OWNER_KEY_SET: only in PROVISIONED, and once (R527). -/
def ownerKeySet (fz : Fuse) (h : Bytes) (m : Mod) : Mod × Nat :=
  if m.sec.lifecycle = 1 ∧ fz.lifecycle = 1 ∧ fz.ownerKey = none then (blow (.owner h) m, St.ok)
  else (m, St.dieNotReady)

/-! ## SPDM (R523 to R525) -/

/-- Answer an SPDM request. -/
def spdmAnswer (code : Nat) (data : Bytes) (m : Mod) : Mod := count 4 162 1 (emit (.spdm code data) m)

/-- SPDM ERROR (0x7F) with an error code. -/
def spdmError (e : Nat) (m : Mod) : Mod := spdmAnswer 0x7F (leBytes 1 e) m

/-- The host link under SPDM transport `via`, by die and PF (R524): 0 to 3 are the DOE mailboxes of the dies' PF0, 5 to 8 of their PF1,
9 to 12 and 13 to 16 MCTP in vendor-defined messages on the links of PF0 and PF1; 4 is MCTP over SMBus/I2C, on no link. -/
def spdmLink (via : Nat) : Option (Nat × Nat) :=
  if via < 4 then some (via, 0) else if via = 4 then none else some ((via - 5) % 4, if via < 9 ∨ 13 ≤ via then 1 else 0)

/-- The DOE mailbox of a PF, as a transport. -/
def mailbox (d p : Nat) : Nat := if p = 0 then d else d + 5

/-- How far negotiation has come on a transport. -/
def negot (via : Nat) (m : Mod) : Nat := NMap.get 0 m.sec.negot via

/-- Set it. -/
def setNegot (via n : Nat) (m : Mod) : Mod := { m with sec := { m.sec with negot := NMap.set 0 m.sec.negot via n } }

/-- Answer when negotiation is complete, else UnexpectedRequest. -/
def spdmReady (via code : Nat) (data : Bytes) (m : Mod) : Mod :=
  if negot via m = 3 then spdmAnswer code data m else spdmError 4 m

/-- A certificate slot's chain. -/
def cert (slot : Nat) (m : Mod) : Bytes := NMap.get [] m.flash.certs slot

/-- Measurement block `i` (R525). -/
def measurement (fz : Fuse) (i : Nat) (m : Mod) : Bytes :=
  match i with
  | 1 => Config.measureRom
  | 2 => match m.sec.image with
    | some im => Config.sha384 (im.hdr ++ im.body)
    | none => zeros 48
  | 3 => Config.measureSvn fz.fsvn fz.revoked0 m.sec.slot
  | 4 => leBytes 8 (m.sec.lifecycle + m.sec.debug * 256 + m.sec.top * 65536)
  | 5 => Config.measureOpts m.flash.bifur m.flash.hold m.flash.pref
  | 6 => fz.ownerKey.getD (zeros 48)
  | _ => []

/-- What GET_MEASUREMENTS of an index reports: one block; 0 asks for the number of blocks and 0xFF for all of them (PRESUMED: SPDM 1.3). -/
def measured (fz : Fuse) (i : Nat) (m : Mod) : Bytes :=
  if i = 0 then leBytes 1 6 else if i = 0xFF then [1, 2, 3, 4, 5, 6].flatMap (fun n => measurement fz n m) else measurement fz i m

/-- GET_VERSION: SPDM 1.3 (R524); negotiation starts anew. -/
def spdmVersion (via : Nat) (m : Mod) : Mod := setNegot via 1 (spdmAnswer 0x04 [0x00#8, 0x13#8] m)

/-- GET_CAPABILITIES and NEGOTIATE_ALGORITHMS, in their order. -/
def spdmCaps (via : Nat) (req : Bytes) (m : Mod) : Mod :=
  if negot via m = 1 then setNegot via 2 (spdmAnswer 0x61 (Config.spdmBody 0xE1 req m.free) m) else spdmError 4 m
def spdmAlgs (via : Nat) (req : Bytes) (m : Mod) : Mod :=
  if negot via m = 2 then setNegot via 3 (spdmAnswer 0x63 (Config.spdmBody 0xE3 req m.free) m) else spdmError 4 m

/-- GET_DIGESTS: the digest of each slot that holds a chain. -/
def spdmDigests (via : Nat) (m : Mod) : Mod :=
  spdmReady via 0x01 ((m.flash.certs.map (fun e => leBytes 1 e.1 ++ Config.sha384 e.2)).flatten) m

/-- GET_CERTIFICATE: a part of a slot's chain. -/
def spdmCert (via slot off len : Nat) (m : Mod) : Mod :=
  spdmReady via 0x02 (((cert slot m).drop off).take len) m

/-- CHALLENGE: signed with the device identity key; without it, the error Unspecified (PRESUMED: SPDM 1.3). -/
def spdmChallenge (via : Nat) (req : Bytes) (m : Mod) : Mod :=
  if negot via m = 3 ∧ !m.sec.idKey then spdmError 5 m
  else spdmReady via 0x03 (Config.spdmBody 0x83 req m.free) { m with free := m.free + 1 }

/-- GET_MEASUREMENTS of block `i`. -/
def spdmMeasure (fz : Fuse) (via i : Nat) (m : Mod) : Mod := spdmReady via 0x60 (measured fz i m) m

/-- KEY_EXCHANGE: at most 8 sessions across all transports (R524). Its response is signed as that of CHALLENGE. -/
def spdmKeyExchange (via : Nat) (req : Bytes) (m : Mod) : Mod :=
  if negot via m ≠ 3 then spdmError 4 m
  else if 8 ≤ m.sec.sessions.length then spdmError 0x0A m
  else if !m.sec.idKey then spdmError 5 m
  else
    let s : Session := { id := m.sec.nextSess, via := via, draw := m.free, est := false, updates := 0 }
    spdmAnswer 0x64 (leBytes 4 s.id ++ Config.spdmBody 0xE4 req m.free)
      { m with free := m.free + 1
               sec := { m.sec with sessions := m.sec.sessions ++ [s], nextSess := m.sec.nextSess + 1 } }

/-- A session held on a transport. -/
def session (via id : Nat) (m : Mod) : Option Session := m.sec.sessions.find? (fun s => s.id == id && s.via == via)

/-- Change a session. -/
def updSession (id : Nat) (f : Session → Session) (m : Mod) : Mod :=
  { m with sec := { m.sec with sessions := m.sec.sessions.map (fun s => if s.id == id then f s else s) } }

/-- End a session. -/
def endSession (id : Nat) (m : Mod) : Mod :=
  { m with sec := { m.sec with sessions := m.sec.sessions.filter (fun s => s.id != id) } }

/-- FINISH: the session is established, or ends. -/
def spdmFinish (via id : Nat) (req : Bytes) (m : Mod) : Mod :=
  match session via id m with
  | none => spdmError 2 m
  | some s =>
    if Config.finishOk s.draw req then spdmAnswer 0x65 [] (updSession id (fun s => { s with est := true }) m)
    else spdmError 6 (endSession id m)

/-- KEY_UPDATE, HEARTBEAT and END_SESSION in an established session. -/
def spdmInSession (via id code : Nat) (f : Mod → Mod) (m : Mod) : Mod :=
  match session via id m with
  | some s => if s.est then spdmAnswer code [] (f m) else spdmError 2 m
  | none => spdmError 2 m

/-- SET_CERTIFICATE: slots 1 to 7, in PROVISIONED or FIELD (R523). -/
def spdmSetCert (via slot : Nat) (chain : Bytes) (m : Mod) : Mod :=
  if negot via m ≠ 3 then spdmError 4 m
  else if 1 ≤ slot ∧ slot ≤ 7 ∧ (m.sec.lifecycle = 1 ∨ m.sec.lifecycle = 2) then
    spdmAnswer 0x6E (leBytes 1 slot) { m with flash := { m.flash with certs := NMap.set [] m.flash.certs slot chain } }
  else spdmError 1 m

/-! ## Host-link IDE (R526) -/

/-- IDE_KM in an established session of the DOE mailbox of a link: 0 KEY_PROG, 1 K_SET_GO, 2 K_SET_STOP. Streams 0 to 3 of a die are those of
the link of PF0, 4 to 7 those of PF1's. -/
def ideKm (d stream op sess : Nat) (m : Mod) : Mod :=
  match session (mailbox d (stream / 4)) sess m with
  | none => spdmError 2 m
  | some s =>
    if !s.est ∨ 8 ≤ stream then spdmError 1 m
    else
      let k := d * 8 + stream
      let m := match op with
        | 0 => { m with free := m.free + 1, sec := { m.sec with ideKey := NMap.put m.sec.ideKey k m.free } }
        | 1 => if (NMap.find m.sec.ideKey k).isSome
               then { m with sec := { m.sec with ide := NMap.set false m.sec.ide k true } } else m
        | _ => { m with sec := { m.sec with ide := NMap.set false m.sec.ide k false
                                            ideKey := NMap.del m.sec.ideKey k } }
      spdmAnswer 0x7E (leBytes 1 op ++ leBytes 1 (stream % 4)) m

/-- A TLP of a stream fails its integrity check: the stream becomes Insecure, the TLP is discarded. -/
def ideFail (d stream : Nat) (m : Mod) : Mod :=
  bump F.SEC_IDE_INTEGRITY_FAIL d (stream / 4)
    { m with sec := { m.sec with ide := NMap.set false m.sec.ide (d * 8 + stream) false } }

/-- The streams of a PF's link end: keys, states and address associations. -/
def ideDrop (d p : Nat) (m : Mod) : Mod :=
  let mine := fun (k : Nat) => k / 4 == d * 2 + p
  { m with sec := { m.sec with ide := NMap.keep (fun k => !mine k) m.sec.ide, ideKey := NMap.keep (fun k => !mine k) m.sec.ideKey
                               assoc := NMap.keep (fun k => !mine (k / 4)) m.sec.assoc } }

/-! ## Test access port (R530) -/

/-- Shift out. -/
def tap (ir out : Nat) (m : Mod) : Mod := emit (.tdo out) { m with sec := { m.sec with tapIr := ir } }

/-- IDCODE: version STEPPING, part 0x5309, Narzer's manufacturer code, 1. -/
def idcode : Nat := 1 * 2 ^ 28 + 0x5309 * 2 ^ 12 + (Config.jedec % 2 ^ 11) * 2 + 1

/-- EXTEST drives the boundary cells only while module reset is asserted. The levels that the board drives, which it captures, are open: a
free value of 20 bits. -/
def extest (cells : Nat) (m : Mod) : Mod :=
  if m.pin.rst then
    let x := draw 20 m
    tap 0x00 x.1 { x.2 with pin := { x.2.pin with cells := cells } }
  else tap 0xFF 0 m

/-- DEBUG_AUTH presents a token. -/
def debugAuth (fz : Fuse) (tok owner : Bytes) (m : Mod) : Mod :=
  let r := presentToken fz tok owner m
  tap 0x10 (b2n r.2) r.1

end Sys2Proof.Machine
end

