-- ==== Sys2Proof/Machine/Events.lean ====
section
/-! DEFINITION. Event rings (R300, R301). -/
namespace Sys2Proof.Machine

/-- The event ring of a function. -/
def evrOf (d f : Nat) (m : Mod) : Evr := NMap.get Evr.reset m.evr (fk d f)

/-- Replace it. -/
def setEvr (d f : Nat) (e : Evr) (m : Mod) : Mod := { m with evr := NMap.set Evr.reset m.evr (fk d f) e }

/-- Entries of the ring: 2^6 to 2^12; other values act as 6. -/
def evrSize (d f : Nat) (m : Mod) : Nat :=
  let n := cur F.WQU_EVR_CFG_LOG2 d f m
  if 6 ≤ n ∧ n ≤ 12 then 2 ^ n else 64

/-- Free slots of the ring. -/
def evrFree (d f : Nat) (m : Mod) : Nat :=
  let n := evrSize d f m
  n - 1 - (n + rd F.WQU_EVR_STATUS_TAIL d f m - cur F.WQU_EVR_HEAD_INDEX d f m % n) % n

/-- The 32 bytes of an event (R300). -/
def evBytes (type detail : Nat) (phase : Bool) (w : Nat) (args : Bytes) : Bytes :=
  leBytes 2 type ++ leBytes 1 detail ++ leBytes 1 (b2n phase) ++ zeros 4 ++ leBytes 8 w ++ padTo 16 args

/-- An event is written at TAIL; MSI-X vector 1 follows unless one has been sent since HEAD was last
written. -/
def evWrite (d f type detail w : Nat) (args : Bytes) (m : Mod) : Mod :=
  let e := evrOf d f m
  let t := rd F.WQU_EVR_STATUS_TAIL d f m
  let n := evrSize d f m
  let m := hostWr d f (cur F.WQU_EVR_BASE_ADDR d f m * 32 + 32 * t) (evBytes type detail e.phase w args) m
  let m := count d 519 1 (wr F.WQU_EVR_STATUS_TAIL d f ((t + 1) % n) m)
  let m := setEvr d f { e with phase := if t + 1 = n then !e.phase else e.phase, sig := true } m
  if e.sig then m else msix d f 1 m

/-- The event is discarded and counted in LOST. -/
def evLose (d f : Nat) (m : Mod) : Mod := bump F.WQU_EVR_STATUS_LOST d f m

/-- An event of function `f` of die `d` (R300). -/
def event (d f type detail : Nat) (args : Bytes) (m : Mod) : Mod :=
  if !curB F.WQU_EVR_CFG_ENABLE d f m || (evrOf d f m).lost then evLose d f m
  else
    match evrFree d f m with
    | 0 => evLose d f m
    | 1 =>
      let m := evWrite d f 0xFF 0 (now d m) [] m
      evLose d f (setEvr d f { evrOf d f m with lost := true } m)
    | _ => evWrite d f type detail (now d m) args m

/-- Link events of R173, on the ring of the die's PF0: 0 DOWN, 1 UP, 2 MISMATCH, 3 STUCK. -/
def linkEvent (d p kind : Nat) (m : Mod) : Mod := event d 0 (0x10 + kind) 0 (leBytes 1 (0x20 * d + p)) m

/-- HEAD is written: slots are freed and signalling is enabled again. -/
def evrHead (d f i : Nat) (m : Mod) : Mod :=
  setEvr d f { evrOf d f m with sig := false, lost := false } (force F.WQU_EVR_HEAD_INDEX d f i m)

/-- ENABLE is set: fresh indices and phase; it is cleared: the ring is out of service. -/
def evrEnable (d f : Nat) (on : Bool) (m : Mod) : Mod :=
  let m := force F.WQU_EVR_CFG_ENABLE d f (b2n on) m
  if on then setEvr d f Evr.reset (wr F.WQU_EVR_STATUS_TAIL d f 0 (force F.WQU_EVR_HEAD_INDEX d f 0 m)) else m

/-! ## Alarms (R97, R98) -/

/-- The PF function that owns alarm `a`: PF1 owns 48 to 63 of a bifurcated die. -/
def alarmPf (d a : Nat) (m : Mod) : Nat := if bifurcated d m && decide (48 ≤ a) then 1025 else 0

/-- Host alarm `k` (32 to 63) of die `d` fires: at the first tick at which N has reached CMP, or at once
where it already has (R97); after a backward step not until the counter passes its highest count again (R114). -/
def alarmFire (d k : Nat) (m : Mod) : Mod :=
  let i := k - 32
  if k < 32 ∨ 64 ≤ k ∨ !curB F.ETL_ALARM_CTL_ARM d i m ∨ !(clock d m).run then m
  else
    let c := cur F.ETL_ALARM_CMP_CMP d i m
    let t := (clock d m).notBefore c
    let m := if t ≤ now d m then m else runTo d t m
    let per := cur F.ETL_ALARM_CTL_PERIOD d i m
    let m := if per = 0 then force F.ETL_ALARM_CTL_ARM d i 0 m
      else force F.ETL_ALARM_CMP_CMP d i (c + ((now d m - c) / per + 1) * per) m
    let m := count d 675 1 m
    if rdB F.ETL_ALARM_CTL_FIRED d i m then bump F.ETL_ALARM_CTL_OVERRUN d i m
    else event d (alarmPf d k m) 0x0001 0 (leBytes 1 k) (wrB F.ETL_ALARM_CTL_FIRED d i true m)

end Sys2Proof.Machine
end

