-- ==== Sys2Proof/Machine/Sampler.lean ====
section
/-! DEFINITION. Descriptor sampling (spec/21, R547 to R550). -/
namespace Sys2Proof.Machine

/-- A die's sampler. -/
def smpOf (d : Nat) (m : Mod) : Smp := NMap.get Smp.reset m.smp d

/-- Replace it, and show how many entries are followed. -/
def setSmp (d : Nat) (x : Smp) (m : Mod) : Mod :=
  wr F.SMP_STATUS_TRACKED d 0 x.follow.length { m with smp := NMap.set Smp.reset m.smp d x }

/-- SMP_FILTER admits an entry (R547). -/
def smpFilter (d q fn : Nat) (m : Mod) : Bool :=
  (!curB F.SMP_FILTER_FN_EN d 0 m || cur F.SMP_FILTER_FN d 0 m == fn)
    && (!curB F.SMP_FILTER_QUEUE_EN d 0 m || cur F.SMP_FILTER_QUEUE d 0 m == q)

/-- The first address that an entry names, by opcode (R549). -/
def entryVa (b : Bytes) : Nat :=
  let op := rdLE b 0 1
  if op = 0x40 then rdLE b 24 8
  else if (0x10 ≤ op ∧ op ≤ 0x38) then rdLE b 16 8 else 0

/-- LENGTH of an entry, or the operand size of an atomic. -/
def sampleLen (b : Bytes) : Nat :=
  match rdLE b 0 1 with
  | 0x10 | 0x11 | 0x12 => rdLE b 32 4
  | 0x20 | 0x22 | 0x24 => 4
  | 0x21 | 0x23 | 0x25 => 8
  | 0x26 => 16
  | 0x38 => rdLE b 44 4
  | 0x40 => rdLE b 40 4
  | _ => 0

/-- An entry of queue `q` is taken: each INTERVAL-th that passes the filter is followed, up to 64 at once. -/
def sampleTake (d q idx gen fn bell : Nat) (b : Bytes) (m : Mod) : Mod :=
  if !curB F.SMP_CTRL_ENABLE d 0 m || !smpFilter d q fn m then m
  else
    let x := smpOf d m
    if x.n + 1 < max 1 (cur F.SMP_INTERVAL_INTERVAL d 0 m) then setSmp d { x with n := x.n + 1 } m
    else if 64 ≤ x.follow.length then bump F.SMP_CNT_SKIPPED d 0 (setSmp d { x with n := 0 } m)
    else
      let f : Follow :=
        { q := q, idx := idx, gen := gen, op := rdLE b 0 1, len := sampleLen b, va := entryVa b, cn := rdLE b 8 3, cring := rdLE b 2 2
          tag := rdLE b 4 4, fn := fn, num := x.num, timed := bit (rdLE b 1 1) 3, stepped := false, bell := bell, fetch := now d m
          first := none, ack := none, pkt := none, psn := 0, path := 0 }
      setSmp d { x with n := 0, num := (x.num + 1) % 2 ^ 32, follow := x.follow ++ [f] } m

/-- Change the followed entries that `p` names. -/
def sampleUpd (d : Nat) (p : Follow → Bool) (f : Follow → Follow) (m : Mod) : Mod :=
  let x := smpOf d m
  if x.follow.any p then setSmp d { x with follow := x.follow.map (fun e => if p e then f e else e) } m else m

/-- The entry that owns a message. -/
def Follow.owns (o : Owner) (f : Follow) : Bool :=
  match o with
  | .queue q idx gen _ _ _ _ => f.q == q && f.idx == idx && f.gen == gen
  | _ => false

/-- The first packet of an owner's message is started: its number, path and PSN. -/
def sampleStart (d : Nat) (o : Owner) (pkt psn path : Nat) (m : Mod) : Mod :=
  sampleUpd d (fun f => f.owns o && f.pkt.isNone) (fun f => { f with pkt := some pkt, psn := psn, path := path % 8 }) m

/-- The first flit of packet `pkt` leaves its first exit. -/
def sampleFlit (pkt : Nat) (m : Mod) : Mod :=
  each dies (fun d m => sampleUpd d (fun f => f.pkt == some pkt && f.first.isNone) (fun f => { f with first := some (now d m) }) m) m

/-- An acknowledgement of PSN `psn` of a conduit carries CLEVEL and CE. -/
def sampleAck (d cn psn level : Nat) (ce : Bool) (m : Mod) : Mod :=
  sampleUpd d (fun f => f.pkt.isSome && f.cn == cn && f.psn == psn)
    (fun f => { f with path := f.path % 8 + 8 * (level % 16) + 128 * b2n ce }) m

/-- The last packet of an owner's message has its result. -/
def sampleDone (d : Nat) (o : Owner) (m : Mod) : Mod :=
  sampleUpd d (fun f => f.owns o && f.ack.isNone) (fun f => { f with ack := some (now d m) }) m

/-- A delta of a record (R549). -/
def sampleDelta (bell : Nat) : Option Nat → Bytes
  | none => leBytes 4 0xFFFFFFFF
  | some t => leBytes 4 (min 0xFFFFFFFE (t - bell))

/-- The 64 bytes of a record (R549). -/
def Follow.bytes (f : Follow) (status detail : Nat) (phase : Bool) (cpl : Option Nat) : Bytes :=
  leBytes 2 f.q ++ leBytes 2 f.idx ++ leBytes 1 f.op ++ leBytes 1 status ++ leBytes 1 detail
    ++ leBytes 1 (b2n phase + 2 * b2n f.timed + 4 * b2n f.stepped) ++ leBytes 8 f.va ++ leBytes 4 f.len ++ leBytes 3 f.cn
    ++ leBytes 1 f.path ++ leBytes 8 f.bell ++ sampleDelta f.bell (some f.fetch) ++ sampleDelta f.bell f.first
    ++ sampleDelta f.bell f.ack ++ sampleDelta f.bell cpl ++ leBytes 2 f.fn ++ leBytes 2 f.cring ++ leBytes 4 f.tag
    ++ leBytes 4 f.num ++ zeros 4

/-- Entries of the sample ring. -/
def smpSize (d : Nat) (m : Mod) : Nat :=
  let n := cur F.SMP_RING_CFG_LOG2 d 0 m
  if 6 ≤ n ∧ n ≤ 15 then 2 ^ n else 64

/-- Records that host software has not read. -/
def smpUsed (d : Nat) (m : Mod) : Nat :=
  (smpSize d m + rd F.SMP_RING_IDX_TAIL d 0 m - cur F.SMP_RING_IDX_HEAD d 0 m % smpSize d m) % smpSize d m

/-- A record is written, or lost where the ring is full; the ring half full is signalled once for each HEAD (R550). -/
def sampleWrite (d : Nat) (f : Follow) (status detail : Nat) (cpl : Option Nat) (m : Mod) : Mod :=
  let n := smpSize d m
  if smpUsed d m + 1 = n then bump F.SMP_CNT_LOST d 0 m
  else
    let t := rd F.SMP_RING_IDX_TAIL d 0 m
    let x := smpOf d m
    let m := hostWr d 0 (cur F.SMP_RING_BASE_ADDR d 0 m * 64 + 64 * t) (f.bytes status detail x.phase cpl) m
    let m := bump F.SMP_CNT_SAMPLES d 0 (wr F.SMP_RING_IDX_TAIL d 0 ((t + 1) % n) m)
    let m := setSmp d { x with phase := if t + 1 = n then !x.phase else x.phase } m
    if curB F.SMP_RING_CFG_IRQ_EN d 0 m && !x.half && decide (n / 2 ≤ smpUsed d m) then
      msix d 0 (cur F.SMP_RING_CFG_VECTOR d 0 m) (setSmp d { smpOf d m with half := true } m)
    else m

/-- A followed entry has completed. -/
def sampleEnd (d q idx gen status detail : Nat) (m : Mod) : Mod :=
  let x := smpOf d m
  match x.follow.find? (fun f => f.q == q && f.idx == idx && f.gen == gen) with
  | none => m
  | some f => sampleWrite d f status detail (some (now d m)) (setSmp d { x with follow := x.follow.erase f } m)

/-- The entries of a queue that is halted or disabled are forgotten (R274): FLUSHED. -/
def sampleFlush (d q : Nat) (m : Mod) : Mod :=
  let l := (smpOf d m).follow.filter (fun f => f.q == q)
  l.foldl (fun m f => sampleWrite d f St.flushed 0 none
    (setSmp d { smpOf d m with follow := (smpOf d m).follow.erase f } m)) m

/-- SAMPLER_ENABLE: set from 0, the indices and the sample number restart; cleared, every followed entry is dropped. -/
def samplerEnable (d : Nat) (on : Bool) (m : Mod) : Mod :=
  let was := curB F.SMP_CTRL_ENABLE d 0 m
  let m := force F.SMP_CTRL_ENABLE d 0 (b2n on) m
  if on && !was then
    setSmp d Smp.reset (wr F.SMP_RING_IDX_TAIL d 0 0 (force F.SMP_RING_IDX_HEAD d 0 0 m))
  else if on then m
  else setSmp d { smpOf d m with follow := [] } m

/-- HEAD of the sample ring is written. -/
def samplerHead (d i : Nat) (m : Mod) : Mod :=
  setSmp d { smpOf d m with half := false } (force F.SMP_RING_IDX_HEAD d 0 i m)

end Sys2Proof.Machine
end

