-- ==== Sys2Proof/Machine/Route.lean ====
section
/-! DEFINITION. Source routing (spec/07): the routing header, exit codes, open passes, congestion marks,
the crossbar's queues, flocks and notices. -/
namespace Sys2Proof.Machine

/-! ## The routing header (R179), at the start of a packet's bytes -/
namespace Hdr
def hopPtr (b : Bytes) : Nat := rdLE b 8 1 % 16
def hopCount (b : Bytes) : Nat := rdLE b 8 1 / 16
def code (b : Bytes) (i : Nat) : Nat := rdLE b i 1
def flock (b : Bytes) : Bool := bit (rdLE b 9 1) 0
def timed (b : Bytes) : Bool := bit (rdLE b 9 1) 1
def pathIdx (b : Bytes) : Nat := rdLE b 9 1 / 32
def dest (b : Bytes) : Nat := rdLE b 10 3 % 2 ^ 20
def src (b : Bytes) : Nat := rdLE b 13 3 % 2 ^ 20
def pasture (b : Bytes) : Nat := rdLE b 16 2
def proto (b : Bytes) : Nat := rdLE b 18 1
def cong (b : Bytes) : Nat := rdLE b 19 1
def clevel (b : Bytes) : Nat := cong b % 16
def ce (b : Bytes) : Bool := bit (cong b) 7
def length (b : Bytes) : Nat := rdLE b 20 2
def res (b : Bytes) : Nat := rdLE b 22 2 % 2 ^ 14
end Hdr

/-- A routing header (R179). -/
def mkHdr (route : List Nat) (hops : Nat) (flock timed : Bool) (path dest src pasture proto length res : Nat) : Bytes :=
  padTo 8 ((route ++ List.replicate (8 - route.length) 0xFF).map toByte) ++ leBytes 1 ((hops % 16) * 16)
    ++ leBytes 1 (b2n flock + 2 * b2n timed + (path % 8) * 32) ++ leBytes 3 dest ++ leBytes 3 src
    ++ leBytes 2 pasture ++ leBytes 1 proto ++ leBytes 1 0 ++ leBytes 2 length ++ leBytes 2 res

/-- The die of a source or exit of the crossbar. -/
def dieOf (s : Nat) : Nat := if s < 128 then s / 32 else if s < 136 then (s - 128) / 2 else (s - 136) % 4

/-- Table copies of a die (4: authoritative). -/
def tabs (d : Nat) (m : Mod) : Tabs := NMap.get Tabs.reset m.tabs d

/-- Change them. -/
def updTabs (d : Nat) (f : Tabs → Tabs) (m : Mod) : Mod :=
  { m with tabs := NMap.set Tabs.reset m.tabs d (f (tabs d m)) }

/-! ## Ports, links and crossings -/

/-- The die has ports and links in service: ACTIVE or QUARANTINE (R28). -/
def dieUp (d : Nat) (m : Mod) : Bool := dieActive d m || dieState d m == DieSt.quarantine

/-- The unit works; a quad whose lanes sleep is woken by traffic, so it counts as usable. -/
def unitUp (d u : Nat) (m : Mod) : Bool :=
  dieUp d m && [UnitSt.active, UnitSt.quarantine, UnitSt.sleep].contains (unitState d u m)

/-- The port code exists under its quad's split setting, and its quad is usable (R21, R132). -/
def portExists (pc : Nat) (m : Mod) : Bool :=
  decide (pc < 128) && unitUp (pc / 32) (pc % 32 / 2) m
    && (pc % 2 == 0 || rdB F.LNE_QCTRL_SPLIT (pc / 32) (pc % 32 / 2) m)

/-- LINK_STATE of a port code (R168). -/
def linkState (pc : Nat) (m : Mod) : Nat := rd F.LNK_PORT_STATUS_LINK_STATE (pc / 32) (pc % 32) m

/-- The link is UP. -/
def linkUp (pc : Nat) (m : Mod) : Bool := linkState pc m == 3

/-- The quad runs in compatibility mode (R143). -/
def compat (pc : Nat) (m : Mod) : Bool := rdB F.LNE_QCTRL_COMPAT (pc / 32) (pc % 32 / 2) m

/-- The die's crossbar slice is in service (RTE_CTRL.ENABLE, R210).  Of a slice out of service the spec says no more: its
inputs decide no packet, which waits, and no packet crosses to it (DESIGN CHOICE). -/
def sliceOn (d : Nat) (m : Mod) : Bool := curB F.RTE_CTRL_ENABLE d 0 m

/-- Die `i` can carry traffic between `a` and `b` (R27, R28). -/
def midOk (a b i : Nat) (m : Mod) : Bool := d2dUp a i m && d2dUp i b m && dieUp i m && sliceOn i m

/-- The die-to-die links crossed from `a` to `b`, for a packet that entered at an odd port code or not
(R27, R28); none where `b` cannot be reached or a slice is out of service. -/
def crossing (a b : Nat) (odd : Bool) (m : Mod) : Option (List (Nat × Nat)) :=
  if !sliceOn a m || !sliceOn b m then none
  else if a = b then some []
  else if !dieUp a m || !dieUp b m then none
  else if d2dUp a b m then some [(a, b)]
  else
    let mids := dies.filter (fun i => i ≠ a ∧ i ≠ b)
    let pref := if odd then mids.reverse else mids
    (pref.find? (fun i => midOk a b i m)).map (fun i => [(a, i), (i, b)])

/-- The crossing of a packet from source `s` to the die of exit `x`. -/
def crossOf (s x : Nat) (m : Mod) : Option (List (Nat × Nat)) :=
  crossing (dieOf s) (dieOf x) (decide (s < 128) && s % 2 == 1) m

/-! ## Exit backlog (R187, R194, R199) -/

/-- Flits queued for exit `pc` on a channel. -/
def backlog (pc vc : Nat) (m : Mod) : Nat := (NMap.get [] m.xb.outq (pc * 4 + vc)).length

/-- Flits of all channels. -/
def load (pc : Nat) (m : Mod) : Nat := backlog pc 0 m + backlog pc 1 m + backlog pc 2 m + backlog pc 3 m

/-- The PEAK field of a channel. -/
def peakFld (vc : Nat) : Fld :=
  match vc with
  | 0 => F.RTE_PORT_PEAK_REQ
  | 1 => F.RTE_PORT_PEAK_RSP
  | 2 => F.RTE_PORT_PEAK_TIM
  | _ => F.RTE_PORT_PEAK_BYP

/-- Change the crossbar. -/
def updXb (f : Xbar → Xbar) (m : Mod) : Mod := { m with xb := f m.xb }

/-- The link record of a port code. -/
def link (pc : Nat) (m : Mod) : Link := NMap.get Link.reset m.lnk pc

/-- Change it. -/
def updLink (pc : Nat) (f : Link → Link) (m : Mod) : Mod :=
  { m with lnk := NMap.set Link.reset m.lnk pc (f (link pc m)) }

/-- A list of four with element `i` changed. -/
def upd4 {α : Type} (l : List α) (i : Nat) (f : α → α) : List α :=
  l.mapIdx (fun j x => if j = i then f x else x)

/-- An input buffer of a channel of a port is freed (R154). -/
def freeBuf (pc vc : Nat) (m : Mod) : Mod :=
  updLink pc (fun k => { k with freed := upd4 k.freed vc (fun n => (n + 1) % 4096), occ := upd4 k.occ vc (· - 1) }) m

/-- One copy of a flit has left; the last frees its input buffer (R205). -/
def flitLeave (f : Flit) (m : Mod) : Mod :=
  let n := NMap.get 1 m.xb.refs f.fid
  if 1 < n then updXb (fun x => { x with refs := NMap.put x.refs f.fid (n - 1) }) m
  else
    let m := updXb (fun x => { x with refs := NMap.del x.refs f.fid }) m
    if f.org = 0 then m else freeBuf (f.org - 1) f.vc m

/-- R199's stop of an exit at each die: it begins where the REQ backlog exceeds HARD, and ends where it is at SOFT or below. -/
def noteStop (pc : Nat) (m : Mod) : Mod :=
  each dies (fun d m =>
    let hard := cur F.RTE_INJ_CTRL_HARD d 0 m
    let b := backlog pc 0 m
    let now := NMap.get false m.xb.stop (d * 128 + pc)
    let next := if b ≤ min hard (cur F.RTE_INJ_CTRL_SOFT d 0 m) then false else decide (hard < b) || now
    if next = now then m else updXb (fun y => { y with stop := NMap.set false y.stop (d * 128 + pc) next }) m) m

/-! ## Moving flits -/

/-- Count flit slots of a channel on the die-to-die links crossed.  A crossing uses a credit of the link and returns it in the
same step, since the flit goes on to its exit's queue at once: the credits C of these links, which the spec does not number,
never run out (DESIGN CHOICE; R154, R176). -/
def countHops (vc : Nat) (l : List (Nat × Nat)) (m : Mod) : Mod :=
  l.foldl (fun m e =>
    let k := (e.1 * 5 + e.2) * 5 + vc
    let m := updXb (fun y => { y with d2dTx := NMap.set 0 y.d2dTx k ((NMap.get 0 y.d2dTx k + 1) % 4096) }) m
    energy e.1 22 6 1 (count e.2 (640 + 8 * e.1 + 1) 1 (count e.1 (640 + 8 * e.2) 1 (count e.1 (388 + e.2) 1 m)))) m

/-- A fabric-management packet is written to the PF's ring, or dropped (R284). -/
def fmDeliver (d : Nat) (b : Bytes) (m : Mod) : Mod :=
  let lg := cur F.WQU_FMR_CFG_LOG2 d 0 m
  let n := if 6 ≤ lg ∧ lg ≤ 12 then 2 ^ lg else 64
  let t := rd F.WQU_FMR_CFG_TAIL d 0 m
  if !curB F.WQU_FMR_CFG_ENABLE d 0 m || (t + 1) % n == cur F.WQU_FMR_CFG_HEAD d 0 m % n then
    bump F.WQU_FMR_CFG_DROPPED d 0 m
  else
    wr F.WQU_FMR_CFG_TAIL d 0 ((t + 1) % n)
      (hostWr d 0 (cur F.WQU_FMR_BASE_ADDR d 0 m * 64 + 64 * t) (padTo 64 b) m)

/-- A router notice becomes a FLOCK_PRUNED event of the owner's PF0 (R208). -/
def noticeDeliver (d : Nat) (b : Bytes) (m : Mod) : Mod :=
  if rdLE b 24 1 = 1 then
    event d 0 0x0020 (rdLE b 25 1) (sub b 28 3 ++ sub b 26 1 ++ leBytes 3 (Hdr.src b)) m
  else m

/-- A whole packet has reached exit `x` (a host endpoint or a Drover). -/
def deliver (x : Nat) (b : Bytes) (m : Mod) : Mod :=
  let d := dieOf x
  if x % 2 = 1 then updXb (fun y => { y with dq := NMap.put y.dq d (NMap.get [] y.dq d ++ [b]) }) m
  else if Hdr.proto b = 3 then fmDeliver d b m
  else if Hdr.proto b = 4 then noticeDeliver d b m
  else updXb (fun y => { y with tq := NMap.put y.tq d (NMap.get [] y.tq d ++ [b]) }) m

/-- A flit reaches the delivery exit `x`. -/
def deliverFlit (x : Nat) (f : Flit) (m : Mod) : Mod :=
  let k := f.pkt * 256 + x
  let b := NMap.get [] m.xb.asm k ++ f.data
  let m := flitLeave f m
  let m := if f.sop then sampleFlit f.pkt m else m
  if f.eop then
    let m := updXb (fun y => { y with asm := NMap.del y.asm k }) m
    if f.abort then m else deliver x b m
  else updXb (fun y => { y with asm := NMap.put y.asm k b }) m

/-- A flit is queued for exit port `pc`, or discarded where its packet was cut off there. -/
def queueFlit (pc : Nat) (f : Flit) (m : Mod) : Mod :=
  if (link pc m).cut.contains f.pkt then
    flitLeave f (if f.eop then updLink pc (fun k => { k with cut := k.cut.filter (· != f.pkt) }) m else m)
  else
    let m := updXb (fun y => { y with outq := NMap.put y.outq (pc * 4 + f.vc) (NMap.get [] y.outq (pc * 4 + f.vc) ++ [f]) }) m
    let m := if f.vc = 0 then noteStop pc m else m
    let b := backlog pc f.vc m
    if rd (peakFld f.vc) (pc / 32) (pc % 32) m < b then wr (peakFld f.vc) (pc / 32) (pc % 32) b m else m

/-- A flit goes to one exit port, host endpoint or Drover. -/
def putExit (x : Nat) (f : Flit) (m : Mod) : Mod := if x < 128 then queueFlit x f m else deliverFlit x f m

/-- A flit of source `s` is switched by `put` to its packet's exits; the last flit closes the packet. -/
def spreadFlit (put : Nat → Flit → Mod → Mod) (s : Nat) (exits : List Nat) (f : Flit) (m : Mod) : Mod :=
  let d := dieOf s
  let base := if f.org = 0 ∧ s < 136 then 1 else NMap.get 1 m.xb.refs f.fid
  let m := if exits.isEmpty then flitLeave f m
    else
      let m := updXb (fun y => { y with refs := NMap.put y.refs f.fid (base + exits.length - 1) }) m
      let m := energy d 16 5 exits.length (count d (384 + f.vc) exits.length m)
      exits.foldl (fun m x => put x f (countHops f.vc ((crossOf s x m).getD []) m)) m
  updXb (fun y => { y with dest := if f.eop then NMap.del y.dest (s * 4 + f.vc)
                                    else NMap.put y.dest (s * 4 + f.vc) exits }) m

/-- A flit waits at an input. -/
def queueInput (s : Nat) (f : Flit) (m : Mod) : Mod :=
  updXb (fun y => { y with inq := NMap.put y.inq (s * 4 + f.vc) (NMap.get [] y.inq (s * 4 + f.vc) ++ [f]) }) m

/-- A flit goes to one exit, or to the flock input of another die, where it follows its packet (R151, R205). -/
def putFlit (x : Nat) (f : Flit) (m : Mod) : Mod :=
  if x < 136 then putExit x f m
  else match NMap.find m.xb.dest (x * 4 + f.vc) with
    | some exits => spreadFlit putExit x exits f m
    | none => queueInput x f m

/-- A flit of source `s` is switched to its packet's exits. -/
def moveFlit (s : Nat) (exits : List Nat) (f : Flit) (m : Mod) : Mod := spreadFlit putFlit s exits f m

/-- A flit arrives at the crossbar from source `s`. -/
def flitArrive (s : Nat) (f : Flit) (m : Mod) : Mod :=
  match NMap.find m.xb.dest (s * 4 + f.vc) with
  | some exits => moveFlit s exits f m
  | none => queueInput s f m

/-- The flits of the first packet in a list, and the rest. -/
def splitPacket : List Flit → List Flit × List Flit
  | [] => ([], [])
  | f :: r => if f.eop then ([f], r) else let x := splitPacket r; (f :: x.1, x.2)

/-- The packet at the head of an input is switched to `exits`, its head flit's bytes per exit given by
`head` (flits already here; later ones follow as they arrive). -/
def switchPacket (s vc : Nat) (exits : List Nat) (head : Nat → Bytes → Mod → Bytes) (m : Mod) : Mod :=
  match NMap.get [] m.xb.inq (s * 4 + vc) with
  | [] => m
  | f :: r =>
    let sp := splitPacket (f :: r)
    let m := updXb (fun y => { y with
      inq := if sp.2.isEmpty then NMap.del y.inq (s * 4 + vc) else NMap.put y.inq (s * 4 + vc) sp.2 }) m
    -- the head flit differs by exit
    let d := dieOf s
    let base := if f.org = 0 ∧ s < 136 then 1 else NMap.get 1 m.xb.refs f.fid
    let m :=
      if exits.isEmpty then flitLeave f m
      else
        let m := updXb (fun y => { y with refs := NMap.put y.refs f.fid (base + exits.length - 1) }) m
        let m := energy d 16 5 exits.length (count d (384 + vc) exits.length m)
        exits.foldl (fun m x =>
          putFlit x { f with data := head x f.data m } (countHops vc ((crossOf s x m).getD []) m)) m
    let m := updXb (fun y => { y with dest := if f.eop then NMap.del y.dest (s * 4 + vc)
                                              else NMap.put y.dest (s * 4 + vc) exits }) m
    (sp.1.drop 1).foldl (fun m g => moveFlit s exits g m) m

/-! ## Packets made on this module -/

/-- Cut a packet into flits (R180). -/
def flitsOf : Nat → Bool → Nat → Nat → Nat → Option Nat → Bytes → List Flit
  | 0, _, _, _, _, _, _ => []
  | n + 1, first, vc, pkt, fid, res, b =>
    let last := decide (b.length ≤ 240)
    { vc := vc, sop := first, eop := last, abort := false, data := b.take 240, pkt := pkt, fid := fid, res := res, org := 0 }
      :: (if last then [] else flitsOf n false vc pkt (fid + 1) res (b.drop 240))

/-- A packet starts at the host endpoint or the Drover of die `d`. -/
def startPacket (d : Nat) (drover : Bool) (vc : Nat) (b : Bytes) (m : Mod) : Mod :=
  let res := if vc = 2 then some (Hdr.res b) else none
  let fs := flitsOf 20 true vc m.xb.nextPkt m.xb.nextFid res b
  let m := updXb (fun y => { y with nextPkt := y.nextPkt + 1, nextFid := y.nextFid + fs.length }) m
  fs.foldl (fun m f => flitArrive (128 + 2 * d + b2n drover) f m) m

/-! ## Open passes (R186, R187) -/

/-- A port code that an open pass may choose: usable, UP, native, not the entry port. -/
def passOk (entry pc : Nat) (m : Mod) : Bool :=
  portExists pc m && linkUp pc m && !compat pc m && pc != entry

/-- Members of pass set `k`, as die `d` holds it, that qualify (R187). -/
def passMembers (d k entry : Nat) (m : Mod) : List Nat :=
  (bitList 128 (NMap.get 0 (tabs d m).pass k)).filter (fun pc => passOk entry pc m)

/-- The least-loaded member, ties from the rotating pointer upwards, wrapping. -/
def passPick (d k entry : Nat) (m : Mod) : Option Nat :=
  let l := passMembers d k entry m
  let p := NMap.get 0 m.xb.ptr (d * 16 + k)
  let order := l.filter (fun pc => decide (p ≤ pc)) ++ l.filter (fun pc => decide (pc < p))
  order.foldl (fun b pc =>
    match b with
    | none => some pc
    | some x => if load pc m < load x m then some pc else some x) none

/-- The choice is taken: the pointer moves past it. -/
def passTake (d k pc : Nat) (m : Mod) : Mod :=
  count d 392 1 (bump F.RTE_PORT_SKIP_PASS_CHOSEN (pc / 32) (pc % 32)
    (updXb (fun y => { y with ptr := NMap.set 0 y.ptr (d * 16 + k) ((pc + 1) % 128) }) m))

/-! ## Congestion marks (R194) -/

/-- The head bytes of a copy that leaves by exit `x`: the code written, HOP_PTR advanced, CLEVEL, CHOP and
CE set from the backlog with the packet's `n` flits queued. -/
def markHead (code : Option Nat) (n vc x : Nat) (b : Bytes) (m : Mod) : Bytes :=
  let hp := Hdr.hopPtr b
  let b := match code with
    | some c => wrAt b hp (leBytes 1 c)
    | none => b
  let b := wrAt b 8 (leBytes 1 ((hp + 1) % 16 + Hdr.hopCount b * 16))
  if x < 128 then
    let step := max 1 (cur F.RTE_CONG_CTRL_STEP (x / 32) 0 m)
    let mark := cur F.RTE_CONG_CTRL_MARK (x / 32) 0 m
    let q := min 15 ((backlog x vc m + n) / step)
    let c := Hdr.cong b
    let c := if c % 16 < q then setBits (setBits c 0 4 q) 4 3 hp else c
    let c := if mark ≠ 0 ∧ mark ≤ q then setBit c 7 true else c
    wrAt b 19 (leBytes 1 c)
  else b

/-- Flits of a packet of LENGTH bytes (R180). -/
def flitCount (len : Nat) : Nat := (len + 239) / 240

/-! ## Timed flits at an exit (R221) -/

/-- The active calendar of a port code, as its die holds it. -/
def calActive (pc : Nat) (m : Mod) : Option Cal := NMap.find (tabs (pc / 32) m).calA pc

/-- Reservation `r` owns a slot of a calendar. -/
def calOwns (c : Option Cal) (r : Nat) : Bool :=
  match c with
  | some c => c.slots.any (fun e => e.2 == r)
  | none => false

/-- A TIMED_VOID event of PF0 of die `d`, once per reservation, detail and frame (R234). -/
def timedVoid (d f r detail : Nat) (m : Mod) : Mod :=
  let k := (d * 16384 + r) * 256 + detail
  let fr := now d m / 1048576 + 1
  if NMap.get 0 m.xb.voids k = fr then m
  else event d f 0x0030 detail (leBytes 2 r) (updXb (fun y => { y with voids := NMap.put y.voids k fr }) m)

/-- Whether a packet of a channel may be queued at exit `x`: a TIM packet needs a slot of its reservation
in the exit's active calendar. -/
def slotOk (vc r x : Nat) (m : Mod) : Bool := vc != 2 || decide (128 ≤ x) || calOwns (calActive x m) r

/-- A TIM copy without a slot is discarded and counted. -/
def noSlot (r x : Nat) (m : Mod) : Mod :=
  timedVoid (x / 32) 0 r 0x42 (bump F.CAL_PORT_CNT_NO_SLOT (x / 32) (x % 32) m)

/-! ## Unicast packets (R183) -/

/-- What a router decides. -/
inductive Verdict where
  | err (f : Fld)
  | down (pc : Nat)
  | go (exit : Nat) (code : Option Nat)
  deriving DecidableEq, Repr

/-- Length is within R180. -/
def lengthOk (vc len : Nat) : Bool := decide (24 ≤ len) && decide (len ≤ if vc = 3 then 64 else 4320)

/-- Step 4: the port code may be left by. -/
def portOk (s pc : Nat) (m : Mod) : Bool := portExists pc m && pc != s && (crossOf s pc m).isSome

/-- A port code as exit. -/
def portVerdict (s pc : Nat) (code : Option Nat) (m : Mod) : Verdict :=
  if !portOk s pc m then .err F.RTE_ERR_CNT0_BAD_PORT
  else if !linkUp pc m then .down pc
  else .go pc code

/-- The checks of R183, in order. -/
def routeDecide (s vc : Nat) (b : Bytes) (m : Mod) : Verdict :=
  let d := dieOf s
  let hp := Hdr.hopPtr b
  let hc := Hdr.hopCount b
  if !lengthOk vc (Hdr.length b) ∨ hc = 0 ∨ 8 < hc ∨ hc ≤ hp then .err F.RTE_ERR_CNT0_ROUTE_ERR
  else
    let c := Hdr.code b hp
    if c < 0x80 then portVerdict s c none m
    else if c < 0x90 then
      if vc = 2 then .err F.RTE_ERR_CNT1_TIM_PASS
      else match passPick d (c - 0x80) s m with
        | none => .err F.RTE_ERR_CNT1_PASS_EMPTY
        | some pc => portVerdict s pc (some pc) m
    else if c = 0xFD then
      if hp + 1 = hc then .go (129 + 2 * d) none else .err F.RTE_ERR_CNT0_ROUTE_ERR
    else if c = 0xFE then
      if hp + 1 ≠ hc then .err F.RTE_ERR_CNT0_ROUTE_ERR
      else match dieOfEid (Hdr.dest b) m with
        | some e =>
          if dieActive e m && unitUp e 17 m && (crossOf s (128 + 2 * e) m).isSome then .go (128 + 2 * e) none
          else .err F.RTE_ERR_CNT0_DELIVER_ERR
        | none => .err F.RTE_ERR_CNT0_DELIVER_ERR
    else .err F.RTE_ERR_CNT0_BAD_CODE

/-- PACKET_ROUTE: the first packet waiting at source `s` on channel `vc` is decided from its first flit. -/
def packetRoute (s vc : Nat) (m : Mod) : Mod :=
  match NMap.get [] m.xb.inq (s * 4 + vc) with
  | [] => m
  | f :: _ =>
    let b := f.data
    let d := dieOf s
    if 136 ≤ s ∨ Hdr.flock b ∨ !sliceOn d m then m
    else match routeDecide s vc b m with
      | .err e => switchPacket s vc [] (fun _ b _ => b) (count d 395 1 (bump e d 0 m))
      | .down pc =>
        switchPacket s vc [] (fun _ b _ => b) (count d 395 1 (bump F.LNK_CNT2_DOWN_DISCARD (pc / 32) (pc % 32) m))
      | .go x code =>
        if !slotOk vc (Hdr.res b) x m then switchPacket s vc [] (fun _ b _ => b) (noSlot (Hdr.res b) x m)
        else
          let m := match code with
            | some pc => passTake d (Hdr.code b (Hdr.hopPtr b) - 0x80) pc m
            | none => m
          switchPacket s vc [x] (markHead code (flitCount (Hdr.length b)) vc) m

/-! ## Flocks (R202 to R208) -/

/-- Why a member is pruned (R207, R208): 1 fenced or unusable, 2 link not UP, 3 endpoint or Drover absent, as a fenced
Drover is (R502), 4 die unreachable.  A port code that does not exist counts as 1; the link of a port on a die that is
neither fenced nor unusable but not in service is not UP, hence 2 (DESIGN CHOICE: R208 names neither case). -/
def pruneReason (from_ x : Nat) (m : Mod) : Option Nat :=
  let d := dieOf x
  let gone := [DieSt.fenced, DieSt.unusable].contains (dieState d m)
  if x < 128 then
    if gone then some 1
    else if !dieUp d m then some 2
    else if !portExists x m then some 1
    else if (crossing from_ d false m).isNone then some 4
    else if !linkUp x m then some 2
    else none
  else
    let drv := x % 2 == 1
    let ust := unitState d (if drv then 21 else 17) m
    let out := ust == UnitSt.fenced || ust == UnitSt.unusable
    if gone || (out && !drv) then some 1
    else if !dieActive d m || out then some 3
    else if (crossing from_ d false m).isNone then some 4
    else none

/-- MEMBER of a notice (R208). -/
def memberCode (x : Nat) : Nat := if x < 128 then x else 0xF0 + dieOf x

/-- The lowest-numbered ACTIVE endpoint's EID. -/
def firstEid (m : Mod) : Nat := moduleId m

/-- A notice to the flock's OWNER, at most once per flock and member in a frame (R207, R208). -/
def notice (d reason x : Nat) (e : FlockEnt) (m : Mod) : Mod :=
  let k := e.id * 256 + memberCode x
  let fr := now d m / 1048576 + 1
  if NMap.get 0 m.xb.pruned k = fr then m
  else
    let m := updXb (fun y => { y with pruned := NMap.put y.pruned k fr }) m
    match NMap.find (tabs d m).path (e.owner * 8) with
    | some p =>
      if p.valid then
        startPacket d false 3
          (mkHdr p.route p.hops false false 0 e.owner (firstEid m) 0 4 40 0 ++ leBytes 1 1 ++ leBytes 1 reason
            ++ leBytes 1 (memberCode x) ++ zeros 1 ++ leBytes 3 e.id ++ zeros 1 ++ leBytes 8 (now d m)) m
      else bump F.RTE_ERR_CNT1_NOTICE_DROP d 0 m
    | none => bump F.RTE_ERR_CNT1_NOTICE_DROP d 0 m

/-- A member is pruned: counted at its port, and its OWNER is told. -/
def prune (d reason x : Nat) (e : FlockEnt) (m : Mod) : Mod :=
  let m := count d 394 1 m
  let m := if x < 128 then bump F.RTE_PORT_SKIP_FLOCK_SKIPS (x / 32) (x % 32) m else m
  notice d reason x e m

/-- The members of an entry. -/
def members (e : FlockEnt) : List Nat :=
  bitList 128 e.out ++ (dies.filter (bit e.host)).map (fun d => 128 + 2 * d)
    ++ (if e.toDrv then [129 + 2 * e.drvDie] else [])

/-- The entry of a die's own copy that admits a flock packet (R204 step 2). -/
def flockEntry (d : Nat) (b : Bytes) (m : Mod) : Option FlockEnt :=
  (NMap.find (tabs d m).flock (Hdr.dest b % 65536)).filter (fun e =>
    e.valid && e.id == Hdr.dest b && (e.pasture == 0xFFFF || e.pasture == Hdr.pasture b))

/-- Members among `l`, pruned ones told and left out; a TIM copy without a slot is discarded. -/
def liveMembers (d vc r : Nat) (e : FlockEnt) (l : List Nat) (m : Mod) : List Nat × Mod :=
  l.foldl (fun (acc : List Nat × Mod) x =>
    match pruneReason d x acc.2 with
    | some why => (acc.1, prune d why x e acc.2)
    | none => if slotOk vc r x acc.2 then (acc.1 ++ [x], acc.2) else (acc.1, noSlot r x acc.2)) ([], m)

/-- FLOCK_REPLICATE at the entry die (R204, R205): copies for its own members, and one copy for each
other die that holds members.  Only the entry port is left out: an endpoint or Drover in the entry that is itself the source
takes its copy. -/
def flockReplicate (s vc : Nat) (m : Mod) : Mod :=
  match NMap.get [] m.xb.inq (s * 4 + vc) with
  | [] => m
  | f :: _ =>
    let b := f.data
    let d := dieOf s
    if 136 ≤ s ∨ !Hdr.flock b ∨ !sliceOn d m then m
    else if !lengthOk vc (Hdr.length b) ∨ 8 ≤ Hdr.hopPtr b then
      switchPacket s vc [] (fun _ b _ => b) (count d 395 1 (bump F.RTE_ERR_CNT0_ROUTE_ERR d 0 m))
    else match flockEntry d b m with
      | none => switchPacket s vc [] (fun _ b _ => b) (count d 395 1 (bump F.RTE_ERR_CNT1_FLOCK_MISS d 0 m))
      | some e =>
        let all := (members e).filter (fun x => x != s || decide (128 ≤ x))
        let own := liveMembers d vc (Hdr.res b) e (all.filter (fun x => dieOf x == d)) m
        let far := (dies.filter (fun x => x != d && all.any (fun y => dieOf y == x))).foldl
          (fun (acc : List Nat × Mod) x =>
            if (crossOf s (32 * x) acc.2).isSome && dieUp x acc.2 then (acc.1 ++ [136 + 4 * d + x], acc.2)
            else (acc.1, (all.filter (fun y => dieOf y == x)).foldl (fun m y =>
              prune d ((pruneReason d y m).getD 4) y e m) acc.2)) ([], own.2)
        let exits := own.1 ++ far.1
        switchPacket s vc exits (fun x b m => if x < 136 then markHead none (flitCount (Hdr.length b)) vc x b m else b)
          (count d 393 exits.length far.2)

/-- FLOCK_DIE_COPY: die `d` replicates a copy from entry die `e` to its own members, by its own entry. -/
def flockDieCopy (e d vc : Nat) (m : Mod) : Mod :=
  let s := 136 + 4 * e + d
  match NMap.get [] m.xb.inq (s * 4 + vc) with
  | [] => m
  | f :: _ =>
    let b := f.data
    if !sliceOn d m then m else
    match flockEntry d b m with
    | none => switchPacket s vc [] (fun _ b _ => b) (bump F.RTE_ERR_CNT1_FLOCK_MISS d 0 m)
    | some ent =>
      let own := liveMembers d vc (Hdr.res b) ent ((members ent).filter (fun x => dieOf x == d)) m
      switchPacket s vc own.1 (fun x b m => markHead none (flitCount (Hdr.length b)) vc x b m)
        (count d 393 own.1.length own.2)

/-! ## The path table (R191, R192) and path choice (R196) -/

/-- A path entry's 16 bytes. -/
def pathOf (b : Bytes) : PathEnt :=
  let c := rdLE b 8 1
  { route := (List.range 8).map (fun i => rdLE b i 1), hops := c % 16, valid := bit c 4, timedOk := bit c 5
    bias := rdLE b 9 1 % 16 }

/-- PATH_LOAD refuses the entry (R191). -/
def pathBad (p : PathEnt) : Bool :=
  p.valid && (p.hops == 0 || decide (8 < p.hops) || !([0xFD, 0xFE].contains (p.route.getD (p.hops - 1) 0)))

/-- Path `i` of destination `e`, as die `d` holds it. -/
def pathEnt (d e i : Nat) (m : Mod) : Option PathEnt := NMap.find (tabs d m).path (e * 8 + i)

/-- The record is cached at die `d`. -/
def pathCached (d e : Nat) (m : Mod) : Bool := (NMap.find m.xb.cache (d * 2 ^ 20 + e)).isSome

/-- Records that the path and pass-set cache of a die holds: 768 KiB less the 16 pass sets, at 128 bytes each (R24). -/
def pathRoom : Nat := (768 * 1024 - 256) / 128

/-- The record of die `d` used longest ago, where the cache is full (the spec names no order: DESIGN CHOICE). -/
def pathVictim (d : Nat) (m : Mod) : Option Nat :=
  let l := m.xb.cache.filter (fun e => e.1 / 2 ^ 20 == d)
  if l.length < pathRoom then none
  else (l.foldl (fun b e =>
    match b with
    | none => some e
    | some (x : Nat × Nat) => if e.2 < x.2 then some e else some x) none).map Prod.fst

/-- The record is used now. -/
def pathTouch (d e : Nat) (m : Mod) : Mod :=
  updXb (fun y => { y with cache := NMap.put y.cache (d * 2 ^ 20 + e) (y.uses + 1), uses := y.uses + 1 }) m

/-- PATH_RECORD_FETCH: the record is used, and read from context memory first where it is not cached, another leaving a full
cache (R24, R192). -/
def pathFetch (d e : Nat) (m : Mod) : Mod :=
  if !dieUp d m then m
  else if pathCached d e m then pathTouch d e m
  else
    let m := match pathVictim d m with
      | some k => updXb (fun y => { y with cache := NMap.del y.cache k }) m
      | none => m
    energy d 23 10 2 (count d 608 2 (pathTouch d e m))

/-- The path may be used from the host endpoint of die `d` (R196). -/
def pathUsable (d : Nat) (p : PathEnt) (m : Mod) : Bool :=
  let s := 128 + 2 * d
  let c := p.route.getD 0 0xFF
  p.valid && (if c < 0x80 then portOk s c m && linkUp c m
    else if c < 0x90 then !(passMembers d (c - 0x80) s m).isEmpty
    else true)

/-! ## Injection throttling (R199) -/

/-- Flit time of a port in ps: 2,570 at x4, 5,140 at x2, 10,280 at x1; twice that in compatibility mode. -/
def flitTime (pc : Nat) (m : Mod) : Nat :=
  let w := rd F.LNE_PORT_STATUS_WIDTH (pc / 32) (pc % 32) m
  let t := if w = 3 then 2570 else if w = 2 then 5140 else 10280
  if compat pc m then 2 * t else t

/-- The exit port that a packet with first code `c` takes at the source router now. -/
def firstExit (s c : Nat) (m : Mod) : Option Nat :=
  if c < 0x80 then some c
  else if c < 0x90 then passPick (dieOf s) (c - 0x80) s m
  else none

/-- Whether a REQ packet of `n` flits may start for exit `pc` from die `d`, with the state noted (R199); INJ_SCALE
limits every exit besides, and the lower limit holds (R478). -/
def throttle (d pc n : Nat) (m : Mod) : Bool × Mod :=
  let b := backlog pc 0 m
  let hard := cur F.RTE_INJ_CTRL_HARD d 0 m
  let soft := min hard (cur F.RTE_INJ_CTRL_SOFT d 0 m)
  let rate := max 1 (cur F.RTE_INJ_CTRL_RATE d 0 m)
  let scale := rd F.TLY_ACTION_INJ_SCALE d 0 m
  let k := d * 128 + pc
  let stopped := if b ≤ soft then false else decide (hard < b) || NMap.get false m.xb.stop k
  let m := updXb (fun y => { y with stop := NMap.set false y.stop k stopped }) m
  if stopped then (false, m)
  else
    let w := now d m / 256 + 1
    let used := if NMap.get 0 m.xb.rateW k = w then NMap.get 0 m.xb.rateN k else 0
    let soften := decide (b ≤ soft) || decide (used < rate * 256000 / (16 * flitTime pc m))
    let scaled := decide (256 ≤ scale) || decide (used < scale * 256000 / (256 * flitTime pc m))
    if soften && scaled then
      (true, updXb (fun y => { y with rateN := NMap.put y.rateN k (used + n), rateW := NMap.put y.rateW k w }) m)
    else (false, m)

/-- A REQ packet of `n` flits for the exit that its first code takes may start at source `s` now (R199).  A flock packet's
ROUTE is ignored, and codes 0xFD and 0xFE take no exit port: such packets are never held. -/
def reqMayStart (s : Nat) (flock : Bool) (code n : Nat) (m : Mod) : Bool × Mod :=
  match firstExit s code m, flock with
  | some pc, false => throttle (dieOf s) pc n m
  | _, _ => (true, m)

/-- A packet already held at die `d` waits for the same exit. -/
def heldFor (d : Nat) (s code : Nat) (l : List (Bool × Bytes)) (m : Mod) : Bool :=
  l.any (fun h => !Hdr.flock h.2 && (firstExit (128 + 2 * d + b2n h.1) (Hdr.code h.2 0) m).isSome
    && firstExit (128 + 2 * d + b2n h.1) (Hdr.code h.2 0) m == firstExit s code m)

/-- A packet that no later command would start again (a Drover's, or the CLOSE of an abortive close) starts, or is held until
R199 lets it start. -/
def startReq (d : Nat) (drover : Bool) (vc : Nat) (b : Bytes) (m : Mod) : Mod :=
  let s := 128 + 2 * d + b2n drover
  let l := NMap.get [] m.xb.held d
  let hold := fun (m : Mod) => updXb (fun y => { y with held := NMap.put y.held d (l ++ [(drover, b)]) }) m
  if vc ≠ 0 then startPacket d drover vc b m
  else if !Hdr.flock b && heldFor d s (Hdr.code b 0) l m then hold m
  else
    let ok := reqMayStart s (Hdr.flock b) (Hdr.code b 0) (flitCount (Hdr.length b)) m
    if ok.1 then startPacket d drover 0 b ok.2 else hold ok.2

/-- Held packets of a die that may start now start, in their order. -/
def releaseHeld (d : Nat) (m : Mod) : Mod :=
  match NMap.get [] m.xb.held d with
  | [] => m
  | l => l.foldl (fun m h => startReq d h.1 0 h.2 m) (updXb (fun y => { y with held := NMap.del y.held d }) m)

end Sys2Proof.Machine
end

