-- ==== Sys2Proof/Machine/Link.lean ====
section
/-! DEFINITION. The link layer (spec/06): flits on the wire, credits, acknowledgement and replay, link
states and the handshake. -/
namespace Sys2Proof.Machine

/-! ## Flits on the wire (R145 to R147) -/

/-- The 64-bit header. -/
def flitHdr (kind vc used : Nat) (sop eop abort : Bool) (seq ack crVc crTotal : Nat) : Nat :=
  seq % 4096 + (ack % 4096) * 2 ^ 12 + (vc % 4) * 2 ^ 24 + (crVc % 4) * 2 ^ 26 + (crTotal % 4096) * 2 ^ 28
    + (kind % 4) * 2 ^ 40 + b2n sop * 2 ^ 42 + b2n eop * 2 ^ 43 + b2n abort * 2 ^ 44 + (used % 256) * 2 ^ 45

/-- The 256 bytes of a flit. -/
def flitBytes (hdr : Nat) (payload : Bytes) : Bytes :=
  let b := leBytes 8 hdr ++ padTo 240 payload
  b ++ leBytes 8 (crc64 b)

/-- Element `i` of a list by channel. -/
def at4 (l : List Nat) (i : Nat) : Nat := l.getD i 0

/-- Put a flit into the transmit stream: ACK, CR_VC and CR_TOTAL are filled in, CR_VC advances (R148). -/
def putOnWire (pc kind vc used seq : Nat) (sop eop abort : Bool) (payload : Bytes) (m : Mod) : Mod :=
  let k := link pc m
  let b := flitBytes (flitHdr kind vc used sop eop abort seq k.nrx k.crVc (at4 k.freed k.crVc)) payload
  let m := updLink pc (fun k => { k with
    sentAck := k.nrx, sentFreed := upd4 k.sentFreed k.crVc (fun _ => at4 k.freed k.crVc), crVc := (k.crVc + 1) % 4 }) m
  let l := NMap.get LPort.reset m.lp pc
  { m with lp := NMap.set LPort.reset m.lp pc { l with txStream := l.txStream ++ byteSyms b } }

/-- The port is not idle now (R480). -/
def touch (pc : Nat) (m : Mod) : Mod :=
  let l := NMap.get LPort.reset m.lp pc
  { m with lp := NMap.set LPort.reset m.lp pc { l with idleAt := now (pc / 32) m } }

/-- Flits held: (next_tx − una) mod 4,096. -/
def Link.held (k : Link) : Nat := (k.nextTx + 4096 - k.una) % 4096

/-- Credits available on a channel (R154). -/
def Link.avail (k : Link) (vc : Nat) : Nat :=
  at4 k.credit vc - (at4 k.used vc + 4096 - at4 k.total vc) % 4096

/-- Show UNACKED. -/
def showHeld (pc : Nat) (m : Mod) : Mod := wr F.LNK_PORT_STATUS_UNACKED (pc / 32) (pc % 32) (link pc m).held m

/-- Set LINK_STATE. -/
def setLink (pc st : Nat) (m : Mod) : Mod := wr F.LNK_PORT_STATUS_LINK_STATE (pc / 32) (pc % 32) st m

/-- The end is fresh (R168). -/
def fresh (pc : Nat) (m : Mod) : Bool := rdB F.LNK_PORT_STATUS_FRESH (pc / 32) (pc % 32) m

/-! ## R225: an exit that counts as down -/

/-- Its trained width is below the width for which CAP was loaded. -/
def widthBad (pc : Nat) (m : Mod) : Bool :=
  let w := rd F.LNE_PORT_STATUS_WIDTH (pc / 32) (pc % 32) m
  match calActive pc m with
  | some c => (w == 1 && decide (22 < c.cap)) || (w == 2 && decide (46 < c.cap))
  | none => false

/-- The exit is up for the delivery contract (R173, R225). -/
def exitUp (pc : Nat) (m : Mod) : Bool := linkUp pc m && !(link pc m).excess && !widthBad pc m

/-- The reservations that own a slot of an exit's active calendar. -/
def resAt (pc : Nat) (m : Mod) : List Nat :=
  match calActive pc m with
  | some c => (c.slots.map Prod.snd).eraseDups
  | none => []

/-- An exit begins to count as down with a detail (REPLAY_EXCESS 0x41, WIDTH 0x43). -/
def contractDown (pc detail : Nat) (m : Mod) : Mod :=
  later (.exitDown pc) ((resAt pc m).foldl (fun m r => timedVoid (pc / 32) 0 r detail m) m)

/-- A replay begins: on NAK, on timer expiry or on a stream restart (R164, R166, R225). -/
def beginReplay (pc : Nat) (m : Mod) : Mod :=
  let m := updLink pc (fun k => { k with rpos := if k.replay.isEmpty then none else some 0, replays := k.replays + 1 }) m
  let k := link pc m
  if !k.excess && decide (cur F.CAL_PORT_CTRL_REPLAY_ALLOW (pc / 32) (pc % 32) m < k.replays) then
    contractDown pc 0x41 (bump F.CAL_PORT_CNT_REPLAY_EXCESS (pc / 32) (pc % 32)
      (updLink pc (fun k => { k with excess := true }) m))
  else m

/-- At a frame boundary the count starts again, and the port no longer counts as down for it. -/
def replayFrame (pc : Nat) (m : Mod) : Mod :=
  if (NMap.find m.lnk pc).isSome then updLink pc (fun k => { k with replays := 0, excess := false }) m else m

/-! ## Sending (R157) -/

/-- Remove a flit from an exit queue. -/
def unqueue (pc : Nat) (f : Flit) (m : Mod) : Mod :=
  let m := updXb (fun y =>
    let q := (NMap.get [] y.outq (pc * 4 + f.vc)).filter (fun g => g.fid != f.fid)
    { y with outq := if q.isEmpty then NMap.del y.outq (pc * 4 + f.vc) else NMap.put y.outq (pc * 4 + f.vc) q }) m
  if f.vc = 0 then noteStop pc m else m

/-- The next flit of a channel in the order of R150, credits aside. -/
def nextFlit (pc vc : Nat) (m : Mod) : Option Flit :=
  let q := NMap.get [] m.xb.outq (pc * 4 + vc)
  match (link pc m).openTx.getD vc none with
  | some p => q.find? (fun f => f.pkt == p)
  | none => q.find? (fun f => f.sop)

/-- The reservation that owns the current slot of a port. -/
def slotOwner (pc : Nat) (m : Mod) : Option Nat :=
  (calActive pc m).bind (fun c => NMap.find c.slots (now (pc / 32) m / 256 % 4096))

/-- The TIM flit that step 3 of R157 would send now, credits aside (R217, R219, R221). -/
def timHead (pc : Nat) (m : Mod) : Option Flit :=
  let k := link pc m
  let s := now (pc / 32) m / 256
  let n := if k.slot = s then k.slotN else 0
  match slotOwner pc m, calActive pc m with
  | some r, some c =>
    if compat pc m ∨ c.cap ≤ n then none
    else
      let q := NMap.get [] m.xb.outq (pc * 4 + 2)
      match k.openTx.getD 2 none with
      | some p => (q.find? (fun f => f.pkt == p)).filter (fun f => f.abort || f.res == some r)
      | none => q.find? (fun f => f.sop && f.res == some r)
  | _, _ => none

/-- That flit, where TIM has a credit. -/
def timFlit (pc : Nat) (m : Mod) : Option Flit := if (link pc m).avail 2 = 0 then none else timHead pc m

/-- A DATA flit is sent for the first time (R148, R156, R163). -/
def sendData (pc : Nat) (f : Flit) (m : Mod) : Mod :=
  let d := pc / 32
  let p := pc % 32
  let k := link pc m
  let s := now d m / 256
  let m := unqueue pc f m
  let m := flitLeave f m
  let m := putOnWire pc 0 f.vc f.data.length k.nextTx f.sop f.eop f.abort f.data m
  let m := updLink pc (fun k => { k with
    nextTx := (k.nextTx + 1) % 4096, replay := k.replay ++ [f], used := upd4 k.used f.vc (fun n => (n + 1) % 4096)
    openTx := k.openTx.mapIdx (fun j x => if j = f.vc then (if f.eop then none else some f.pkt) else x)
    txRes := if f.vc = 2 then f.res else k.txRes
    slot := if f.vc = 2 then s else k.slot
    slotN := if f.vc = 2 then (if k.slot = s then k.slotN + 1 else 1) else k.slotN
    rspRun := if f.vc = 1 ∧ backlog pc 0 m ≠ 0 then k.rspRun + 1 else if f.vc ≤ 1 then 0 else k.rspRun }) m
  let m := count d (12 * p) 1 (if f.sop then sampleFlit f.pkt m else m)
  let m := if f.eop then count d (12 * p + 1) 1 m else m
  let m := if f.vc = 2 then count d (12 * p + 5) 1 m else m
  touch pc (showHeld pc (wrB F.LNK_PORT_STATUS_FRESH d p false m))

/-- A held flit is resent. -/
def resend (pc i : Nat) (f : Flit) (m : Mod) : Mod :=
  let k := link pc m
  let m := putOnWire pc 0 f.vc f.data.length (k.una + i) f.sop f.eop f.abort f.data m
  let m := updLink pc (fun k => { k with rpos := if i + 1 < k.replay.length then some (i + 1) else none }) m
  touch pc (count (pc / 32) (12 * (pc % 32) + 6) 1 m)

/-- The credits that this end advertises (R155, R174): those of LNK_CREDIT, zero meaning the default, or
all defaults where the sum exceeds the port's space. -/
def advertised (pc : Nat) (m : Mod) : List Nat × Bool :=
  let d := pc / 32
  let p := pc % 32
  let x4 := !rdB F.LNE_QCTRL_SPLIT d (p / 2) m
  let dft := if x4 then [1536, 1536, 768, 256] else [768, 768, 384, 128]
  let v := [cur F.LNK_CREDIT_REQ d p m, cur F.LNK_CREDIT_RSP d p m, cur F.LNK_CREDIT_TIM d p m, cur F.LNK_CREDIT_BYP d p m]
  let v := List.zipWith (fun a b => if a = 0 then b else a) v dft
  let excess := decide ((if x4 then 4096 else 2048) < v.sum)
  let v := if excess then dft else v
  (if compat pc m then upd4 v 2 (fun _ => 0) else v, excess)

/-- The payload of a link message (R149): 1 INIT, 2 RESUME, 3 NAK. -/
def linkMsg (pc type : Nat) (m : Mod) : Bytes :=
  let k := link pc m
  if type = 3 then leBytes 1 3
  else
    let adv := (advertised pc m).1
    leBytes 1 type ++ leBytes 1 (b2n (compat pc m)) ++ leBytes 3 (eidOf (pc / 32) m) ++ leBytes 1 pc
      ++ leBytes 2 (if type = 2 then k.nrx else 0)
      ++ (if type = 1 then (adv.map (leBytes 2)).flatten else zeros 8)
      ++ (if type = 2 then (k.freed.map (leBytes 2)).flatten else zeros 8)

/-- Send a CONTROL flit. -/
def sendControl (pc type : Nat) (m : Mod) : Mod :=
  let a := advertised pc m
  let m := if type = 1 then
      wrB F.LNK_PORT_STATUS_CREDIT_DEFAULTED (pc / 32) (pc % 32) a.2 (updLink pc (fun k => { k with adv := a.1 }) m)
    else m
  touch pc (putOnWire pc 2 0 0 (link pc m).nextTx false false false (linkMsg pc type m) m)

/-- Send a NULL flit. -/
def sendNull (pc : Nat) (m : Mod) : Mod :=
  count (pc / 32) (12 * (pc % 32) + 7) 1 (putOnWire pc 1 0 0 (link pc m).nextTx false false false [] m)

/-- A flit of a channel that has a credit. -/
def ready (pc vc : Nat) (m : Mod) : Option Flit := if (link pc m).avail vc = 0 then none else nextFlit pc vc m

/-- Steps 3 to 5 of R157. -/
def pickData (pc : Nat) (m : Mod) : Option Flit :=
  match timFlit pc m with
  | some f => some f
  | none =>
    match ready pc 3 m with
    | some f => some f
    | none =>
      match ready pc 1 m, ready pc 0 m with
      | some a, some b => if 15 ≤ (link pc m).rspRun then some b else some a
      | some a, none => some a
      | none, b => b

/-- A flit waits at the exit and none can leave for want of credit. -/
def exitStalled (pc : Nat) (m : Mod) : Bool :=
  linkUp pc m && (pickData pc m).isNone
    && ((timHead pc m).isSome && (link pc m).avail 2 == 0
      || [0, 1, 3].any (fun vc => (nextFlit pc vc m).isSome && (link pc m).avail vc == 0))

/-- The router cycles of 1.6 GHz of a flit time in which the exit is stalled are counted, whatever is sent in place of a
flit; the part of a cycle left is kept (R209). -/
def noteStall (pc : Nat) (m : Mod) : Mod :=
  if exitStalled pc m then
    let n := (link pc m).stallPart + flitTime pc m * 16
    count (pc / 32) (12 * (pc % 32) + 2) (n / 10000) (updLink pc (fun k => { k with stallPart := n % 10000 }) m)
  else m

/-- FLIT_SEND: at a flit time of an ACTIVE port, the first of R157 that is ready is sent. -/
def flitSend (pc : Nat) (m : Mod) : Mod :=
  let k := link pc m
  if rd F.LNE_PORT_STATUS_STATE (pc / 32) (pc % 32) m ≠ 6 then m
  else
    let rep : Option (Nat × Flit) := if linkUp pc m then k.rpos.bind (fun i => (k.replay[i]?).map (fun f => (i, f))) else none
    match rep with
    | some (i, f) => resend pc i f (noteStall pc m)
    | none =>
      if decide (2 ≤ linkState pc m) && k.nakDue then
        bump F.LNK_CNT0_NAK_SENT (pc / 32) (pc % 32)
          (sendControl pc 3 (updLink pc (fun k => { k with nakDue := false }) (noteStall pc m)))
      else match k.ctl with
        | t :: r => sendControl pc t (updLink pc (fun k => { k with ctl := r }) (noteStall pc m))
        | [] =>
          if linkUp pc m && decide (k.held < 1024) then
            match pickData pc m with
            | some f => sendData pc f m
            | none => sendNull pc (noteStall pc m)
          else sendNull pc (noteStall pc m)

/-! ## Link states (R168 to R172) -/

/-- The message of this end in HANDSHAKE. -/
def ownMsg (pc : Nat) (m : Mod) : Nat := if fresh pc m then 1 else 2

/-- Queue a link message. -/
def queueMsg (pc t : Nat) (m : Mod) : Mod := updLink pc (fun k => { k with ctl := k.ctl ++ [t] }) m

/-- A packet open in reception on a channel is ended with ABORT (R151). -/
def abortRx (pc vc : Nat) (m : Mod) : Mod :=
  match (link pc m).openRx.getD vc none with
  | none => m
  | some p =>
    let f : Flit := { vc := vc, sop := false, eop := true, abort := true, data := zeros 1, pkt := p, fid := m.xb.nextFid
                      res := if vc = 2 then (link pc m).timRes else none, org := 0 }
    let m := updXb (fun y => { y with nextFid := y.nextFid + 1 }) m
    let m := updLink pc (fun k => { k with openRx := k.openRx.mapIdx (fun j x => if j = vc then none else x) }) m
    flitArrive pc f (bump F.LNK_CNT1_ABORTS (pc / 32) (pc % 32) m)

/-- Discard or pass the continuations of the packet on a channel. -/
def setDrop (pc vc : Nat) (b : Bool) (m : Mod) : Mod :=
  updLink pc (fun k => { k with dropRx := k.dropRx.mapIdx (fun j x => if j = vc then b else x) }) m

/-- Discard from an exit queue the flits of a packet; its later flits too, unless its last was there. -/
def cutTx (pc vc pkt : Nat) (m : Mod) : Mod :=
  let l := (NMap.get [] m.xb.outq (pc * 4 + vc)).filter (fun f => f.pkt == pkt)
  let m := l.foldl (fun m f => flitLeave f (unqueue pc f m)) m
  if l.any (fun f => f.eop) then m else updLink pc (fun k => { k with cut := k.cut ++ [pkt] }) m

/-- The link state leaves UP (R170). -/
def leaveUp (pc : Nat) (m : Mod) : Mod :=
  let m := (List.range 4).foldl (fun m vc =>
    match (link pc m).openTx.getD vc none with
    | some p => cutTx pc vc p m
    | none => m) m
  let m := updLink pc (fun k => { k with openTx := [none, none, none, none] }) m
  let m := (List.range 4).foldl (fun m vc =>
    if ((link pc m).openRx.getD vc none).isSome then setDrop pc vc true (abortRx pc vc m) else m) m
  let m := updLink pc (fun k => { k with rpos := none, ctl := [] }) m
  later (.exitDown pc) (linkEvent (pc / 32) (pc % 32) 0 m)

/-- The link goes to DOWN or OFF, or to HANDSHAKE. -/
def linkTo (pc st : Nat) (m : Mod) : Mod :=
  let m := if linkUp pc m then leaveUp pc m else updLink pc (fun k => { k with ctl := [] }) m
  setLink pc st m

/-- The port has left ACTIVE. -/
def linkPortDown (pc : Nat) (m : Mod) : Mod := if 2 ≤ linkState pc m then linkTo pc 1 m else m

/-- The port has entered ACTIVE. -/
def linkPortUp (pc : Nat) (m : Mod) : Mod :=
  if linkState pc m = 1 ∨ (linkState pc m = 0 ∧ curB F.LNK_PORT_CTRL_ENABLE (pc / 32) (pc % 32) m) then setLink pc 2 m else m

/-- LINK_ENABLE (R168). -/
def linkEnable (pc : Nat) (m : Mod) : Mod :=
  let m := force F.LNK_PORT_CTRL_ENABLE (pc / 32) (pc % 32) 1 m
  if linkState pc m = 0 then
    setLink pc (if rd F.LNE_PORT_STATUS_STATE (pc / 32) (pc % 32) m = 6 then 2 else 1) m
  else m

/-- LINK_DISABLE (R171). -/
def linkDisable (pc : Nat) (m : Mod) : Mod :=
  linkTo pc 0 (force F.LNK_PORT_CTRL_ENABLE (pc / 32) (pc % 32) 0 m)

/-- Flits that entered by a port no longer hold its buffers. -/
def disown (pc : Nat) (l : NMap (List Flit)) : NMap (List Flit) :=
  l.map (fun e => (e.1, e.2.map (fun f => if f.org = pc + 1 then { f with org := 0 } else f)))

/-- LINK_FLUSH (R172): ignored in UP. -/
def linkFlush (pc : Nat) (m : Mod) : Mod :=
  let d := pc / 32
  let p := pc % 32
  if linkUp pc m then wrB F.LNK_PORT_STATUS_FLUSH_IGNORED d p true m
  else
    let k := link pc m
    let m := bumpBy F.LNK_CNT2_FLUSHED_FLITS d p k.replay.length m
    let m := updLink pc (fun _ => { Link.reset with
      crVc := k.crVc, cut := k.cut, slot := k.slot, slotN := k.slotN, replays := k.replays, excess := k.excess }) m
    let m := updXb (fun y => { y with inq := disown pc y.inq, outq := disown pc y.outq }) m
    let m := wr F.LNK_PEER_VALID d p 0 (wr F.LNK_PEER_EID d p 0 (wr F.LNK_PEER_PORT_CODE d p 0 m))
    let m := wrB F.LNK_PORT_STATUS_STUCK d p false (wrB F.LNK_PORT_STATUS_FRESH d p true (showHeld pc m))
    if linkState pc m = 4 then setLink pc 2 m else m

/-- HANDSHAKE_SEND: every 1 µs in HANDSHAKE (R169). -/
def handshakeSend (pc : Nat) (m : Mod) : Mod := if linkState pc m = 2 then queueMsg pc (ownMsg pc m) m else m

/-- The link goes UP. -/
def goUp (pc : Nat) (m : Mod) : Mod := linkEvent (pc / 32) (pc % 32) 1 (setLink pc 3 m)

/-- The link goes to MISMATCH. -/
def mismatch (pc : Nat) (m : Mod) : Mod :=
  if linkState pc m = 4 then m else linkEvent (pc / 32) (pc % 32) 2 (setLink pc 4 m)

/-- An ACK value is valid (R163). -/
def Link.ackValid (k : Link) (a : Nat) : Bool := decide ((a + 4096 - k.una) % 4096 ≤ k.held)

/-- A valid ACK frees flits; an advance restarts the timer and clears STUCK. -/
def takeAck (pc a : Nat) (m : Mod) : Mod :=
  let k := link pc m
  if k.ackValid a then
    let n := (a + 4096 - k.una) % 4096
    if n = 0 then m
    else
      showHeld pc (wrB F.LNK_PORT_STATUS_STUCK (pc / 32) (pc % 32) false (updLink pc (fun k => { k with
        una := a, replay := k.replay.drop n, expiries := 0
        rpos := k.rpos.bind (fun i => if k.replay.length ≤ n then none else some (i - n)) }) m))
  else bump F.LNK_CNT1_ACK_IGNORED (pc / 32) (pc % 32) m

/-- INIT received by a fresh end: UP with everything from zero, and the peer recorded. -/
def upInit (pc : Nat) (b : Bytes) (m : Mod) : Mod :=
  let d := pc / 32
  let p := pc % 32
  let m := updLink pc (fun k => { k with
    nextTx := 0, una := 0, nrx := 0, replay := [], used := [0, 0, 0, 0], total := [0, 0, 0, 0], freed := [0, 0, 0, 0]
    credit := (List.range 4).map (fun i => rdLE b (8 + 2 * i) 2 % 4096) }) m
  let m := wr F.LNK_PEER_VALID d p 1 (wr F.LNK_PEER_EID d p (rdLE b 2 3) (wr F.LNK_PEER_PORT_CODE d p (rdLE b 5 1) m))
  goUp pc m

/-- RESUME from the recorded peer with a valid NRX. -/
def resumeOk (pc : Nat) (b : Bytes) (m : Mod) : Bool :=
  let d := pc / 32
  let p := pc % 32
  rdB F.LNK_PEER_VALID d p m && rd F.LNK_PEER_EID d p m == rdLE b 2 3 % 2 ^ 20 && rd F.LNK_PEER_PORT_CODE d p m == rdLE b 5 1
    && (link pc m).ackValid (rdLE b 6 2 % 4096)

/-- UP by RESUME: the NRX is taken as an ACK, and replay begins from it; credits run on. -/
def upResume (pc : Nat) (b : Bytes) (m : Mod) : Mod :=
  let m := takeAck pc (rdLE b 6 2 % 4096) m
  let m := updLink pc (fun k => { k with
    total := (List.range 4).map (fun i => rdLE b (16 + 2 * i) 2 % 4096), rpos := if k.replay.isEmpty then none else some 0 }) m
  goUp pc m

/-- An INIT or RESUME arrives (R169): the message is answered once more (in MISMATCH only the INIT that ends it), and
the outcome follows. -/
def linkMsgReceive (pc : Nat) (b : Bytes) (m : Mod) : Mod :=
  let type := rdLE b 0 1
  let st := linkState pc m
  if bit (rdLE b 1 1) 0 != compat pc m || (st != 2 && st != 4) then m
  else
    let m := if st = 2 || (fresh pc m && type = 1) then queueMsg pc (ownMsg pc m) m else m
    if fresh pc m then (if type = 1 then upInit pc b m else mismatch pc m)
    else if st = 4 then m
    else if type = 2 && resumeOk pc b m then upResume pc b m
    else mismatch pc m

/-! ## Receiving (R161, R162) -/

/-- A NAK is due, unless one has been sent since a flit was last accepted. -/
def askNak (pc : Nat) (m : Mod) : Mod :=
  updLink pc (fun k => if k.nakOff then k else { k with nakDue := true, nakOff := true }) m

/-- Step 1: the flit fails its CRC, or was cut short, in any state in which flits are taken. -/
def flitBad (pc : Nat) (m : Mod) : Mod :=
  let m := bump F.LNK_CNT0_CRC_ERR (pc / 32) (pc % 32) m
  if 2 ≤ linkState pc m then askNak pc m else m

/-- A flit that is discarded after it was accepted in sequence frees its buffer at once. -/
def dropFlit (pc vc : Nat) (m : Mod) : Mod :=
  updLink pc (fun k => { k with freed := upd4 k.freed vc (fun n => (n + 1) % 4096) }) m

/-- A DATA flit passes to the crossbar. -/
def passFlit (pc vc : Nat) (sop eop abort : Bool) (data : Bytes) (m : Mod) : Mod :=
  let d := pc / 32
  let p := pc % 32
  let m := if sop then
      updLink pc (fun k => { k with
        openRx := k.openRx.mapIdx (fun j x => if j = vc then some m.xb.nextPkt else x)
        timRes := if vc = 2 then some (Hdr.res data) else k.timRes })
        (updXb (fun y => { y with nextPkt := y.nextPkt + 1 }) m)
    else m
  let k := link pc m
  let f : Flit := { vc := vc, sop := sop, eop := eop, abort := abort && eop, data := data
                    pkt := (k.openRx.getD vc none).getD 0, fid := m.xb.nextFid
                    res := if vc = 2 then k.timRes else none, org := pc + 1 }
  let m := updXb (fun y => { y with nextFid := y.nextFid + 1 }) m
  let m := updLink pc (fun k => { k with
    occ := upd4 k.occ vc (· + 1), openRx := k.openRx.mapIdx (fun j x => if j = vc ∧ eop = true then none else x) }) m
  let m := if eop then count d (12 * p + 4) 1 m else m
  flitArrive pc f m

/-- Step 5 of R161, the flit in sequence. -/
def frameCheck (pc vc used : Nat) (sop eop abort : Bool) (data : Bytes) (m : Mod) : Mod :=
  let k := link pc m
  let isOpen := (k.openRx.getD vc none).isSome
  let drop := k.dropRx.getD vc false
  let bad := dropFlit pc vc (bump F.LNK_CNT1_FRAME_ERR (pc / 32) (pc % 32) m)
  if used = 0 ∨ 240 < used then bad
  else if !sop && !isOpen then
    if drop then dropFlit pc vc (if eop then setDrop pc vc false m else m) else bad
  else
    let m := if sop then setDrop pc vc false (if isOpen then abortRx pc vc m else m) else m
    if at4 (link pc m).adv vc ≤ at4 (link pc m).occ vc then
      let m := bump F.LNK_CNT1_CREDIT_OVERRUN (pc / 32) (pc % 32) m
      setDrop pc vc (!eop) (if sop then m else abortRx pc vc m)
    else passFlit pc vc sop eop abort (data.take used) m

/-- FLIT_RECEIVE: 256 bytes arrive at a port whose link layer handshakes or is UP or in MISMATCH.  Steps 1 to 3 of R161 hold
in each of these states; a NAK moves una anywhere, but flits are sent again only while UP; in MISMATCH DATA is not taken
(R169). -/
def flitReceive (pc : Nat) (b : Bytes) (m : Mod) : Mod :=
  let d := pc / 32
  let p := pc % 32
  if linkState pc m < 2 then m
  else if rdLE b 248 8 ≠ crc64 (sub b 0 248) then flitBad pc m
  else
    let h := rdLE b 0 8
    let kind := bits h 40 2
    let up := linkUp pc m
    let ack := (link pc m).ackValid (bits h 12 12)
    let m := updLink pc (fun k => { k with total := upd4 k.total (bits h 26 2) (fun _ => bits h 28 12) }) (takeAck pc (bits h 12 12) m)
    if kind = 1 ∨ kind = 3 then m
    else if kind = 2 then
      let pl := sub b 8 240
      match rdLE pl 0 1 with
      | 3 =>
        if up && ack then beginReplay pc (bump F.LNK_CNT0_REPLAYS d p m) else m
      | 1 => linkMsgReceive pc pl m
      | 2 => linkMsgReceive pc pl m
      | _ => m
    else if linkState pc m = 4 then m
    else
      let seq := bits h 0 12
      let nrx := (link pc m).nrx
      if seq ≠ nrx then
        let m := bump F.LNK_CNT0_OUT_OF_SEQ d p m
        let δ := (seq + 4096 - nrx) % 4096
        if 1 ≤ δ ∧ δ ≤ 2047 then askNak pc m else m
      else
        let m := updLink pc (fun k => { k with nrx := (nrx + 1) % 4096, nakOff := false }) m
        let m := wrB F.LNK_PORT_STATUS_FRESH d p false (count d (12 * p + 3) 1 m)
        frameCheck pc (bits h 24 2) (bits h 45 8) (bit h 42) (bit h 43) (bit h 44) (sub b 8 240) m

/-- REPLAY_TIMEOUT: the timer runs only while the receive active set is not empty (R164, R165). -/
def replayTimeout (pc : Nat) (m : Mod) : Mod :=
  let d := pc / 32
  let p := pc % 32
  let k := link pc m
  if linkUp pc m && k.held != 0 && rd F.LNE_PORT_STATUS_RX_SET d p m != 0 then
    let m := bump F.LNK_CNT1_REPLAY_TIMEOUTS d p (updLink pc (fun k => { k with expiries := k.expiries + 1 }) m)
    let m := beginReplay pc m
    let lim := max 1 (cur F.LNK_PORT_CTRL_REPLAY_LIMIT d p m)
    if lim ≤ k.expiries + 1 ∧ !rdB F.LNK_PORT_STATUS_STUCK d p m then
      linkEvent d p 3 (wrB F.LNK_PORT_STATUS_STUCK d p true m)
    else m
  else m

/-- Something waits to be sent in the direction: a flit, a CONTROL flit, or an ACK or CR_TOTAL change
(R142, R165, R480). -/
def waiting (pc : Nat) (m : Mod) : Bool :=
  let k := link pc m
  linkUp pc m && (load pc m != 0 || k.rpos.isSome || k.nakDue || !k.ctl.isEmpty || k.sentAck != k.nrx || k.sentFreed != k.freed)
    || ((linkState pc m == 2 || linkState pc m == 4) && !k.ctl.isEmpty)

end Sys2Proof.Machine
end

