-- ==== Sys2Proof/Machine/Translate.lean ====
section
/-! DEFINITION. Translation and access control (spec/16): the walk, the look-aside buffer and walk caches,
marks, regions, violations, invalidation and locking. -/
namespace Sys2Proof.Machine

/-! ## Master classes and kinds (R441, R439) -/
namespace Cls5
def local_ : Nat := 0
def remote : Nat := 1
def peer : Nat := 2
def drover : Nat := 3
def shepherd : Nat := 4
end Cls5

/-- Kinds of access: 0 read, 1 write, 2 atomic. -/
def writes (kind : Nat) : Bool := kind != 0

/-! ## Permissions (R440, R448) -/

/-- A PERM field permits a class and kind (R448). -/
def permits (perm cls kind : Nat) : Bool := bit perm (3 * cls + kind)

/-- Permissions of a byte. -/
def permOf (d : Nat) (l : List Region) (f b : Nat) (m : Mod) : Nat :=
  match decider l f b with
  | some r => r.perm
  | none => cur F.ACP_DEFAULT_PERM d 0 m

/-- The first byte of a bus range that is not permitted, by 64-byte granules. -/
def firstBad (d : Nat) (l : List Region) (f cls kind a n : Nat) (m : Mod) : Option Nat :=
  ((List.range ((a + n + 63) / 64 - a / 64)).map (fun i => max a ((a / 64 + i) * 64))).find?
    (fun b => !permits (permOf d l f b m) cls kind)

/-- The first forbidden byte of several pieces. -/
def firstBadOf (d : Nat) (l : List Region) (f cls kind : Nat) (ps : List (Nat × Nat)) (m : Mod) : Option Nat :=
  ps.findSome? (fun p => firstBad d l f cls kind p.1 p.2 m)

/-- Write a violation record (R446): the access's start and length, the first forbidden bus byte. -/
def violation (d f cls kind start len bad : Nat) (m : Mod) : Mod :=
  let i := rd F.ACP_VIOL_NEXT d 0 m
  let r := decider (regions d m) f bad
  let m := wr F.ACP_VLOG_START_START d i start (wr F.ACP_VLOG_BAD_FIRST_BAD d i bad
    (wr F.ACP_VLOG_INFO_LENGTH d i len (wrB F.ACP_VLOG_INFO_VALID d i true (wr F.ACP_VLOG_INFO_FN d i f
    (wr F.ACP_VLOG_INFO_REGION d i ((r.map Region.num).getD 0) (wrB F.ACP_VLOG_INFO_DEFAULT d i r.isNone
    (wr F.ACP_VLOG_INFO_KIND d i kind (wr F.ACP_VLOG_INFO_MASTER d i cls
    (wr F.ACP_VLOG_WHEN_WHEN d i (now d m) m)))))))))
  count d 549 1 (raise d 20 21 bad i (some f)
    (wr F.ACP_VIOL_NEXT d 0 ((i + 1) % 16) (bump F.ACP_VIOL_TOTAL d 0 m)))

/-! ## Contexts and entries (R423 to R426) -/

/-- Context `c` is enabled and belongs to function `f`. -/
def ctxOk (d f c : Nat) (m : Mod) : Bool :=
  decide (c < 4096) && curB F.XLT_CTX_CFG_ENABLE d c m && cur F.XLT_CTX_CFG_FN d c m == f

/-- LEVELS in force. -/
def ctxLevels (d c : Nat) (m : Mod) : Nat :=
  let l := cur F.XLT_CTX_CFG_LEVELS d c m
  if 3 ≤ l ∧ l ≤ 5 then l else 4

/-- Virtual-address width of LEVELS. -/
def vaWidth (levels : Nat) : Nat := 9 * levels + 12

/-- log2 of the page size of a leaf; none where a leaf may not stand so (R426). -/
def leafSize (level : Nat) (size64 : Bool) : Option Nat :=
  match level, size64 with
  | 3, false => some 30
  | 2, false => some 21
  | 1, true => some 16
  | 1, false => some 12
  | _, _ => none

/-- The address bits of an entry. -/
def entOA (e : Nat) : Nat := bits e 12 40 * 4096

/-- A reserved bit of an entry is set (R425). -/
def entReserved (e : Nat) : Bool :=
  bit e 63 || bits e 9 3 != 0 || (if bit e 1 then bit e 4 else bits e 2 7 != 0)

/-- The entry permits the kind; the cause where it does not (R426). -/
def entDenies (e kind : Nat) : Option Nat :=
  if kind != 1 && !bit e 2 then some 2 else if writes kind && !bit e 3 then some 3 else none

/-- The DETAIL of a translation fault (R438). -/
def xDetail (level cause : Nat) : Nat := level * 32 + cause

/-- What a page's translation gives. -/
inductive XRes where
  /-- The bus address, and whether the page has side effects. -/
  | ok (bus : Nat) (se : Bool)
  /-- A fault: DETAIL and the slot's bus address. -/
  | fault (detail slot : Nat)
  /-- A walk read or a mark ended with UR, CA or a timeout (R428). -/
  | err
  deriving DecidableEq, Repr

/-- The caches of a die. -/
def xlt (d : Nat) (m : Mod) : Xlt := NMap.get Xlt.reset m.xlt d

/-- Replace them, and show how many entries are in use and locked. -/
def setXlt (d : Nat) (x : Xlt) (m : Mod) : Mod :=
  wr F.XLT_TLB_VALID d 0 x.tlb.length (wr F.XLT_TLB_LOCKED d 0 (x.tlb.filter TlbEnt.locked).length
    { m with xlt := NMap.set Xlt.reset m.xlt d x })

/-- An entry that maps a virtual address. -/
def TlbEnt.maps (e : TlbEnt) (c va : Nat) : Bool := e.ctx == c && e.vpn == (va >>> e.size) <<< (e.size - 12)

/-- Insert at the front; beyond the capacity the least recently used entry that is not locked goes. -/
def tlbAdd (e : TlbEnt) (l : List TlbEnt) : List TlbEnt :=
  let l := l.filter (fun x => !(x.ctx == e.ctx && x.vpn == e.vpn && x.size == e.size))
  if l.length < 8192 then e :: l
  else match l.reverse.find? (fun x => !x.locked) with
    | some v => e :: l.erase v
    | none => l

/-- Put the walk-cache entries that a walk read or used at the front, the least recently used beyond 4,096 dropped. -/
def walkAdd (es l : List WalkEnt) : List WalkEnt := (es ++ l.filter (fun x => !es.contains x)).take 4096

/-! ## The walk (R427, R429) -/

/-- What a walk finds. -/
inductive WRes where
  | leaf (entry slot level : Nat) (passed : List WalkEnt)
  | fault (level cause slot : Nat)
  | err
  deriving DecidableEq, Repr

/-- The walk from a level downward. -/
def walkGo (d c va kind : Nat) (inb : Bool) (rs : List Region) (ans : HostAns) : Nat → Nat → List WalkEnt → Mod → WRes × Mod
  | 0, _, _, m => (.fault 0 6 0, m)
  | l + 1, table, acc, m =>
    let lv := l + 1
    let slot := table + 8 * bits va (9 * lv + 3) 9
    if seHit rs slot 8 then (.fault lv 7 slot, bump F.XLT_CNT_WALK_DEVICE d 0 m)
    else
      let pfx := va >>> (9 * lv + 3)
      let hit := (xlt d m).walk.find? (fun w => w.ctx == c && w.lvl == lv && w.pfx == pfx)
      let got := match hit with
        | some w => some w.entry
        | none => (hostRead ans slot 8).map leNat
      let m := if hit.isNone then count d 546 1 (askHost d (cur F.XLT_CTX_CFG_FN d c m) inb slot 8 m) else m
      match got with
      | none => (.err, m)
      | some e =>
        if !bit e 0 then (.fault lv 1 slot, m)
        else if entReserved e then (.fault lv 4 slot, m)
        else if !bit e 1 then
          (if lv = 1 then (.fault lv 6 slot, m)
           else walkGo d c va kind inb rs ans l (entOA e)
             (if 2 ≤ lv then { ctx := c, lvl := lv, pfx := pfx, entry := e } :: acc else acc) m)
        else match leafSize lv (bit e 8) with
          | none => (.fault lv 6 slot, m)
          | some sz =>
            if entOA e % 2 ^ sz ≠ 0 then (.fault lv 6 slot, m)
            else match entDenies e kind with
              | some cause => (.fault lv cause slot, m)
              | none => (.leaf e slot lv acc, m)

/-- The host's answer to a mark's CAS: a later value given under the address plus 2^64, else the entry as read. -/
def casAnswer (ans : HostAns) (slot : Nat) : Option Nat :=
  match hostRead ans (slot + 2 ^ 64) 8 with
  | some b => some (leNat b)
  | none => (hostRead ans slot 8).map leNat

/-- The mark value of an entry: ACCESSED, and DIRTY for a write. -/
def marked (e kind : Nat) : Nat := setBit (if writes kind then setBit e 7 true else e) 6 true

/-- Write marks to a leaf (R429). Answers the leaf in force: none where the CAS returned another value. -/
inductive MRes where
  | done (entry : Nat)
  | again (value : Nat)
  | barred
  | err
  deriving DecidableEq, Repr

/-- One mark CAS. -/
def markLeaf (d f c kind e slot : Nat) (inb : Bool) (ans : HostAns) (m : Mod) : MRes × Mod :=
  if !curB F.XLT_CTX_CFG_AD_EN d c m ∨ marked e kind = e then (.done e, m)
  else if !curB F.HIF_CTRL_HOST_ATOMICS d 0 m then (.barred, m)
  else
    let m := hostAtomicOut d f inb 2 slot (leBytes 8 e ++ leBytes 8 (marked e kind)) m
    match casAnswer ans slot with
    | none => (.err, m)
    | some v => if v = e then (.done (marked e kind), count d 547 1 m) else (.again v, m)

/-- A walk from the top with its marks; a CAS that returns another value starts it again. -/
def walkMark (d f c va kind : Nat) (inb : Bool) (rs : List Region) : Nat → HostAns → Mod → XRes × Option (TlbEnt × List WalkEnt) × Mod
  | 0, _, m => (.err, none, m)
  | n + 1, ans, m =>
    let w := walkGo d c va kind inb rs ans (ctxLevels d c m) (cur F.XLT_CTX_ROOT_ROOT d c m * 4096) [] m
    match w.1 with
    | .err => (.err, none, w.2)
    | .fault lv cause slot => (.fault (xDetail lv cause) slot, none, w.2)
    | .leaf e slot lv passed =>
      let k := markLeaf d f c kind e slot inb ans w.2
      match k.1 with
      | .err => (.err, none, k.2)
      | .barred => (.fault (xDetail lv 8) slot, none, k.2)
      | .again v => walkMark d f c va kind inb rs n
          ((slot, leBytes 8 v) :: ans.filter (fun a => a.1 != slot + 2 ^ 64)) k.2
      | .done e' =>
        let sz := (leafSize lv (bit e 8)).getD 12
        let t : TlbEnt := { ctx := c, vpn := (va >>> sz) <<< (sz - 12), size := sz, oa := entOA e, leaf := e', slot := slot, lvl := lv, locked := false }
        (.ok (entOA e + va % 2 ^ sz) (bit e 5 || seHit rs (entOA e) (2 ^ sz)), some (t, passed), k.2)

/-- Translate by the cached entry `t`: permission from the copy (R432), and DIRTY before the first write. The copy keeps what it
holds beside the marks; a walk that begins again replaces it. -/
def useTlb (d f c va kind : Nat) (inb : Bool) (rs : List Region) (t : TlbEnt) (ans : HostAns) (m : Mod) : XRes × Mod :=
  let res := XRes.ok (t.oa + va % 2 ^ t.size) (bit t.leaf 5 || seHit rs t.oa (2 ^ t.size))
  let x := xlt d m
  match entDenies t.leaf kind with
  | some cause => (.fault (xDetail t.lvl cause) t.slot, m)
  | none =>
    if !(curB F.XLT_CTX_CFG_AD_EN d c m && writes kind && !bit t.leaf 7) then
      (res, setXlt d { x with tlb := t :: x.tlb.erase t } m)
    else if seHit rs t.slot 8 then (.fault (xDetail t.lvl 7) t.slot, bump F.XLT_CNT_WALK_DEVICE d 0 m)
    else
     let m := count d 546 1 (askHost d f inb t.slot 8 m)
     match (hostRead ans t.slot 8).map leNat with
      | none => (.err, m)
      | some e =>
        if !bit e 0 ∨ !bit e 3 then
          (.fault (xDetail t.lvl (if bit e 0 then 3 else 1)) t.slot, setXlt d { x with tlb := x.tlb.erase t } m)
        else
          let k := markLeaf d f c kind e t.slot inb ans m
          match k.1 with
          | .err => (.err, k.2)
          | .barred => (.fault (xDetail t.lvl 8) t.slot, k.2)
          | .again v =>
            let w := walkMark d f c va kind inb rs 8 ((t.slot, leBytes 8 v) :: ans.filter (fun a => a.1 != t.slot + 2 ^ 64)) k.2
            (match w.2.1 with
             | some (n, passed) =>
               let y := xlt d w.2.2
               (w.1, setXlt d { y with tlb := tlbAdd { n with locked := t.locked } (y.tlb.erase t), walk := walkAdd passed y.walk } w.2.2)
             | none => (w.1, w.2.2))
          | .done _ => (res, setXlt d { x with tlb := { t with leaf := marked t.leaf kind } :: x.tlb.erase t } k.2)

/-- Record a fault in the die's log (R439). -/
def logFault (d f c va kind cls detail slot : Nat) (m : Mod) : Mod :=
  let i := rd F.XLT_FLOG_IDX_NEXT d 0 m
  wr F.XLT_FLOG_IDX_NEXT d 0 ((i + 1) % 16) (bump F.XLT_FLOG_IDX_TOTAL d 0 (bump F.XLT_CNT_FAULTS d 0
    (wr F.XLT_FLOG_VA_VA d i va (wr F.XLT_FLOG_SLOT_SLOT d i slot (wrB F.XLT_FLOG_INFO_VALID d i true
    (wr F.XLT_FLOG_INFO_CTX d i c (wr F.XLT_FLOG_INFO_FN d i f (wr F.XLT_FLOG_INFO_DETAIL d i detail
    (wr F.XLT_FLOG_INFO_KIND d i kind (wr F.XLT_FLOG_INFO_MASTER d i cls
    (wr F.XLT_FLOG_WHEN_WHEN d i (now d m) m)))))))))))

/-- Translate one address for function `f` in context `c` (R427, R430). -/
def translate (d f c va kind : Nat) (inb : Bool) (ans : HostAns) (m : Mod) : XRes × Mod :=
  let rs := regions d m
  if !ctxOk d f c m then (.fault (xDetail 0 9) 0, m)
  else if 2 ^ vaWidth (ctxLevels d c m) ≤ va then (.fault (xDetail 0 5) 0, m)
  else
    let m := count d 544 1 m
    match (xlt d m).tlb.find? (fun t => t.maps c va) with
    | some t => useTlb d f c va kind inb rs t ans m
    | none =>
      let w := walkMark d f c va kind inb rs 8 ans (bump F.XLT_CNT_WALKS d 0 (count d 545 1 m))
      match w.2.1 with
      | some (t, passed) =>
        (w.1, setXlt d { xlt d w.2.2 with tlb := tlbAdd t (xlt d w.2.2).tlb, walk := walkAdd passed (xlt d w.2.2).walk } w.2.2)
      | none => (w.1, w.2.2)

/-! ## An access (R437) -/

/-- What an access gives. -/
inductive AccRes where
  /-- Bus pieces (address, length) in order, and whether any page has side effects. -/
  | ok (pieces : List (Nat × Nat)) (se : Bool)
  /-- XLT_FAULT: DETAIL and the lowest virtual address of the access in the page. -/
  | fault (detail va : Nat)
  | denied
  | err
  deriving DecidableEq, Repr

/-- The walks of this master class carry out inbound fabric operations: they use the reserved pool (R53, R56). -/
def inbound (cls : Nat) : Bool := cls == Cls5.remote || cls == Cls5.peer

/-- Translate every page of a range, ascending, by 4 KiB units. -/
def xlatePages (d f c kind cls : Nat) (ans : HostAns) : Nat → Nat → Nat → List (Nat × Nat) → Bool → Mod → AccRes × Mod
  | 0, _, _, acc, se, m => (.ok acc.reverse se, m)
  | n + 1, va, len, acc, se, m =>
    let k := min len (4096 - va % 4096)
    let x := translate d f c va kind (inbound cls) ans m
    match x.1 with
    | .ok bus s => xlatePages d f c kind cls ans n (va + k) (len - k) ((bus, k) :: acc) (se || s) x.2
    | .fault detail slot => (.fault detail va, logFault d f c va kind cls detail slot x.2)
    | .err => (.err, x.2)

/-- The number of 4 KiB units that a range touches. -/
def unitsOf (va len : Nat) : Nat := if len = 0 then 0 else (va + len - 1) / 4096 - va / 4096 + 1

/-- The lowest address of a range, by 4 KiB units, that lies in a page with side effects (R436). -/
def seUnit (d f c kind : Nat) (ans : HostAns) : Nat → Nat → Nat → Mod → Option Nat
  | 0, _, _, _ => none
  | n + 1, va, len, m =>
    let k := min len (4096 - va % 4096)
    let x := translate d f c va kind false ans m
    match x.1 with
    | .ok _ true => some va
    | .ok _ false => seUnit d f c kind ans n (va + k) (len - k) x.2
    | _ => none

/-- A read refused for side effects: the address at which it faults, cause SIDE_EFFECT in the fault log (R436, R437, R439). -/
def seFault (d f c kind cls : Nat) (ans : HostAns) (ps : List (Nat × Nat)) (m : Mod) : Nat × Mod :=
  let va := (ps.findSome? (fun p => seUnit d f c kind ans (unitsOf p.1 p.2) p.1 p.2 m)).getD 0
  (va, logFault d f c va kind cls (xDetail 0 0x0A) 0 m)

/-- Translate a range and check its bytes (R437): a failing access moves nothing. -/
def access (d f c va len kind cls : Nat) (ans : HostAns) (m : Mod) : AccRes × Mod :=
  let x := xlatePages d f c kind cls ans (unitsOf va len) va len [] false m
  match x.1 with
  | .ok ps se =>
    (match firstBadOf d (regions d x.2) f cls kind ps x.2 with
     | some bad => (.denied, violation d f cls kind va len bad x.2)
     | none => (.ok ps se, x.2))
  | r => (r, x.2)

/-- Check a bus range for the SHEPHERD class (R442). -/
def accessBus (d f a len kind : Nat) (m : Mod) : Bool × Mod :=
  match firstBad d (regions d m) f Cls5.shepherd kind a len m with
  | some bad => (false, violation d f Cls5.shepherd kind a len bad m)
  | none => (true, m)

/-- The bytes of bus pieces, as the host answers them; none also where the function may issue no request (R59). -/
def readPieces (d f : Nat) (inb : Bool) (ans : HostAns) (ps : List (Nat × Nat)) (m : Mod) : Option Bytes × Mod :=
  if !canIssue d f m then (none, m) else
  let n := (ps.map Prod.snd).sum
  let m := energy d 17 7 ((n + 255) / 256) (count d 416 n (ps.foldl (fun m p => askHost d f inb p.1 p.2 m) m))
  (ps.foldl (fun (acc : Option Bytes) p =>
    match acc, hostRead ans p.1 p.2 with
    | some b, some x => some (b ++ x)
    | _, _ => none) (some []), m)

/-- Write bytes to bus pieces. -/
def writePieces (d f : Nat) : List (Nat × Nat) → Bytes → Mod → Mod
  | [], _, m => m
  | (a, n) :: r, b, m => writePieces d f r (b.drop n) (energy d 17 7 ((n + 255) / 256) (hostWr d f a (b.take n) m))

/-- A reply for host work: bytes, or a status with detail and faulting address. -/
inductive HRes where
  | ok (data : Bytes)
  | bad (status detail va : Nat)
  deriving DecidableEq, Repr

/-- Read a virtual range for local work (R287, R437). -/
def readVa (d f c va len cls : Nat) (ans : HostAns) (m : Mod) : HRes × Mod :=
  let x := access d f c va len 0 cls ans m
  match x.1 with
  | .ok ps _ =>
    let r := readPieces d f (inbound cls) ans ps x.2
    (match r.1 with
     | some b => (.ok b, r.2)
     | none => (.bad St.hostAbort 0 0, r.2))
  | .fault detail v => (.bad St.xltFault detail v, x.2)
  | .denied => (.bad St.accessDenied 0 0, x.2)
  | .err => (.bad St.hostAbort 0x61 0, x.2)

/-- Write a virtual range for local work. -/
def writeVa (d f c va cls : Nat) (b : Bytes) (ans : HostAns) (m : Mod) : HRes × Mod :=
  let x := access d f c va b.length 1 cls ans m
  match x.1 with
  | .ok ps _ => (.ok [], writePieces d f ps b x.2)
  | .fault detail v => (.bad St.xltFault detail v, x.2)
  | .denied => (.bad St.accessDenied 0 0, x.2)
  | .err => (.bad St.hostAbort 0x61 0, x.2)

/-- The part of a fragmented buffer from an offset, for a number of bytes. -/
def cutBuf : List (Nat × Nat) → Nat → Nat → List (Nat × Nat)
  | [], _, _ => []
  | (a, n) :: r, o, len =>
    if len = 0 then []
    else if n ≤ o then cutBuf r (o - n) len
    else
      let k := min len (n - o)
      (a + o, k) :: cutBuf r 0 (len - k)

/-- Every page of a fragmented range is translated, ascending: the failure, or each fragment with its bus pieces; and whether any page
has side effects. -/
def xlateBuf (d f c kind cls : Nat) (ans : HostAns) : List (Nat × Nat) → Mod → Option HRes × List ((Nat × Nat) × List (Nat × Nat)) × Bool × Mod
  | [], m => (none, [], false, m)
  | (a, n) :: r, m =>
    let x := xlatePages d f c kind cls ans (unitsOf a n) a n [] false m
    match x.1 with
    | .ok ps se =>
      let y := xlateBuf d f c kind cls ans r x.2
      (y.1, ((a, n), ps) :: y.2.1, se || y.2.2.1, y.2.2.2)
    | .fault detail v => (some (.bad St.xltFault detail v), [], false, x.2)
    | .denied => (some (.bad St.accessDenied 0 0), [], false, x.2)
    | .err => (some (.bad St.hostAbort 0x61 0), [], false, x.2)

/-- One access to a fragmented range (R437): only when every page translates are the bytes checked. Answers its bus pieces. The
violation record names the fragment that holds the forbidden byte. -/
def accessBuf (d f c kind cls : Nat) (ans : HostAns) (l : List (Nat × Nat)) (m : Mod) : HRes × List (Nat × Nat) × Bool × Mod :=
  let x := xlateBuf d f c kind cls ans l m
  let m := x.2.2.2
  match x.1 with
  | some e => (e, [], x.2.2.1, m)
  | none =>
    match x.2.1.findSome? (fun e => (firstBadOf d (regions d m) f cls kind e.2 m).map (fun b => (e.1, b))) with
    | some (e, bad) => (.bad St.accessDenied 0 0, [], x.2.2.1, violation d f cls kind e.1 e.2 bad m)
    | none => (.ok [], x.2.1.flatMap Prod.snd, x.2.2.1, m)

/-- Read a fragmented buffer's part. -/
def readBuf (d f c cls : Nat) (ans : HostAns) (l : List (Nat × Nat)) (m : Mod) : HRes × Mod :=
  let x := accessBuf d f c 0 cls ans l m
  match x.1 with
  | .ok _ =>
    let r := readPieces d f (inbound cls) ans x.2.1 x.2.2.2
    (match r.1 with
     | some b => (.ok b, r.2)
     | none => (.bad St.hostAbort 0 0, r.2))
  | e => (e, x.2.2.2)

/-- Check a whole buffer without moving a byte (R287 step 6); `se` reports a page with side effects. -/
def checkBuf (d f c kind cls : Nat) (ans : HostAns) (l : List (Nat × Nat)) (se : Bool) (m : Mod) : HRes × Bool × Mod :=
  let x := accessBuf d f c kind cls ans l m
  (x.1, se || x.2.2.1, x.2.2.2)

/-- Write a fragmented buffer's part: nothing moves where a piece fails. -/
def writeBuf (d f c cls : Nat) (ps : List (Nat × Nat)) (b : Bytes) (ans : HostAns) (m : Mod) : HRes × Mod :=
  let x := accessBuf d f c 1 cls ans ps m
  match x.1 with
  | .ok _ => (.ok [], writePieces d f x.2.1 b x.2.2.2)
  | e => (e, x.2.2.2)

/-! ## Commands -/

/-- TRANSLATION_WALK: an access of function `f` is translated and checked. -/
def translationWalk (d f c va len kind cls : Nat) (ans : HostAns) (m : Mod) : Mod := (access d f c va len kind cls ans m).2

/-- Functions' contexts: those that belong to `f`. -/
def inScope (d f scope c first n : Nat) (m : Mod) (ctx vpn size : Nat) : Bool :=
  match scope with
  | 1 => ctx == c
  | 2 => ctx == c && decide (vpn < first + n ∧ first < vpn + 2 ^ (size - 12))
  | _ => isPf d f m || cur F.XLT_CTX_CFG_FN d ctx m == f

/-- Remove the cached translations of a scope (R434). -/
def dropXlt (d f scope c first n : Nat) (m : Mod) : Mod :=
  setXlt d
    { xlt d m with
      tlb := (xlt d m).tlb.filter (fun t => !inScope d f scope c first n m t.ctx t.vpn t.size)
      walk := (xlt d m).walk.filter (fun w => !inScope d f (if scope = 2 then 1 else scope) c first n m w.ctx 0 12) } m

/-- A VF's command names a context that it does not own (R435). -/
def ctxForeign (d f c : Nat) (m : Mod) : Bool := !isPf d f m && cur F.XLT_CTX_CFG_FN d c m != f

/-- XLT_INVALIDATE: the GO of function `f` takes effect at the cycle boundary. -/
def xltInvalidate (d f : Nat) (m : Mod) : Mod :=
  let c := cur F.XLT_INV_CMD_CTX d f m
  let s := cur F.XLT_INV_CMD_SCOPE d f m
  if rdB F.XLT_INV_CMD_BUSY d f m ∨ ((s = 1 ∨ s = 2) ∧ ctxForeign d f c m) then bump F.HIF_ACC_ERR_UNDECODED d 0 m
  else
    dropXlt d f s c (cur F.XLT_INV_ADDR_VA d f m) (max 1 (cur F.XLT_INV_CMD_PAGES d f m))
      (wrB F.XLT_INV_CMD_BUSY d f true m)

/-- Contexts of function `f` whose own invalidation runs (R435). -/
def drainingOf (d f : Nat) (m : Mod) : List Nat :=
  (List.range 4096).filter (fun c => rdB F.XLT_CTX_CFG_DRAINING d c m && cur F.XLT_CTX_CFG_FN d c m == f)

/-- INVALIDATE_DONE: the accesses through removed entries have completed; BUSY clears, and DRAINING of the function's contexts. -/
def invalidateDone (d f : Nat) (m : Mod) : Mod :=
  let l := drainingOf d f m
  if rdB F.XLT_INV_CMD_BUSY d f m ∨ !l.isEmpty then
    count d 548 1 (wrB F.XLT_INV_CMD_BUSY d f false (each l (fun c m => wrB F.XLT_CTX_CFG_DRAINING d c false m) m))
  else m

/-- Lock the pages of a range, ascending (R433). A unit that faults ends the lock (DEDUCED: R433 keeps the entries locked before it). -/
def lockGo (d f c : Nat) (ans : HostAns) : Nat → Nat → Mod → Mod
  | 0, _, m => m
  | n + 1, va, m =>
    let x := translate d f c va 0 false ans m
    match x.1 with
    | .err => wrB F.XLT_LOCK_CMD_HOST_ERR d f true x.2
    | .fault detail slot => wrB F.XLT_LOCK_CMD_FAULT d f true (logFault d f c va 0 Cls5.local_ detail slot x.2)
    | .ok _ _ =>
      match (xlt d x.2).tlb.find? (fun t => t.maps c va) with
      | none => lockGo d f c ans n (va + 4096) x.2
      | some t =>
        if t.locked then lockGo d f c ans n (va + 4096) x.2
        else if 512 ≤ ((xlt d x.2).tlb.filter TlbEnt.locked).length then wrB F.XLT_LOCK_CMD_FULL d f true x.2
        else lockGo d f c ans n (va + 4096)
          (setXlt d { xlt d x.2 with tlb := { t with locked := true } :: (xlt d x.2).tlb.erase t } x.2)

/-- XLT_LOCK: GO locks a range. -/
def xltLock (d f : Nat) (ans : HostAns) (m : Mod) : Mod :=
  let c := cur F.XLT_LOCK_CMD_CTX d f m
  if ctxForeign d f c m then bump F.HIF_ACC_ERR_UNDECODED d 0 m
  else lockGo d f c ans (max 1 (cur F.XLT_LOCK_CMD_PAGES d f m)) (cur F.XLT_LOCK_ADDR_VA d f m * 4096) m

/-- CONTEXT_DISABLE: clearing ENABLE fails later translations and removes the context's entries; DRAINING reads 1 until
INVALIDATE_DONE of its function (R435). -/
def contextDisable (d c : Nat) (m : Mod) : Mod :=
  wrB F.XLT_CTX_CFG_DRAINING d c true (dropXlt d 0 1 c 0 0 (force F.XLT_CTX_CFG_ENABLE d c 0 m))

/-- REGION_LOCK (R444). -/
def regionLock (d r : Nat) (m : Mod) : Mod := if r < 1024 then force F.ACP_RCTL_LOCK d r 1 m else m

end Sys2Proof.Machine
end

