-- ==== Sys2Proof/Machine/Rings.lean ====
section
/-! DEFINITION. Send queues, completion rings and descriptor prefetch (spec/10, R269 to R275, R289, R290,
R296 to R298). -/
namespace Sys2Proof.Machine

/-- Element number of a queue (kind 0), ring (1) or group (2) in the WQU window's registers. -/
def qix (kind n : Nat) : Nat := kind * 65536 + n

/-! State codes of WQU_QSTATE. -/
namespace QSt
def disabled : Nat := 0
def active : Nat := 1
def draining : Nat := 2
def halted : Nat := 3
def overflowed : Nat := 4
end QSt

/-- State of a queue or ring. -/
def qState (d kind n : Nat) (m : Mod) : Nat := rd F.WQU_QSTATE_STATE d (qix kind n) m
def setQState (d kind n st : Nat) (m : Mod) : Mod := wr F.WQU_QSTATE_STATE d (qix kind n) st m

/-- Entries of a queue or ring: LOG2 6 to 16, 0 for 16, other values as 6. -/
def qSize (f : Fld) (d kind n : Nat) (m : Mod) : Nat :=
  let l := cur f d (qix kind n) m
  if l = 0 then 65536 else if l < 6 then 64 else 2 ^ l

/-- Size of a send queue and of a completion ring. -/
def sqSize (d q : Nat) (m : Mod) : Nat := qSize F.WQU_QCFG_Q_LOG2 d 0 q m
def crSize (d r : Nat) (m : Mod) : Nat := qSize F.WQU_QCFG_R_LOG2 d 1 r m

/-- The transport side. -/
def updTrn (f : Trn → Trn) (m : Mod) : Mod := { m with trn := f m.trn }

/-- The engine's record of a send queue. -/
def sq (d q : Nat) (m : Mod) : Sq := NMap.get Sq.reset m.trn.sq (d * 65536 + q)
def updSq (d q : Nat) (f : Sq → Sq) (m : Mod) : Mod :=
  updTrn (fun t => { t with sq := NMap.set Sq.reset t.sq (d * 65536 + q) (f (sq d q m)) }) m

/-- The engine's record of a completion ring. -/
def cring (d r : Nat) (m : Mod) : Cring := NMap.get Cring.reset m.trn.cr (d * 65536 + r)
def updCring (d r : Nat) (f : Cring → Cring) (m : Mod) : Mod :=
  updTrn (fun t => { t with cr := NMap.set Cring.reset t.cr (d * 65536 + r) (f (cring d r m)) }) m

/-- SQ_TAIL, SQ_FETCH and the taken entries not completed. -/
def sqTail (d q : Nat) (m : Mod) : Nat := rd F.WQU_QSTATE_TAIL d (qix 0 q) m
def sqFetch (d q : Nat) (m : Mod) : Nat := rd F.WQU_QSTATE_FETCH d (qix 0 q) m
def sqOpen (d q : Nat) (m : Mod) : Nat := rd F.WQU_QSTATE_TAKEN_OPEN d (qix 0 q) m

/-- The function of the queue or ring with number `n` (R269). -/
def qOwner (d n : Nat) (m : Mod) : Nat := ownerOf d n m

/-- A ring is usable by a queue: ACTIVE and of the same function. -/
def crUsable (d q r : Nat) (m : Mod) : Bool := qState d 1 r m == QSt.active && qOwner d r m == qOwner d q m

/-! ## Descriptor prefetch (R289, R290) -/

/-- Descriptor slots held on a die. -/
def slotsHeld (d : Nat) (m : Mod) : Nat :=
  ((m.trn.sq.filter (fun e => e.1 / 65536 == d)).map (fun e => e.2.slots.length)).sum

/-- Show them. -/
def showSlots (d : Nat) (m : Mod) : Mod := wr F.WQU_STATUS_SLOTS_IN_USE d 0 (min 4096 (slotsHeld d m)) m

/-- A descriptor of the queue is being read. -/
def fetchOut (d q idx : Nat) (m : Mod) : Bool :=
  m.hif.tags.any (fun e => e.1 / 1024 == d && e.2.work == .fetch q idx 1 && !e.2.quar)
    || m.hif.waitQ.any (fun r => r.die == d && r.work == .fetch q idx 1)

/-- Descriptor reads of a die under way or waiting for a tag: each has a slot granted for it. -/
def fetchesOut (d : Nat) (m : Mod) : Nat :=
  let isFetch : Work → Bool := fun w => match w with | .fetch _ _ _ => true | _ => false
  (m.hif.tags.filter (fun e => e.1 / 1024 == d && isFetch e.2.work && !e.2.quar)).length
    + (m.hif.waitQ.filter (fun r => r.die == d && isFetch r.work)).length

/-- Read the descriptor at an index of a queue. -/
def fetchEntry (d q idx : Nat) (m : Mod) : Mod :=
  readInbound { die := d, fn := qOwner d q m, addr := cur F.WQU_QBASE_ADDR d (qix 0 q) m * 64 + 64 * idx, len := 64, work := .fetch q idx 1, inb := false }
    (count d 515 1 m)

/-- A scheduled queue that holds no slot has its next entry fetched (R289); the one entry so fetched needs no slot of the 4,096
(DESIGN CHOICE: else a queue that found them all held would never be served). -/
def fetchNext (d q : Nat) (m : Mod) : Mod :=
  let i := sqFetch d q m
  if qState d 0 q m != QSt.active || sqTail d q m == i || !(sq d q m).slots.isEmpty || fetchOut d q i m then m
  else fetchEntry d q i m

/-- Read ahead up to PREFETCH entries beyond SQ_FETCH, never beyond the doorbell. -/
def readAhead (d q : Nat) (m : Mod) : Mod :=
  if qState d 0 q m != QSt.active then m
  else
    let n := sqSize d q m
    let avail := (sqTail d q m + n - sqFetch d q m) % n
    each (List.range (min avail (max 1 (cur F.WQU_QCFG_Q_PREFETCH d (qix 0 q) m)))) (fun i m =>
      let idx := (sqFetch d q m + i) % n
      if (NMap.find (sq d q m).slots idx).isSome || fetchOut d q idx m || decide (4096 ≤ slotsHeld d m + fetchesOut d m) then m
      else fetchEntry d q idx m) m

/-- Drop every slot of a queue, and the descriptor reads under way. -/
def dropSlots (d q : Nat) (p : Nat → Bool) (m : Mod) : Mod :=
  let mine : Work → Bool := fun w => match w with | .fetch q' i _ => q' == q && p i | _ => false
  let m := updSq d q (fun s => { s with slots := NMap.keep (fun i => !p i) s.slots }) m
  showSlots d { m with hif := { m.hif with
    tags := m.hif.tags.map (fun e => if e.1 / 1024 == d && mine e.2.work then (e.1, { e.2 with work := .discard }) else e)
    waitQ := m.hif.waitQ.filter (fun r => !(r.die == d && mine r.work)) } }

/-- A queue is HALTED (R274): no entry is taken, its slots are dropped, and an event tells why. -/
def haltQueue (d q cause : Nat) (m : Mod) : Mod :=
  if [QSt.active, QSt.draining].contains (qState d 0 q m) then
    sampleFlush d q <| event d (qOwner d q m) 0x0060 cause (leBytes 2 q)
      (dropSlots d q (fun _ => true) (wr F.WQU_QSTATE_CAUSE d (qix 0 q) cause (setQState d 0 q QSt.halted m)))
  else m

/-- DESCRIPTOR_FETCH_COMPLETE: a descriptor arrives in its slot; none: the read failed (R274 FETCH_ERROR). -/
def fetchDone (d q idx : Nat) (data : Option Bytes) (m : Mod) : Mod :=
  match data with
  | none => haltQueue d q 3 m
  | some b =>
    if [QSt.active, QSt.draining].contains (qState d 0 q m) then
      showSlots d (updSq d q (fun s => { s with slots := NMap.put s.slots idx (padTo 64 b) }) m)
    else m

/-- The die discards doorbells: it waits in QUARANTINE (R70), or it is being drained for sleep (R484). -/
def bellsOff (d : Nat) (m : Mod) : Bool :=
  (!dieActive d m && dieState d m != DieSt.sleep) || NMap.get false m.shep.drain d

/-- SQ_DOORBELL (R271). -/
def sqDoorbell (d q tail : Nat) (m : Mod) : Mod :=
  if fnState d (qOwner d q m) m == FnSt.resetting || bellsOff d m then m
  else if dieState d m == DieSt.sleep then bump F.HIF_ACC_ERR_UNDECODED d 0 m
  else if qState d 0 q m != QSt.active then bump F.HIF_ACC_ERR_UNDECODED d 0 m
  else
    let m := count d 512 1 m
    if sqSize d q m ≤ tail % 65536 then haltQueue d q 2 m
    else
      let m := if tail = sqTail d q m then m else updSq d q (fun s => { s with bells := s.bells ++ [(tail, now d m)] }) m
      readAhead d q (wr F.WQU_QSTATE_TAIL d (qix 0 q) tail m)

/-- An invalidation is in progress. -/
def invalBusy (d q : Nat) (m : Mod) : Bool := decide (now d m < (sq d q m).busyTo)

/-- SQ_INVALIDATE (R290): the slots of `n` entries from `first` are dropped and read again; one written while another is in
progress is discarded.  The slots go at once, and the invalidation counts as in progress for the 1 µs that the rule allows it
(DESIGN CHOICE). -/
def sqInvalidate (d q first n : Nat) (m : Mod) : Mod :=
  if qState d 0 q m != QSt.active || invalBusy d q m then bump F.HIF_ACC_ERR_UNDECODED d 0 m
  else
    let size := sqSize d q m
    let m := updSq d q (fun s => { s with inval := first % 65536 + n * 65536, busyTo := now d m + 1000 }) m
    readAhead d q (dropSlots d q (fun i => decide ((i + size - first % size) % size < max 1 (min 64 n))) m)

/-! ## Completions (R296 to R298) -/

/-- A completion without its phase bit (R296). -/
structure Cpl where
  tag    : Nat
  status : Nat
  detail : Nat
  op     : Nat
  flags  : Nat
  queue  : Nat
  index  : Nat
  len    : Nat
  result : Nat
  peer   : Nat
  cn     : Nat
  deriving DecidableEq, Repr

/-- Its 32 bytes. -/
def Cpl.bytes (c : Cpl) (phase : Bool) : Bytes :=
  leBytes 4 c.tag ++ leBytes 1 c.status ++ leBytes 1 c.detail ++ leBytes 1 c.op
    ++ leBytes 1 (b2n phase + c.flags) ++ leBytes 2 c.queue ++ leBytes 2 c.index ++ leBytes 4 c.len
    ++ leBytes 8 c.result ++ leBytes 3 (c.peer % 2 ^ 20) ++ leBytes 1 0 ++ leBytes 3 c.cn ++ leBytes 1 0

/-- Write a completion to ring `r` (R275, R297, R298). -/
def ringPut (d r : Nat) (c : Cpl) (m : Mod) : Mod :=
  let i := qix 1 r
  let n := crSize d r m
  let prod := rd F.WQU_QSTATE_FETCH d i m
  if qState d 1 r m != QSt.active then bump F.WQU_CNT_LATE_CPL d 0 m
  else if (prod + 1) % n = rd F.WQU_QSTATE_TAIL d i m % n then
    event d (qOwner d r m) 0x0061 0 (leBytes 2 r) (bump F.WQU_CNT_CRING_OVERFLOWS d 0 (setQState d 1 r QSt.overflowed m))
  else
    let f := qOwner d r m
    let k := cring d r m
    let m := hostWrOrd d f (cur F.WQU_QBASE_ADDR d i m * 64 + 32 * prod) (c.bytes k.phase) m
    let m := count d 514 1 (wr F.WQU_QSTATE_FETCH d i ((prod + 1) % n) m)
    let m := updCring d r (fun k => { phase := if prod + 1 = n then !k.phase else k.phase, arm := false }) m
    if k.arm then msix d f (cur F.WQU_QCFG_R_VECTOR d i m) m else m

/-- CR_ARM (R298). -/
def crArm (d r : Nat) (m : Mod) : Mod :=
  if rd F.WQU_QSTATE_FETCH d (qix 1 r) m != rd F.WQU_QSTATE_TAIL d (qix 1 r) m then
    msix d (qOwner d r m) (cur F.WQU_QCFG_R_VECTOR d (qix 1 r) m) m
  else updCring d r (fun k => { k with arm := true }) m

/-- CR_HEAD is written. -/
def crHead (d r i : Nat) (m : Mod) : Mod := wr F.WQU_QSTATE_TAIL d (qix 1 r) (i % crSize d r m) m

/-- An entry of a send queue completes (R276, R296): its completion is written where SIGNAL is set or the
status is not OK; entries forgotten or halted complete late (R274). -/
def entryDone (d q idx gen op tag cr : Nat) (signal : Bool) (status detail len result peer cn : Nat) (m : Mod) : Mod :=
  if (sq d q m).gen ≠ gen then bump F.WQU_CNT_LATE_CPL d 0 m
  else if qState d 0 q m = QSt.halted then
    bump F.WQU_CNT_LATE_CPL d 0 (wr F.WQU_QSTATE_TAKEN_OPEN d (qix 0 q) (sqOpen d q m - 1) m)
  else
    let m := sampleEnd d q idx gen status detail (wr F.WQU_QSTATE_TAKEN_OPEN d (qix 0 q) (sqOpen d q m - 1) m)
    let m := if status = St.malformed then bump F.WQU_CNT_MALFORMED d 0 m else m
    if status = St.ok ∧ !signal then m
    else ringPut d cr { tag := tag, status := status, detail := detail, op := op, flags := 0, queue := q, index := idx, len := len
                        result := result, peer := peer, cn := cn } m

/-! ## Commands of the queue window (R274, R275) -/

/-- QUEUE_ENABLE: a DISABLED queue or ring becomes ACTIVE with indices at 0. -/
def queueEnable (d kind n : Nat) (m : Mod) : Mod :=
  if kind < 2 ∧ qState d kind n m = QSt.disabled then
    let i := qix kind n
    let m := wr F.WQU_QSTATE_TAIL d i 0 (wr F.WQU_QSTATE_FETCH d i 0 (wr F.WQU_QSTATE_TAKEN_OPEN d i 0
      (wr F.WQU_QSTATE_CAUSE d i 0 (setQState d kind n QSt.active m))))
    if kind = 1 then updCring d n (fun _ => Cring.reset) m else m
  else m

/-- QUEUE_RESET: back to DISABLED; taken entries are forgotten. The indices start at 0 at the next ENABLE. -/
def queueReset (d kind n : Nat) (m : Mod) : Mod :=
  if 2 ≤ kind then m
  else
    let i := qix kind n
    let m := wr F.WQU_QSTATE_TAKEN_OPEN d i 0 (wr F.WQU_QSTATE_CAUSE d i 0 (setQState d kind n QSt.disabled m))
    if kind = 1 then updCring d n (fun _ => Cring.reset) m
    else updSq d n (fun s => { Sq.reset with gen := s.gen + 1 }) (dropSlots d n (fun _ => true) (sampleFlush d n m))

/-- QUEUE_DISABLE: a queue drains, its descriptor reads under way, which can still fail it (R274); a ring is DISABLED at once, but
only RESET leaves OVERFLOWED (R275). -/
def queueDisable (d kind n : Nat) (m : Mod) : Mod :=
  if kind = 0 then (if qState d 0 n m = QSt.active then setQState d 0 n QSt.draining m else m)
  else if qState d kind n m = QSt.overflowed then m
  else queueReset d kind n m

/-- QUEUE_DRAIN_COMPLETE: the last taken entry of a DRAINING queue has completed; its slots go. -/
def queueDrained (d q : Nat) (m : Mod) : Mod :=
  if qState d 0 q m = QSt.draining ∧ sqOpen d q m = 0 then dropSlots d q (fun _ => true) (setQState d 0 q QSt.disabled m) else m

/-- The queues and rings of function `f` (R269) that have left their reset state. -/
def queuesOf (d kind f : Nat) (m : Mod) : List Nat :=
  ((m.regs.filter (fun e => keyReg e.1 == F.WQU_QSTATE_STATE.reg && keyLo e.1 == F.WQU_QSTATE_STATE.lo
      && keyDie e.1 == d && keyIdx e.1 / 65536 == kind)).map (fun e => keyIdx e.1 % 65536)).filter
    (fun n => qOwner d n m == f)

end Sys2Proof.Machine
end

