-- ==== Sys2Proof/Machine/Conduits.lean ====
section
/-! DEFINITION. Conduits and reliable transport, the sending side (spec/09): contexts, residency, the gate
pool, path choice, windows, packets, send records, retry and teardown (R238 to R267); flit buffers (R322, R323). -/
namespace Sys2Proof.Machine

/-! ## Contexts (R238 to R245) -/

/-- Key of a conduit. -/
def ck (d cn : Nat) : Nat := d * 2 ^ 24 + cn

/-- The context of conduit `cn` of die `d`. -/
def cond (d cn : Nat) (m : Mod) : Cond := NMap.get Cond.reset m.trn.cond (ck d cn)
def setCond (d cn : Nat) (c : Cond) (m : Mod) : Mod :=
  updTrn (fun t => { t with cond := NMap.set Cond.reset t.cond (ck d cn) c }) m
def updCond (d cn : Nat) (f : Cond → Cond) (m : Mod) : Mod := setCond d cn (f (cond d cn m)) m

/-- The conduits of a die that are not at reset. -/
def condsOf (d : Nat) (m : Mod) : List Nat :=
  (m.trn.cond.filter (fun e => e.1 / 2 ^ 24 == d)).map (fun e => e.1 % 2 ^ 24)

/-- A function's current EPOCH (R245). -/
def epochOf (d f : Nat) (m : Mod) : Nat := rd F.CND_FN_STATUS_EPOCH d f m

/-! STATE codes (R238). -/
namespace CSt
def closed : Nat := 0
def opening : Nat := 1
def open_ : Nat := 2
def closing : Nat := 3
end CSt

/-- STATE, CLOSED where the recorded EPOCH is not the function's (R245). -/
def condState (d cn : Nat) (m : Mod) : Nat :=
  let c := cond d cn m
  if c.epoch = epochOf d c.fn m then c.state else CSt.closed

/-- OPEN or OPENING. -/
def condLive (d cn : Nat) (m : Mod) : Bool := [CSt.opening, CSt.open_].contains (condState d cn m)

/-- First conduit and number of conduits of a function, and how many at the top are its gate range (R243). -/
def fnBase (d f : Nat) (m : Mod) : Nat := cur F.CND_FN_RANGE_BASE d f m * 256
def fnCount (d f : Nat) (m : Mod) : Nat := cur F.CND_FN_RANGE_COUNT d f m * 256
def fnGate (d f : Nat) (m : Mod) : Nat := cur F.CND_FN_GATE_GATE_COUNT d f m * 256

/-- The function may hold conduits. -/
def cndOn (d f : Nat) (m : Mod) : Bool := curB F.CND_FN_CTL_ENABLE d f m

/-- In the function's range, and in its gate range. -/
def inRange (d f cn : Nat) (m : Mod) : Bool :=
  cndOn d f m && decide (fnBase d f m ≤ cn ∧ cn < fnBase d f m + fnCount d f m)
def inGate (d f cn : Nat) (m : Mod) : Bool :=
  inRange d f cn m && decide (fnBase d f m + fnCount d f m ≤ cn + fnGate d f m)

/-- The pasture's entry at die `d`'s endpoint (R244, R570). -/
def pastOf (d p : Nat) (m : Mod) : Option Past := NMap.find (tabs d m).past (d * 65536 + p)

/-- The unicast conduit of function `f` for a peer and pasture (the peer index, R244). -/
def unicastOf (d f peer p : Nat) (m : Mod) : Option Nat :=
  (condsOf d m).find? (fun cn =>
    let c := cond d cn m
    c.fn == f && c.peer == peer && c.pasture == p && !c.mcast && condState d cn m != CSt.closed)

/-- CONDUIT_FN_ENABLE (R243): a write of 1 to CND_FN_CTL.ENABLE is refused on a conflict. -/
def rangeConflict (d f : Nat) (m : Mod) : Bool :=
  let b := fnBase d f m
  let n := fnCount d f m
  n == 0 || decide (2 ^ 24 < b + n) || decide (n < fnGate d f m)
    || allFns.any (fun g => g != f && cndOn d g m && decide (fnBase d g m < b + n ∧ b < fnBase d g m + fnCount d g m))

/-! ### The context's 256 bytes (R238, R239), as spilled to host memory (R241) -/

/-- The context as bytes. -/
def Cond.bytes (c : Cond) : Bytes :=
  leBytes 1 (c.state + 8 * b2n c.adapt + 16 * b2n c.spray + 32 * b2n c.pinned + 64 * b2n c.fromGate + 128 * b2n c.mcast)
    ++ leBytes 1 c.rxLog ++ leBytes 2 c.fn ++ leBytes 3 c.peer ++ leBytes 1 c.peerRx ++ leBytes 3 c.peerCn
    ++ leBytes 1 c.retries ++ leBytes 2 c.pasture ++ leBytes 2 c.window ++ leBytes 4 c.txNext ++ leBytes 4 c.txUna
    ++ leBytes 4 c.rxNext ++ leBytes 2 c.eff ++ leBytes 1 c.lastPath ++ leBytes 1 c.nrCount ++ leBytes 4 c.scores
    ++ leBytes 4 c.inflight ++ leBytes 4 c.acked ++ leBytes 2 c.leaves ++ leBytes 2 c.epoch ++ leBytes 8 c.retryAt
    ++ leBytes 8 c.agedAt ++ leBytes 32 c.rxMap ++ leBytes 32 c.lastMap
    ++ leBytes 8 c.openedAt ++ leBytes 4 c.retryBase ++ leBytes 1 c.retryLimit ++ zeros 3 ++ leBytes 8 c.mapOff
    ++ leBytes 8 c.userCtx ++ leBytes 8 c.pktsTx ++ leBytes 8 c.pktsRx ++ leBytes 8 c.bytesTx ++ leBytes 8 c.bytesRx
    ++ leBytes 4 c.retx ++ leBytes 4 c.dups ++ leBytes 4 c.nrRecv ++ leBytes 4 c.nrSent ++ zeros 48

/-- A context read back from bytes; what the engine keeps beside it stays as in `c`. -/
def Cond.ofBytes (c : Cond) (b : Bytes) : Cond :=
  let ctl := rdLE b 0 1
  { c with
    state := ctl % 4, adapt := bit ctl 3, spray := bit ctl 4, pinned := bit ctl 5, fromGate := bit ctl 6, mcast := bit ctl 7
    rxLog := rdLE b 1 1 % 32, fn := rdLE b 2 2 % 2048, peer := rdLE b 4 3 % 2 ^ 20, peerRx := rdLE b 7 1 % 32
    peerCn := rdLE b 8 3, retries := rdLE b 11 1, pasture := rdLE b 12 2, window := rdLE b 14 2, txNext := rdLE b 16 4
    txUna := rdLE b 20 4, rxNext := rdLE b 24 4, eff := rdLE b 28 2, lastPath := rdLE b 30 1 % 8, nrCount := rdLE b 31 1
    scores := rdLE b 32 4, inflight := rdLE b 36 4, acked := rdLE b 40 4, leaves := rdLE b 44 2, epoch := rdLE b 46 2
    retryAt := rdLE b 48 8, agedAt := rdLE b 56 8, rxMap := rdLE b 64 32
    lastMap := rdLE b 96 32, openedAt := rdLE b 128 8, retryBase := rdLE b 136 4
    retryLimit := rdLE b 140 1, mapOff := rdLE b 144 8, userCtx := rdLE b 152 8, pktsTx := rdLE b 160 8
    pktsRx := rdLE b 168 8, bytesTx := rdLE b 176 8, bytesRx := rdLE b 184 8, retx := rdLE b 192 4, dups := rdLE b 196 4
    nrRecv := rdLE b 200 4, nrSent := rdLE b 204 4 }

/-! ### The extended receive map (R240)

Positions from 256 on lie in the working pool at MAP_OFF, two bits for each PSN of the window: PSN p has bits 2 × (p mod W) and
2 × (p mod W) + 1 of the map, RX_MAP below LAST_MAP (DESIGN CHOICE: the spec gives the size, not the order). -/

/-- Byte and bit of a PSN in the extended map. -/
def Cond.extAt (c : Cond) (psn : Nat) : Nat × Nat := let p := psn % 2 ^ c.rxLog; (c.mapOff + p / 4, 2 * (p % 4))

/-- The map's byte of a PSN. -/
def extByte (d : Nat) (c : Cond) (psn : Nat) (m : Mod) : Nat := (NMap.get 0#8 m.pool (d * 2 ^ 40 + (c.extAt psn).1)).toNat

/-- RX_MAP and LAST_MAP bit of a PSN beyond the hot half. -/
def extGet (d : Nat) (c : Cond) (psn : Nat) (m : Mod) : Bool × Bool :=
  let b := extByte d c psn m
  (bit b (c.extAt psn).2, bit b ((c.extAt psn).2 + 1))

/-- Write them. -/
def extPut (d : Nat) (c : Cond) (psn : Nat) (rx last : Bool) (m : Mod) : Mod :=
  let i := (c.extAt psn).2
  { m with pool := NMap.set 0#8 m.pool (d * 2 ^ 40 + (c.extAt psn).1) (toByte (setBit (setBit (extByte d c psn m) i rx) (i + 1) last)) }

/-- A conduit that opens starts with an empty extended map. -/
def extClear (d : Nat) (c : Cond) (m : Mod) : Mod :=
  if c.rxLog ≤ 8 then m
  else
    let lo := d * 2 ^ 40 + c.mapOff
    { m with pool := NMap.keep (fun k => !decide (lo ≤ k ∧ k < lo + 2 ^ c.rxLog / 4)) m.pool }

/-- The PSN at distance `i` of RX_NEXT has been received. -/
def rxBit (d : Nat) (c : Cond) (i : Nat) (m : Mod) : Bool :=
  if i < 256 then bit c.rxMap i else (extGet d c (c.rxNext + i) m).1

/-- It is noted as received, ending an untracked message or not. -/
def rxMark (d cn i : Nat) (last : Bool) (m : Mod) : Mod :=
  let c := cond d cn m
  if i < 256 then updCond d cn (fun c => { c with
    rxMap := setBit c.rxMap i true, lastMap := if last then setBit c.lastMap i true else c.lastMap }) m
  else extPut d c (c.rxNext + i) true last m

/-- RX_NEXT advances by one: both maps shift, and the hot half takes its last position from the extended map. -/
def rxShift (d cn : Nat) (m : Mod) : Mod :=
  let c := cond d cn m
  let p := c.rxNext + 256
  let x := if 8 < c.rxLog then extGet d c p m else (false, false)
  let m := if 8 < c.rxLog then extPut d c p false false m else m
  updCond d cn (fun c => { c with
    rxMap := c.rxMap / 2 + 2 ^ 255 * b2n x.1, lastMap := c.lastMap / 2 + 2 ^ 255 * b2n x.2, rxNext := (c.rxNext + 1) % 2 ^ 32 }) m

/-! ### Residency (R241, R242) -/

/-- Capacity of the conduit cache: 65,536 less 256 for each macro lost beyond the 480 of
the staging share and of the transport buffer above 1 MiB (R36). -/
def cacheSize (d : Nat) (m : Mod) : Nat := 65536 - 256 * (macrosBad d m - 480)

/-- Resident conduits of a die. -/
def residents (d : Nat) (m : Mod) : List Nat := (condsOf d m).filter (fun cn => (cond d cn m).resident)

/-- The pen of a die, oldest first. -/
def pen (d : Nat) (m : Mod) : List (Nat × Bytes) := NMap.get [] m.trn.pen d

/-- Replace it, and show its size. -/
def setPen (d : Nat) (l : List (Nat × Bytes)) (m : Mod) : Mod :=
  let n := (l.map (fun e => e.2.length)).sum
  wr F.CND_PEN_PKTS d 0 l.length (wr F.CND_PEN_BYTES d 0 n
    (wrB F.CND_STATUS_PEN_FULL d 0 (decide (16384 ≤ l.length ∨ 8388608 ≤ n))
      (updTrn (fun t => { t with pen := NMap.set [] t.pen d l }) m)))

/-- The conduit has packets in the pen. -/
def penned (d cn : Nat) (m : Mod) : Bool := (pen d m).any (fun e => e.1 == cn)

/-- Trackers of a conduit. -/
def trksOf (d cn : Nat) (m : Mod) : List Nat :=
  (m.trn.trk.filter (fun e => e.1 / 4096 == d && e.2.cn == cn)).map (fun e => e.1 % 4096)

/-- The conduit may be evicted (R242). -/
def evictable (d cn : Nat) (m : Mod) : Bool :=
  let c := cond d cn m
  c.resident && !c.pinned && !penned d cn m && !c.fetching && c.recs.isEmpty
    && !c.msgs.any (fun g => g.wait == 1 || g.ask == 2)

/-- Show how many conduits are resident and pinned. -/
def showCache (d : Nat) (m : Mod) : Mod :=
  wr F.CND_CACHE_RESIDENT d 0 (residents d m).length
    (wr F.CND_CACHE_PINNED d 0 ((condsOf d m).filter (fun cn => (cond d cn m).pinned)).length m)

/-- The spill address of a conduit, where its function spills (R241). -/
def spillAt (d cn : Nat) (m : Mod) : Option Nat :=
  let f := (cond d cn m).fn
  if curB F.CND_FN_SPILL_SPILL_EN d f m then
    some (cur F.CND_FN_SPILL_ADDR d f m * 4096 + 256 * (cn - fnBase d f m)) else none

/-- A context written while it is not resident is written in its tier: in host memory where its function spills (R241). -/
def saveCond (d cn : Nat) (m : Mod) : Mod :=
  if (cond d cn m).resident then m
  else match spillAt d cn m with
    | some a => hostWr d (cond d cn m).fn a (cond d cn m).bytes m
    | none => m

/-- A conduit leaves the cache; its context goes back to its tier. -/
def evict (d cn : Nat) (m : Mod) : Mod :=
  let m := match spillAt d cn m with
    | some a => hostWr d (cond d cn m).fn a (cond d cn m).bytes m
    | none => energy d 23 10 2 (count d 609 2 m)
  showCache d (count d 454 1 (updCond d cn (fun c => { c with resident := false }) m))

/-- The conduit is used now: it becomes the most recently used. -/
def touchCond (d cn : Nat) (m : Mod) : Mod :=
  updCond d cn (fun c => { c with used := m.trn.clock + 1 }) (updTrn (fun t => { t with clock := t.clock + 1 }) m)

/-- A fetch begins unless the conduit is resident or being fetched. -/
def startFetch (d cn : Nat) (m : Mod) : Mod :=
  if (cond d cn m).resident then m else updCond d cn (fun c => { c with fetching := true }) m

/-- Fields of a context change, resident or not, and the conduit is fetched. -/
def editCond (d cn : Nat) (f : Cond → Cond) (m : Mod) : Mod := startFetch d cn (saveCond d cn (updCond d cn f m))

/-- The least recently used conduit that may be evicted. -/
def victim (d : Nat) (m : Mod) : Option Nat :=
  ((residents d m).filter (fun cn => evictable d cn m)).foldl (fun b cn =>
    match b with
    | none => some cn
    | some x => if (cond d cn m).used < (cond d x m).used then some cn else some x) none

/-- Make a conduit resident, evicting another where the cache is full; `none`: none can be evicted, so the fetch
waits. Spilled contexts are read from the host through the reserved inbound pool. -/
def makeResident (d cn : Nat) (ans : HostAns) (m : Mod) : Option Mod :=
  if (cond d cn m).resident then some (touchCond d cn m)
  else
    let room : Option Mod :=
      if (residents d m).length < cacheSize d m then some m
      else (victim d m).map (fun v => evict d v m)
    match room with
    | none => none
    | some m =>
      let m := match spillAt d cn m with
        | some a =>
          let m := askHost d (cond d cn m).fn true a 256 (count d 453 1 (bump F.CND_CNT2_FETCH_HOST d 0 m))
          (match hostRead ans a 256 with
           | some b => updCond d cn (fun c => c.ofBytes b) m
           | none => m)
        | none => energy d 23 10 2 (count d 608 2 (count d 452 1 (bump F.CND_CNT2_FETCH_CTX d 0 m)))
      -- a stale conduit is rewritten as CLOSED (R245)
      let m := if condState d cn m = CSt.closed ∧ (cond d cn m).state ≠ CSt.closed
        then setCond d cn { Cond.reset with userCtx := (cond d cn m).userCtx } m else m
      some (showCache d (touchCond d cn (updCond d cn (fun c => { c with resident := true, fetching := false }) m)))

/-! ## The gate pool (R247, R248) -/

/-- The gate pool of a function. -/
def gatePool (d f : Nat) (m : Mod) : List Nat := NMap.get [] m.trn.gate (fk d f)
def setGate (d f : Nat) (l : List Nat) (m : Mod) : Mod :=
  wr F.CND_FN_GATE_GATE_READY d f l.length (updTrn (fun t => { t with gate := NMap.set [] t.gate (fk d f) l }) m)

/-- GATE_POOL_REFILL: a pool below half of its target is filled to it from the lowest free conduits of the gate range: among that
many numbers and one for each conduit in use, enough are free if the range has them. -/
def gateRefill (d f : Nat) (m : Mod) : Mod :=
  let target := min 256 (cur F.CND_FN_GATE_GATE_TARGET d f m)
  let l := gatePool d f m
  if !cndOn d f m ∨ target ≤ 2 * l.length then m
  else
    let top := fnBase d f m + fnCount d f m
    let n := min (fnGate d f m) (fnCount d f m)
    let free := ((List.range (min n (target + l.length + (condsOf d m).length))).map (fun i => top - n + i)).filter
      (fun cn => condState d cn m == CSt.closed && !l.contains cn)
    setGate d f (l ++ free.take (target - l.length)) m

/-! ## Path choice (R195, R196) and windows (R200, R201) -/

/-- S[i]. -/
def Cond.score (c : Cond) (i : Nat) : Nat := bits c.scores (4 * i) 4

/-- Scores aged to the present (R196). -/
def ageScores (d cn : Nat) (m : Mod) : Mod :=
  let p := cur F.RTE_PATH_CTRL_AGE_US d 0 m * 1000
  if p = 0 then m
  else
    let c := cond d cn m
    let n := (now d m - c.agedAt) / p
    if n = 0 then m
    else updCond d cn (fun c => { c with
      agedAt := c.agedAt + n * p
      scores := ((List.range 8).map (fun i => (c.score i - n) * 16 ^ i)).sum }) m

/-- Paths of the conduit's destination that may be used now. -/
def usablePaths (d dest : Nat) (m : Mod) : List Nat :=
  (List.range 8).filter (fun i =>
    match pathEnt d dest i m with
    | some p => pathUsable d p m
    | none => false)

/-- The path with the lowest S + BIAS, a tie going to the first after the last one chosen; `excl` is left out
whenever another qualifies (R196, R256). -/
def bestPath (d cn : Nat) (excl : Option Nat) (m : Mod) : Option Nat :=
  let c := cond d cn m
  let all := usablePaths d c.peer m
  let l := all.filter (fun i => excl != some i)
  let l := if l.isEmpty then all else l
  let cost := fun i => c.score i + ((pathEnt d c.peer i m).map PathEnt.bias).getD 0
  let order := l.filter (fun i => decide (c.lastPath < i)) ++ l.filter (fun i => decide (i ≤ c.lastPath))
  order.foldl (fun b i =>
    match b with
    | none => some i
    | some x => if cost i < cost x then some i else some x) none

/-- Choose a path and note it as LAST_PATH. -/
def choosePath (d cn : Nat) (excl : Option Nat) (m : Mod) : Option Nat × Mod :=
  let m := ageScores d cn m
  match bestPath d cn excl m with
  | some p => (some p, updCond d cn (fun c => { c with lastPath := p }) m)
  | none => (none, m)

/-- An acknowledgement for path `i` with level `l` (R195). -/
def scoreAck (d cn i l : Nat) (m : Mod) : Mod :=
  let m := ageScores d cn m
  updCond d cn (fun c =>
    let s := c.score i
    let s' := if s < l then l else if l < s then s - 1 else s
    { c with scores := setBits c.scores (4 * i) 4 s' }) m

/-- `n` bytes have been acknowledged, with or without CE: the effective window adapts (R201).  ACKED_RUN counts all bytes since
E last changed; only those without CE count towards a rise. -/
def adaptWindow (d cn n : Nat) (ce : Bool) (m : Mod) : Mod :=
  updCond d cn (fun c =>
    let c := { c with acked := c.acked + n, ackedCe := if ce then c.ackedCe + n else c.ackedCe }
    if !c.adapt ∨ c.eff = 0 then c
    else if ce then
      (if c.halved ∧ c.acked < c.eff * 4096 then c
       else { c with eff := max 1 (c.eff / 2), acked := 0, ackedCe := 0, halved := true })
    else if c.eff * 4096 ≤ c.acked - c.ackedCe then
      { c with eff := if c.window = 0 then c.eff else min c.window (c.eff + 1), acked := 0, ackedCe := 0, halved := false }
    else c) m

/-- Bytes in flight are below E (R200). -/
def windowOpen (c : Cond) : Bool := c.window == 0 || decide (c.inflight < c.eff * 4096)

/-- The receive window of the peer has room for one more PSN (R254). -/
def psnOpen (c : Cond) : Bool := decide ((c.txNext + 2 ^ 32 - c.txUna) % 2 ^ 32 < 2 ^ c.peerRx)

/-! ## Packets (R249, R250, R263) -/

/-- A transport header (R249). -/
structure Th where
  op    : Nat
  flags : Nat
  round : Nat
  dcn   : Nat
  scn   : Nat
  psn   : Nat
  msg   : Nat
  off   : Nat
  len   : Nat
  trk   : Nat
  deadline : Nat
  deriving DecidableEq, Repr

/-- Its 40 bytes. -/
def Th.bytes (t : Th) : Bytes :=
  leBytes 1 t.op ++ leBytes 1 t.flags ++ leBytes 1 t.round ++ zeros 1 ++ leBytes 3 t.dcn ++ zeros 1 ++ leBytes 3 t.scn
    ++ zeros 1 ++ leBytes 4 t.psn ++ leBytes 4 t.msg ++ leBytes 4 t.off ++ leBytes 4 t.len ++ leBytes 2 t.trk
    ++ zeros 2 ++ leBytes 8 t.deadline

/-- The header in a packet's bytes, after the routing header. -/
def Th.of (p : Bytes) : Th :=
  { op := rdLE p 24 1, flags := rdLE p 25 1, round := rdLE p 26 1, dcn := rdLE p 28 3, scn := rdLE p 32 3, psn := rdLE p 36 4
    msg := rdLE p 40 4, off := rdLE p 44 4, len := rdLE p 48 4, trk := rdLE p 52 2, deadline := rdLE p 56 8 }

/-! TFLAGS. -/
def Th.last (t : Th) : Bool := bit t.flags 0
def Th.tracked (t : Th) : Bool := bit t.flags 1
def Th.enc (t : Th) : Bool := bit t.flags 2
def Th.phase (t : Th) : Bool := bit t.flags 3
def Th.timed (t : Th) : Bool := bit t.flags 4
def Th.mcast (t : Th) : Bool := bit t.flags 5

/-- The key of a pasture at die `d`. -/
def pkey (d p : Nat) (m : Mod) : Option PKey := NMap.find m.keys (d * 65536 + p)

/-- The IV of R263. -/
def gcmIv (src ctr : Nat) : Bytes := leBytes 12 (src % 2 ^ 20 * 2 ^ 76 + ctr % 2 ^ 64)

/-- The additional authenticated data of R263. -/
def gcmAad (p : Bytes) : Bytes := sub p 10 9 ++ sub p 20 4 ++ sub p 24 40

/-- Build a transport packet: the routing header `rh` of a total length, the transport header, and what follows
it, encrypted where the pasture has a key. -/
def buildPacket (d pasture : Nat) (rh : Nat → Bytes) (t : Th) (rest : Bytes) (m : Mod) : Bytes × Mod :=
  match pkey d pasture m with
  | none => (rh (64 + rest.length) ++ t.bytes ++ rest, m)
  | some k =>
    let t := { t with flags := setBit (setBit t.flags 2 true) 3 (k.gen % 2 == 1) }
    let hd := rh (88 + rest.length) ++ t.bytes
    let c := NMap.get 0 m.trn.ctr (d * 65536 + pasture)
    let e := Config.gcmSeal k.key (gcmIv (eidOf d m) c) (gcmAad hd) rest
    (hd ++ e.1 ++ leBytes 8 c ++ padTo 16 e.2,
      updTrn (fun t => { t with ctr := NMap.set 0 t.ctr (d * 65536 + pasture) ((c + 1) % 2 ^ 64) }) m)

/-- The routing header of a unicast packet by a path entry. -/
def uniHdr (d dest pasture path : Nat) (p : PathEnt) (m : Mod) (len : Nat) : Bytes :=
  mkHdr p.route p.hops false false path dest (eidOf d m) pasture 1 len 0

/-- Send a packet that takes no PSN (an acknowledgement, or a CLOSE after an abortive close) by the first path of
the record that can be used; without one it is lost (R197). -/
def sendLoose (d dest pasture vc : Nat) (t : Th) (rest : Bytes) (m : Mod) : Mod :=
  let m := pathFetch d dest m
  match (usablePaths d dest m).head? with
  | none => m
  | some i =>
    match pathEnt d dest i m with
    | none => m
    | some p =>
      let b := buildPacket d pasture (uniHdr d dest pasture i p m) t rest m
      startReq d false vc b.1 b.2

/-! ## Flit buffers (R322, R323) -/

/-- Flit buffers of a die's transport buffer (less 128 for each macro lost beyond the staging share, R36), and
those held. -/
def bufTotal (d : Nat) (m : Mod) : Nat :=
  let t := partOf d m
  t * 4096 - 128 * min (macrosBad d m - (16 - t) * 32) ((t - 1) * 32)
def bufUsed (d : Nat) (m : Mod) : Nat := ((condsOf d m).map (fun cn => (cond d cn m).bufs)).sum
def reserveUsed (d : Nat) (m : Mod) : Nat := ((condsOf d m).filter (fun cn => (cond d cn m).fromReserve)).length
def reserveSize (d : Nat) (m : Mod) : Nat := max 16 (cur F.RMA_TB_CTRL_RESERVE d 0 m)

/-- Buffers free outside the reserve. -/
def bufFree (d : Nat) (m : Mod) : Nat := bufTotal d m - reserveSize d m - (bufUsed d m - reserveUsed d m)

/-- Show the buffers held and the send records in use. -/
def showBufs (d : Nat) (m : Mod) : Mod :=
  wr F.RMA_TB_STATUS_IN_USE d 0 (bufUsed d m)
    (wr F.RMA_TB_STATUS_RECORDS d 0 ((condsOf d m).map (fun cn => (cond d cn m).recs.length)).sum m)

/-- Buffers that one more packet of `flits` needs: its staging and one send record in 16 to a buffer. -/
def bufNeed (c : Cond) (flits : Nat) : Nat := flits + (c.recs.length + 16) / 16

/-- Whether the conduit holds, or now obtains, the buffers that a packet needs; else it waits (R323). -/
def takeBufs (d cn flits : Nat) (m : Mod) : Bool × Mod :=
  let c := cond d cn m
  let want := min (bufNeed c flits) (max 1 (cur F.RMA_TB_CTRL_CONDUIT_MAX d 0 m))
  let enough : Nat → Bool := fun n => decide (bufNeed c flits ≤ n) || (decide (1 ≤ n) && c.recs.isEmpty)
  if enough c.bufs then (true, m)
  else if want - c.bufs ≤ bufFree d m ∧ enough want then
    (true, updCond d cn (fun c => { c with bufs := max c.bufs want, bufWait := false }) m)
  else (false, updCond d cn (fun c => { c with bufWait := true }) m)

/-- Staging is over and records are as they are: the conduit keeps one buffer for each 16 records. -/
def keepBufs (d cn : Nat) (m : Mod) : Mod :=
  showBufs d (updCond d cn (fun c =>
    let n := (c.recs.length + 15) / 16
    { c with bufs := min c.bufs n, fromReserve := c.fromReserve && decide (0 < min c.bufs n) }) m)

/-- FLIT_BUFFER_GRANT: a waiting conduit receives one buffer, from the reserve if it holds none. -/
def bufGrant (d cn : Nat) (m : Mod) : Mod :=
  let c := cond d cn m
  if !c.bufWait then m
  else if 0 < bufFree d m then showBufs d (updCond d cn (fun c => { c with bufs := c.bufs + 1, bufWait := false }) m)
  else if c.bufs = 0 ∧ reserveUsed d m < reserveSize d m then
    showBufs d (updCond d cn (fun c => { c with bufs := 1, fromReserve := true, bufWait := false }) m)
  else m

/-! ## Messages (R258, R261, R308) -/

/-! Transport operation codes (R249, R306, R329, R347). -/
namespace Op
def put : Nat := 0x01
def getReq : Nat := 0x02
def getRsp : Nat := 0x03
def atomic : Nat := 0x04
def atomicRsp : Nat := 0x05
def eager : Nat := 0x10
def rts : Nat := 0x11
def fin : Nat := 0x12
def lockReq : Nat := 0x20
def lockGrant : Nat := 0x21
def lockNotice : Nat := 0x22
def lockProbe : Nat := 0x23
def ack : Nat := 0x40
def close : Nat := 0x41
def trkReq : Nat := 0x42
end Op

/-- Operations whose packets carry message bytes. -/
def carries (op : Nat) : Bool := [Op.put, Op.getRsp, Op.atomicRsp, Op.eager].contains op

/-- Operations that travel on RSP. -/
def onRsp (op : Nat) : Bool := [Op.getRsp, Op.atomicRsp, Op.ack].contains op

/-- The length of the packet of a message that starts at offset `o` (R308, R349). -/
def pieceLen (op addr len o : Nat) : Nat :=
  if carries op then min (4096 - (if op = Op.eager then o else addr + o) % 4096) (len - o) else 0

/-- A blank message. -/
def Msg.blank : Msg :=
  { id := 0, op := 0, len := 0, addr := 0, hdr := [], buf := [], held := none, xctx := 0, cls := 0, next := 0, all := false
    ask := 0, trk := none, path := none, owner := .nobody, wait := 0, fail := none, faultAddr := 0, result := 0, moved := 0
    resAddr := 0, sent := 0 }

/-- A new message joins the conduit's send list under the next MSG_ID; answers the identifier. -/
def addMsg (d cn : Nat) (g : Msg) (m : Mod) : Nat × Mod :=
  let c := cond d cn m
  (c.nextMsg, updCond d cn (fun c => { c with msgs := c.msgs ++ [{ g with id := c.nextMsg }], nextMsg := (c.nextMsg + 1) % 2 ^ 32 })
    (startFetch d cn m))

/-- A message of a conduit. -/
def msgOf (d cn id : Nat) (m : Mod) : Option Msg := (cond d cn m).msgs.find? (fun g => g.id == id)
def updMsg (d cn id : Nat) (f : Msg → Msg) (m : Mod) : Mod :=
  updCond d cn (fun c => { c with msgs := c.msgs.map (fun g => if g.id = id then f g else g) }) m

/-- Note a failing packet: the lowest offset decides (R261). -/
def Msg.failAt (off status detail : Nat) (g : Msg) : Msg :=
  match g.fail with
  | some (o, _, _) => if off < o then { g with fail := some (off, status, detail) } else g
  | none => { g with fail := some (off, status, detail) }

/-- A message has ended: its owner is told at the end of the command. -/
def endMsg (d cn : Nat) (g : Msg) (status detail len result : Nat) (m : Mod) : Mod :=
  let m := updCond d cn (fun c => { c with
    msgs := c.msgs.filter (fun x => x.id != g.id)
    inflight := if g.wait = 1 then c.inflight - (g.sent - g.moved) else c.inflight }) m
  if g.owner = .nobody then m else later (.msgDone d cn (cond d cn m).peer g.owner status detail len result) m

/-- A message ends once every packet has a result, and what it waits for beside them has come; a failing
request ends at once (R261, R317). -/
def checkMsg (d cn id : Nat) (m : Mod) : Mod :=
  match msgOf d cn id m with
  | none => m
  | some g =>
    if !g.all || (cond d cn m).recs.any (fun r => r.msg == id && r.op == g.op) then m
    else
      let m := if g.op = Op.getReq then m else sampleDone d g.owner m
      match g.fail with
      | some (o, st, dt) => endMsg d cn g st dt (if g.wait = 1 then min o g.moved else o) g.faultAddr m
      | none => if g.wait = 0 then endMsg d cn g St.ok 0 g.len g.result m else m

/-- What a message waited for has come (R317, R332, R352): its owner is told, and the message stays until its own
packets have results. -/
def finishMsg (d cn id status detail len result : Nat) (m : Mod) : Mod :=
  match msgOf d cn id m with
  | none => m
  | some g =>
    let m := if g.op = Op.getReq then sampleDone d g.owner m else m
    let m := if g.owner = .nobody then m else later (.msgDone d cn (cond d cn m).peer g.owner status detail len result) m
    let m := updCond d cn (fun c => { c with
      inflight := if g.wait = 1 then c.inflight - (g.sent - g.moved) else c.inflight
      msgs := c.msgs.map (fun x => if x.id = id then { x with owner := .nobody, wait := 0, fail := none } else x) }) m
    checkMsg d cn id m

/-- The identifier under which a response to message `id` of the peer is kept beside the conduit's own messages. -/
def respId (id : Nat) : Nat := 2 ^ 32 + id

/-- A response joins the send list under the requester's MSG_ID. -/
def addResponse (d cn id : Nat) (g : Msg) (m : Mod) : Mod :=
  updCond d cn (fun c => { c with msgs := c.msgs ++ [{ g with id := respId id }] }) m

/-! ## Sending (R254, R199) -/

/-- The routing header of a conduit's packet; none: no path. -/
def routeHdr (d cn : Nat) (path : Option Nat) (m : Mod) : Option (Nat → Bytes) :=
  let c := cond d cn m
  if c.mcast ∧ !c.fromGate then
    some (fun len => mkHdr [] 1 true false 0 c.peer (eidOf d m) c.pasture 1 len 0)
  else match path with
    | none => none
    | some i => (pathEnt d c.peer i m).map (fun p => uniHdr d c.peer c.pasture i p m)

/-- The transport header of a packet of a message. -/
def msgTh (cn : Nat) (c : Cond) (g : Msg) (r : Rec) : Th :=
  { op := r.op
    flags := b2n (r.op == g.op && (decide (g.len ≤ r.off + r.len) || !carries g.op || (g.op == Op.getRsp && r.len == 0))) + 2 * b2n (r.op == g.op && g.trk.isSome)
      + 32 * b2n c.mcast
    round := r.round, dcn := if c.mcast then 0xFFFFFF else c.peerCn, scn := cn, psn := r.psn, msg := g.id, off := r.off, len := g.len
    trk := if r.op = g.op then g.trk.getD 0 else 0, deadline := 0 }

/-- The RMA header of a response (R307). -/
def rspHdr (status detail : Nat) : Bytes := zeros 11 ++ leBytes 1 status ++ leBytes 1 detail ++ zeros 11

/-- The operation header of a packet of a message; a GET response that a failure ends carries it in its last packet
(R311). -/
def pktHdr (g : Msg) (r : Rec) : Bytes :=
  if r.op ≠ g.op then []
  else if g.op = Op.getRsp ∧ r.len = 0 ∧ g.len ≠ 0 then
    (match g.fail with
     | some (_, st, dt) => rspHdr st dt
     | none => g.hdr)
  else g.hdr

/-- The bytes of a packet's payload: held by the module, or read from host memory (R286). -/
def msgPayload (d cn : Nat) (g : Msg) (off n : Nat) (ans : HostAns) (m : Mod) : HRes × Mod :=
  match g.held with
  | some b => (.ok (sub b off n), m)
  | none => if n = 0 then (.ok [], m) else readBuf d (cond d cn m).fn g.xctx g.cls ans (cutBuf g.buf off n) m

/-- Put a packet on its way: by its path, or lost where there is none (R197). -/
def launch (d cn vc : Nat) (r : Rec) (t : Th) (rest : Bytes) (m : Mod) : Mod :=
  match routeHdr d cn r.path m with
  | none => m
  | some rh =>
    let b := buildPacket d (cond d cn m).pasture rh t rest m
    energy d 18 8 1 (startPacket d false vc b.1 b.2)

/-- The retry timer's expiry: the earliest open packet's sending time plus RTO (R256). -/
def rto (c : Cond) : Nat := c.retryBase * 2 ^ (min c.retries 6)
def showRetry (d cn : Nat) (m : Mod) : Mod :=
  updCond d cn (fun c =>
    { c with retryAt := match c.recs with
        | [] => 0
        | r :: rs => rs.foldl (fun a x => min a x.time) r.time + rto c }) m

/-- LENGTH of the next packet of a message. -/
def nextLen (d cn : Nat) (g : Msg) (m : Mod) : Nat :=
  let n := if g.ask = 1 then 0 else pieceLen g.op g.addr g.len g.next
  64 + (if g.ask = 1 then 0 else g.hdr.length + n) + (if (pkey d (cond d cn m).pasture m).isSome then 24 else 0)

/-- The first exit code of a conduit's packet; none for a flock packet, whose ROUTE is ignored (R203). -/
def firstCode (d cn : Nat) (path : Option Nat) (m : Mod) : Option Nat :=
  let c := cond d cn m
  if c.mcast ∧ !c.fromGate then none
  else path.bind (fun i => (pathEnt d c.peer i m).map (fun p => p.route.getD 0 0xFF))

/-- A packet of the conduit on its path may start now; one on RSP always may (R199). -/
def mayLaunch (d cn op : Nat) (path : Option Nat) (flits : Nat) (m : Mod) : Bool × Mod :=
  match firstCode d cn path m with
  | some c => if onRsp op then (true, m) else reqMayStart (128 + 2 * d) false c flits m
  | none => (true, m)

/-- The path that a packet takes: none for a flock packet. -/
def pickPath (d cn : Nat) (excl : Option Nat) (m : Mod) : Option Nat × Mod :=
  let c := cond d cn m
  if c.mcast ∧ !c.fromGate then (none, m) else choosePath d cn excl m

/-- A packet of an operation on a path of the conduit may start as far as R199 and its first link's credits say (R291). -/
def exitReady (d cn op : Nat) (path : Option Nat) (m : Mod) : Bool :=
  (mayLaunch d cn op path 1 m).1 && match (firstCode d cn path m).bind (fun c => firstExit (128 + 2 * d) c m) with
    | some pc => !linkUp pc m || decide (0 < (link pc m).avail (if onRsp op then 1 else 0))
    | none => true

/-- A packet of an operation may start on the conduit (R291): resident and not closed, its windows, its path record, and its
exit on the path given or on the one that would be chosen. -/
def sendReady (d cn op : Nat) (path : Option Nat) (m : Mod) : Bool :=
  let c := cond d cn m
  c.resident && condState d cn m != CSt.closed && psnOpen c && (onRsp op || windowOpen c) && (c.mcast || pathCached d c.peer m)
    && exitReady d cn op (path.or (pickPath d cn none m).1) m

/-- The tag under which a packet's payload is read can be had (R54, R56): a function at its limit, or an empty pool, makes the
packet wait. A function that may issue no request meets HOST_ABORT instead (R59). -/
def payloadTag (d cn : Nat) (g : Msg) (m : Mod) : Bool :=
  g.ask == 1 || !carries g.op || g.held.isSome || g.buf.isEmpty || !canIssue d (cond d cn m).fn m
    || tagOpen d (cond d cn m).fn (g.op == Op.getRsp) m

/-- A message's next packet is ready (R291), its send record apart. -/
def packetReady (d cn : Nat) (g : Msg) (m : Mod) : Bool :=
  !g.all && g.ask != 2 && sendReady d cn (if g.ask = 1 then Op.trkReq else g.op) (if g.trk.isNone then g.path else none) m
    && payloadTag d cn g m

/-- So is its send record (R254, R323). -/
def recordReady (d cn : Nat) (g : Msg) (m : Mod) : Bool := (takeBufs d cn (flitCount (nextLen d cn g m)) m).1

/-- Start one packet of message `id`; answers the counted length in bytes, 0 where it could not start. `err` is a
failure that ends a GET response now. -/
def injectPacket (d cn id : Nat) (ans : HostAns) (err : Option (Nat × Nat)) (m : Mod) : Nat × Mod :=
  match msgOf d cn id m with
  | none => (0, m)
  | some g =>
    if !(cond d cn m).resident then (0, startFetch d cn m)
    else if !packetReady d cn g m then (0, m)
    else
      let op := if g.ask = 1 then Op.trkReq else g.op
      let n := if g.ask = 1 then 0 else pieceLen g.op g.addr g.len g.next
      let pl := 64 + (if g.ask = 1 then 0 else g.hdr.length + n) + (if (pkey d (cond d cn m).pasture m).isSome then 24 else 0)
      let flits := flitCount pl
      let ch := if g.path.isSome ∧ g.trk.isNone then (g.path, m) else pickPath d cn none m
      let path := ch.1
      let th := mayLaunch d cn op path flits ch.2
      if !th.1 then (0, th.2)
      else
        let tb := takeBufs d cn flits th.2
        if !tb.1 then (0, tb.2)
        else
          let pay := if g.ask = 1 ∨ err.isSome then (HRes.ok [], tb.2) else msgPayload d cn g g.next n ans tb.2
          -- a response segment that cannot be read ends the response with its failure (R311)
          let bad : Option (Nat × Nat × Nat) := match err, pay.1 with
            | some (st, dt), _ => some (st, dt, 0)
            | none, .bad st dt va => some (st, dt, va)
            | none, .ok _ => none
          match bad, g.op == Op.getRsp with
          | some (st, dt, va), false =>
            (0, keepBufs d cn (checkMsg d cn id (updMsg d cn id (fun g => { (g.failAt g.next st dt) with all := true, faultAddr := va }) pay.2)))
          | bad, _ =>
            let fail := bad.map (fun e => if e.1 = St.hostAbort then (St.remoteAccess, 0x06) else (e.1, e.2.1))
            let n := if fail.isSome then 0 else n
            let b := match pay.1, fail with
              | .ok b, none => b
              | _, _ => []
            let m := pay.2
            let m := if fail = some (St.remoteAccess, 0x06) then bump F.RMA_CNT1_HOST_ERR d 0 m else m
            let m := match fail with
              | some (st, dt) => updMsg d cn id (fun g => { (g.failAt g.next st dt) with all := true }) m
              | none => m
            let g := (msgOf d cn id m).getD g
            let c := cond d cn m
            let r : Rec := { psn := c.txNext, msg := id, op := op, off := if g.ask = 1 then 0 else g.next, len := n, path := path, round := 0
                             time := now d m, acks := 0, again := none }
            let last := decide (g.len ≤ g.next + n) || !carries g.op || fail.isSome
            let m := updMsg d cn id (fun g =>
              if g.ask = 1 then { g with ask := 2 }
              else { g with next := g.next + n, all := last, path := if g.trk.isSome then none else path
                            sent := if g.op = Op.getReq then g.len else g.sent }) m
            let m := updCond d cn (fun c => { c with
              txNext := (c.txNext + 1) % 2 ^ 32, recs := c.recs ++ [r]
              inflight := if onRsp op then c.inflight else c.inflight + (if op = Op.getReq then g.len else n)
              pktsTx := (c.pktsTx + 1) % 2 ^ 64, bytesTx := (c.bytesTx + n) % 2 ^ 64 }) m
            let m := if op = Op.getRsp then bump F.RMA_CNT0_GET_SEGS d 0 m else m
            let m := sampleStart d g.owner m.xb.nextPkt r.psn (path.getD 0) m
            let m := launch d cn (if onRsp op then 1 else 0) r (msgTh cn c g r) (pktHdr g r ++ b) m
            (pl, showRetry d cn (keepBufs d cn (count d 448 1 m)))

/-! ## Results (R255, R261) -/

/-- TX_UNA: the oldest PSN without a result. -/
def advanceUna (d cn : Nat) (m : Mod) : Mod :=
  updCond d cn (fun c =>
    let una := c.recs.foldl (fun a r => if (r.psn + 2 ^ 32 - c.txUna) % 2 ^ 32 < (a + 2 ^ 32 - c.txUna) % 2 ^ 32 then r.psn else a) c.txNext
    { c with txUna := una, retries := if una = c.txUna then c.retries else 0 }) m

/-- One open packet gets its result.  STATUS is taken as it comes: a code that R17 says no unit writes counts as a failure under
that code (DESIGN CHOICE: the spec does not say what an acknowledgement with such a code means). -/
def resolve (d cn : Nat) (r : Rec) (status detail : Nat) (trk : Option Nat) (m : Mod) : Mod :=
  let m := updCond d cn (fun c => { c with
    recs := c.recs.filter (fun x => x.psn != r.psn)
    inflight := if onRsp r.op || r.op == Op.getReq then c.inflight else c.inflight - r.len }) m
  let m :=
    if r.op = Op.trkReq then updMsg d cn r.msg (fun g => { g with ask := 0, trk := if status = St.ok then trk else none }) m
    else if r.op = Op.close then m
    else if status = St.ok then m
    else updMsg d cn r.msg (fun g => g.failAt r.off status detail) m
  keepBufs d cn (checkMsg d cn r.msg m)

/-! ## Teardown (R265, R266) -/

/-- Free a tracker. -/
def trkFree (d t : Nat) (m : Mod) : Mod :=
  let m := updTrn (fun x => { x with trk := NMap.del x.trk (d * 4096 + t) }) m
  wr F.CND_TRK_IN_USE d 0 (m.trn.trk.filter (fun e => e.1 / 4096 == d)).length m

/-- A CLOSE sent once, outside the sequence (R266); a multicast sender's goes to its flock. -/
def looseClose (d cn : Nat) (c : Cond) (m : Mod) : Mod :=
  let t : Th := { op := Op.close, flags := 0, round := 0, dcn := c.peerCn, scn := cn, psn := c.txNext, msg := 0, off := 0, len := 0, trk := 0
                  deadline := 0 }
  if !c.resident then m
  else if c.mcast && !c.fromGate then
    let rh := fun len => mkHdr [] 1 true false 0 c.peer (eidOf d m) c.pasture 1 len 0
    let b := buildPacket d c.pasture rh { t with flags := 32, dcn := 0xFFFFFF } [] m
    startPacket d false 0 b.1 b.2
  else sendLoose d c.peer c.pasture 0 t [] m

/-- The conduit becomes CLOSED: its messages end with a status, its trackers and pen packets go, its pin is lost,
a gate conduit is free again. -/
def dropCond (d cn code status detail : Nat) (m : Mod) : Mod :=
  let c := cond d cn m
  let m := c.msgs.foldl (fun m g => endMsg d cn g status detail (match g.fail with | some (o, _, _) => min o g.moved | none => g.moved) 0 m) m
  let m := (trksOf d cn m).foldl (fun m t => trkFree d t m) m
  let m := if penned d cn m then setPen d ((pen d m).filter (fun e => e.1 != cn)) m else m
  let m := saveCond d cn (updCond d cn (fun c => { c with state := CSt.closed, pinned := false, resident := false }) m)
  let m := later (.condClosed d cn code status detail) (setCond d cn Cond.reset m)
  showBufs d (showCache d m)

/-- Abortive close with a trigger of R301. -/
def closeCond (d cn code status detail : Nat) (m : Mod) : Mod :=
  let c := cond d cn m
  if c.state = CSt.closed then m
  else
    let m := looseClose d cn c m
    let m := event d c.fn 0x0041 code (leBytes 3 cn ++ zeros 5 ++ leBytes 8 c.userCtx) m
    dropCond d cn code status detail m

/-- CONDUIT_CLOSE stops new messages (R266). -/
def startClose (d cn : Nat) (m : Mod) : Mod :=
  if condLive d cn m then editCond d cn (fun c => { c with state := CSt.closing }) m else m

/-- CLOSE_SEND: once every open packet has a result, the conduit sends CLOSE, which takes a PSN; R199 may make it wait. -/
def closeSend (d cn : Nat) (m : Mod) : Mod :=
  let c := cond d cn m
  if condState d cn m != CSt.closing || c.closeSent || !c.recs.isEmpty || c.msgs.any (fun g => !g.all) || !c.resident then m
  else
    let ch := if c.mcast ∧ !c.fromGate then (none, m) else choosePath d cn none (pathFetch d c.peer m)
    let th := mayLaunch d cn Op.close ch.1 1 ch.2
    if !th.1 then th.2 else
    let r : Rec := { psn := c.txNext, msg := 2 ^ 40, op := Op.close, off := 0, len := 0, path := ch.1, round := 0, time := now d m, acks := 0
                     again := none }
    let m := updCond d cn (fun c => { c with txNext := (c.txNext + 1) % 2 ^ 32, recs := [r], closeSent := true, pktsTx := (c.pktsTx + 1) % 2 ^ 64 }) (count d 448 1 th.2)
    showRetry d cn (launch d cn 0 r (msgTh cn c { Msg.blank with id := 0 } r) [] m)

/-! ## Retry (R256, R257, R262) -/

/-- Send an open packet again: ROUND rises, and the path is chosen afresh without the one last used.  It counts as a new packet
for R199: one that may not start stays as it is, due for the next expiry (DESIGN CHOICE: the spec names no moment). -/
def resendRec (d cn : Nat) (ans : HostAns) (r : Rec) (m : Mod) : Mod :=
  let c := cond d cn m
  let g := if r.op = Op.close then some { Msg.blank with id := 0 } else msgOf d cn r.msg m
  match g with
  | none => m
  | some g =>
    let ch := if c.mcast ∧ !c.fromGate then (none, m) else choosePath d cn r.path (pathFetch d c.peer m)
    let pl := 64 + (pktHdr g r).length + r.len + (if (pkey d c.pasture m).isSome then 24 else 0)
    let th := mayLaunch d cn r.op ch.1 (flitCount pl) ch.2
    if !th.1 then th.2 else
    let pay := if r.op = g.op then msgPayload d cn g r.off r.len ans th.2 else (.ok [], th.2)
    let r' := { r with path := ch.1, round := (r.round + 1) % 256, time := now d m, acks := 0, again := none }
    let m := updCond d cn (fun c => { c with
      recs := c.recs.map (fun x => if x.psn = r.psn then r' else x), retx := (c.retx + 1) % 2 ^ 32 }) pay.2
    match pay.1 with
    | .bad st dt va => updMsg d cn r.msg (fun g => { (g.failAt r.off st dt) with faultAddr := va }) m
    | .ok b =>
      count d 449 1 (launch d cn (if onRsp r.op then 1 else 0) r' (msgTh cn c g r') (pktHdr g r' ++ b) m)

/-- A multicast conduit at its limit: each unfinished message that has open packets, sent whole or not, completes PARTIAL with the
count of missing leaves, and its packets take that result (R262). -/
def mcastPartial (d cn : Nat) (m : Mod) : Mod :=
  let c := cond d cn m
  let ids := (c.recs.map Rec.msg).eraseDups
  let m := ids.foldl (fun m id =>
    let least := ((c.recs.filter (fun r => r.msg == id)).map Rec.acks).foldl min c.leaves
    let m := updCond d cn (fun c => { c with
      recs := c.recs.filter (fun r => r.msg != id)
      inflight := c.inflight - ((c.recs.filter (fun r => r.msg == id)).map Rec.len).sum }) m
    match msgOf d cn id m with
    | some g => endMsg d cn g St.partialDone 0 (c.leaves - least) 0 m
    | none => m) m
  updCond d cn (fun c => { c with retries := 0, retryAt := 0 }) (keepBufs d cn (advanceUna d cn m))

/-- RETRY_TIMEOUT (R256): the timer expires (the die's counter is taken there where it runs); the open packets sent at least the
expired RTO ago are sent again, those in back-off too; and a limit reached closes the conduit or completes PARTIAL.  For a
multicast conduit still OPENING at its limit the spec has no rule: it goes on (DESIGN CHOICE). -/
def retryTimeout (d cn : Nat) (ans : HostAns) (m : Mod) : Mod :=
  let c := cond d cn m
  if c.recs.isEmpty || c.state == CSt.closed then m
  else
    let m := if now d m < c.retryAt then runTo d c.retryAt m else m
    let old := rto c
    let m := updCond d cn (fun c => { c with retries := min 255 (c.retries + 1) }) m
    let m := (c.recs.filter (fun r => decide (r.time + old ≤ now d m))).foldl (fun m r => resendRec d cn ans r m) m
    if c.retryLimit ≤ c.retries + 1 then
      if c.state ≠ CSt.closing ∧ c.mcast ∧ !c.fromGate then
        (if c.state = CSt.open_ then mcastPartial d cn m else showRetry d cn m)
      else closeCond d cn 3 St.retryExceeded 0 m
    else showRetry d cn m

/-- NOT_READY_RETRY (R257): the back-off of a refused packet ends and it is sent again. -/
def notReadyRetry (d cn psn : Nat) (ans : HostAns) (m : Mod) : Mod :=
  match (cond d cn m).recs.find? (fun r => r.psn == psn) with
  | none => m
  | some r =>
    match r.again with
    | none => m
    | some t => showRetry d cn (resendRec d cn ans r (if now d m < t then runTo d t m else m))

/-- A NOT_READY refusal of a packet (R257). -/
def notReady (d cn : Nat) (r : Rec) (detail : Nat) (m : Mod) : Mod :=
  let c := cond d cn m
  if 64 ≤ c.nrCount + 1 then closeCond d cn 4 St.notReady detail m
  else
    let back := cur F.CND_TIMING_NR_BACKOFF_NS d 0 m * 2 ^ (min c.nrCount 4)
    updCond d cn (fun c => { c with
      nrCount := c.nrCount + 1, nrDetail := detail, nrRecv := (c.nrRecv + 1) % 2 ^ 32
      recs := c.recs.map (fun x => if x.psn = r.psn then { x with again := some (now d m + back) } else x) }) m

/-- Every conduit of a function closes by a change of EPOCH (R245, R267): 6 EPOCH. -/
def closeFn (d f : Nat) (status : Nat) (m : Mod) : Mod :=
  let cs := (condsOf d m).filter (fun cn => (cond d cn m).fn == f && condState d cn m != CSt.closed)
  let m := cs.foldl (fun m cn => closeCond d cn 6 status 0 m) m
  let m := setGate d f [] m
  wr F.CND_FN_STATUS_EPOCH d f ((epochOf d f m + 1) % 65536) m

/-- CONDUIT_FN_ENABLE. -/
def cndFnEnable (d f : Nat) (on : Bool) (m : Mod) : Mod :=
  if on then
    (if cndOn d f m then m
     else if rangeConflict d f m then wrB F.CND_STATUS_RANGE_CONFLICT d 0 true (force F.CND_FN_CTL_ENABLE d f 0 m)
     else force F.CND_FN_CTL_ENABLE d f 1 m)
  else if cndOn d f m then closeFn d f St.conduitClosed (force F.CND_FN_CTL_ENABLE d f 0 m)
  else m

end Sys2Proof.Machine
end

