-- ==== Sys2Proof/Machine/Rma.lean ====
section
/-! DEFINITION. Remote memory access (spec/11): the responder's checks and effects, the requester's placement of
responses, and receive completions (R303 to R321). -/
namespace Sys2Proof.Machine

/-! Details of REMOTE_ACCESS (R313, R331, R362). -/
namespace RaDet
def noRxRing : Nat := 0x01
def fnNotReady : Nat := 0x02
def noAtomics : Nat := 0x03
def noContext : Nat := 0x04
def badAlign : Nat := 0x05
def hostError : Nat := 0x06
def fnReset : Nat := 0x07
def noLanding : Nat := 0x08
def noTracker : Nat := 0x09
end RaDet

/-- What a handler answers: status and detail of the acknowledgement, and the state. -/
abbrev HOut := Nat × Nat × Mod

/-- R311 step 1: the function is RUNNING with Bus Master Enable set; else the detail. -/
def fnStop (d f : Nat) (m : Mod) : Option Nat :=
  if fnRunning d f m && bme d f m then none
  else some (if fnState d f m = FnSt.resetting then RaDet.fnReset else RaDet.fnNotReady)

/-- The function's receive ring is ready (R299). -/
def rxRingReady (d f : Nat) (m : Mod) : Bool :=
  curB F.WQU_FN_RX_RX_EN d f m
    && (let r := cur F.WQU_FN_RX_RX_CRING d f m
        qState d 1 r m == QSt.active && qOwner d r m == f)

/-! The RMA header's fields (R307), at the start of what follows the transport header. -/
namespace Rma
def addr (b : Bytes) : Nat := rdLE b 0 8
def xctx (b : Bytes) : Nat := rdLE b 8 2 % 4096
def flags (b : Bytes) : Nat := rdLE b 10 1
def rstatus (b : Bytes) : Nat := rdLE b 11 1
def rdetail (b : Bytes) : Nat := rdLE b 12 1
def imm (b : Bytes) : Nat := rdLE b 16 8
def remoteCpl (b : Bytes) : Bool := bit (flags b) 0
def hasImm (b : Bytes) : Bool := bit (flags b) 1
def aop (b : Bytes) : Nat := bits (flags b) 2 3
def asize (b : Bytes) : Nat := 4 * 2 ^ (bits (flags b) 5 2)
end Rma

/-- An RMA request header. -/
def rmaHdr (addr xctx flags imm : Nat) : Bytes :=
  leBytes 8 addr ++ leBytes 2 xctx ++ leBytes 1 flags ++ zeros 5 ++ leBytes 8 imm

/-- A request packet fails R311. -/
def refuse (d status detail : Nat) (m : Mod) : HOut := (status, detail, bump F.RMA_CNT1_REFUSED d 0 m)

/-- The status that an access result gives at a responder (R311 steps 7 and 8, R428). -/
def accStatus : AccRes → Nat × Nat
  | .ok _ _ => (St.ok, 0)
  | .fault detail _ => (St.xltFault, detail)
  | .denied => (St.accessDenied, 0)
  | .err => (St.remoteAccess, RaDet.hostError)

/-- Steps 6 to 8 and the write of a PUT's bytes at a target address. -/
def putBytes (d f xctx addr cls : Nat) (b : Bytes) (ans : HostAns) (m : Mod) : HOut :=
  if !ctxOk d f xctx m then refuse d St.remoteAccess RaDet.noContext m
  else
    let x := access d f xctx addr b.length 1 cls ans m
    match x.1 with
    | .ok ps _ => (St.ok, 0, bump F.RMA_CNT0_PUT_PKTS d 0 (flushRo d f true (writePieces d f ps b x.2)))
    | r =>
      let m := if r = .err then bump F.RMA_CNT1_HOST_ERR d 0 x.2 else x.2
      refuse d (accStatus r).1 (accStatus r).2 m

/-- A PUT packet at its responder (R311); at a far bridge step 3 does not apply (R450). -/
def putIn (d cn cls : Nat) (th : Th) (rest : Bytes) (ans : HostAns) (m : Mod) : HOut :=
  let f := (cond d cn m).fn
  match fnStop d f m with
  | some dt => refuse d St.remoteAccess dt m
  | none =>
    if cls != Cls5.peer && Rma.remoteCpl rest && !rxRingReady d f m then refuse d St.remoteAccess RaDet.noRxRing m
    else putBytes d f (Rma.xctx rest) (Rma.addr rest + th.off) cls (rest.drop 24) ans m

/-- A GET_REQ at its responder: accepted, it is answered segment by segment (R309). -/
def getIn (d cn cls : Nat) (th : Th) (rest : Bytes) (m : Mod) : HOut :=
  let f := (cond d cn m).fn
  match fnStop d f m with
  | some dt => refuse d St.remoteAccess dt m
  | none =>
    if !ctxOk d f (Rma.xctx rest) m then refuse d St.remoteAccess RaDet.noContext m
    else if th.len = 0 then (St.ok, 0, m)
    else (St.ok, 0, addResponse d cn th.msg
      { Msg.blank with op := Op.getRsp, len := th.len, addr := Rma.addr rest, hdr := rspHdr 0 0, buf := [(Rma.addr rest, th.len)]
                       xctx := Rma.xctx rest, cls := cls } m)

/-- GET_RESPONSE_SEGMENT: the next segment of the oldest response is read, checked and sent (R311). -/
def getSegment (d cn : Nat) (ans : HostAns) (m : Mod) : Mod :=
  match (cond d cn m).msgs.find? (fun g => g.op == Op.getRsp && !g.all) with
  | none => m
  | some g =>
    let err := (fnStop d (cond d cn m).fn m).map (fun dt => (St.remoteAccess, dt))
    (injectPacket d cn g.id ans err m).2

/-- An ATOMIC_RSP is due with a value or a failure. -/
def atomicReply (d cn id status detail : Nat) (prior : Bytes) (m : Mod) : Mod :=
  addResponse d cn id { Msg.blank with op := Op.atomicRsp, len := 16, hdr := rspHdr status detail, held := some (padTo 16 prior) } m

/-- An ATOMIC at its responder (R311, R315): one AtomicOp; ADD answers by its acknowledgement alone. -/
def atomicIn (d cn : Nat) (th : Th) (rest : Bytes) (ans : HostAns) (m : Mod) : HOut :=
  let f := (cond d cn m).fn
  let size := Rma.asize rest
  match fnStop d f m with
  | some dt => refuse d St.remoteAccess dt m
  | none =>
    if !curB F.HIF_CTRL_HOST_ATOMICS d 0 m then refuse d St.remoteAccess RaDet.noAtomics m
    else if Rma.addr rest % size ≠ 0 then refuse d St.remoteAccess RaDet.badAlign m
    else if !ctxOk d f (Rma.xctx rest) m then refuse d St.remoteAccess RaDet.noContext m
    else
      let x := access d f (Rma.xctx rest) (Rma.addr rest) size 2 Cls5.remote ans m
      match x.1 with
      | .ok ps _ =>
        let a := ((ps.head?).map Prod.fst).getD 0
        let cas := Rma.aop rest == 2
        let m := hostAtomicOut d f true (if cas then 2 else 0) a
          (if cas then sub rest 24 size ++ sub rest 40 size else sub rest 24 size) x.2
        let m := bump F.RMA_CNT1_ATOMICS d 0 m
        (match hostRead ans a size, Rma.aop rest with
         | some _, 0 => (St.ok, 0, m)
         | some v, _ => (St.ok, 0, atomicReply d cn th.msg 0 0 v m)
         | none, 0 => (St.remoteAccess, RaDet.hostError, bump F.RMA_CNT1_HOST_ERR d 0 m)
         | none, _ => (St.ok, 0, atomicReply d cn th.msg St.remoteAccess RaDet.hostError [] (bump F.RMA_CNT1_HOST_ERR d 0 m)))
      | r =>
        let m := if r = .err then bump F.RMA_CNT1_HOST_ERR d 0 x.2 else x.2
        refuse d (accStatus r).1 (accStatus r).2 m

/-! ## At the requester (R309, R317) -/

/-- A GET_RSP packet: its bytes go to LOCAL plus OFFSET. -/
def getRspIn (d cn : Nat) (th : Th) (rest : Bytes) (ans : HostAns) (m : Mod) : HOut :=
  let b := rest.drop 24
  match msgOf d cn th.msg m with
  | none => (St.ok, 0, m)
  | some g =>
    if g.wait ≠ 1 then (St.ok, 0, m)
    else
      let m := updCond d cn (fun c => { c with inflight := c.inflight - b.length }) m
      let m := updMsg d cn th.msg (fun g => { g with moved := g.moved + b.length }) m
      if b.isEmpty then (St.ok, 0, m)
      else match g.held with
        | some h => (St.ok, 0, updMsg d cn th.msg (fun g => { g with held := some (padTo g.len (wrAt h th.off b)) }) m)
        | none =>
          let w := writeBuf d (cond d cn m).fn g.xctx g.cls (cutBuf g.buf th.off b.length) b ans m
          match w.1 with
          | .ok _ => (St.ok, 0, w.2)
          | .bad st dt va => (st, dt, updMsg d cn th.msg (fun g => { (g.failAt th.off st dt) with faultAddr := va }) w.2)

/-- The whole response of a GET has come (R258, R317). -/
def getDone (d cn id : Nat) (fail : Option (Nat × Nat)) (m : Mod) : Mod :=
  match msgOf d cn id m with
  | none => m
  | some g =>
    if g.wait ≠ 1 then m
    else match g.fail, fail with
      | some (o, st, dt), _ => finishMsg d cn id st dt (min o g.moved) g.faultAddr m
      | none, some (st, dt) => finishMsg d cn id st dt g.moved (if st = St.xltFault then g.addr + g.moved else 0) m
      | none, none => finishMsg d cn id St.ok 0 g.moved (match g.held with | some h => leNat h | none => 0) m

/-- The ATOMIC_RSP has come: its value goes to RESULT_ADDR, if that is not zero (R317). `addr` holds the operand
size of the waiting request. -/
def atomicDone (d cn id : Nat) (fail : Option (Nat × Nat)) (value : Bytes) (ans : HostAns) (m : Mod) : Mod :=
  match msgOf d cn id m with
  | none => m
  | some g =>
    if g.wait ≠ 2 then m
    else
      let size := Rma.asize g.hdr
      let v := sub value 0 size
      let full : Bool := match g.owner with | .bar4 _ _ _ _ => true | _ => false
      match fail with
      | some (st, dt) => finishMsg d cn id st dt 0 (if st = St.abandoned ∧ full then leNat v else 0) m
      | none =>
        let res := if full then leNat v else leNat (v.take 8)
        if g.resAddr = 0 then finishMsg d cn id St.ok 0 size res m
        else
          let w := writeVa d (cond d cn m).fn g.xctx g.resAddr g.cls v ans m
          match w.1 with
          | .ok _ => finishMsg d cn id St.ok 0 size res w.2
          | .bad st dt va => finishMsg d cn id st dt 0 va w.2

/-- A PUT has arrived whole: its receive completion (R299); none for a message with a failed packet. -/
def putDone (d cn : Nat) (r : RxMsg) (m : Mod) : Mod :=
  if Rma.remoteCpl r.hdr && r.fail.isNone then
    let c := cond d cn m
    ringPut d (cur F.WQU_FN_RX_RX_CRING d c.fn m)
      { tag := 0, status := 0, detail := 0, op := 0x10, flags := 2 + 4 * b2n (Rma.hasImm r.hdr), queue := 0xFFFF, index := 0, len := r.len
        result := if Rma.hasImm r.hdr then Rma.imm r.hdr else 0, peer := c.peer, cn := cn } m
  else m

end Sys2Proof.Machine
end

