-- ==== Sys2Proof/Machine/Locks.lean ====
section
/-! DEFINITION. The Crook lock service (spec/12, R327 to R341): lock entries, grants, notices, probes, wait slots. -/
namespace Sys2Proof.Machine

/-! ## Lock entries (R327, R328) -/

/-- The lock entries of a die. -/
def locks (d : Nat) (m : Mod) : List Lock := NMap.get [] m.trn.locks d

/-- Replace them, and show how many are in use. -/
def setLocks (d : Nat) (l : List Lock) (m : Mod) : Mod :=
  wr F.CRK_TABLE_LOCKS d 0 l.length (wr F.CRK_TABLE_WAITERS d 0 ((l.map (fun k => k.waiters.length)).sum)
    (updTrn (fun t => { t with locks := NMap.set [] t.locks d l }) m))

/-- The entry of a word, by its bus address. -/
def lockAt (d bus : Nat) (m : Mod) : Option Lock := (locks d m).find? (fun k => !k.page && k.bus == bus)

/-- Replace or add an entry. -/
def putLock (d : Nat) (k : Lock) (m : Mod) : Mod :=
  let l := locks d m
  if l.any (fun x => x.page == k.page && x.bus == k.bus) then
    setLocks d (l.map (fun x => if x.page == k.page && x.bus == k.bus then k else x)) m
  else setLocks d (l ++ [k]) m

/-- Free an entry. -/
def dropLock (d : Nat) (k : Lock) (m : Mod) : Mod :=
  setLocks d ((locks d m).filter (fun x => !(x.page == k.page && x.bus == k.bus))) m

/-- The image of the lock word (R327). -/
def lockWord (k : Lock) : Nat :=
  match k.holder with
  | some h =>
    2 ^ 63 + b2n k.aband * 2 ^ 62 + b2n (!k.waiters.isEmpty) * 2 ^ 61 + h.prio % 256 * 2 ^ 52 + h.eid % 2 ^ 20 * 2 ^ 32
      + k.gen % 256 * 2 ^ 24 + h.cn % 2 ^ 24
  | none => b2n k.aband * 2 ^ 62 + b2n (!k.waiters.isEmpty) * 2 ^ 61 + k.gen % 256 * 2 ^ 24

/-- Write the image to the word with a posted write. -/
def writeWord (d : Nat) (k : Lock) (m : Mod) : Mod := if k.page then m else hostWr d k.fn k.bus (leBytes 8 (lockWord k)) m

/-! ## Packets (R329) -/

/-- A lock header. -/
def lockHdr (addr xctx code arg tag word : Nat) : Bytes :=
  leBytes 8 addr ++ leBytes 2 xctx ++ leBytes 1 code ++ leBytes 1 arg ++ leBytes 4 tag ++ leBytes 8 word

/-! Its fields. -/
namespace Lk
def addr (b : Bytes) : Nat := rdLE b 0 8
def xctx (b : Bytes) : Nat := rdLE b 8 2 % 4096
def code (b : Bytes) : Nat := rdLE b 10 1
def arg (b : Bytes) : Nat := rdLE b 11 1
def tag (b : Bytes) : Nat := rdLE b 12 4
def word (b : Bytes) : Nat := rdLE b 16 8
end Lk

/-- Send a lock packet on a target-side conduit. -/
def lockSend (d cn op : Nat) (hdr : Bytes) (m : Mod) : Mod :=
  if condState d cn m = CSt.closed then m else (addMsg d cn { Msg.blank with op := op, hdr := hdr } m).2

/-- A LOCK_GRANT to an owner, with its status. -/
def lockAnswer (d : Nat) (k : Lock) (w : Waiter) (status detail word : Nat) (m : Mod) : Mod :=
  lockSend d w.cn Op.lockGrant (lockHdr k.va k.xctx status detail w.tag word) m

/-! ## Priority (R333, R334) -/

/-- The highest waiting priority. -/
def topPrio (l : List Waiter) : Nat := (l.map Waiter.prio).foldl max 0

/-- The waiter to be granted next: by priority, then arrival; by arrival alone with PRIO_EN clear. -/
def nextWaiter (d : Nat) (l : List Waiter) (m : Mod) : Option Waiter :=
  if curB F.CRK_CTRL_PRIO_EN d 0 m then l.find? (fun w => w.prio == topPrio l) else l.head?

/-- The holder hears of a change of its effective priority (R334). -/
def noticeHolder (d : Nat) (k : Lock) (m : Mod) : Lock × Mod :=
  match k.holder with
  | none => (k, m)
  | some h =>
    let e := max h.prio (topPrio k.waiters)
    if !curB F.CRK_CTRL_PRIO_EN d 0 m || e == k.eff || k.page then (k, m)
    else ({ k with eff := e }, lockSend d h.cn Op.lockNotice (lockHdr k.va k.xctx (if k.eff < e then 1 else 2) e h.tag 0) m)

/-- A LOCK_PROBE to the holder (R339). -/
def probe (d : Nat) (k : Lock) (m : Mod) : Lock × Mod :=
  match k.holder with
  | none => (k, m)
  | some h => ({ k with probed := now d m }, lockSend d h.cn Op.lockProbe (lockHdr k.va k.xctx 0 0 h.tag 0) m)

/-! ## Grants (R332, R338) -/

/-- Grant a free lock to an owner: reported ABANDONED once after a loss. A grant sends no probe of its own: waiters that remain are
those for which R339's interval runs already. -/
def grantTo (d : Nat) (k : Lock) (w : Waiter) (m : Mod) : Lock × Mod :=
  let st := if k.aband then St.abandoned else St.ok
  let k' := { k with holder := some w, aband := false, gen := (k.gen + 1) % 256, eff := w.prio }
  let m := writeWord d k' m
  let m := if k.page then m else lockAnswer d k' w st 0 (lockWord k') m
  let m := count d 461 1 (bump F.CRK_CNT_GRANTS d 0 m)
  noticeHolder d k' m

/-- A lock without holder goes to its next waiter, or its entry is freed (kept where ABANDONED is still to be
reported). -/
def passOn (d : Nat) (k : Lock) (m : Mod) : Mod :=
  match nextWaiter d k.waiters m with
  | some w =>
    let g := grantTo d { k with waiters := k.waiters.erase w, holder := none } w m
    putLock d g.1 g.2
  | none =>
    if k.aband then putLock d { k with holder := none } (writeWord d { k with holder := none } m)
    else dropLock d k (writeWord d { k with holder := none } m)

/-- The owner holds or waits. -/
def ownsLock (k : Lock) (cn tag : Nat) : Bool :=
  (match k.holder with | some h => h.cn == cn && h.tag == tag | none => false)
    || k.waiters.any (fun w => w.cn == cn && w.tag == tag)

/-- A request failing R331. -/
def lockRefuse (d status detail : Nat) (m : Mod) : HOut := (status, detail, bump F.CRK_CNT_REFUSED d 0 m)

/-- ACQUIRE or TRY on an entry, existing or new (R331 steps 5 and 6, R332). -/
def lockTake (d : Nat) (k : Lock) (fresh try_ : Bool) (w : Waiter) (m : Mod) : HOut :=
  if ownsLock k w.cn w.tag then lockRefuse d St.remoteAccess 0x18 m
  else if fresh ∧ 65536 ≤ (locks d m).length then lockRefuse d St.remoteAccess 0x19 m
  else match k.holder with
    | none =>
      let g := grantTo d k w m
      (St.ok, 0, putLock d g.1 g.2)
    | some _ =>
      if try_ then (St.ok, 0, lockAnswer d k w St.wouldBlock 1 (lockWord k) m)
      else if 262144 ≤ rd F.CRK_TABLE_WAITERS d 0 m then lockRefuse d St.remoteAccess 0x19 m
      else
        let k' := { k with waiters := k.waiters ++ [w] }
        let n := noticeHolder d k' (writeWord d k' m)
        let p := if k.waiters.isEmpty then probe d n.1 n.2 else n
        (St.ok, 0, putLock d p.1 p.2)

/-- RELEASE by its holder or a waiting owner (R332). -/
def lockRelease (d : Nat) (k : Lock) (cn tag : Nat) (m : Mod) : HOut :=
  if (match k.holder with | some h => h.cn == cn && h.tag == tag | none => false) then (St.ok, 0, passOn d { k with holder := none } m)
  else match k.waiters.find? (fun w => w.cn == cn && w.tag == tag) with
    | some w =>
      let k' := { k with waiters := k.waiters.erase w }
      let m := lockAnswer d k w St.wouldBlock 3 (lockWord k') (writeWord d k' m)
      let n := noticeHolder d k' m
      (St.ok, 0, putLock d n.1 n.2)
    | none => lockRefuse d St.remoteAccess 0x1A m

/-- A LOCK_REQ at the target (R331, R332). -/
def lockReqIn (d cn src : Nat) (rest : Bytes) (ans : HostAns) (m : Mod) : HOut :=
  let f := (cond d cn m).fn
  let kind := Lk.code rest % 4
  let w : Waiter := { cn := cn, tag := Lk.tag rest, prio := Lk.arg rest, eid := src }
  match fnStop d f m with
  | some dt => lockRefuse d St.remoteAccess dt m
  | none =>
    if !ctxOk d f (Lk.xctx rest) m then lockRefuse d St.remoteAccess RaDet.noContext m
    else
      let x := access d f (Lk.xctx rest) (Lk.addr rest) 8 2 Cls5.remote ans m
      match x.1 with
      | .ok ps _ =>
        let a := ((ps.head?).map Prod.fst).getD 0
        (match lockAt d a x.2, kind == 2 with
         | some k, true => lockRelease d k cn w.tag x.2
         | none, true => lockRefuse d St.remoteAccess 0x1A (askHost d f true a 8 x.2)
         | some k, false => lockTake d k false (kind == 1) w x.2
         | none, false =>
           -- no entry: the word is read once (R328)
           let y := askHost d f true a 8 x.2
           match hostRead ans a 8 with
           | none => lockRefuse d St.remoteAccess RaDet.hostError (bump F.RMA_CNT1_HOST_ERR d 0 y)
           | some b =>
             let v := leNat b
             lockTake d { bus := a, va := Lk.addr rest, xctx := Lk.xctx rest, fn := f, page := false, holder := none, aband := bit v 63
                          gen := bits v 24 8, waiters := [], eff := 0, probed := 0 } true (kind == 1) w y)
      | r =>
        let m := if r = .err then bump F.RMA_CNT1_HOST_ERR d 0 x.2 else x.2
        lockRefuse d (accStatus r).1 (accStatus r).2 m

/-- LOCK_PROBE_TIMER: every PROBE_MS while the lock at a bus address has waiters (R339). -/
def lockProbe (d bus : Nat) (m : Mod) : Mod :=
  match lockAt d bus m with
  | none => m
  | some k => if k.waiters.isEmpty then m else let p := probe d k m; putLock d p.1 p.2

/-! ## Abandonment (R338, R340) -/

/-- A target-side conduit has closed: its locks are abandoned, its waiters withdrawn. -/
def locksAbandon (d cn : Nat) (m : Mod) : Mod :=
  (locks d m).foldl (fun m k0 =>
    match (locks d m).find? (fun x => x.page == k0.page && x.bus == k0.bus) with
    | none => m
    | some k =>
      let lost := match k.holder with | some h => !k.page && h.cn == cn | none => false
      let w := k.waiters.filter (fun x => x.cn != cn)
      if lost then passOn d { k with holder := none, aband := true, waiters := w } (bump F.CRK_CNT_ABANDONS d 0 m)
      else if w.length = k.waiters.length ∨ k.page then m
      else
        let n := noticeHolder d { k with waiters := w } (writeWord d { k with waiters := w } m)
        putLock d n.1 n.2) m

/-- The function that owns the lock memory is reset or loses Bus Master Enable: its entries go without a write, and its
waiters' acquires complete REMOTE_ACCESS (R340). -/
def locksDiscard (d f detail : Nat) (m : Mod) : Mod :=
  let mine := (locks d m).filter (fun k => k.fn == f && !k.page)
  let m := setLocks d ((locks d m).filter (fun k => !(k.fn == f && !k.page))) m
  mine.foldl (fun m k => k.waiters.foldl (fun m w => lockAnswer d k w St.remoteAccess detail 0 m) m) m

/-! ## At the initiator (R332, R335) -/

/-- A LOCK_GRANT ends the oldest request of its owner on that word. -/
def lockGrantIn (d cn : Nat) (rest : Bytes) (m : Mod) : Mod :=
  match (cond d cn m).msgs.find? (fun g =>
      g.op == Op.lockReq && g.wait == 3 && Lk.tag g.hdr == Lk.tag rest && Lk.addr g.hdr == Lk.addr rest) with
  | none => m
  | some g => finishMsg d cn g.id (Lk.code rest) (Lk.arg rest) 0 (Lk.word rest) m

/-- A LOCK_NOTICE becomes a PRIORITY_INHERIT event (R335). -/
def lockNoticeIn (d cn : Nat) (rest : Bytes) (m : Mod) : Mod :=
  event d (cond d cn m).fn 0x0050 (Lk.code rest)
    (leBytes 8 (Lk.addr rest) ++ leBytes 1 (Lk.arg rest) ++ leBytes 3 cn ++ leBytes 4 (Lk.tag rest)) m

/-! ## Wait slots (R336, R337) -/

/-- A slot's record. -/
def slot (d k : Nat) (m : Mod) : Slot := NMap.get Slot.reset m.trn.slot (d * 64 + k)
def setSlot (d k : Nat) (s : Slot) (m : Mod) : Mod :=
  updTrn (fun t => { t with slot := NMap.set Slot.reset t.slot (d * 64 + k) s }) m

/-- What a read of SLOT_WAIT shows. -/
def slotValue (status detail : Nat) (held waiting : Bool) : Nat := status + 256 * detail + 65536 * b2n held + 131072 * b2n waiting

/-- Answer a read of SLOT_WAIT by function `f` at offset `off`. -/
def slotReply (d : Nat) (by_ : Nat × Nat) (value : Nat) (m : Mod) : Mod := emit (.readData d by_.1 by_.2 value) m

/-- The owner's own way to its slot's SLOT_WAIT: a VF's at VF BAR0 offset 0x3000, a PF's at the slot's CRK offset (R336). -/
def slotOwn (d k : Nat) (m : Mod) : Nat × Nat :=
  let f := cur F.CRK_SLOT_CFG_FN d k m
  (f, if isPf d f m then 0xC10020 + 0x1000 * k else 0x3020)

/-- Store an outcome, and answer the read that stalls. -/
def slotOutcome (d k status detail : Nat) (held waiting : Bool) (m : Mod) : Mod :=
  let s := slot d k m
  let m := wr F.CRK_SLOT_WAIT_STATUS d k status (wr F.CRK_SLOT_WAIT_DETAIL d k detail
    (wrB F.CRK_SLOT_WAIT_HELD d k held (wrB F.CRK_SLOT_WAIT_WAITING d k waiting m)))
  let m := setSlot d k { s with busy := waiting, out := if waiting then none else some (status, detail), stall := if waiting then s.stall else none } m
  match s.stall, waiting with
  | some b, false => slotReply d b (slotValue status detail held false) m
  | _, _ => m

/-- A LOCK_REQ of slot `k` on a conduit, with the owner's tag. -/
def slotSend (d k kind cn tag addr xc prio : Nat) (m : Mod) : Mod :=
  (addMsg d cn { Msg.blank with op := Op.lockReq, hdr := lockHdr addr xc kind prio tag 0, owner := .slot k (kind == 2)
                                wait := if kind = 2 then 0 else 3 } m).2

/-- A slot's LOCK_REQ leaves on its conduit, with the values in force at the boundary (R336). -/
def slotRequest (d k kind : Nat) (m : Mod) : Mod :=
  let f := cur F.CRK_SLOT_CFG_FN d k m
  let cn := cur F.CRK_SLOT_REQ_CONDUIT d k m
  let tag := cur F.CRK_SLOT_REQ_OWNER_TAG d k m
  let addr := cur F.CRK_SLOT_LOCK_ADDR d k m * 8
  let xc := cur F.CRK_SLOT_CMD_RXCTX d k m
  if !curB F.CRK_SLOT_CFG_ENABLE d k m then m
  else if !inRange d f cn m || inGate d f cn m then slotOutcome d k St.accessDenied 0 false false m
  else if !condLive d cn m then slotOutcome d k St.conduitClosed 0 false false m
  else
    let m := slotSend d k kind cn tag addr xc (cur F.CRK_SLOT_REQ_PRIORITY d k m) m
    if kind = 2 then m
    else slotOutcome d k 0 0 false true (setSlot d k { slot d k m with cn := cn, tag := tag, addr := addr, xctx := xc, busy := true, out := none } m)

/-- SLOT_ACQUIRE. -/
def slotAcquire (d k : Nat) (m : Mod) : Mod := if k < 64 then slotRequest d k 0 m else m

/-- SLOT_RELEASE. -/
def slotRelease (d k : Nat) (m : Mod) : Mod := if k < 64 then slotRequest d k 2 m else m

/-- A slot's request has ended. What ends after its slot was withdrawn changes nothing (R337). -/
def slotDone (d k : Nat) (release : Bool) (status detail : Nat) (m : Mod) : Mod :=
  if release then
    (if status = St.ok then wrB F.CRK_SLOT_WAIT_HELD d k false m else m)
  else if (slot d k m).busy then slotOutcome d k status detail (status == St.ok || status == St.abandoned) false m
  else m

/-- The value of SLOT_WAIT now. -/
def slotNow (d k : Nat) (m : Mod) : Nat :=
  slotValue (rd F.CRK_SLOT_WAIT_STATUS d k m) (rd F.CRK_SLOT_WAIT_DETAIL d k m) (rdB F.CRK_SLOT_WAIT_HELD d k m)
    (rdB F.CRK_SLOT_WAIT_WAITING d k m)

/-- SLOT_WAIT_READ (R337): the outcome at once, or the read stalls; a second read returns WOULD_BLOCK (detail 0: DESIGN CHOICE, the
rule names none). -/
def slotWaitRead (d k : Nat) (by_ : Nat × Nat) (m : Mod) : Mod :=
  let s := slot d k m
  if !s.busy then slotReply d by_ (slotNow d k m) m
  else match s.stall with
    | some _ => slotReply d by_ (slotValue St.wouldBlock 0 false true) m
    | none => setSlot d k { s with stall := some by_ } m

/-- SLOT_WAIT_TIMEOUT: 1 ms after the stalled read. -/
def slotWaitTimeout (d k : Nat) (m : Mod) : Mod :=
  let s := slot d k m
  match s.stall with
  | none => m
  | some b => slotReply d b (slotValue St.wouldBlock 2 false true) (setSlot d k { s with stall := none } m)

/-- The owner of slots is reset or loses Bus Master Enable: stalled reads return WITHDRAWN, requests are withdrawn. -/
def slotsWithdraw (d f : Nat) (m : Mod) : Mod :=
  each ((List.range 64).filter (fun k => curB F.CRK_SLOT_CFG_ENABLE d k m && cur F.CRK_SLOT_CFG_FN d k m == f)) (fun k m =>
    let s := slot d k m
    if s.busy then
      let m := slotOutcome d k St.wouldBlock 3 false false m
      if condLive d s.cn m then slotSend d k 2 s.cn s.tag s.addr s.xctx 0 m else m
    else m) m

end Sys2Proof.Machine
end

