-- ==== Sys2Proof/Machine/Matching.lean ====
section
/-! DEFINITION. Message matching (spec/13, R343 to R362): domains, matching points, the eager store, rendezvous,
receives and the overflow ring. -/
namespace Sys2Proof.Machine

/-! ## Domains (R343) -/

/-- A domain's lists. -/
def dom (d n : Nat) (m : Mod) : Dom := NMap.get Dom.reset m.trn.dom (d * 4096 + n)

/-- List entries that a domain holds. -/
def Dom.entries (x : Dom) : Nat := x.posted.length + x.unexp.length

/-- List entries in use on a die. -/
def entriesUsed (d : Nat) (m : Mod) : Nat :=
  ((m.trn.dom.filter (fun e => e.1 / 4096 == d)).map (fun e => e.2.entries)).sum

/-- Replace a domain's lists, and show the counts. -/
def setDom (d n : Nat) (x : Dom) (m : Mod) : Mod :=
  let m := updTrn (fun t => { t with dom := NMap.set Dom.reset t.dom (d * 4096 + n) x }) m
  let u := entriesUsed d m
  wr F.MTC_DCOUNT_UNEXPECTED d n x.unexp.length (wr F.MTC_DCOUNT_POSTED d n x.posted.length
    (wrB F.MTC_DSTATUS_RING_WAIT d n (!x.waits.isEmpty) (wr F.MTC_USE_ENTRIES d 0 u
      (wrB F.MTC_STATUS_POOL_FULL d 0 (decide (8388608 ≤ u)) m))))
def updDom (d n : Nat) (f : Dom → Dom) (m : Mod) : Mod := setDom d n (f (dom d n m)) m

/-- STATE of a domain: 0 DISABLED, 1 NORMAL, 2 OVERFLOW. -/
def domState (d n : Nat) (m : Mod) : Nat := rd F.MTC_DSTATUS_STATE d n m
def domFn (d n : Nat) (m : Mod) : Nat := cur F.MTC_DCFG_FN d n m
def domPasture (d n : Nat) (m : Mod) : Nat := cur F.MTC_DCFG_PASTURE d n m

/-- A domain is usable (R343). -/
def domUsable (d n : Nat) (m : Mod) : Bool :=
  curB F.MTC_DCTL_ENABLE d n m && (pastOf d (domPasture d n m) m).map Past.fn == some (domFn d n m) && fnRunning d (domFn d n m) m

/-- A list entry can be had. -/
def entryFree (d n : Nat) (m : Mod) : Bool :=
  let k := cur F.MTC_DCFG_MAX_KENTRIES d n m
  let k := if k = 0 ∨ 8192 < k then 8192 else k
  decide ((dom d n m).entries < k * 1024) && decide (entriesUsed d m < 8388608)

/-- A message at its target. -/
def mmsg (tok : Nat) (m : Mod) : Option MMsg := NMap.find m.trn.mmsg tok
def putMmsg (tok : Nat) (x : MMsg) (m : Mod) : Mod := updTrn (fun t => { t with mmsg := NMap.put t.mmsg tok x }) m

/-- The die of a message: tokens count up over the module, conduits name the die. -/
def mtokOf (key msg : Nat) (m : Mod) : Option Nat :=
  (m.trn.mmsg.find? (fun e => e.2.cn == key && e.2.msg == msg)).map Prod.fst

/-- Store space in use on a die, in bytes. -/
def storeUsed (d : Nat) (m : Mod) : Nat :=
  ((m.trn.mmsg.filter (fun e => e.2.cn / 2 ^ 24 == d)).map (fun e => e.2.space)).sum

/-- Show it. -/
def showStore (d : Nat) (m : Mod) : Mod :=
  let u := storeUsed d m
  wr F.MTC_USE_STORE_USED d 0 (u / 256) (wrB F.MTC_STATUS_STORE_FULL d 0
    (decide (cur F.MTC_STORE_CFG_SIZE_MIB d 0 m * 1048576 ≤ u)) m)
def updMmsg (tok : Nat) (f : MMsg → MMsg) (m : Mod) : Mod :=
  match mmsg tok m with
  | some x => showStore (x.cn / 2 ^ 24) (putMmsg tok (f x) m)
  | none => m

/-- A message leaves the matching unit. -/
def dropMmsg (tok : Nat) (m : Mod) : Mod :=
  match mmsg tok m with
  | some x => showStore (x.cn / 2 ^ 24) (updTrn (fun t => { t with mmsg := NMap.del t.mmsg tok }) m)
  | none => m

/-! ## The match rule (R344) -/

/-- A receive matches bits from a source. -/
def Recv.matches (r : Recv) (bits_ eid : Nat) : Bool :=
  Nat.lor (Nat.xor r.bits bits_) r.ignore == r.ignore && (r.any || r.source == eid)

/-! ## The matching header (R348) -/

/-- A matching header. -/
def mtHdr (bits_ domain srcX fin srcAddr : Nat) : Bytes :=
  leBytes 8 bits_ ++ leBytes 2 domain ++ leBytes 2 srcX ++ leBytes 4 fin ++ leBytes 8 srcAddr

/-! Its fields. -/
namespace Mt
def bits (b : Bytes) : Nat := rdLE b 0 8
def domain (b : Bytes) : Nat := rdLE b 8 2 % 4096
def srcXctx (b : Bytes) : Nat := rdLE b 10 2 % 4096
def finMsg (b : Bytes) : Nat := rdLE b 12 4
def srcAddr (b : Bytes) : Nat := rdLE b 16 8
end Mt

/-! ## Completing receives (R354) -/

/-- The queue number of a receive that no queue holds (a bind, R358). -/
def noQueue : Nat := 65536

/-- Write the completion of a receive: discarded where its queue was HALTED or RESET (R353). -/
def recvCpl (d : Nat) (r : Recv) (status detail len result peer cn : Nat) (m : Mod) : Mod :=
  let c : Cpl := { tag := r.tag, status := status, detail := detail, op := 0x12, flags := 2, queue := 0xFFFF, index := r.idx, len := len
                   result := result, peer := peer, cn := cn }
  if r.q = noQueue then ringPut d r.cring c m
  else if (sq d r.q m).gen ≠ r.gen ∨ qState d 0 r.q m = QSt.halted then bump F.WQU_CNT_LATE_CPL d 0 m
  else ringPut d r.cring c (wr F.WQU_QSTATE_TAKEN_OPEN d (qix 0 r.q) (sqOpen d r.q m - 1) m)

/-- The completion of a matched receive is written, and a bind of its message is over. -/
def recvEnd (tok : Nat) (x : MMsg) (r : Recv) (status detail len : Nat) (m : Mod) : Mod :=
  let d := x.cn / 2 ^ 24
  let m := recvCpl d r status detail len x.bits x.eid (x.cn % 2 ^ 24) m
  if (dom d x.dom m).bind = some tok then
    wrB F.MTC_BIND_CMD_PENDING d x.dom false (updDom d x.dom (fun y => { y with bind := none }) m) else m

/-- The receive that a message matched completes. -/
def recvDone (tok : Nat) (m : Mod) : Mod :=
  match mmsg tok m with
  | none => m
  | some x =>
    let d := x.cn / 2 ^ 24
    match x.recv with
    | none => dropMmsg tok m
    | some r =>
      let trunc := decide (r.len < x.len) || (r.q == noQueue && r.len == 0)
      let err := match x.err with
        | some e => some e
        | none => if x.failed then some (St.remoteAccess, 0x11) else none
      let st := if trunc then (St.truncated, 0) else err.getD (St.ok, 0)
      let len := if trunc then r.len else if err.isNone then x.len else x.placed
      let m := if trunc then bump F.MTC_CNT1_TRUNCATED d 0 m else m
      dropMmsg tok (recvEnd tok x r st.1 st.2 len m)

/-- A matched receive whose message cannot go on completes with the reason, whatever its length (R266, R361). A rendezvous GET that
runs on still ends in its SEND_FIN (R352). -/
def recvAbort (tok status detail : Nat) (m : Mod) : Mod :=
  match mmsg tok m with
  | none => m
  | some x =>
    let m := match x.recv with
      | some r => recvEnd tok x r status detail x.placed m
      | none => m
    if x.rndv ∧ (x.fetching ∨ x.place = 5) then updMmsg tok (fun x => { x with recv := none }) m else dropMmsg tok m

/-- A matched eager message whose transport and copies are done completes. -/
def recvCheck (tok : Nat) (m : Mod) : Mod :=
  match mmsg tok m with
  | some x => if x.place = 4 ∧ x.whole ∧ !x.copying ∧ !x.rndv then recvDone tok m else m
  | none => m

/-! ## Binding a message to a receive (R351, R352) -/

/-- The message and a receive are bound: stored bytes are to be copied, a rendezvous GET begins. -/
def bindTo (tok : Nat) (r : Recv) (m : Mod) : Mod :=
  match mmsg tok m with
  | none => m
  | some x =>
    let d := x.cn / 2 ^ 24
    let cn := x.cn % 2 ^ 24
    if x.rndv then
      let m := updMmsg tok (fun x => { x with place := 4, recv := some r, fetching := true }) m
      if condLive d cn m then
        let n := min x.len r.len
        (addMsg d cn { Msg.blank with op := Op.getReq, len := n, addr := x.srcAddr, hdr := rmaHdr x.srcAddr x.srcXctx 0 0, buf := r.buf, xctx := r.xctx
                                      cls := Cls5.remote, owner := .rndv tok, wait := if n = 0 then 0 else 1 } m).2
      else recvDone tok (updMmsg tok (fun x => { x with err := some (St.conduitClosed, 0) }) m)
    else
      recvCheck tok (updMmsg tok (fun x => { x with place := 4, recv := some r, copying := !x.stored.isEmpty, space := if x.stored.isEmpty then 0 else x.space }) m)

/-- A failure to reach a buffer on the fabric's behalf: a host error is REMOTE_ACCESS, HOST_ERROR (R314). -/
def byHost (status detail : Nat) : Nat × Nat := if status = St.hostAbort then (St.remoteAccess, RaDet.hostError) else (status, detail)

/-- Bytes `b` stored for offset `o` of a message go to its receive's buffer, as far as that reaches (R351). -/
def eagerPiece (tok d f : Nat) (r : Recv) (ans : HostAns) (o : Nat) (b : Bytes) (m : Mod) : Mod :=
  let b := b.take (r.len - o)
  if b.isEmpty then m
  else
    let w := writeBuf d f r.xctx Cls5.remote (cutBuf r.buf o b.length) b ans m
    match w.1 with
    | .ok _ => updMmsg tok (fun x => { x with placed := x.placed + b.length }) w.2
    | .bad st dt _ => updMmsg tok (fun x => { x with err := some (x.err.getD (byHost st dt)) }) w.2

/-- EAGER_COPY_COMPLETE: stored bytes are copied to the buffer, and the space is freed (R351). -/
def eagerCopy (tok : Nat) (ans : HostAns) (m : Mod) : Mod :=
  match mmsg tok m with
  | none => m
  | some x =>
    match x.recv, x.copying with
    | some r, true =>
      let d := x.cn / 2 ^ 24
      let f := (cond d (x.cn % 2 ^ 24) m).fn
      let m := x.stored.foldl (fun m e => eagerPiece tok d f r ans e.1 e.2 m) m
      recvCheck tok (updMmsg tok (fun x => { x with copying := false, stored := [], space := 0 }) m)
    | _, _ => m

/-- The rendezvous GET has ended: what it gives is kept for the completion. -/
def rndvGot (tok status detail len : Nat) (m : Mod) : Mod :=
  updMmsg tok (fun x => { x with fetching := false, place := 5, placed := len, err := if status = St.ok then none else some (status, detail) }) m

/-- RENDEZVOUS_GET_COMPLETE: the receive completion is written and SEND_FIN sent (R352). -/
def rndvComplete (tok : Nat) (m : Mod) : Mod :=
  match mmsg tok m with
  | none => m
  | some x =>
    if x.place ≠ 5 then m
    else
      let d := x.cn / 2 ^ 24
      let cn := x.cn % 2 ^ 24
      let st := x.err.getD (St.ok, 0)
      let m := if condState d cn m = CSt.closed then m
        else (addMsg d cn { Msg.blank with
          op := Op.fin, hdr := mtHdr 0 0 0 x.msg 0 |>.take 16 |> (· ++ leBytes 1 st.1 ++ leBytes 1 st.2 ++ zeros 2 ++ leBytes 4 x.placed) } m).2
      recvDone tok m

/-! ## The overflow ring (R356 to R360) -/

/-- A MATCH_OVERFLOW event (R362). -/
def mtEvent (d n detail flushed : Nat) (m : Mod) : Mod :=
  event d (domFn d n m) 0x0070 detail (leBytes 2 n ++ zeros 2 ++ leBytes 4 flushed) m

/-- Entries of the ring. -/
def ovfSize (d n : Nat) (m : Mod) : Nat :=
  let l := cur F.MTC_OVF_CFG_LOG2 d n m
  if 6 ≤ l ∧ l ≤ 15 then 2 ^ l else 64

/-- The ring has room. -/
def ovfRoom (d n : Nat) (m : Mod) : Bool :=
  (rd F.MTC_OVF_IDX_TAIL d n m + 1) % ovfSize d n m != cur F.MTC_OVF_IDX_HEAD d n m % ovfSize d n m

/-- The 64 bytes of a ring entry (R357). -/
def ovfEntry (tok : Nat) (x : MMsg) (phase : Bool) : Bytes :=
  leBytes 8 x.bits ++ leBytes 8 (if x.rndv then x.srcAddr else 0) ++ leBytes 3 x.eid
    ++ leBytes 1 (b2n phase + 2 * b2n x.rndv + 4 * b2n x.flushed + 8 * b2n x.failed) ++ leBytes 4 x.len
    ++ leBytes 3 (x.cn % 2 ^ 24) ++ zeros 1 ++ leBytes 2 x.srcXctx ++ zeros 2 ++ leBytes 4 tok ++ zeros 4 ++ leBytes 8 x.time ++ zeros 16

/-- A message is written to the ring, which has room. It is made unexpected here, unless it was flushed from the unexpected list. -/
def ovfWrite (d n tok : Nat) (x : MMsg) (m : Mod) : Mod :=
  let t := rd F.MTC_OVF_IDX_TAIL d n m
  let y := dom d n m
  let m := hostWr d (domFn d n m) (cur F.MTC_OVF_BASE_ADDR d n m * 64 + 64 * t) (ovfEntry tok x y.phase) m
  let m := updDom d n (fun y => { y with phase := if t + 1 = ovfSize d n m then !y.phase else y.phase }) m
  let m := if x.flushed then m else count d 460 1 (bump F.MTC_CNT0_UNEXPECTED d 0 m)
  updMmsg tok (fun x => { x with place := 2 })
    (bump F.MTC_CNT1_RING_WRITES d 0 (wr F.MTC_OVF_IDX_TAIL d n ((t + 1) % ovfSize d n m) m))

/-- A message goes to the ring, or waits for room with RING_WAIT (R360). -/
def ovfPut (d n tok : Nat) (flushed : Bool) (m : Mod) : Mod :=
  let m := updMmsg tok (fun x => { x with flushed := flushed }) m
  match mmsg tok m with
  | none => m
  | some x =>
    if (dom d n m).waits.isEmpty && ovfRoom d n m then ovfWrite d n tok x m
    else
      let first := (dom d n m).waits.isEmpty
      let m := updDom d n (fun y => { y with waits := y.waits ++ [tok] }) (updMmsg tok (fun x => { x with place := 3 }) m)
      if first then mtEvent d n 2 0 m else m

/-- A domain enters OVERFLOW (R356): its unexpected list goes to the ring, then the message. -/
def enterOverflow (d n tok : Nat) (m : Mod) : Mod :=
  let l := (dom d n m).unexp
  let m := wr F.MTC_DSTATUS_STATE d n 2 (updDom d n (fun y => { y with unexp := [] }) m)
  let m := l.foldl (fun m t => ovfPut d n t true m) m
  mtEvent d n 1 l.length (ovfPut d n tok false m)

/-- The matching point of a message (R345, R346). -/
def matchPoint (tok : Nat) (m : Mod) : Mod :=
  match mmsg tok m with
  | none => m
  | some x =>
    let d := x.cn / 2 ^ 24
    let n := x.dom
    if x.place ≠ 0 ∧ x.place ≠ 3 then m
    else
      let y := dom d n m
      let m := if x.place = 0 then updMmsg tok (fun y => { y with time := now d m }) (count d 459 1 m) else m
      if x.place = 0 ∧ !y.waits.isEmpty then
        -- later matching points wait behind the message that found the ring full
        updDom d n (fun y => { y with waits := y.waits ++ [tok] }) (updMmsg tok (fun x => { x with place := 3 }) m)
      else match y.posted.find? (fun r => r.matches x.bits x.eid) with
        | some r => bindTo tok r (bump F.MTC_CNT0_MATCHED d 0 (updDom d n (fun y => { y with posted := y.posted.erase r }) m))
        | none =>
          if domState d n m = 2 then ovfPut d n tok x.flushed m
          else if entryFree d n m then
              energy d 23 10 1 (count d 460 1 <| bump F.MTC_CNT0_UNEXPECTED d 0 <| updDom d n (fun y => { y with unexp := y.unexp ++ [tok] }) (updMmsg tok (fun x => { x with place := 1 }) m))
          else enterOverflow d n tok m

/-- OVERFLOW_RING_HEAD_WRITE: room is freed, and waiting messages are handled in order (R360). -/
def ovfDrain (d n : Nat) : Nat → Mod → Mod
  | 0, m => m
  | k + 1, m =>
    match (dom d n m).waits with
    | [] => m
    | t :: r =>
      let hit := match mmsg t m with
        | some x => (dom d n m).posted.any (fun y => y.matches x.bits x.eid)
        | none => true
      if hit || ovfRoom d n m then
        let m := matchPoint t (updDom d n (fun y => { y with waits := [] }) m)
        ovfDrain d n k (updDom d n (fun y => { y with waits := r ++ y.waits }) m)
      else m

/-- HEAD of the ring is written. -/
def ovfHead (d n head : Nat) (m : Mod) : Mod :=
  let m := force F.MTC_OVF_IDX_HEAD d n head m
  ovfDrain d n (dom d n m).waits.length m

/-! ## SEND packets (R350, R351) -/

/-- A packet fails R350 steps 1 or 2. -/
def mtRefuse (d status detail : Nat) (m : Mod) : HOut := (status, detail, bump F.MTC_CNT1_REFUSED d 0 m)

/-- The store has no room for a packet: at most one event a frame (R360). -/
def storeFull (d n tok : Nat) (m : Mod) : Mod :=
  let fr := now d m / 1048576 + 1
  let m := bump F.MTC_CNT1_NO_STORE d 0 (updMmsg tok (fun x => { x with failed := true, err := some (x.err.getD (St.remoteAccess, 0x11)) }) m)
  if NMap.get 0 m.trn.full d = fr then m
  else mtEvent d n 3 0 (updTrn (fun t => { t with full := NMap.put t.full d fr }) m)

/-- Step 4: bytes go straight to the matched buffer, those beyond it nowhere. -/
def placeDirect (d n tok : Nat) (r : Recv) (off : Nat) (b : Bytes) (ans : HostAns) (m : Mod) : HOut :=
  let f := domFn d n m
  let b := b.take (r.len - off)
  if b.isEmpty then (St.ok, 0, m)
  else
    let bad := fun (st dt : Nat) (m : Mod) =>
      ((st, dt, updMmsg tok (fun x => { x with err := some (x.err.getD (st, dt)) }) m) : HOut)
    if qState d 1 r.cring m ≠ QSt.active ∨ qOwner d r.cring m ≠ f then bad St.remoteAccess RaDet.noRxRing m
    else if !ctxOk d f r.xctx m then bad St.remoteAccess RaDet.noContext m
    else
      let w := writeBuf d f r.xctx Cls5.remote (cutBuf r.buf off b.length) b ans m
      match w.1 with
      | .ok _ => (St.ok, 0, flushRo d f true (updMmsg tok (fun x => { x with placed := x.placed + b.length }) w.2))
      | .bad st dt _ => bad (byHost st dt).1 (byHost st dt).2 w.2

/-- A SEND_EAGER or SEND_RTS packet at step 11; `d0` says that it arrived with d = 0 (R346). Answers also the token. -/
def sendIn (d cn src : Nat) (th : Th) (rest : Bytes) (d0 : Bool) (ans : HostAns) (m : Mod) : HOut × Option Nat :=
  let f := (cond d cn m).fn
  let n := Mt.domain rest
  let b := rest.drop 24
  match fnStop d f m with
  | some dt => (mtRefuse d St.remoteAccess dt m, none)
  | none =>
    if !domUsable d n m || domPasture d n m != (cond d cn m).pasture then (mtRefuse d St.remoteAccess 0x10 m, none)
    else
      let old := mtokOf (ck d cn) th.msg m
      let tok := old.getD m.trn.nextTok
      let m := if old.isSome then m
        else updTrn (fun t => { t with nextTok := t.nextTok % (2 ^ 32 - 1) + 1 })
          (putMmsg tok { dom := n, cn := ck d cn, msg := th.msg, bits := Mt.bits rest, eid := src, len := th.len, rndv := th.op == Op.rts
                         srcAddr := Mt.srcAddr rest, srcXctx := Mt.srcXctx rest, space := 0, stored := [], arrived := 0, failed := false, place := 0
                         time := now d m, recv := none, placed := 0, err := none, whole := false, copying := false, fetching := false
                         flushed := false } m)
      let m := if th.off = 0 ∧ d0 then matchPoint tok m else m
      match mmsg tok m with
      | none => ((St.ok, 0, m), none)
      | some x =>
        if x.rndv then ((St.ok, 0, m), some tok)
        else match x.recv with
          | some r => (placeDirect d n tok r th.off b ans m, some tok)
          | none =>
            let need := if x.space = 0 then (th.len + 255) / 256 * 256 else 0
            if !curB F.MTC_STORE_CFG_ENABLE d 0 m
                ∨ cur F.MTC_STORE_CFG_SIZE_MIB d 0 m * 1048576 < storeUsed d m + need then
              ((St.remoteAccess, 0x11, storeFull d n tok m), some tok)
            else if b.isEmpty then ((St.ok, 0, m), some tok)
            else
              ((St.ok, 0, energy d 23 10 ((b.length + 63) / 64) (updMmsg tok (fun x => { x with
                space := max x.space need, stored := NMap.put x.stored th.off b, arrived := x.arrived + b.length }) m)), some tok)

/-- The transport has the whole message (R258); `failed` says that a packet of it was refused. A message whose first packet never
came to a matching point leaves nothing behind. -/
def sendWhole (tok : Nat) (failed : Bool) (m : Mod) : Mod :=
  match mmsg tok m with
  | none => m
  | some x =>
    if x.place = 0 then dropMmsg tok m
    else recvCheck tok (updMmsg tok (fun x => { x with whole := true, failed := x.failed || failed }) m)

/-- A SEND_FIN ends the SEND entry (R352). -/
def finIn (d cn : Nat) (rest : Bytes) (m : Mod) : Mod :=
  let id := Mt.finMsg rest
  match msgOf d cn id m with
  | some g => if g.wait = 4 then finishMsg d cn id (rdLE rest 16 1) (rdLE rest 17 1) (rdLE rest 20 4) 0 m else m
  | none => m

/-! ## Posting and binding (R353, R358) -/

/-- RECV_POST at the matching unit: none where it is bound or appended, else the failure. -/
def recvPost (d n f : Nat) (r : Recv) (m : Mod) : Option (Nat × Nat) × Mod :=
  if !domUsable d n m || domFn d n m != f then (some (St.accessDenied, 0x40), m)
  else if domState d n m = 2 then (some (St.notReady, 1), m)
  else
    let y := dom d n m
    let hit := y.unexp.find? (fun t => match mmsg t m with | some x => r.matches x.bits x.eid | none => false)
    match hit with
    | some t => (none, bindTo t r (updDom d n (fun y => { y with unexp := y.unexp.erase t }) m))
    | none =>
      if entryFree d n m then
        (none, energy d 23 10 1 (updDom d n (fun y => { y with posted := y.posted ++ [{ r with time := now d m }] }) m))
      else (some (St.notReady, 2), m)

/-- MATCH_BIND (R358). -/
def matchBind (d n : Nat) (m : Mod) : Mod :=
  let tok := cur F.MTC_BIND_TAG_TOKEN d n m
  let ok := match mmsg tok m with
    | some x => x.cn / 2 ^ 24 == d && x.dom == n && x.place == 2 && (dom d n m).bind.isNone
    | none => false
  if !ok then wrB F.MTC_BIND_CMD_BIND_ERR d n true m
  else
    let len := cur F.MTC_BIND_ARG_LENGTH d n m
    let r : Recv := { bits := 0, ignore := 0, source := 0, any := true, len := len, buf := [(cur F.MTC_BIND_BUF_ADDR d n m, len)], indirect := false
                      xctx := cur F.MTC_BIND_ARG_XCTX d n m, cring := cur F.MTC_BIND_ARG_CRING d n m, tag := cur F.MTC_BIND_TAG_USER_TAG d n m
                      idx := tok % 65536, q := noQueue, gen := 0, time := now d m }
    bindTo tok r (wrB F.MTC_BIND_CMD_PENDING d n true (updDom d n (fun y => { y with bind := some tok }) m))

/-- DOMAIN_RESUME (R359). -/
def domainResume (d n : Nat) (m : Mod) : Mod :=
  if domState d n m ≠ 2 then m
  else if rd F.MTC_OVF_IDX_TAIL d n m = cur F.MTC_OVF_IDX_HEAD d n m then
    mtEvent d n 4 0 (wr F.MTC_DSTATUS_STATE d n 1 m)
  else wrB F.MTC_DSTATUS_RESUME_REFUSED d n true m

/-- Setting MTC_DCTL.ENABLE: the domain is NORMAL with an empty ring. -/
def domainEnable (d n : Nat) (m : Mod) : Mod :=
  wr F.MTC_DSTATUS_STATE d n 1 (wr F.MTC_OVF_IDX_TAIL d n 0 (force F.MTC_OVF_IDX_HEAD d n 0
    (setDom d n Dom.reset (force F.MTC_DCTL_ENABLE d n 1 m))))

/-- A message of a domain that is disabled (R361): one in progress at a receive completes DOMAIN_CLOSED, any other goes. -/
def domainMsgEnd (cpl : Bool) (t : Nat) (m : Mod) : Mod :=
  match mmsg t m with
  | some x =>
    if cpl && x.recv.isSome then recvAbort t St.remoteAccess 0x12 m
    else if cpl && x.rndv && (x.fetching || x.place == 5) then m
    else dropMmsg t m
  | none => m

/-- DOMAIN_DISABLE (R361); `cpl` is clear for a function level reset, which writes no completion. -/
def domainDisable (d n : Nat) (cpl : Bool) (m : Mod) : Mod :=
  let y := dom d n m
  let m := if cpl then y.posted.foldl (fun m r => recvCpl d r St.flushed 0 0 0 0 0 m) m else m
  let toks := (m.trn.mmsg.filter (fun e => e.2.cn / 2 ^ 24 == d && e.2.dom == n)).map Prod.fst
  let m := toks.foldl (fun m t => domainMsgEnd cpl t m) m
  wrB F.MTC_BIND_CMD_PENDING d n false (wr F.MTC_DSTATUS_STATE d n 0 (setDom d n Dom.reset (force F.MTC_DCTL_ENABLE d n 0 m)))

/-- A conduit has closed: its matched receives complete, what it had not wholly sent or offered by rendezvous goes. -/
def matchClosed (d cn status detail : Nat) (m : Mod) : Mod :=
  let toks := (m.trn.mmsg.filter (fun e => e.2.cn == ck d cn)).map Prod.fst
  toks.foldl (fun m t =>
    match mmsg t m with
    | some x =>
      if x.recv.isSome then recvAbort t (x.err.getD (status, detail)).1 (x.err.getD (status, detail)).2 (updMmsg t (fun x => { x with fetching := false, place := 4 }) m)
      else if x.whole && !x.rndv then m
      else dropMmsg t (updDom d x.dom (fun y => { y with unexp := y.unexp.filter (· != t), waits := y.waits.filter (· != t) }) m)
    | none => m) m

end Sys2Proof.Machine
end

