-- ==== Sys2Proof/Machine/Windows.lean ====
section
/-! DEFINITION. Peer windows (spec/17, R449 to R465): commit, the near bridge, the far bridge with exclusive
sequences, the posted-write error log and signal mirrors. -/
namespace Sys2Proof.Machine

/-! ## Bridge pastures (R449) -/

/-- The pasture at die `d` is a bridge pasture. -/
def isBridge (d p : Nat) (m : Mod) : Bool :=
  match pastOf d p m with
  | some x => bit x.flags 0
  | none => false

/-- Exclusive-sequence mode: 0 NONE, 1 PASS, 2 SEMAPHORE. -/
def bridgeMode (d p : Nat) (m : Mod) : Nat :=
  match pastOf d p m with
  | some x => if bit x.flags 2 then 2 else if bit x.flags 1 then 1 else 0
  | none => 0

/-! ## Commit (R452) -/

/-- XMODE of a shadow set; 3 acts as 0. -/
def shadowX (d w : Nat) (m : Mod) : Nat :=
  let x := cur F.PWN_WIN_MODE_XMODE d w m
  if x = 3 then 0 else x

/-- The shadow set as an active set. -/
def shadowSet (d w : Nat) (m : Mod) : Win :=
  { off := cur F.PWN_WIN_BASE_OFFSET d w m * 4096, size := cur F.PWN_WIN_BASE_SIZE_LOG2 d w m, remote := cur F.PWN_WIN_REMOTE_REMOTE d w m * 4096
    eid := cur F.PWN_WIN_TARGET_EID d w m, pasture := cur F.PWN_WIN_TARGET_PASTURE d w m, rxctx := cur F.PWN_WIN_TARGET_RXCTX d w m
    strict := curB F.PWN_WIN_MODE_STRICT d w m, swap := cur F.PWN_WIN_MODE_SWAP d w m, xmode := shadowX d w m }

/-- The active set of a window, where it is enabled. -/
def activeWin (d w : Nat) (m : Mod) : Option Win := NMap.find m.trn.win (d * 256 + w)

/-- The PF, 0 or 1, whose BAR4 a window decodes (R44). -/
def winPf (d w : Nat) (m : Mod) : Nat := if bifurcated d m && decide (128 ≤ w) then 1 else 0

/-- The cause that refuses a commit. -/
def commitBad (d w : Nat) (x : Win) (m : Mod) : Option Nat :=
  if x.size < 12 ∨ 40 < x.size ∨ x.off % 2 ^ x.size ≠ 0 ∨ bar4Size d (winPf d w m) m < x.off + 2 ^ x.size then some 1
  else if x.remote % 4096 ≠ 0 then some 2
  else if m.trn.win.any (fun e => e.1 / 256 == d && e.1 % 256 != w && winPf d (e.1 % 256) m == winPf d w m
      && decide (e.2.off < x.off + 2 ^ x.size ∧ x.off < e.2.off + 2 ^ e.2.size)) then some 3
  else if !(isBridge d x.pasture m) || (pastOf d x.pasture m).map Past.fn != some (pfFn (winPf d w m)) then some 4
  else if x.xmode ≠ 0 ∧ x.xmode ≠ bridgeMode d x.pasture m then some 5
  else none

/-- WINDOW_COMMIT: at the cycle boundary the shadow set is checked and copied to the active set. -/
def windowCommit (d w : Nat) (m : Mod) : Mod :=
  if 256 ≤ w then m
  else
    let x := shadowSet d w m
    let ok := fun (on : Bool) (m : Mod) => bumpWrap F.PWN_WIN_STATUS_COMMITS d w (wrB F.PWN_WIN_STATUS_ACTIVE d w on
      (updTrn (fun t => { t with win := NMap.upd t.win (d * 256 + w) (if on then some x else none) }) m))
    if !curB F.PWN_WIN_MODE_ENABLE d w m then ok false m
    else match commitBad d w x m with
      | some c => wr F.PWN_WIN_CMD_ERR_CAUSE d w c (wrB F.PWN_WIN_CMD_COMMIT_ERR d w true m)
      | none => ok true m

/-- A change of the BAR4 size of PF `p` disables every window of it in both sets (R49, R454). -/
def windowsOff (d p : Nat) (m : Mod) : Mod :=
  let n := (List.range 256).foldl (fun m w =>
    if winPf d w m != p then m
    else if (activeWin d w m).isSome || rdB F.PWN_WIN_MODE_ENABLE d w m then
      wrB F.PWN_WIN_STATUS_ACTIVE d w false (force F.PWN_WIN_MODE_ENABLE d w 0 m) else m) m
  updTrn (fun t => { t with win := NMap.keep (fun k => k / 256 != d || winPf d (k % 256) m != p) t.win }) n

/-! ## The posted-write error log (R460) -/

/-- A failed write is logged, and PF vector 2 signalled once until REARM. -/
def pwLog (d w off status detail : Nat) (m : Mod) : Mod :=
  let i := rd F.PWN_PWLOG_IDX_NEXT d 0 m
  let m := wr F.PWN_PWLOG_ADDR_OFFSET d i off (wrB F.PWN_PWLOG_INFO_VALID d i true (wr F.PWN_PWLOG_INFO_WINDOW d i w
    (wr F.PWN_PWLOG_INFO_DETAIL d i detail (wr F.PWN_PWLOG_INFO_STATUS d i status (wr F.PWN_PWLOG_WHEN_WHEN d i (now d m) m)))))
  let m := wr F.PWN_PWLOG_IDX_NEXT d 0 ((i + 1) % 64) (bump F.PWN_PWLOG_IDX_TOTAL d 0 m)
  if NMap.get false m.trn.pwSig d then m
  else msix d (pfFn (winPf d w m)) 2 (updTrn (fun t => { t with pwSig := NMap.set false t.pwSig d true }) m)

/-- A write through window `w` has failed: it is logged, and in a strict window the next read hears of it (R458, R459). -/
def writeFailed (d w off : Nat) (strict : Bool) (status detail : Nat) (m : Mod) : Mod :=
  let m := pwLog d w off status detail m
  if strict then wrB F.PWN_WIN_STATUS_STRICT_ERR d w true (updTrn (fun t => { t with strict := NMap.set false t.strict (d * 256 + w) true }) m)
  else m

/-- PWLOG_REARM. -/
def pwRearm (d : Nat) (m : Mod) : Mod := updTrn (fun t => { t with pwSig := NMap.set false t.pwSig d false }) m

/-! ## The near bridge (R455 to R459) -/

/-- Byte lanes (R457): groups of `n` bytes reversed. -/
def lanes : Nat → Nat → Bytes → Bytes
  | 0, _, b => b
  | k + 1, n, b => if b.isEmpty then [] else (b.take n).reverse ++ lanes k n (b.drop n)

/-- Arrange data for SWAP. -/
def arrange (swap : Nat) (b : Bytes) : Bytes := if swap = 0 then b else lanes (b.length + 1) (2 ^ swap) b

/-- The bridge of the die is absent (R502). -/
def bridgeFenced (d : Nat) (m : Mod) : Bool := [UnitSt.fenced, UnitSt.unusable].contains (unitState d 25 m)

/-- The window that holds a range of the BAR4 of PF `pf` wholly; none where the bridge is absent or the die does not
serve. -/
def decodeBar4 (d pf off len : Nat) (m : Mod) : Option (Nat × Win) :=
  if bridgeFenced d m || !dieActive d m then none
  else
    (m.trn.win.find? (fun e => e.1 / 256 == d && winPf d (e.1 % 256) m == pf
        && decide (e.2.off ≤ off ∧ off + len ≤ e.2.off + 2 ^ e.2.size))).map
      (fun e => (e.1 % 256, e.2))

/-- A BAR4 request as a message of the PF's conduit. -/
def bar4Msg (b : Bar4) : Msg :=
  let addr := b.set.remote + (b.off - b.set.off)
  let own := Owner.bar4 b.win b.id b.off (b.kind == 0)
  if b.kind = 0 then
    { Msg.blank with op := Op.put, len := b.len, addr := addr, hdr := rmaHdr addr b.set.rxctx 0 0, held := some (arrange b.set.swap b.data), owner := own }
  else if b.kind = 1 then
    { Msg.blank with op := Op.getReq, len := b.len, addr := addr, hdr := rmaHdr addr b.set.rxctx 0 0, held := some (zeros b.len), owner := own, wait := 1 }
  else
    let n := if b.op = 2 then b.data.length / 2 else b.data.length
    let x := arrange b.set.swap (b.data.take n)
    let y := arrange b.set.swap (b.data.drop n)
    let code := if n = 4 then 0 else if n = 8 then 1 else 2
    { Msg.blank with op := Op.atomic, addr := addr
                     hdr := rmaHdr addr b.set.rxctx (4 * b.op + 32 * code) 0 ++ (if b.op = 3 then zeros 16 ++ padTo 16 x else padTo 16 x ++ padTo 16 y)
                     owner := own, wait := 2 }

/-- An earlier write through the same window has no result yet; or, for an AtomicOp, another one of the endpoint is
outstanding (R458, R462). -/
def bar4Waits (b : Bar4) (m : Mod) : Bool :=
  (b.kind != 0 && b.set.strict
    && (m.trn.bar4.takeWhile (fun x => !(x.die == b.die && x.id == b.id))).any (fun x => x.die == b.die && x.win == b.win && x.kind == 0))
  || (b.kind == 2 && m.trn.bar4.any (fun x => x.die == b.die && x.kind == 2 && x.sent))

/-- A request of the bridge ends for the host. -/
def bar4End (b : Bar4) (m : Mod) : Mod :=
  wr F.PWN_WIN_STATUS_INFLIGHT b.die b.win (rd F.PWN_WIN_STATUS_INFLIGHT b.die b.win m - 1)
    (updTrn (fun t => { t with bar4 := t.bar4.filter (fun x => !(x.die == b.die && x.id == b.id)) }) m)

/-- A completion for the host. -/
def bar4Reply (d id status : Nat) (data : Bytes) (m : Mod) : Mod := emit (.bar4Cpl d id status data) m

/-- A waiting request is sent, or ends with Completer Abort after a failed strict write. -/
def bar4Try (b : Bar4) (m : Mod) : Mod :=
  if bar4Waits b m then m
  else if b.kind ≠ 0 ∧ b.set.strict ∧ NMap.get false m.trn.strict (b.die * 256 + b.win) then
    bar4Reply b.die b.id 4 [] (bar4End b (updTrn (fun t => { t with strict := NMap.set false t.strict (b.die * 256 + b.win) false }) m))
  else
    match unicastOf b.die (pfFn (winPf b.die b.win m)) b.set.eid b.set.pasture m with
    | some cn =>
      let m := (addMsg b.die cn (bar4Msg b) m).2
      updTrn (fun t => { t with bar4 := t.bar4.map (fun x => if x.die = b.die ∧ x.id = b.id then { x with sent := true, time := now b.die m } else x) }) m
    | none => if b.kind = 0 then writeFailed b.die b.win b.off b.set.strict St.conduitClosed 0 (bar4End b m) else bar4Reply b.die b.id 4 [] (bar4End b m)

/-- Requests that waited are tried, in order. -/
def bar4Next (d : Nat) (m : Mod) : Mod :=
  (m.trn.bar4.filter (fun b => b.die == d && !b.sent)).foldl (fun m b => if m.trn.bar4.contains b then bar4Try b m else m) m

/-- BAR4_REQUEST (R455): kind 0 write, 1 read, 2 AtomicOp (1 FetchAdd, 2 CAS, 3 Swap). -/
def bar4Request (d pf id kind off len op : Nat) (data : Bytes) (m : Mod) : Mod :=
  let len := if kind = 1 then len else if kind = 2 ∧ op = 2 then data.length / 2 else data.length
  let abort := fun (m : Mod) => bar4Reply d id 4 [] m
  match decodeBar4 d pf off len m with
  | none =>
    let m := bump F.HIF_ACC_ERR_UNDECODED d 0 m
    if kind = 0 then m else bar4Reply d id 0 (List.replicate len 0xFF#8) m
  | some (w, x) =>
    let n := 2 ^ x.swap
    if x.swap ≠ 0 ∧ (off % n ≠ 0 ∨ len % n ≠ 0) then
      (if kind = 0 then writeFailed d w off x.strict St.malformed 0 m else abort m)
    else if kind = 2 ∧ x.xmode = 0 then abort m
    else match unicastOf d (pfFn pf) x.eid x.pasture m with
      | none => if kind = 0 then writeFailed d w off x.strict St.conduitClosed 0 m else abort m
      | some cn =>
        if !condLive d cn m then (if kind = 0 then writeFailed d w off x.strict St.conduitClosed 0 m else abort m)
        else
          let b : Bar4 := { die := d, win := w, id := id, kind := kind, off := off, len := len, op := op, data := data, set := x, sent := false, time := 0 }
          let m := wr F.PWN_WIN_STATUS_INFLIGHT d w (rd F.PWN_WIN_STATUS_INFLIGHT d w m + 1)
            (updTrn (fun t => { t with bar4 := t.bar4 ++ [b] }) m)
          bar4Try b m

/-- The message of a BAR4 request has ended (R456, R459, R463). What ends a request that the host has given up is a late response,
unless it is the close of its conduit. -/
def bar4Done (d win id off : Nat) (write : Bool) (status detail result : Nat) (m : Mod) : Mod :=
  match m.trn.bar4.find? (fun b => b.die == d && b.id == id) with
  | none => if write || [St.conduitClosed, St.retryExceeded].contains status then m else bump F.PWN_CNT_LATE_RSP d 0 m
  | some b =>
    let m := bar4End b m
    let m :=
      if write then
        (if status = St.ok then m else writeFailed d win off b.set.strict status detail m)
      else if status = St.ok then bar4Reply d id 0 (arrange b.set.swap (leBytes b.len result)) m
      else if status = St.abandoned ∧ b.kind = 2 then
        bar4Reply d id 0 (arrange b.set.swap (leBytes b.len result)) (pwLog d win off status detail m)
      else bar4Reply d id 4 [] m
    bar4Next d m

/-- PEER_READ_TIMEOUT (R456). -/
def peerReadTimeout (d id : Nat) (m : Mod) : Mod :=
  match m.trn.bar4.find? (fun b => b.die == d && b.id == id && b.kind != 0) with
  | some b => bar4Next d (bar4Reply d id 4 [] (bar4End b m))
  | none => m

/-! ## The far bridge (R450, R461 to R463) -/

/-- The sequence that runs on a page. -/
def seqOn (d f page : Nat) (m : Mod) : Option Seq := m.trn.seqs.find? (fun s => s.die == d && s.fn == f && s.page == page)

/-- Key of a bridge lock (R341). -/
def bridgeKey (f page : Nat) : Nat := f * 2 ^ 52 + page

/-- The bridge lock of a page. -/
def bridgeLock (d f page : Nat) (m : Mod) : Option Lock := (locks d m).find? (fun k => k.page && k.bus == bridgeKey f page)

/-- A packet waits for its page; an ordinary one needs a place in the hold list. -/
def holdPacket (d cn page : Nat) (pkt : Bytes) (excl : Bool) (m : Mod) : Bool × Mod :=
  let f := (cond d cn m).fn
  if !excl ∧ 256 ≤ (m.trn.hold.filter (fun h => h.die == d && !h.excl)).length then (false, bump F.PWN_CNT_HOLD_FULL d 0 m)
  else (true, updTrn (fun t => { t with hold := t.hold ++ [{ die := d, fn := f, page := page, cn := cn, pkt := pkt, excl := excl }] }) m)

/-- What the far bridge does with a packet: an answer, or it waits. -/
inductive BOut where
  | done (o : HOut)
  | held (m : Mod)

/-- Wait for a page, or be refused NOT_READY, HOLD_FULL. -/
def mustWait (d cn page : Nat) (pkt : Bytes) (excl : Bool) (m : Mod) : BOut :=
  let h := holdPacket d cn page pkt excl m
  if h.1 then .held h.2 else .done (St.notReady, 0x22, h.2)

/-- Start an exclusive sequence whose checks have passed: the word is read through the reserved inbound pool. -/
def seqStart (d cn page : Nat) (th : Th) (rest : Bytes) (bus : Nat) (sem : Bool) (m : Mod) : HOut :=
  let f := (cond d cn m).fn
  let size := Rma.asize rest
  let old := bridgeLock d f page m
  if sem && old.isNone && decide (65536 ≤ (locks d m).length) then (St.remoteAccess, 0x19, m)
  else
    let ab := match old with | some k => k.aband | none => false
    let m := if sem then
        (let k := old.getD { bus := bridgeKey f page, va := 0, xctx := 0, fn := f, page := true, holder := none, aband := false, gen := 0
                             waiters := [], eff := 0, probed := 0 }
         let g := grantTo d k { cn := cn, tag := 0, prio := 0, eid := (cond d cn m).peer } m
         putLock d g.1 g.2)
      else m
    let s : Seq := { num := m.trn.nextSeq, die := d, fn := f, page := page, cn := cn, msg := th.msg, op := Rma.aop rest, size := size, bus := bus
                     val := sub rest 24 size, swp := sub rest 40 size, sem := sem, aband := ab }
    let m := updTrn (fun t => { t with seqs := t.seqs ++ [s], nextSeq := t.nextSeq + 1 }) (bump F.PWN_CNT_SEQUENCES d 0 m)
    (St.ok, 0, readInbound { die := d, fn := f, addr := bus, len := size, work := .exclusive s.num, inb := true } m)

/-- A mirror update (R465). -/
def mirrorIn (d src pasture : Nat) (rest : Bytes) (m : Mod) : HOut :=
  let k := Rma.addr rest % 64
  if !curB F.PWN_MIR_CTL_ENABLE d k m || cur F.PWN_MIR_CFG_EID d k m != src || cur F.PWN_MIR_CFG_PASTURE d k m != pasture then
    (St.remoteAccess, 0x20, m)
  else
    let b := rest.drop 24
    let v := rdLE b 0 4
    let sq' := rdLE b 6 2
    let n := (sq' + 65536 - rd F.PWN_MIR_IN_SEQ d k m) % 65536
    if 1 ≤ n ∧ n ≤ 32767 then
      let chg := rd F.PWN_MIR_IN_VALUE d k m != v
      let m := wr F.PWN_MIR_IN_VALUE d k v (wr F.PWN_MIR_IN_PEER_PERIOD d k (rdLE b 4 2) (wr F.PWN_MIR_IN_SEQ d k sq' m))
      (St.ok, 0, if chg && curB F.PWN_MIR_CTL_MSI_EN d k m then msix d 0 (cur F.PWN_MIR_CTL_VECTOR d k m) m else m)
    else (St.ok, 0, m)

/-- A PUT, GET_REQ or ATOMIC in a bridge pasture (R450). -/
def bridgeIn (d cn src : Nat) (th : Th) (rest pkt : Bytes) (ans : HostAns) (m : Mod) : BOut :=
  let c := cond d cn m
  let f := c.fn
  let mode := bridgeMode d c.pasture m
  let page := (Rma.addr rest + (if th.op = Op.put then th.off else 0)) / 4096
  if bridgeFenced d m then .done (refuse d St.remoteAccess 0x23 m)
  else if th.op = Op.put ∧ bit (Rma.addr rest) 63 then .done (mirrorIn d src c.pasture rest m)
  else if th.op ≠ Op.atomic then
    if mode = 1 ∧ (seqOn d f page m).isSome then mustWait d cn page pkt false m
    else if th.op = Op.put then .done (putIn d cn Cls5.peer th rest ans m)
    else .done (getIn d cn Cls5.peer th rest m)
  else if (seqOn d f page m).isSome then mustWait d cn page pkt true m
  else match fnStop d f m with
    | some dt => .done (refuse d St.remoteAccess dt m)
    | none =>
      if Rma.aop rest = 0 ∨ mode = 0 then .done (refuse d St.remoteAccess 0x21 m)
      else if Rma.addr rest % Rma.asize rest ≠ 0 then .done (refuse d St.remoteAccess RaDet.badAlign m)
      else if !ctxOk d f (Rma.xctx rest) m then .done (refuse d St.remoteAccess RaDet.noContext m)
      else
        let x := access d f (Rma.xctx rest) (Rma.addr rest) (Rma.asize rest) 2 Cls5.peer ans m
        match x.1 with
        | .ok ps _ => .done (seqStart d cn page th rest (((ps.head?).map Prod.fst).getD 0) (mode == 2) x.2)
        | r =>
          let m := if r = .err then bump F.RMA_CNT1_HOST_ERR d 0 x.2 else x.2
          .done (refuse d (accStatus r).1 (accStatus r).2 m)

/-- The packets that waited for a page come first again, in the order in which they arrived (R462). -/
def bridgeNext (d f page : Nat) (m : Mod) : Mod :=
  let l := m.trn.hold.filter (fun h => h.die == d && h.fn == f && h.page == page)
  if l.isEmpty then m
  else
    let m := updTrn (fun t => { t with hold := t.hold.filter (fun h => !(h.die == d && h.fn == f && h.page == page)) }) m
    updTrn (fun t => { t with resume := NMap.put t.resume d (l.map (fun h => (h.cn, h.pkt)) ++ NMap.get [] t.resume d) }) m

/-- A sequence has ended; its page and its bridge lock are free, the lock ABANDONED where the sequence was. -/
def seqEnd (s : Seq) (aband : Bool) (m : Mod) : Mod :=
  let m := updTrn (fun t => { t with seqs := t.seqs.filter (fun x => x.num != s.num) }) m
  let m := if s.sem then
      (match bridgeLock s.die s.fn s.page m with
       | some k => if aband then putLock s.die { k with holder := none, aband := true } (bump F.CRK_CNT_ABANDONS s.die 0 m) else dropLock s.die k m
       | none => m)
    else m
  bridgeNext s.die s.fn s.page m

/-- Step 1's answer has come (R461): the new value is formed and written, and the ATOMIC_RSP carries the value read. -/
def seqRead (num : Nat) (data : Option Bytes) (m : Mod) : Mod :=
  match m.trn.seqs.find? (fun s => s.num == num) with
  | none => m
  | some s =>
    match data with
    | none => seqEnd s true (atomicReply s.die s.cn s.msg St.remoteAccess RaDet.hostError [] (bump F.RMA_CNT1_HOST_ERR s.die 0 m))
    | some v =>
      let v := padTo s.size v
      let new : Option Bytes :=
        if s.op = 1 then some (leBytes s.size (leNat v + leNat s.val))
        else if s.op = 2 then (if v = s.val then some s.swp else none)
        else some s.swp
      let m := match new with
        | some x => hostWr s.die s.fn s.bus x m
        | none => m
      seqEnd s false (atomicReply s.die s.cn s.msg (if s.aband then St.abandoned else St.ok) 0 v m)

/-- The target function stops: its sequences end REMOTE_ACCESS and are abandoned (R59, R463). -/
def seqsStop (d f detail : Nat) (m : Mod) : Mod :=
  (m.trn.seqs.filter (fun s => s.die == d && s.fn == f)).foldl
    (fun m s => seqEnd s true (atomicReply s.die s.cn s.msg St.remoteAccess detail [] m)) m

/-! ## Signal mirrors (R464) -/

/-- MIRROR_POLL. -/
def mirrorPoll (d k : Nat) (m : Mod) : Mod :=
  if 64 ≤ k ∨ !curB F.PWN_MIR_CTL_ENABLE d k m then m
  else
    let r := NMap.get Mirror.reset m.trn.mir (d * 64 + k)
    let v := cur F.PWN_MIR_OUT_VALUE d k m
    let set := fun (x : Mirror) (m : Mod) => updTrn (fun t => { t with mir := NMap.set Mirror.reset t.mir (d * 64 + k) x }) m
    if v = r.last ∧ r.polls + 1 < 64 then set { r with polls := r.polls + 1 } m
    else match unicastOf d 0 (cur F.PWN_MIR_CFG_EID d k m) (cur F.PWN_MIR_CFG_PASTURE d k m) m with
      | none => set { r with polls := min 64 (r.polls + 1) } m
      | some cn =>
        let s := (r.seq + 1) % 65536
        let b := leBytes 4 v ++ leBytes 2 (cur F.PWN_MIR_CTL_PERIOD_US d k m) ++ leBytes 2 s
        set { last := v, polls := 0, seq := s, got := r.got, sentOnce := true }
          (addMsg d cn { Msg.blank with op := Op.put, len := 8, addr := 0, hdr := rmaHdr (2 ^ 63 + cur F.PWN_MIR_CFG_PEER_MIR d k m) 0 0 0, held := some b } m).2

end Sys2Proof.Machine
end

