-- ==== Sys2Proof/Machine/Timed.lean ====
section
/-! DEFINITION. The delivery contract (spec/08): reservations, calendars, admission, release, delivery and void
contracts (R211 to R236, R260, R310, R316). -/
namespace Sys2Proof.Machine

/-! Details of R230. -/
namespace TDet
def noReservation : Nat := 0x01
def timeNotOk : Nat := 0x02
def pathDown : Nat := 0x03
def tooLarge : Nat := 0x04
def queueFull : Nat := 0x05
def late : Nat := 0x06
def withdrawn : Nat := 0x11
def sourceTime : Nat := 0x12
def lateDrop : Nat := 0x13
def destTime : Nat := 0x14
def exitDown : Nat := 0x21
def d2dDown : Nat := 0x22
def noAck : Nat := 0x23
def lateRead : Nat := 0x31
end TDet

/-! ## The reservation entry (R212) -/

/-- The entry of RES_CONFIRM's INLINE bytes. -/
def resvOf (b : Bytes) : Resv :=
  { role := rdLE b 2 1 % 8, path := rdLE b 3 1 % 8, src := rdLE b 4 3 % 2 ^ 20, dest := rdLE b 7 3 % 2 ^ 20, pasture := rdLE b 10 2
    fn := rdLE b 12 2 % 2048, sigma := rdLE b 14 2, rho := rdLE b 16 4, bound := rdLE b 20 4, allow := rdLE b 24 4 }

/-! ROLE bits. -/
def Resv.isSource (e : Resv) : Bool := bit e.role 0
def Resv.isDest (e : Resv) : Bool := bit e.role 1
def Resv.isFlock (e : Resv) : Bool := bit e.role 2

/-- The entry of reservation `r` at a holder (4: the Shepherd). -/
def resEnt (h r : Nat) (m : Mod) : Option Resv := NMap.find (tabs h m).res r

/-- What die `d` keeps of reservation `r`. -/
def resRun (d r : Nat) (m : Mod) : ResRun := NMap.get ResRun.reset m.trn.run (d * 16384 + r)
def updRun (d r : Nat) (f : ResRun → ResRun) (m : Mod) : Mod :=
  updTrn (fun t => { t with run := NMap.set ResRun.reset t.run (d * 16384 + r) (f (resRun d r m)) }) m

/-- Dies whose endpoints DEST names: one die, or the dies whose hosts a flock reaches. -/
def destDies (e : Resv) (m : Mod) : List Nat :=
  if e.isFlock then
    (match NMap.find (tabs 4 m).flock (e.dest % 65536) with
     | some k => if k.valid && k.id == e.dest then dies.filter (fun d => bit k.host d && fusedIn d m) else []
     | none => [])
  else (dieOfEid e.dest m).toList

/-- The members that a reservation's packets leave by at the module of their source on die `d`: port codes, and
delivery exits of this module. -/
def resExits (h d : Nat) (e : Resv) (m : Mod) : List Nat :=
  if e.isFlock then
    (match NMap.find (tabs h m).flock (e.dest % 65536) with
     | some k => if k.valid && k.id == e.dest then members k else []
     | none => [])
  else match NMap.find (tabs h m).path (e.dest * 8 + e.path) with
    | some p =>
      let c := p.route.getD 0 0xFF
      if c < 0x80 then [c] else if c = 0xFE then (destDies e m).map (fun x => 128 + 2 * x) else if c = 0xFD then [129 + 2 * d] else []
    | none => []

/-- The OPEN or OPENING multicast conduit of function `f` for a flock (R213): of several, that of the pasture. -/
def flockCond (d f flock p : Nat) (m : Mod) : Option Nat :=
  let l := (condsOf d m).filter (fun cn =>
    let c := cond d cn m
    c.fn == f && c.peer == flock && c.mcast && !c.fromGate && condLive d cn m)
  (l.find? (fun cn => (cond d cn m).pasture == p)).or l.head?

/-- The OPEN or OPENING unicast conduit of function `f` for a peer and pasture (R213, R244). -/
def liveCond (d f peer p : Nat) (m : Mod) : Option Nat :=
  (condsOf d m).find? (fun cn =>
    let c := cond d cn m
    c.fn == f && c.peer == peer && c.pasture == p && !c.mcast && condLive d cn m)

/-- The conduit that the SOURCE role requires at die `d`. -/
def srcCond (d : Nat) (e : Resv) (m : Mod) : Option Nat :=
  if e.isFlock then flockCond d e.fn e.dest e.pasture m else liveCond d e.fn e.dest e.pasture m

/-- The conduit that the DEST role requires at die `d` where FLOCK is clear. -/
def dstCond (d : Nat) (e : Resv) (m : Mod) : Option Nat :=
  (pastOf d e.pasture m).bind (fun p => liveCond d p.fn e.src e.pasture m)

/-- The conduits that R213 requires and R214 pins at die `d`. -/
def resConds (d : Nat) (e : Resv) (m : Mod) : List Nat :=
  (if e.isSource && dieOfEid e.src m == some d then (srcCond d e m).toList else [])
  ++ (if e.isDest && !e.isFlock && dieOfEid e.dest m == some d then (dstCond d e m).toList else [])

/-! ## Reserved energy (R473) -/

/-- A dynamic sum in CU of die `d` as ledger units, at the kv and g of the last closed frame (R469). -/
def ledgerOf (d cu : Nat) (m : Mod) : Nat :=
  let kv := NMap.get 0 m.tly.kv d
  ((cu * (if kv = 0 then 65536 else kv)) / 2 ^ 16 * m.tly.gain) / 2 ^ 32

/-- RESERVED_E for a table of reservations. -/
def reservedE (t : NMap Resv) (m : Mod) : Nat :=
  let exits := ((t.filter (fun e => e.2.isSource)).flatMap (fun e =>
    (resExits 4 ((dieOfEid e.2.src m).getD 0) e.2 m).filter (· < 128))).eraseDups
  let a := (exits.map (fun pc => ledgerOf (pc / 32)
    (popcount 4 (rd F.LNE_PORT_STATUS_LANES (pc / 32) (pc % 32) m) * (coefOf 0 m - coefOf 2 m) * 2 ^ 20) m)).sum
  let b := (t.map (fun e =>
    let r := e.2
    let sd := (dieOfEid r.src m).getD 0
    let hops := (((resExits 4 sd r m).map dieOf).filter (· != sd)).eraseDups.length
    (if r.isSource then ledgerOf sd (r.rho * (coefOf 5 m + hops * coefOf 6 m + coefOf 7 m)) m else 0)
      + (if r.isDest then ledgerOf ((destDies r m).headD 0)
          (r.rho * (coefOf 5 m + (Config.destCrossings e.1 % 3) * coefOf 6 m + coefOf 7 m)) m else 0))).sum
  a + b

/-- Show it (TLY_BUDGET). -/
def showReserved (m : Mod) : Mod :=
  each dies (fun d m => wr F.TLY_BUDGET_RESERVED_E d 0 (reservedE (tabs 4 m).res m) m) m

/-! ## RES_CONFIRM and RES_WITHDRAW (R213 to R216) -/

/-- The offsets that R213 objects to. -/
def resBad (r : Nat) (e : Resv) (m : Mod) : List Nat :=
  let sd := dieOfEid e.src m
  let d := sd.getD 0
  let t4 := tabs 4 m
  let owns := fun pc => calOwns (NMap.find t4.calA pc) r || calOwns (NMap.find t4.calS pc) r
  let path := NMap.find t4.path (e.dest * 8 + e.path)
  (if e.isSource && ((resExits 4 d e m).filter (· < 128)).any (fun pc => !owns pc || compat pc m) then [0] else [])
  ++ (if !e.isSource && !e.isDest then [2] else [])
  ++ (if e.isSource && !e.isFlock && !(match path with
        | some p => p.valid && p.timedOk && !(p.route.take p.hops).any (fun c => decide (0x80 ≤ c ∧ c < 0x90))
        | none => false) then [3] else [])
  ++ (if e.isSource && !(match sd with | some x => dieActive x m | none => false) then [4] else [])
  ++ (if e.isDest && (destDies e m).isEmpty then [7] else [])
  ++ (if e.isDest && !e.isFlock && !(match dieOfEid e.dest m with
        | some x => (dstCond x e m).isSome
        | none => false) then [10] else [])
  ++ (if e.isSource && !(fnExists d e.fn m && (srcCond d e m).isSome) then [12] else [])
  ++ (if e.sigma = 0 then [14] else [])
  ++ (if e.rho = 0 ∨ 385024 < e.rho then [16] else [])
  ++ (if e.bound = 0 ∨ 1048576 < e.bound then [20] else [])

/-- Conduits of die `d` that some reservation pins. -/
def pinnedBy (d : Nat) (m : Mod) : List Nat :=
  (m.trn.run.filter (fun e => e.1 / 16384 == d)).flatMap (fun e => e.2.pins)

/-- Set the conduits that a reservation pins at die `d`: each is held resident, others are let go. -/
def setPins (d r : Nat) (l : List Nat) (m : Mod) : Mod :=
  let old := (resRun d r m).pins
  let m := updRun d r (fun x => { x with pins := l }) m
  let m := l.foldl (fun m cn => editCond d cn (fun c => { c with pinned := true }) m) m
  let m := (old.filter (fun cn => !(pinnedBy d m).contains cn)).foldl (fun m cn => saveCond d cn (updCond d cn (fun c => { c with pinned := false }) m)) m
  showCache d m

/-- The dies that an entry concerns here. -/
def resDies (e : Resv) (m : Mod) : List Nat :=
  ((if e.isSource then (dieOfEid e.src m).toList else []) ++ (if e.isDest then destDies e m else [])).eraseDups

/-- A die would pin more than 4,096 conduits with an entry. -/
def pinsFull (e : Resv) (m : Mod) : Bool :=
  (resDies e m).any (fun d => decide (4096 < (pinnedBy d m ++ resConds d e m).eraseDups.length))

/-- Put an entry in a holder's table, or take it out. -/
def setRes (h r : Nat) (e : Option Resv) (m : Mod) : Mod := updTabs h (fun t => { t with res := NMap.upd t.res r e }) m

/-- The leaf conduits that a reservation with DEST and FLOCK pins already and that its new entry still covers (R214). -/
def leafPins (d r : Nat) (old : Option Resv) (e : Resv) (m : Mod) : List Nat :=
  match old with
  | some o =>
    if e.isDest && e.isFlock && o.isDest && o.isFlock && o.dest == e.dest && o.src == e.src && o.pasture == e.pasture then
      (resRun d r m).pins.filter (fun cn => (cond d cn m).fromGate && condLive d cn m)
    else []
  | none => []

/-- RES_CONFIRM takes effect at the Shepherd (R213, R214): the entry in force, its bucket and its pins; what the entry named
before and names no more is let go.  A reservation confirmed again keeps its bucket, wherever SRC lies now.  The tables of the
dies follow by push. -/
def resConfirm (r : Nat) (e : Resv) (m : Mod) : Mod :=
  let old := resEnt 4 r m
  let src := old.bind (fun o => if o.isSource then dieOfEid o.src m else none)
  let m := ((old.map (fun o => resDies o m)).getD []).foldl (fun m d =>
    if (resDies e m).contains d then m else setPins d r [] m) m
  let m := (resDies e m).foldl (fun m d =>
    let m := if e.isSource && dieOfEid e.src m == some d then
        (match src with
         | some o =>
           let was := resRun o r m
           updRun d r (fun x => { x with
             lastRelease := was.lastRelease, tok := min was.tok (e.sigma * 2 ^ 20), nextId := was.nextId, seq := was.seq }) m
         | none => updRun d r (fun x => { x with lastRelease := 0, tok := e.sigma * 2 ^ 20, nextId := 0 }) m)
      else m
    setPins d r (resConds d e m ++ leafPins d r old e m) m) m
  showReserved (setRes 4 r (some e) m)

/-- An accepted post ends (R232): its entry is told, and PF or VF hears of a broken contract (R234). -/
def postEnd (d r : Nat) (p : Post) (status detail len : Nat) (m : Mod) : Mod :=
  let m := updRun d r (fun x => { x with posts := x.posts.filter (fun q => q.id != p.id || q.seq != p.seq) }) m
  let m := if p.released then sampleDone d p.owner m else m
  let m := if p.owner = .nobody then m else later (.msgDone d p.cn (cond d p.cn m).peer p.owner status detail len 0) m
  if status = St.ok ∨ status = St.hostAbort then m else timedVoid d p.fn r detail m

/-- The unreleased posts of a reservation end with a status. -/
def postsVoid (d r status detail : Nat) (m : Mod) : Mod :=
  ((resRun d r m).posts.filter (fun p => !p.released)).foldl (fun m p => postEnd d r p status detail 0 m) m

/-- An entry of a die's working copy loses roles: at the source every unreleased post ends, unless the reservation was only
confirmed again with another SRC, where posts keep their admission (R213); at the destination the conduit is let go (R216). -/
def resDrop (d r : Nat) (e : Resv) (new : Option Resv) (m : Mod) : Mod :=
  let had := fun (on : Resv → Bool) => on e && !((new.map on).getD false)
  let m := if e.isSource && dieOfEid e.src m == some d && !((new.map Resv.isSource).getD false) then
      updRun d r (fun x => { x with lastRelease := 0, tok := 0, nextId := 0 }) (postsVoid d r St.deadline TDet.withdrawn m)
    else m
  let m := if had (fun x => x.isDest && (destDies x m).contains d) then updRun d r (fun x => { x with expId := 0, expOff := 0 }) m else m
  match new with
  | none => setPins d r [] m
  | some x => if x.role = e.role then m else setPins d r (resConds d x m ++ leafPins d r (some e) x m) m

/-- A die takes a reservation table as its working copy. -/
def resTake (d : Nat) (new : NMap Resv) (m : Mod) : Mod :=
  let m := (tabs d m).res.foldl (fun m e =>
    if NMap.find new e.1 = some e.2 then m else resDrop d e.1 e.2 (NMap.find new e.1) m) m
  updTabs d (fun x => { x with res := new }) m

/-- Withdraw roles of a reservation at the Shepherd (R216); the dies follow by push. -/
def resWithdraw (r mask : Nat) (m : Mod) : Mod :=
  match resEnt 4 r m with
  | none => m
  | some e =>
    let role := Nat.land e.role (Nat.xor (Nat.land mask 3) 7)
    showReserved (setRes 4 r (if role % 4 = 0 then none else some { e with role := role }) m)

/-- RES_WITHDRAW's refusal: DETAIL 0 or 2. -/
def withdrawBad (r mask : Nat) (m : Mod) : Option Nat :=
  match resEnt 4 r m with
  | none => some 0
  | some e => if mask % 4 = 0 ∨ Nat.land (mask % 4) e.role ≠ mask % 4 then some 2 else none

/-- A pinned conduit of die `d` has closed: its reservations are withdrawn here (R215). -/
def pinsClosed (d cn : Nat) (m : Mod) : Mod :=
  let rs := (m.trn.run.filter (fun e => e.1 / 16384 == d && e.2.pins.contains cn)).map (fun e => e.1 % 16384)
  rs.foldl (fun m r =>
    match resEnt 4 r m with
    | none => m
    | some e =>
      let m := if e.isSource && dieOfEid e.src m == some d then timedVoid d e.fn r TDet.withdrawn m else m
      let m := if e.isDest && (destDies e m).contains d then timedVoid d 0 r TDet.withdrawn m else m
      each dies (fun x m => match resEnt x r m with
        | some o => setRes x r none (resDrop x r o none m)
        | none => m) (resWithdraw r 3 m)) m

/-! ## Calendars (R217, R218, R222) -/

/-- The largest CAP of a port code: 94 for the even code of an unsplit quad, else 46. -/
def capMax (pc : Nat) (m : Mod) : Nat :=
  if pc % 2 = 0 ∧ !rdB F.LNE_QCTRL_SPLIT (pc / 32) (pc % 32 / 2) m then 94 else 46

/-- Record `i` of CAL_LOAD's buffer: port code, CAP, owned slots. -/
def calRecord (b : Bytes) (i : Nat) : Nat × Cal :=
  let o := i * 8256
  let slots := ((List.range 4096).map (fun s => (s, rdLE b (o + 64 + 2 * s) 2))).filter (fun e => bit e.2 15)
  (rdLE b o 1, { cap := rdLE b (o + 1) 1, slots := slots.map (fun e => (e.1, e.2 % 2 ^ 14)) })

/-- A port that CAL_LOAD may name. -/
def calPort (pc : Nat) (m : Mod) : Bool := decide (pc < 128) && portExists pc m

/-- The lowest buffer offset that CAL_LOAD refuses. -/
def calBad (b : Bytes) (n : Nat) (m : Mod) : Option Nat :=
  ((List.range n).flatMap (fun i =>
    let r := calRecord b i
    if !calPort r.1 m then [i * 8256] else if capMax r.1 m < r.2.cap then [i * 8256 + 1] else [])).head?

/-- CAL_LOAD writes shadow calendars. -/
def calLoad (b : Bytes) (n : Nat) (m : Mod) : Mod :=
  (List.range n).foldl (fun m i =>
    let r := calRecord b i
    updTabs 4 (fun t => { t with calS := NMap.put t.calS r.1 r.2 }) m) m

/-- Exchange the calendars of the ports of die `d` in a holder's tables. -/
def swapCals (h d : Nat) (m : Mod) : Mod :=
  updTabs h (fun t =>
    let mine := fun (k : Nat) => k / 32 == d
    let a := NMap.keep mine t.calA
    let s := NMap.keep mine t.calS
    let put := fun (base add : NMap Cal) => add.foldl (fun l e => NMap.put l e.1 e.2) (NMap.keep (fun k => !mine k) base)
    { t with calA := put t.calA s, calS := put t.calS a }) m

/-- The TIM packet partly sent at a port whose reservation owns no slot any more, unless its ABORT is queued already. -/
def switchCut (pc : Nat) (m : Mod) : Option Nat :=
  let q := NMap.get [] m.xb.outq (pc * 4 + 2)
  ((link pc m).openTx.getD 2 none).filter (fun p =>
    (match (link pc m).txRes with | some r => !calOwns (calActive pc m) r | none => false)
      && !q.any (fun f => f.pkt == p && f.abort))

/-- After a switch the TIM packets queued for reservations without a slot are discarded; one partly sent is ended with an
ABORT flit (R151), also where none of its flits waits here, and counts as discarded too (R221). -/
def switchDiscard (pc : Nat) (m : Mod) : Mod :=
  let c := calActive pc m
  let d := pc / 32
  let p := pc % 32
  let gone := fun (f : Flit) => match f.res with | some r => !calOwns c r && !f.abort | none => false
  let q := (NMap.get [] m.xb.outq (pc * 4 + 2)).filter gone
  let started := switchCut pc m
  let res := (link pc m).txRes
  let pkts := ((q.map Flit.pkt) ++ started.toList).eraseDups
  let m := pkts.foldl (fun m k =>
    let r := (((q.find? (fun f => f.pkt == k)).bind Flit.res).or res).getD 0
    timedVoid d 0 r 0x42 (cutTx pc 2 k (bump F.CAL_PORT_CNT_SWITCH_DISCARD d p m))) m
  match started with
  | none => m
  | some k =>
    let f : Flit := { vc := 2, sop := false, eop := true, abort := true, data := zeros 1, pkt := k, fid := m.xb.nextFid, res := res, org := 0 }
    bump F.LNK_CNT1_ABORTS d p (updXb (fun y => { y with
      nextFid := y.nextFid + 1, outq := NMap.put y.outq (pc * 4 + 2) (NMap.get [] y.outq (pc * 4 + 2) ++ [f]) }) m)

/-- CALENDAR_SWITCH_FRAME: the frame that a CAL_SWITCH named begins on die `d`; a port whose width is now below that of its CAP
counts as down (R225). -/
def calendarSwitch (d : Nat) (m : Mod) : Mod :=
  if !rdB F.CAL_SWITCH_VALID d 0 m then m
  else
    let m := runTo d (rd F.CAL_SWITCH_FRAME d 0 m * 1048576) m
    let g := tabs d m
    let bad := (List.range 32).filter (fun p => widthBad (32 * d + p) m)
    let m := swapCals d d m
    let m := updTabs d (fun t => { t with gen := NMap.set 0 (NMap.set 0 t.gen 4 (NMap.get 0 g.gen 3)) 3 (NMap.get 0 g.gen 4) }) m
    let m := wr F.CAL_GEN_ACTIVE_GEN d 0 (NMap.get 0 g.gen 3) (wr F.CAL_GEN_SHADOW_GEN d 0 (NMap.get 0 g.gen 4) m)
    let m := each (List.range 32) (fun p m => switchDiscard (32 * d + p) m) m
    let m := each ((List.range 32).filter (fun p => linkUp (32 * d + p) m && widthBad (32 * d + p) m && !bad.contains p))
      (fun p m => contractDown (32 * d + p) 0x43 m) m
    wrB F.CAL_STATUS_SWITCH_PENDING d 0 false (wrB F.CAL_SWITCH_VALID d 0 false m)

/-! ## Admission (R226 to R228) -/

/-- Packets of a timed message, and its flits. -/
def timedPkts (len : Nat) : Nat := max 1 ((len + 4095) / 4096)
def timedFlits (len extra : Nat) : Nat :=
  ((List.range (timedPkts len)).map (fun i => (min 4096 (len - 4096 * i) + extra + 239) / 240)).sum

/-- Why the exits of a reservation at its source do not carry it now: EXIT_DOWN or D2D_DOWN (R30, R173, R225). A
pruned flock member is left out: it voids its own branch alone (R235). -/
def resDown (d : Nat) (e : Resv) (m : Mod) : Option Nat :=
  let l := (resExits d d e m).filter (fun x => !e.isFlock || (pruneReason d x m).isNone)
  if l.any (fun x => dieOf x != d && !d2dUp d (dieOf x) m) then some TDet.d2dDown
  else if l.any (fun x => decide (x < 128) && !exitUp x m) then some TDet.exitDown
  else none

/-- R227 step 3. -/
def resPathUp (d : Nat) (e : Resv) (m : Mod) : Bool :=
  (resDown d e m).isNone && (e.isFlock || (decide (resExits d d e m ≠ [])
    && (resExits d d e m).all (fun x => decide (x < 128) || dieActive (dieOf x) m)))

/-- The release of a post of `f` flits taken at `t` and the tokens after it (R228). -/
def releaseOf (x : ResRun) (e : Resv) (t f : Nat) : Nat × Nat :=
  let earliest := max (t + e.allow) x.lastRelease
  let tok := min (e.sigma * 2 ^ 20) (x.tok + e.rho * (earliest - x.lastRelease))
  let need := f * 2 ^ 20
  let release := if need ≤ tok then earliest else earliest + (need - tok + e.rho - 1) / e.rho
  (release, tok + e.rho * (release - earliest) - need)

/-- The admission of a timed post on conduit `cn` (R227): the detail of a refusal, or the release and the tokens.  The entry's
DEST is a flock exactly where the conduit is a multicast one. -/
def admitPost (d f r cn len deadline : Nat) (m : Mod) : Nat ⊕ (Nat × Nat) :=
  let c := cond d cn m
  match resEnt d r m with
  | none => .inl TDet.noReservation
  | some e =>
    if !e.isSource || e.fn != f || e.dest != c.peer || e.isFlock != (c.mcast && !c.fromGate) || dieOfEid e.src m != some d then .inl TDet.noReservation
    else if !rdB F.ETL_STATUS_TIMED_OK d 0 m then .inl TDet.timeNotOk
    else if !resPathUp d e m then .inl TDet.pathDown
    else
      let fl := timedFlits len (if (pkey d e.pasture m).isSome then 88 else 64)
      let x := resRun d r m
      if e.sigma < fl then .inl TDet.tooLarge
      else if 64 ≤ x.posts.length then .inl TDet.queueFull
      else
        let y := releaseOf x e (now d m) fl
        if deadline < y.1 + e.bound then .inl TDet.late else .inr y

/-- An accepted post (R229, R310): it takes its MSG_ID, and its payload is read at once. -/
def accept (d f r cn len deadline : Nat) (owner : Owner) (y : Nat × Nat) (payload : Option Bytes) (m : Mod) : Mod :=
  bump F.CAL_ADMIT_CNT_ACCEPTED d 0 (updRun d r (fun x => { x with
    lastRelease := y.1, tok := y.2, nextId := (x.nextId + 1) % 2 ^ 32
    posts := x.posts ++ [{ id := x.nextId, owner := owner, fn := f, cn := cn, len := len, deadline := deadline, release := y.1
                           payload := payload, released := false, seq := 0, acked := [] }] }) m)

/-- One packet of a released post. -/
def timedPacket (d r : Nat) (e : Resv) (p : Post) (pay : Bytes) (i : Nat) (m : Mod) : Mod :=
  let c := cond d p.cn m
  let n := min 4096 (p.len - 4096 * i)
  let th : Th := { op := Op.put, flags := b2n (i + 1 == timedPkts p.len) + 16 + 32 * b2n e.isFlock, round := 0
                   dcn := if e.isFlock then 0xFFFFFF else c.peerCn, scn := p.cn, psn := (p.seq + i) % 2 ^ 32, msg := p.id, off := 4096 * i
                   len := p.len, trk := 0, deadline := p.deadline }
  let rh : Option (Nat → Bytes) :=
    if e.isFlock then some (fun len => mkHdr [] 1 true true 0 e.dest (eidOf d m) e.pasture 1 len r)
    else (pathEnt d e.dest e.path m).map (fun q len => mkHdr q.route q.hops false true e.path e.dest (eidOf d m) e.pasture 1 len r)
  let m := updCond d p.cn (fun c => { c with pktsTx := (c.pktsTx + 1) % 2 ^ 64, bytesTx := (c.bytesTx + n) % 2 ^ 64 }) m
  match rh with
  | none => m
  | some rh =>
    let b := buildPacket d e.pasture rh th (sub pay (4096 * i) n) m
    count d 448 1 (energy d 18 8 1 (startPacket d false 2 b.1 (sampleStart d p.owner b.2.xb.nextPkt th.psn e.path b.2)))

/-- TIMED_RELEASE: the oldest unreleased post is released, or ends LATE_READ. -/
def timedRelease (d r : Nat) (m : Mod) : Mod :=
  match (resRun d r m).posts.find? (fun p => !p.released), resEnt d r m with
  | some p, some e =>
    let m := if now d m < p.release then runTo d p.release m else m
    (match p.payload with
     | none => postEnd d r p St.hostAbort TDet.lateRead 0 m
     | some pay =>
       let s := (resRun d r m).seq
       let p' := { p with released := true, seq := s }
       let m := updRun d r (fun x => { x with
         seq := (s + timedPkts p.len) % 2 ^ 32, posts := x.posts.map (fun q => if q.id = p.id ∧ !q.released then p' else q) }) m
       each (List.range (timedPkts p.len)) (fun i m => timedPacket d r e p' pay i m) m)
  | _, _ => m

/-! ## Completion (R232, R235) -/

/-- Acknowledgements that a packet of a post needs: one, or one from every leaf. -/
def acksWanted (d : Nat) (p : Post) (m : Mod) : Nat :=
  let c := cond d p.cn m
  if c.mcast ∧ !c.fromGate then c.leaves else 1

/-- Acknowledgements that packet `i` of a post has. -/
def Post.acks (p : Post) (i : Nat) : Nat := (p.acked.filter (· == (p.seq + i) % 2 ^ 32)).length

/-- Bytes of the leading packets that are acknowledged. -/
def Post.moved (p : Post) (want : Nat) : Nat :=
  min p.len (4096 * ((List.range (timedPkts p.len)).takeWhile (fun i => decide (want ≤ p.acks i))).length)

/-- The post of die `d` that a timed acknowledgement on a conduit belongs to. -/
def timedPost (d cn msg psn : Nat) (m : Mod) : Option (Nat × Post) :=
  (m.trn.run.filter (fun e => e.1 / 16384 == d)).findSome? (fun e =>
    (e.2.posts.find? (fun p => p.released && p.cn == cn && p.id == msg && decide ((psn + 2 ^ 32 - p.seq) % 2 ^ 32 < timedPkts p.len))).map
      (fun p => (e.1 % 16384, p)))

/-- A timed acknowledgement (R232, R316): on time, late, or refused. -/
def timedAck (d cn msg psn status detail : Nat) (m : Mod) : Mod :=
  match timedPost d cn msg psn m with
  | none => m
  | some (r, p) =>
    let want := acksWanted d p m
    if status ≠ St.ok then postEnd d r p status detail (p.moved want) m
    else
      let p' := { p with acked := p.acked ++ [psn] }
      if (List.range (timedPkts p.len)).all (fun i => decide (want ≤ p'.acks i)) then postEnd d r p St.ok 0 p.len m
      else updRun d r (fun x => { x with posts := x.posts.map (fun q => if q.id = p.id ∧ q.seq = p.seq ∧ q.released then p' else q) }) m

/-- The retry timer of a conduit expires: released posts past their deadline end NO_ACK, those of a flock PARTIAL
with the count of missing leaves. -/
def timedNoAck (d cn : Nat) (m : Mod) : Mod :=
  let c := cond d cn m
  let mine := (m.trn.run.filter (fun e => e.1 / 16384 == d)).flatMap (fun e =>
    (e.2.posts.filter (fun p => p.released && p.cn == cn)).map (fun p => (e.1 % 16384, p)))
  let m := match mine, c.recs with
    | (_, p) :: _, [] =>
      let t := max (p.release + rto c) (p.deadline + 1)
      if now d m < t then runTo d t m else m
    | _, _ => m
  mine.foldl (fun m e =>
    let p := e.2
    if p.deadline < now d m ∧ p.release + rto c ≤ now d m then
      let want := acksWanted d p m
      if c.mcast ∧ !c.fromGate then
        postEnd d e.1 p St.partialDone 0 (want - ((List.range (timedPkts p.len)).map (fun i => p.acks i)).foldl min want) m
      else postEnd d e.1 p St.linkLost TDet.noAck (p.moved 1) m
    else m) m

/-- Posts not yet released hear of a void contract (R233): exits and die-to-die links down, or the source's time
not good. -/
def timedSweep (m : Mod) : Mod :=
  m.trn.run.foldl (fun m k =>
    let d := k.1 / 16384
    let r := k.1 % 16384
    if (resRun d r m).posts.all (fun p => p.released) then m
    else match resEnt d r m with
      | none => m
      | some e =>
        match resDown d e m with
        | some dt => postsVoid d r St.linkLost dt m
        | none => if rdB F.ETL_STATUS_TIMED_OK d 0 m then m else postsVoid d r St.deadline TDet.sourceTime m) m

/-- A function's posts are discarded without completion (R63). -/
def postsDrop (d f : Nat) (m : Mod) : Mod :=
  m.trn.run.foldl (fun m k =>
    if k.1 / 16384 = d then updRun d (k.1 % 16384) (fun x => { x with posts := x.posts.filter (fun p => p.fn != f) }) m else m) m

/-! ## Delivery (R231, R260, R310) -/

/-- SLOT_LOG2 and COUNT_LOG2 in force. -/
def slotLog (d r : Nat) (m : Mod) : Nat := max 12 (min 24 (cur F.RMA_TLAND_CFG_SLOT_LOG2 d r m))
def countLog (d r : Nat) (m : Mod) : Nat := min 12 (cur F.RMA_TLAND_CFG_COUNT_LOG2 d r m)

/-- R260: whether a timed packet is the one expected, or starts a later message. -/
def timedExpected (x : ResRun) (msg off : Nat) : Bool :=
  (msg == x.expId && off == x.expOff)
    || (off == 0 && (let n := (msg + 2 ^ 32 - x.expId) % 2 ^ 32; decide (1 ≤ n ∧ n < 2 ^ 31)))

/-- A timed packet that is the one expected has been accepted. -/
def timedTaken (d r : Nat) (th : Th) (n : Nat) (m : Mod) : Mod :=
  bump F.CAL_DEST_CNT_ON_TIME d 0 (updRun d r (fun x =>
    if th.last then { x with expId := (th.msg + 1) % 2 ^ 32, expOff := 0 } else { x with expId := th.msg, expOff := th.off + n }) m)

/-- A timed packet at its destination: R231, R260, then R311 and the landing area (R310). -/
def timedIn (d cn r cls : Nat) (th : Th) (b : Bytes) (ans : HostAns) (m : Mod) : HOut :=
  if th.deadline < now d m then (St.deadline, TDet.lateDrop, bump F.CAL_DEST_CNT_LATE_DROPS d 0 m)
  else if !rdB F.ETL_STATUS_TIMED_OK d 0 m then (St.deadline, TDet.destTime, bump F.CAL_DEST_CNT_LATE_DROPS d 0 m)
  else if !timedExpected (resRun d r m) th.msg th.off then (St.deadline, TDet.lateDrop, m)
  else
    let f := (cond d cn m).fn
    match fnStop d f m with
    | some dt => refuse d St.remoteAccess dt m
    | none =>
      let sl := slotLog d r m
      if !curB F.RMA_TLAND_CFG_ENABLE d r m || decide (2 ^ sl < th.off + b.length) then refuse d St.remoteAccess RaDet.noLanding m
      else
        let a := cur F.RMA_TLAND_ADDR_ADDR d r m * 4096 + (th.msg % 2 ^ countLog d r m) * 2 ^ sl + th.off
        let o := putBytes d f (cur F.RMA_TLAND_CFG_XCTX d r m) a cls b ans m
        if o.1 = St.ok then (St.ok, 0, timedTaken d r th b.length o.2.2) else o

end Sys2Proof.Machine
end

