-- ==== Sys2Proof/Machine/Drover.lean ====
section
/-! DEFINITION. Drover collectives (spec/14): programs, instances, chunks, collective packets, credits, timed steps,
completion and failure (R365 to R389). -/
namespace Sys2Proof.Machine

/-! ## Programs (R365 to R370) -/

/-- An edge's 16 bytes. -/
def edgeOf (b : Bytes) : DEdge :=
  { route := (List.range 8).map (fun i => rdLE b i 1), off := rdLE b 0 8, hops := rdLE b 8 1 % 16, kind := rdLE b 9 1 % 8
    target := rdLE b 10 3 % 2 ^ 20, peer := rdLE b 13 1, leaves := rdLE b 14 1 }

/-- A step record. -/
def stepOf (b : Bytes) : DStep :=
  let fl := rdLE b 3 1
  { op := rdLE b 0 1 % 16, dt := rdLE b 1 1 % 16, round := rdLE b 2 1 % 8, sat := bit (rdLE b 2 1) 3, outPart := bit fl 0, timed := bit fl 1
    partOk := bit fl 2, twait := bits fl 3 2, count := rdLE b 4 1, next := rdLE b 5 1, res := rdLE b 6 2 % 2 ^ 14, ins := rdLE b 8 8
    outs := rdLE b 16 8, elemOff := rdLE b 24 4, elemCount := rdLE b 28 4, timeOff := rdLE b 32 4, dlOff := rdLE b 36 4
    timeout := rdLE b 40 4 }

/-- Record `i`, and edge `e` of a program's bytes. -/
def record (b : Bytes) (i : Nat) : Bytes := sub b (64 * i) 64
def edgeBytes (b : Bytes) (e : Nat) : Bytes := sub b (64 + 16 * e) 16

/-- Records of a program: header, edges, steps. -/
def edgeRecs (b : Bytes) : Nat := (rdLE b 9 1 + 3) / 4
def progRecs (b : Bytes) : Nat := 1 + edgeRecs b + rdLE b 8 1
def stepBytes (b : Bytes) (s : Nat) : Bytes := record b (1 + edgeRecs b + s)

/-- The program in DRV_PROG_LOAD's buffer. -/
def progOf (src fn : Nat) (b : Bytes) : DProg :=
  { fn := fn, src := src, collId := rdLE b 0 3, arrival := bit (rdLE b 3 1) 0, pasture := rdLE b 4 2, window := rdLE b 10 1, chunk := rdLE b 12 2
    seed := rdLE b 16 8, timeout := rdLE b 24 4, edges := (List.range (rdLE b 9 1)).map (fun e => edgeOf (edgeBytes b e))
    steps := (List.range (rdLE b 8 1)).map (fun s => stepOf (stepBytes b s)), recs := progRecs b }

/-- The step of a program, and an edge. -/
def DProg.step? (P : DProg) (s : Nat) : Option DStep := P.steps[s]?
def DProg.edge? (P : DProg) (e : Nat) : Option DEdge := P.edges[e]?

/-- The edges of a mask. -/
def DProg.named (P : DProg) (mask : Nat) : List DEdge := (bitList 64 mask).filterMap P.edge?

/-- Staging that a program takes (R370). -/
def DProg.staging (P : DProg) : Nat :=
  2 * P.window * (64 + ((P.steps.filter (fun s => decide (0 < s.count))).map (fun s => P.chunk * pSize s.op s.dt)).sum)

/-- Bytes per element of a step's output. -/
def DStep.outSize (s : DStep) : Nat := if s.outPart then pSize s.op s.dt else elemSize s.op s.dt

/-- The step whose NEXT closes a cycle on the chain from a step (R370). -/
def chainBad (P : DProg) : Nat → List Nat → Nat → Option Nat
  | 0, _, _ => none
  | n + 1, seen, s => match P.step? s with
    | none => none
    | some x => if x.next == 0xFF then none else if (s :: seen).contains x.next then some s else chainBad P n (s :: seen) x.next

/-- Offsets whose condition holds. -/
def offsIf (l : List (Bool × Nat)) : List Nat := (l.filter Prod.fst).map Prod.snd

/-- Where the header is refused (R366, R370). -/
def headerBad (b : Bytes) (P : DProg) : List Nat :=
  offsIf [(decide (2 ≤ rdLE b 3 1), 3), (!zeroAt b 6 2, 6), (P.steps.isEmpty, 8), (decide (64 < P.edges.length), 9)
    , (decide (P.window = 0 ∨ 64 < P.window), 10), (!zeroAt b 11 1, 11), (decide (P.chunk = 0 ∨ 4096 < P.chunk), 12), (!zeroAt b 14 2, 14)
    , (decide (P.timeout = 0 ∨ 10000000 < P.timeout), 24), (!zeroAt b 28 36, 28)]

/-- An edge is an output, or an input, of some step. -/
def DProg.isOut (P : DProg) (e : Nat) : Bool := P.steps.any (fun s => bit s.outs e)
def DProg.isIn (P : DProg) (e : Nat) : Bool := P.steps.any (fun s => bit s.ins e)

/-- Where edge `e` is refused (R367, R370): a reserved field or code, a route that does not end with 0xFD, LEAVES. -/
def edgeBad (b : Bytes) (P : DProg) (e : Nat) : List Nat :=
  let x := edgeBytes b e
  let k := rdLE x 9 1
  let g := edgeOf x
  let routed := (P.isOut e && k == 0) || (P.isIn e && (k == 0 || k == 1))
  let hopsOk := decide (1 ≤ g.hops ∧ g.hops ≤ 8)
  let leavesBad := (P.isOut e && (if k = 1 then g.leaves == 0 else g.leaves != 1)) || (P.isIn e && g.leaves != 0)
  (offsIf [((k == 2 || k == 3) && !zeroAt x 0 8, 0), (routed && hopsOk && g.route.getD (g.hops - 1) 0 != 0xFD, g.hops - 1)
    , (decide (16 ≤ rdLE x 8 1) || (routed && !hopsOk), 8), (decide (4 < k), 9)
    , (decide (16 ≤ rdLE x 12 1) || (k == 2 && decide (4 ≤ rdLE x 10 3)), 10), (leavesBad, 14), (!zeroAt x 15 1, 15)]).map (· + (64 + 16 * e))

/-- Edges that step `s` names and that an earlier step has named. -/
def DProg.named2 (P : DProg) (s : Nat) : Nat := (P.steps.take s).foldl (fun a x => Nat.lor a (Nat.lor x.ins x.outs)) 0

/-- Where step `s` is refused (R368, R370). -/
def stepBad (b : Bytes) (P : DProg) (s : Nat) : List Nat :=
  let x := stepBytes b s
  let t := stepOf x
  let before := P.named2 s
  let lim := 2 ^ P.edges.length
  (offsIf [(decide (9 < rdLE x 0 1), 0)
    , (decide (16 ≤ rdLE x 1 1) || !dtKnown t.dt || t.dt != (stepOf (stepBytes b 0)).dt || ([5, 6, 7].contains t.op && isFloat t.dt), 1)
    , (decide (16 ≤ rdLE x 2 1) || ((t.op == 1 || t.op == 2) && decide (4 < t.round)), 2)
    , (decide (32 ≤ rdLE x 3 1) || t.twait == 3 || (t.outPart && (P.named t.outs).any (fun e => e.kind == 3 || e.kind == 4)), 3)
    , ((t.op == 1 && decide (1 < t.count)) || decide (popcount 64 t.ins < t.count), 4)
    , (decide (t.next ≠ 0xFF ∧ P.steps.length ≤ t.next) || chainBad P (P.steps.length + 1) [] 0 == some s, 5)
    , (decide (64 ≤ rdLE x 7 1), 6), (decide (lim ≤ t.ins) || Nat.land t.ins before != 0, 8)
    , (decide (lim ≤ t.outs) || Nat.land t.outs (Nat.lor before t.ins) != 0, 16), (decide (t.elemOff % max 1 P.chunk ≠ 0), 24)
    , (!zeroAt x 44 20, 44)]).map (· + 64 * (1 + edgeRecs b + s))

/-- The programs of a die, as a holder has them. -/
def progsOf (h d : Nat) (m : Mod) : List (Nat × DProg) :=
  ((tabs h m).drv.filter (fun e => e.1 / 256 == d)).map (fun e => (e.1 % 256, e.2))

/-- The lowest offset of the argument buffer at which DRV_PROG_LOAD returns BAD_ARGUMENT (R370): that of the field that
the case concerns; a payload above 4,096 bytes is CHUNK's. -/
def progBad (d : Nat) (b : Bytes) (m : Mod) : Option Nat :=
  let P := progOf 0 0 b
  let big := P.steps.any (fun s => (P.named s.outs).any (fun e => decide (e.kind ≤ 2)) && decide (4096 < P.chunk * s.outSize))
  let pad := 64 + 16 * P.edges.length
  let l := offsIf [((progsOf 4 d m).any (fun e => e.2.collId == P.collId), 0), (big, 12)
      , (!zeroAt b pad (16 * (4 * edgeRecs b - P.edges.length)), pad)]
    ++ headerBad b P ++ (List.range P.edges.length).flatMap (edgeBad b P) ++ (List.range P.steps.length).flatMap (stepBad b P)
  l.min?

/-- Drover staging of a die in bytes (R22), less 32 KiB for each macro lost (R36). -/
def stagingTotal (d : Nat) (m : Mod) : Nat :=
  (16 - partOf d m) * 1048576 - 32768 * macrosBad d m
def stagingUsed (h d : Nat) (m : Mod) : Nat := ((progsOf h d m).map (fun e => e.2.staging)).sum
def recsUsed (h d : Nat) (m : Mod) : Nat := ((progsOf h d m).map (fun e => e.2.recs)).sum

/-- The lowest free program number of a die. -/
def freeProg (d : Nat) (m : Mod) : Option Nat :=
  (List.range 256).find? (fun p => (NMap.find (tabs 4 m).drv (d * 256 + p)).isNone)

/-- DRV_PROG_LOAD returns NO_RESOURCE (R370). -/
def progFull (d : Nat) (P : DProg) (m : Mod) : Bool :=
  (freeProg d m).isNone || decide (4096 < recsUsed 4 d m + P.recs) || decide (stagingTotal d m < stagingUsed 4 d m + P.staging)

/-! ## Program state -/

/-- Program `p` as its die holds it, and its run state. -/
def prog (d p : Nat) (m : Mod) : Option DProg := NMap.find (tabs d m).drv (d * 256 + p)
def drun (d p : Nat) (m : Mod) : DRun := NMap.get DRun.reset m.drv.run (d * 256 + p)

/-- A mask of edges still awaited by a chunk at a step. -/
def awaited (c : Chunk) (s : DStep) : List Nat := (bitList 64 s.ins).filter (fun e => !bit c.got e)

/-- Show a program's registers (R391). -/
def showProg (d p : Nat) (m : Mod) : Mod :=
  let r := drun d p m
  let st := match prog d p m with | some _ => r.state | none => 0
  let P := prog d p m
  let wait := (r.cur.bind (fun x => (x.chunks.find? (fun e => e.2.phase == 1)).map Prod.snd)).bind (fun c =>
    (P.bind (fun P => P.step? c.step)).map (fun s => (c.step, (awaited c s).headD 0xFF)))
  let m := wr F.DRV_PSTATE_STATE d p st (wr F.DRV_PSTATE_NEXT_INSTANCE d p r.next
    (wr F.DRV_PSTATE_COLL_ID d p ((P.map DProg.collId).getD 0) m))
  let m := match r.cur with
    | some x => wr F.DRV_PINFO_CHUNKS_RETIRED d p x.retired m
    | none => m
  wr F.DRV_PINFO_WAIT_STEP d p ((wait.map Prod.fst).getD 0xFF) (wr F.DRV_PINFO_WAIT_EDGE d p ((wait.map Prod.snd).getD 0xFF) m)

/-- Show the store of a die. -/
def showStoreOf (d : Nat) (m : Mod) : Mod :=
  wr F.DRV_STORE_RECORDS d 0 (recsUsed d d m) (wr F.DRV_STORE_STAGING_KIB d 0 ((stagingUsed d d m + 1023) / 1024)
    (wr F.DRV_STORE_PROGRAMS d 0 (progsOf d d m).length (wr F.DRV_GEN_GEN d 0 (NMap.get 0 (tabs d m).gen 6) m)))

/-- Change a program's run state. -/
def setRun (d p : Nat) (r : DRun) (m : Mod) : Mod :=
  showProg d p { m with drv := { m.drv with run := NMap.set DRun.reset m.drv.run (d * 256 + p) r } }
def updDrun (d p : Nat) (f : DRun → DRun) (m : Mod) : Mod := setRun d p (f (drun d p m)) m

/-- An instance: the current one, or the pending one. -/
def DRun.inst (r : DRun) (pending : Bool) : Option Inst := if pending then r.pend else r.cur
def updInst (d p : Nat) (pending : Bool) (f : Inst → Inst) (m : Mod) : Mod :=
  updDrun d p (fun r => if pending then { r with pend := r.pend.map f } else { r with cur := r.cur.map f }) m

/-- A chunk of an instance. -/
def updChunk (d p : Nat) (pending : Bool) (c : Nat) (f : Chunk → Chunk) (m : Mod) : Mod :=
  updInst d p pending (fun x =>
    match NMap.find x.chunks c with
    | some k => { x with chunks := NMap.put x.chunks c (f k) }
    | none => x) m

/-- A chunk whose first operand has come before it is admitted. -/
def Chunk.new : Chunk :=
  { step := 0, phase := 3, alarm := false, time := 0, acc := [], got := 0, done := 0, closed := 0, result := [], part := false, left := 0, nan := 0
    afl := 0, release := 0 }

/-- Chunks of an instance, elements of a chunk, and the lowest chunk not yet retired (R374, R382). -/
def Inst.total (P : DProg) (x : Inst) : Nat := max 1 ((x.n + P.chunk - 1) / P.chunk)
def elems (P : DProg) (x : Inst) (c : Nat) : Nat := min P.chunk (x.n - c * P.chunk)
def Inst.low (x : Inst) : Nat := (NMap.keys x.chunks).foldl min x.next

/-- Chunk `c` takes step `s` (R374). -/
def takes (P : DProg) (s : DStep) (c : Nat) : Bool :=
  let k := c * P.chunk
  decide (s.elemOff ≤ k) && (s.elemCount == 0 || decide (k < s.elemOff + s.elemCount))

/-- The steps that a chunk takes, from step `s`. -/
def stepsOf (P : DProg) (c : Nat) : Nat → Nat → List Nat
  | 0, _ => []
  | n + 1, s => match P.step? s with
    | none => []
    | some x => (if takes P x c then [s] else []) ++ (if x.next = 0xFF then [] else stepsOf P c n x.next)

/-- The step of which an edge is an input, or an output. -/
def stepIn (P : DProg) (e : Nat) : Option Nat := (List.range P.steps.length).find? (fun s => bit ((P.steps.map DStep.ins).getD s 0) e)
def stepOut (P : DProg) (e : Nat) : Option Nat := (List.range P.steps.length).find? (fun s => bit ((P.steps.map DStep.outs).getD s 0) e)

/-- A range of the pool of die `d` lies within one allocation of function `f` of die `src`. -/
def poolOwned (d src f off n : Nat) (m : Mod) : Bool :=
  (NMap.get [] m.pools d).any (fun a => a.fn == f && a.src == src && decide (a.off ≤ off ∧ off + n ≤ a.off + a.size))

/-- Every LOCAL edge holds N elements (R373). -/
def localOk (d : Nat) (P : DProg) (n : Nat) (m : Mod) : Bool :=
  P.steps.all (fun s => (P.named s.ins ++ P.named s.outs).all (fun e =>
    e.kind != 4 || poolOwned d P.src P.fn e.off (n * elemSize s.op s.dt) m))

/-! ## Completion and failure (R385 to R388) -/

/-- The entry of an instance's COLL_START is told. -/
def instTell (d : Nat) (x : Inst) (status detail len : Nat) (m : Mod) : Mod :=
  if x.owner = .nobody then m
  else later (.msgDone d 0 0 x.owner status detail len (min (2 ^ 32 - 1) x.nan + 2 ^ 32 * x.afl)) m

/-- The outcome of an instance as the registers keep it. -/
def instNote (d p : Nat) (x : Inst) (status detail : Nat) (m : Mod) : Mod :=
  wr F.DRV_PSTATE_LAST_STATUS d p status (wr F.DRV_PSTATE_LAST_DETAIL d p detail
    (wr F.DRV_PARITH_AFLAGS d p x.afl (wr F.DRV_PARITH_NAN_COUNT d p (min (2 ^ 32 - 1) x.nan)
      (wr F.DRV_PINFO_CHUNKS_RETIRED d p x.retired m))))

/-- The current instance ends with a failure and halts its program (R386). -/
def instFail (d p status detail : Nat) (m : Mod) : Mod :=
  let r := drun d p m
  match r.cur with
  | none => m
  | some x =>
    let m := instTell d x status detail x.written (instNote d p x status detail (count d 581 1 m))
    let m := match r.pend with
      | some y => instTell d y St.notReady 0x51 0 m
      | none => m
    setRun d p { state := 3, next := (x.num + 1) % 65536, cur := none, pend := none, old := none, creditAt := r.creditAt } m

/-- A timed failure is also an event of the owner (R384). -/
def timedFail (d p fn res status detail : Nat) (m : Mod) : Mod := instFail d p status detail (timedVoid d fn res detail m)

/-- A pending instance has become the current one: check 4 where a packet started it (R373). -/
def pendCheck (d p : Nat) (m : Mod) : Mod :=
  match prog d p m, (drun d p m).cur with
  | some P, some x => if x.owner = .nobody ∧ !localOk d P x.n m then instFail d p St.accessDenied 0x52 m else m
  | _, _ => m

/-- Every chunk has retired: the instance completes and the pending one starts. -/
def instDone (d p : Nat) (m : Mod) : Mod :=
  let r := drun d p m
  match prog d p m, r.cur with
  | some P, some x =>
    if x.next < x.total P ∨ !x.chunks.isEmpty then m
    else
      let st := if x.partialDone then St.partialDone else if x.afl ≠ 0 then St.arithFlag else St.ok
      let m := instTell d x st 0 (if x.partialDone then x.missing else x.written) (instNote d p x st 0 (count d 580 1 m))
      pendCheck d p (setRun d p { state := if r.pend.isSome then 2 else 1, next := (x.num + 1) % 65536, cur := r.pend, pend := none, old := some x, creditAt := r.creditAt } m)
  | _, _ => m

/-! ## Credits (R382) -/

/-- A RETIRED value is taken for output edge `e` from `src`: the highest counts. -/
def takeCredit (d p : Nat) (pending : Bool) (e src v : Nat) (m : Mod) : Mod :=
  updInst d p pending (fun x =>
    let k := e * 2 ^ 20 + src
    { x with rt := NMap.set 0 x.rt k (max v (NMap.get 0 x.rt k)) }) m

/-- R of an output edge. -/
def retiredOf (P : DProg) (x : Inst) (e : Nat) : Option Nat :=
  let l := (x.rt.filter (fun k => k.1 / 2 ^ 20 == e)).map Prod.snd
  match P.edge? e with
  | none => some 0
  | some k =>
    if k.kind ≠ 1 then some (l.foldl max 0)
    else if bit x.dropped e then (match l with | [] => none | a :: r => some (r.foldl min a))
    else if l.length < k.leaves then some 0
    else some (l.foldl min (l.headD 0))

/-- The window of an output edge admits chunk `c`. -/
def creditOk (P : DProg) (x : Inst) (e c : Nat) : Bool :=
  match P.edge? e with
  | none => true
  | some k => decide (2 < k.kind) || (match retiredOf P x e with | some r => decide (c < r + P.window) | none => true)

/-- Credits to DIE edges are passed inside the module. -/
def dieCredits (d p : Nat) (m : Mod) : Mod :=
  match prog d p m, (drun d p m).cur with
  | some P, some x =>
    (List.range P.edges.length).foldl (fun m e =>
      match P.edge? e, stepIn P e with
      | some k, some _ =>
        if k.kind ≠ 2 then m
        else match (progsOf (k.target % 4) (k.target % 4) m).find? (fun q => q.2.collId == P.collId) with
          | none => m
          | some q =>
            let r := drun (k.target % 4) q.1 m
            if (r.cur.map Inst.num) = some x.num then takeCredit (k.target % 4) q.1 false k.peer 0 x.low m
            else if (r.pend.map Inst.num) = some x.num then takeCredit (k.target % 4) q.1 true k.peer 0 x.low m
            else m
      | _, _ => m) m
  | _, _ => m

/-! ## Operands (R377, R378, R418) -/

/-- Count what arithmetic raised (R391, R418). -/
def tally (d : Nat) (t : Tal) (m : Mod) : Mod :=
  bumpBy F.RDU_ARITH_CNT_NAN_INPUTS d 0 t.nan (bumpBy F.RDU_ARITH_CNT_INVALID d 0 t.inv
    (bumpBy F.RDU_ARITH_CNT_CONV_OVERFLOW d 0 t.conv (bumpBy F.RDU_ARITH_CNT_INT_OVERFLOW d 0 t.intv
      (bumpBy F.RDU_EXHAUST_MALFORMED d 0 t.mal (bumpBy F.RDU_EXHAUST_EXHAUSTED d 0 t.exh m)))))

/-- Operand bytes taken. -/
def operandBytes (d n : Nat) (m : Mod) : Mod :=
  energy d 21 9 n (count d 577 n (wr F.RDU_OPERANDS_BYTES_IN d 0 ((rd F.RDU_OPERANDS_BYTES_IN d 0 m + n) % 2 ^ 48) m))

/-- `n` bytes whose values the spec leaves open. -/
def drawBytes (n : Nat) (m : Mod) : Bytes × Mod :=
  let x := draw (8 * n) m
  (leBytes n x.1, x.2)

/-- A chunk's record, made where no operand has come before. -/
def ensureChunk (d p : Nat) (pending : Bool) (c : Nat) (m : Mod) : Mod :=
  updInst d p pending (fun x => if (NMap.find x.chunks c).isSome then x else { x with chunks := NMap.put x.chunks c Chunk.new }) m

/-- Take a payload of `k` elements from element `o` of a chunk into its accumulators. -/
def combine (s : DStep) (part : Bool) (n o k : Nat) (b : Bytes) (a : StepAcc) : StepAcc × Tal :=
  if s.op = 0 then (a, Tal.zero)
  else if s.op = 1 then (if a.raw.isSome ∨ (k = 0 ∧ 0 < n) then a else { a with raw := some b, part := part }, Tal.zero)
  else
    let all := if a.elems.isEmpty then List.replicate n Accu.reset else a.elems
    let r := takeChunk s.op s.dt part k b ((all.drop o).take k)
    ({ a with elems := all.take o ++ r.1 ++ all.drop (o + k) }, if s.op ≤ 4 ∨ 8 ≤ s.op then r.2 else Tal.zero)

/-- Edge `e` delivers chunk `c`: `k` elements from element `o` of the chunk, with the NaN count and flags behind them. An operand that
comes after its step's result was formed, because COUNT is below the step's inputs, goes the same way as one that comes after a
timeout (DESIGN CHOICE: R377 and R387 name only those). -/
def deliverEdge (d p : Nat) (pending : Bool) (P : DProg) (c e : Nat) (part : Bool) (o k : Nat) (b : Bytes) (nan afl : Nat) (m : Mod) : Mod :=
  let m := ensureChunk d p pending c m
  match stepIn P e, ((drun d p m).inst pending) with
  | some s, some x =>
    (match P.step? s, NMap.find x.chunks c with
     | some st, some ck =>
       let twice := st.op == 1 && (NMap.find ck.acc s).any (fun a => a.raw.isSome)
       if bit ck.closed s || bit ck.done s || twice then
         bump F.DRV_CNT1_LATE_ARRIVAL d 0 (updChunk d p pending c (fun q => { q with got := setBit q.got e true }) m)
       else
         let a := NMap.get { elems := [], raw := none, part := false } ck.acc s
         let r := combine st part (elems P x c) o k b a
         tally d r.2 (updChunk d p pending c (fun q =>
           { q with acc := NMap.put q.acc s r.1, got := setBit q.got e true, nan := min (2 ^ 32 - 1) (q.nan + nan + r.2.nan)
                    afl := Nat.lor (Nat.lor q.afl afl) r.2.flags }) (operandBytes d b.length m))
     | _, _ => m)
  | _, _ => m

/-! ## Results (R378, R384) -/

/-- Elements no operand has reached: an empty sum is +0 (R410); of another operation the spec states no result. -/
def fillOpen (s : DStep) : List Accu → Mod → List Accu × Mod
  | [], m => ([], m)
  | a :: r, m =>
    if a.any ∨ s.op = 2 then let x := fillOpen s r m; (a :: x.1, x.2)
    else
      let v := draw (8 * dtSize s.dt) m
      let i := draw 32 v.2
      let x := fillOpen s r i.2
      ({ a with v := v.1, idx := i.1 } :: x.1, x.2)

/-- The bytes of chunk `c` at step `s`. -/
def formStep (P : DProg) (x : Inst) (c s : Nat) (st : DStep) (ck : Chunk) (m : Mod) : Bytes × Tal × Mod :=
  let n := elems P x c
  let k0 := c * P.chunk
  let a := NMap.get { elems := [], raw := none, part := false } ck.acc s
  if st.op = 0 then ([], Tal.zero, m)
  else if st.op = 1 then
    (match a.raw with
     | none => let b := drawBytes (n * dtSize st.dt) m; (b.1, Tal.zero, b.2)
     | some b =>
       if a.part && !st.outPart then
         let r := copyRound st.dt st.round st.sat P.seed x.num k0 n b
         (r.1, r.2, m)
       else (b, Tal.zero, m))
  else
    let l := fillOpen st (if a.elems.isEmpty then List.replicate n Accu.reset else a.elems) m
    let r := formChunk st.op st.dt st.round st.sat st.outPart P.seed x.num k0 l.1
    (r.1, r.2, l.2)

/-- Flits of a step's packets for one chunk of `n` elements. -/
def stepFlits (P : DProg) (s : DStep) (n : Nat) : Nat :=
  ((P.named s.outs).filter (fun e => decide (e.kind ≤ 2))).length * flitCount (64 + n * s.outSize)

/-- The reservation of a timed step as it must be (R384), or the failure. -/
def stepRes (d : Nat) (P : DProg) (s : DStep) (m : Mod) : Option Resv :=
  (resEnt d s.res m).filter (fun r =>
    r.isSource && r.fn == P.fn && P.src == d && dieOfEid r.src m == some d
      && (P.named s.outs).all (fun e =>
          if e.kind = 0 then !r.isFlock && (match pathEnt d r.dest r.path m with
            | some q => q.hops == e.hops && q.route.take q.hops == e.route.take e.hops
            | none => false)
          else if e.kind = 1 then r.isFlock && r.dest == e.target else true))

/-- The reservation of a timed step with its contract in force, or how the contract is void (R233, R384). -/
def stepHeld (d : Nat) (P : DProg) (s : DStep) (m : Mod) : (Nat × Nat) ⊕ Resv :=
  match stepRes d P s m with
  | none => .inl (St.deadline, TDet.withdrawn)
  | some r =>
    match resDown d r m with
    | some dt => .inl (St.linkLost, dt)
    | none => if rdB F.ETL_STATUS_TIMED_OK d 0 m then .inr r else .inl (St.deadline, TDet.sourceTime)

/-- How the contract of a timed step is void now. -/
def stepVoid (d : Nat) (P : DProg) (s : DStep) (m : Mod) : Option (Nat × Nat) :=
  if s.timed then (match stepHeld d P s m with | .inl e => some e | .inr _ => none) else none

/-- The release of a timed step's chunk: the time and tokens, or the failure. -/
def stepRelease (d : Nat) (P : DProg) (x : Inst) (s : DStep) (n : Nat) (m : Mod) : (Nat × Nat) ⊕ (Nat × Nat) :=
  match stepHeld d P s m with
  | .inl e => .inl e
  | .inr r =>
        let y := releaseOf (resRun d s.res m) { r with allow := 0 } (now d m) (stepFlits P s n)
        if x.base + s.dlOff < y.1 + r.bound then .inl (St.deadline, 0x15) else .inr y

/-- The result of a step is formed. -/
def formNow (d p c : Nat) (P : DProg) (x : Inst) (s : Nat) (st : DStep) (ck : Chunk) (m : Mod) : Mod :=
  let r := formStep P x c s st ck m
  let m := tally d r.2.1 r.2.2
  let m := updChunk d p false c (fun q => { q with
    phase := 2, done := setBit q.done s true, result := r.1, left := st.outs, part := st.outPart && (st.op != 1 || (NMap.find ck.acc s).any StepAcc.part)
    afl := Nat.lor q.afl r.2.1.flags
    acc := NMap.del q.acc s, release := 0 }) m
  if st.timed && (P.named st.outs).any (fun e => decide (e.kind ≤ 2)) then
    match stepRelease d P x st (elems P x c) m with
    | .inl (status, detail) => timedFail d p P.fn st.res status detail m
    | .inr y =>
      updChunk d p false c (fun q => { q with release := y.1 })
        (updRun d st.res (fun z => { z with lastRelease := y.1, tok := y.2 }) m)
  else m

/-! ## How a chunk moves (R375, R376) -/

/-- Alarms of the pool 8 to 31 in use. -/
def alarmsUsed (d : Nat) (m : Mod) : Nat :=
  ((m.drv.run.filter (fun e => e.1 / 256 == d)).map (fun e =>
    match e.2.cur with | some x => (x.chunks.filter (fun k => k.2.alarm)).length | none => 0)).sum

/-- The chunk is retired: its staging is free, its counts join the instance's. -/
def retire (d p c : Nat) (m : Mod) : Mod :=
  let m := updInst d p false (fun x =>
    match NMap.find x.chunks c with
    | some k => { x with chunks := NMap.del x.chunks c, retired := x.retired + 1, nan := min (2 ^ 32 - 1) (x.nan + k.nan), afl := Nat.lor x.afl k.afl }
    | none => x) m
  instDone d p (dieCredits d p (count d 576 1 m))

/-- The chunk comes to step `s`: a time wait begins, or its timeout. -/
def enterStep (d p c : Nat) (x : Inst) (s : Nat) (st : DStep) (m : Mod) : Mod :=
  let t := x.base + st.timeOff
  let cyc := (t + 1023) / 1024 * 1024
  let put := fun (ph : Nat) (al : Bool) (tm : Nat) (m : Mod) =>
    updChunk d p false c (fun q => { q with step := s, phase := ph, alarm := al, time := tm }) m
  if st.twait = 0 then put 1 false (now d m) m
  else if st.twait = 1 then (if cyc ≤ now d m then put 1 false (now d m) m else put 0 false cyc m)
  else if t ≤ now d m then put 1 false (now d m) m
  else if alarmsUsed d m < 24 then put 0 true t m
  else
    let m := bump F.DRV_CNT1_ALARM_FALLBACK d 0 m
    if cyc ≤ now d m then put 1 false (now d m) m else put 0 false cyc m

/-- Move a chunk on until it waits: `go` says that it is to leave its step. -/
def advance (d p c : Nat) : Nat → Bool → Mod → Mod
  | 0, _, m => m
  | n + 1, go, m =>
    match prog d p m, (drun d p m).cur with
    | some P, some x =>
      (match NMap.find x.chunks c with
       | none => m
       | some ck =>
         match P.step? ck.step with
         | none => m
         | some st =>
           if go then
             -- to the next step that the chunk takes, or it retires
             (match (if st.next = 0xFF then [] else stepsOf P c P.steps.length st.next) with
              | [] => retire d p c m
              | s :: _ =>
                match P.step? s with
                | some y => advance d p c n false (enterStep d p c x s y m)
                | none => m)
           else if ck.phase = 1 then
             (if popcount 64 (Nat.land ck.got st.ins) < st.count then m
              else advance d p c n false (formNow d p c P x ck.step st ck m))
           else if ck.phase = 2 ∧ ck.left = 0 then advance d p c n true m
           else m)
    | _, _ => m

/-- Enough for any chunk to pass every step. -/
def advFuel : Nat := 1024

/-- A chunk moves on, and the registers follow. -/
def chunkGo (d p c : Nat) (m : Mod) : Mod := showProg d p (advance d p c advFuel false m)

/-! ## HOST and LOCAL edges -/

/-- The elements of chunk `c` that a HOST edge covers: first, count, and the address of the first. -/
def hostPart (P : DProg) (x : Inst) (own : Bool) (addr es c : Nat) : Nat × Nat × Nat :=
  let k0 := c * P.chunk
  let k1 := k0 + elems P x c
  if own then
    let hi := if x.ownCount = 0 then x.n else x.ownOff + x.ownCount
    let lo' := max k0 x.ownOff
    let hi' := min k1 hi
    (lo', hi' - lo', (addr + (lo' - x.ownOff) * es) % 2 ^ 64)
  else (k0, k1 - k0, (addr + k0 * es) % 2 ^ 64)

/-- A host access of the Drover failed (R388). -/
def hostFail (st detail : Nat) : Nat × Nat := if st = St.accessDenied then (St.accessDenied, 0) else (St.hostAbort, detail)

/-- Failures found together rank HOST_ABORT, then ACCESS_DENIED, then DEADLINE_MISSED, then LINK_LOST (R386). -/
def failRank (status : Nat) : Nat :=
  if status = St.hostAbort then 0 else if status = St.accessDenied then 1 else if status = St.deadline then 2 else 3
def worstOf (a b : Option (Nat × Nat)) : Option (Nat × Nat) :=
  match a, b with
  | some x, some y => if failRank y.1 < failRank x.1 then some y else some x
  | none, b => b
  | a, none => a

/-- Read a HOST input of a chunk: the failure, where the read fails. -/
def hostInput (d p c e : Nat) (P : DProg) (x : Inst) (st : DStep) (ans : HostAns) (m : Mod) : Option (Nat × Nat) × Mod :=
  let es := elemSize st.op st.dt
  let h := hostPart P x x.inOwn x.inAddr es c
  if h.2.1 = 0 ∨ es = 0 then (none, deliverEdge d p false P c e false 0 0 [] 0 0 m)
  else
    let r := readVa d P.fn x.xctx h.2.2 (h.2.1 * es) Cls5.drover ans m
    match r.1 with
    | .bad s _ _ => (some (hostFail s 0x51), r.2)
    | .ok b =>
      let o := h.1 - c * P.chunk
      let n := elems P x c
      if st.op = 1 ∧ h.2.1 < n then
        -- the elements of the chunk outside the own range have no operand
        let fill := drawBytes (n * es) r.2
        (none, deliverEdge d p false P c e false 0 n (wrAt fill.1 (o * es) b) 0 0 fill.2)
      else (none, deliverEdge d p false P c e false o h.2.1 b 0 0 r.2)

/-- Bytes of the working pool of a die. -/
def poolRead (d off n : Nat) (m : Mod) : Bytes := (List.range n).map (fun i => NMap.get 0#8 m.pool (d * 2 ^ 40 + off + i))
def poolWrite (d off : Nat) (b : Bytes) (m : Mod) : Mod :=
  { m with pool := (b.zip (List.range b.length)).foldl (fun t e => NMap.set 0#8 t (d * 2 ^ 40 + off + e.2) e.1) m.pool }

/-- The Drover gap (R479): the admission of a chunk that takes an untimed step waits for it, and starts the next. -/
def admitGap (d : Nat) (P : DProg) (ss : List Nat) (m : Mod) : Mod :=
  let untimed := ss.any (fun s => match P.step? s with | some y => !y.timed | none => false)
  let gap := rd F.TLY_ACTION_DROVER_GAP_NS d 0 m
  let last := NMap.get 0 m.drv.gap d
  let m := if untimed ∧ 0 < last ∧ now d m < last - 1 + gap then runTo d (last - 1 + gap) m else m
  if untimed then { m with drv := { m.drv with gap := NMap.put m.drv.gap d (now d m + 1) } } else m

/-- The HOST inputs of some steps of a program: (step, edge). -/
def hostEdges (P : DProg) (ss : List Nat) : List (Nat × Nat) :=
  ss.flatMap (fun s => ((bitList 64 ((P.steps.map DStep.ins).getD s 0)).filter (fun e =>
    match P.edge? e with | some k => k.kind == 3 | none => false)).map (fun e => (s, e)))

/-- The HOST inputs of the steps that chunk `c` takes are read. -/
def hostInputs (d p c : Nat) (P : DProg) (x : Inst) (ss : List Nat) (ans : HostAns) (m : Mod) : Mod :=
  let r := (hostEdges P ss).foldl (fun (acc : Option (Nat × Nat) × Mod) e =>
    match P.step? e.1 with
    | some y => let r := hostInput d p c e.2 P x y ans acc.2; (worstOf acc.1 r.1, r.2)
    | none => acc) (none, m)
  match r.1 with
  | some (st, dt) => instFail d p st dt r.2
  | none => r.2

/-- A chunk whose HOST inputs need general tags that its function cannot have now is not admitted yet (R54). -/
def inputTags (d : Nat) (P : DProg) (ss : List Nat) (m : Mod) : Bool :=
  (hostEdges P ss).isEmpty || !canIssue d P.fn m || tagOpen d P.fn false m

/-- CHUNK_ADMIT: the next chunk is admitted, after the Drover gap (R375, R479); its HOST inputs are read. -/
def chunkAdmit (d p : Nat) (ans : HostAns) (m : Mod) : Mod :=
  match prog d p m, (drun d p m).cur with
  | some P, some x =>
    let c := x.next
    let ss := stepsOf P c P.steps.length 0
    if x.total P ≤ c ∨ P.window ≤ (x.chunks.filter (fun e => e.2.phase != 3)).length ∨ !inputTags d P ss m then m
    else
      let m := updInst d p false (fun y => { y with next := c + 1 }) (ensureChunk d p false c (admitGap d P ss m))
      match ss with
      | [] => showProg d p (retire d p c m)
      | s :: _ =>
        let m := match P.step? s with
          | some y => enterStep d p c x s y m
          | none => m
        chunkGo d p c (hostInputs d p c P x ss ans m)
  | _, _ => m

/-- DROVER_TIME_WAIT_END: the cycle or alarm that a chunk waits for comes; its timeout starts. -/
def timeWaitEnd (d p c : Nat) (m : Mod) : Mod :=
  match (drun d p m).cur.bind (fun x => NMap.find x.chunks c) with
  | none => m
  | some ck =>
    if ck.phase ≠ 0 then m
    else
      let m := if now d m < ck.time then runTo d ck.time m else m
      chunkGo d p c (updChunk d p false c (fun q => { q with phase := 1, alarm := false, time := now d m }) m)

/-- LOCAL_INPUT_READ_COMPLETE: a LOCAL edge delivers a chunk from context memory. -/
def localInput (d p c e : Nat) (m : Mod) : Mod :=
  match prog d p m, (drun d p m).cur with
  | some P, some x =>
    (match P.edge? e, stepIn P e, NMap.find x.chunks c with
     | some k, some s, some ck =>
       if k.kind ≠ 4 ∨ bit ck.got e ∨ ck.phase = 3 then m
       else
         let es := match P.step? s with | some y => elemSize y.op y.dt | none => 0
         let n := elems P x c * es
         let b := poolRead d (k.off + c * P.chunk * es) n m
         chunkGo d p c (deliverEdge d p false P c e false 0 (elems P x c) b 0 0 (energy d 23 10 ((n + 63) / 64) m))
     | _, _, _ => m)
  | _, _ => m

/-! ## Collective packets (R380, R381) -/

/-- The collective header. -/
def collHdr (kind flags collId edge inst chunk n base nan afl deadline : Nat) : Bytes :=
  leBytes 1 kind ++ leBytes 1 flags ++ leBytes 3 collId ++ leBytes 1 edge ++ leBytes 2 inst ++ leBytes 4 chunk ++ leBytes 4 n
    ++ leBytes 8 base ++ leBytes 4 nan ++ leBytes 1 afl ++ zeros 3 ++ leBytes 8 deadline

/-! Its fields, in a packet's bytes. -/
namespace Ch
def kind (b : Bytes) : Nat := rdLE b 24 1
def flags (b : Bytes) : Nat := rdLE b 25 1
def part (b : Bytes) : Bool := bit (flags b) 0
def timed (b : Bytes) : Bool := bit (flags b) 1
def collId (b : Bytes) : Nat := rdLE b 26 3
def edge (b : Bytes) : Nat := rdLE b 29 1
def inst (b : Bytes) : Nat := rdLE b 30 2
def chunk (b : Bytes) : Nat := rdLE b 32 4
def n (b : Bytes) : Nat := rdLE b 36 4
def base (b : Bytes) : Nat := rdLE b 40 8
def nan (b : Bytes) : Nat := rdLE b 48 4
def afl (b : Bytes) : Nat := rdLE b 52 1
def deadline (b : Bytes) : Nat := rdLE b 56 8
end Ch

/-- Send a collective packet on an edge of die `d`. -/
def collSend (d : Nat) (P : DProg) (k : DEdge) (out timed : Bool) (res vc : Nat) (body : Bytes) (m : Mod) : Mod :=
  let len := 24 + body.length
  if k.kind = 2 then
    let t := k.target % 4
    match crossing d t false m with
    | some l =>
      let b := mkHdr [] 1 false timed 0 0 (eidOf d m) P.pasture 2 len res ++ body
      let m := (List.range (flitCount len)).foldl (fun m _ => countHops vc l m) m
      updXb (fun y => { y with dq := NMap.put y.dq t (NMap.get [] y.dq t ++ [b]) }) m
    | none => m
  else if k.kind = 1 && out then
    startReq d true vc (mkHdr [] 1 true timed 0 k.target (eidOf d m) P.pasture 2 len res ++ body) m
  else
    let path := if timed then (match resEnt d res m with | some r => r.path | none => 0) else 0
    startReq d true vc (mkHdr (k.route.take k.hops) k.hops false timed path k.target (eidOf d m) P.pasture 2 len res ++ body) m

/-- The collective packet's contents for chunk `c` on edge `k` (R380). -/
def outBody (P : DProg) (x : Inst) (st : DStep) (k : DEdge) (c : Nat) (ck : Chunk) : Bytes :=
  collHdr 1 (b2n ck.part + 2 * b2n st.timed) P.collId k.peer x.num c x.n x.base (min (2 ^ 32 - 1) ck.nan) ck.afl
    (if st.timed then x.base + st.dlOff else 0) ++ ck.result

/-- Chunk `c` has been sent on edge `e`. -/
def outSent (d p c e : Nat) (m : Mod) : Mod := chunkGo d p c (updChunk d p false c (fun q => { q with left := setBit q.left e false }) m)

/-- COLL_OUTPUT_SEND: an output edge sends, or writes, a chunk whose result is formed and whose window allows. -/
def collOutput (d p c e : Nat) (ans : HostAns) (m : Mod) : Mod :=
  match prog d p m, (drun d p m).cur with
  | some P, some x =>
    (match NMap.find x.chunks c, P.edge? e with
     | some ck, some k =>
       (match P.step? ck.step with
        | none => m
        | some st =>
          if ck.phase ≠ 2 ∨ !bit ck.left e ∨ !creditOk P x e c then m
          else
            let sent := outSent d p c e
            if st.op = 0 ∧ 3 ≤ k.kind then sent m
            else if k.kind = 3 then
              let es := elemSize st.op st.dt
              let h := hostPart P x x.outOwn x.outAddr es c
              if h.2.1 = 0 then sent m
              else
                let b := sub ck.result ((h.1 - c * P.chunk) * es) (h.2.1 * es)
                let w := writeVa d P.fn x.xctx h.2.2 Cls5.drover b ans m
                match w.1 with
                | .ok _ => sent (updInst d p false (fun y => { y with written := y.written + b.length }) w.2)
                | .bad s _ _ => instFail d p (hostFail s 0x52).1 (hostFail s 0x52).2 w.2
            else if k.kind = 4 then
              let es := elemSize st.op st.dt
              sent (poolWrite d (k.off + c * P.chunk * es) ck.result (energy d 23 10 ((ck.result.length + 63) / 64) m))
            else
              let m := if st.timed ∧ now d m < ck.release then runTo d ck.release m else m
              match stepVoid d P st m with
              | some (status, detail) => timedFail d p P.fn st.res status detail m
              | none =>
                sent (count d 578 1 (collSend d P k true st.timed (if st.timed then st.res else 0) (if st.timed then 2 else 0)
                  (outBody P x st k c ck) m)))
     | _, _ => m)
  | _, _ => m

/-- The instance whose credit an input edge owes: the one before the current one first, whose last chunks have retired. -/
def creditOwner (r : DRun) (e : Nat) : Option (Bool × Inst) :=
  let owes := fun (x : Inst) => decide (NMap.get 0 x.credited e < x.low)
  match r.old.filter owes with
  | some x => some (true, x)
  | none => (r.cur.filter owes).map (fun x => (false, x))

/-- CREDIT_SEND: an input edge tells its sender the lowest chunk not yet retired, at most once in 256 ns. -/
def creditSend (d p e : Nat) (m : Mod) : Mod :=
  match prog d p m, creditOwner (drun d p m) e with
  | some P, some (old, x) =>
    (match P.edge? e, stepIn P e with
     | some k, some _ =>
       if 1 < k.kind then m
       else
         let t := NMap.get 0 (drun d p m).creditAt e
         let m := if 0 < t ∧ now d m < t - 1 + 256 then runTo d (t - 1 + 256) m else m
         let body := collHdr 2 0 P.collId k.peer x.num x.low x.n x.base 0 0 0
         let m := count d 579 1 (collSend d P k false false 0 1 body m)
         let told := fun (y : Inst) => { y with credited := NMap.put y.credited e x.low }
         updDrun d p (fun r => { r with
           old := if old then r.old.map told else r.old, cur := if old then r.cur else r.cur.map told
           creditAt := NMap.put r.creditAt e (now d m + 1) }) m
     | _, _ => m)
  | _, _ => m

/-! ## Instances (R371 to R373) -/

/-- A fresh instance. -/
def Inst.new (num n base : Nat) : Inst :=
  { num := num, n := n, base := base, inAddr := 0, outAddr := 0, ownOff := 0, ownCount := 0, inOwn := false, outOwn := false, xctx := 0
    owner := .nobody, chunks := [], next := 0, retired := 0, rt := [], credited := [], nan := 0, afl := 0, written := 0, missing := 0
    partialDone := false, dropped := 0 }

/-- The number that may start now, or be made pending; `true`: pending. -/
def mayStart (r : DRun) : Option (Nat × Bool) :=
  if r.state = 1 then some (r.next, false)
  else match r.state, r.cur, r.pend with
    | 2, some x, none => some ((x.num + 1) % 65536, true)
    | _, _, _ => none

/-- An instance starts, or waits as the pending one. -/
def instStart (d p : Nat) (pending : Bool) (x : Inst) (m : Mod) : Mod :=
  updDrun d p (fun r => if pending then { r with pend := some x } else { r with state := 2, cur := some x }) m

/-- The first packet of an instance starts it: addresses of HOST edges are not given; check 4 of R373. -/
def arrivalStart (d p : Nat) (P : DProg) (pending : Bool) (b : Bytes) (m : Mod) : Mod :=
  let a := draw 64 m
  let o := draw 64 a.2
  let c := draw 12 o.2
  let x := { Inst.new (Ch.inst b) (Ch.n b) (Ch.base b) with inAddr := a.1, outAddr := o.1, xctx := c.1 }
  let m := instStart d p pending x c.2
  if localOk d P x.n m ∨ pending then m else instFail d p St.accessDenied 0x52 m

/-- The instance that a packet names: current or pending, or one that the packet starts. -/
def packetInst (d p : Nat) (P : DProg) (b : Bytes) (m : Mod) : Option Bool × Mod :=
  let r := drun d p m
  if r.state = 3 then (none, m)
  else if (r.cur.map Inst.num) = some (Ch.inst b) then (some false, m)
  else if (r.pend.map Inst.num) = some (Ch.inst b) then (some true, m)
  else match mayStart r with
    | some (k, pending) => if P.arrival && k == Ch.inst b then (some pending, m) else (none, m)
    | none => (none, m)

/-- LENGTH of a DATA packet matches its payload (R381 step 1): the elements that its N and CHUNK_NO say, in the form it marks. A COPY
step takes the partial form of a sum, or the native form, which is its own partial form. Where no step takes the edge, step 5 says so. -/
def collLenOk (P : DProg) (b : Bytes) : Bool :=
  let k := min P.chunk (Ch.n b - Ch.chunk b * P.chunk)
  match (stepIn P (Ch.edge b)).bind P.step? with
  | some s =>
    let sz := if Ch.part b then (if s.op = 1 then pSize 2 s.dt else pSize s.op s.dt) else elemSize s.op s.dt
    Ch.kind b == 2 || b.length == 64 + k * sz || (Ch.part b && s.op == 1 && b.length == 64 + k * elemSize s.op s.dt)
  | none => true

/-- Steps 5 to 8 of R381 for an instance, which the packet may start: the counter of a failure. -/
def collCheck (d : Nat) (P : DProg) (x : Option Inst) (b : Bytes) (m : Mod) : Option Fld :=
  let e := Ch.edge b
  let dir := if Ch.kind b = 1 then (stepIn P e).isSome else (stepOut P e).isSome
  let n := Ch.n b
  let okN := match x with | some y => y.n == n | none => true
  let c := Ch.chunk b
  let y := x.getD (Inst.new (Ch.inst b) n (Ch.base b))
  if !dir || !okN || (match P.edge? e with | some k => decide (2 < k.kind) | none => true) then some F.DRV_CNT0_FORMAT_ERR
  else if Ch.kind b = 2 then none
  else if !(decide (y.low ≤ c ∧ c < y.low + P.window ∧ c < y.total P)) then some F.DRV_CNT1_OVERRUN
  else if (match NMap.find y.chunks c with | some k => bit k.got e | none => false) then some F.DRV_CNT0_DUP
  else if Ch.timed b && (decide (Ch.deadline b < now d m) || !rdB F.ETL_STATUS_TIMED_OK d 0 m) then some F.DRV_CNT1_LATE
  else none

/-- A packet that has passed the checks is taken. -/
def collTake (d p : Nat) (P : DProg) (pending : Bool) (b : Bytes) (m : Mod) : Mod :=
  if Ch.kind b = 2 then
    takeCredit d p pending (Ch.edge b) (match P.edge? (Ch.edge b) with
      | some k => if k.kind = 1 then Hdr.src b else 0
      | none => 0) (Ch.chunk b) m
  else match (drun d p m).inst pending with
    | none => m
    | some x =>
      let c := Ch.chunk b
      if c < x.next ∧ (NMap.find x.chunks c).isNone then bump F.DRV_CNT1_LATE_ARRIVAL d 0 m
      else
        let s := (stepIn P (Ch.edge b)).bind P.step?
        let part := Ch.part b && (match s with
          | some y => y.op != 1 || b.length == 64 + elems P x c * pSize 2 y.dt
          | none => true)
        let m := deliverEdge d p pending P c (Ch.edge b) part 0 (elems P x c) (b.drop 64) (Ch.nan b) (Ch.afl b) m
        if pending then m else chunkGo d p c m

/-- The checks of R381, in order. -/
def collIn (d : Nat) (b : Bytes) (m : Mod) : Mod :=
  let bad := fun (f : Fld) (m : Mod) => bump f d 0 m
  let kind := Ch.kind b
  if Hdr.proto b ≠ 2 ∨ Hdr.length b ≠ b.length ∨ b.length < 64 ∨ (kind ≠ 1 ∧ kind ≠ 2) ∨ (kind = 2 ∧ b.length ≠ 64)
      ∨ 4 ≤ Ch.flags b ∨ !zeroAt b 53 3 then bad F.DRV_CNT0_FORMAT_ERR m
  else match (progsOf d d m).find? (fun e => e.2.collId == Ch.collId b) with
    | none => bad F.DRV_CNT0_NO_PROGRAM m
    | some (p, P) =>
      if Hdr.pasture b ≠ P.pasture ∨ !collLenOk P b then bad F.DRV_CNT0_FORMAT_ERR m
      else match (packetInst d p P b m).1 with
        | none => bad F.DRV_CNT0_STALE m
        | some pending =>
          let x := ((drun d p m).inst pending).filter (fun y => y.num == Ch.inst b)
          match collCheck d P x b m with
          | some f => bad f m
          | none =>
            let m := if x.isSome then m else arrivalStart d p P pending b m
            if (((drun d p m).inst pending).map Inst.num) = some (Ch.inst b) then collTake d p P pending b m else m

/-- COLL_PACKET_RECEIVE: the Drover of die `d` takes the next packet delivered to it; a fenced Drover discards it (R502). -/
def collReceive (d : Nat) (m : Mod) : Mod :=
  match NMap.get [] m.xb.dq d with
  | [] => m
  | b :: r =>
    let m := updXb (fun y => { y with dq := NMap.set [] y.dq d r }) m
    if [UnitSt.fenced, UnitSt.unusable].contains (unitState d 21 m) || !dieUp d m then m else collIn d b m

/-! ## Timeouts (R387) -/

/-- The first exit of an edge's return route cannot be used. -/
def inputDown (k : DEdge) (m : Mod) : Bool :=
  decide (k.kind ≤ 1) && (let pc := k.route.getD 0 0xFF; decide (pc < 128) && (!linkUp pc m || !portExists pc m))

/-- STEP_TIMEOUT: the timeout of the step that a chunk is at expires (the die's counter is taken there). -/
def stepTimeout (d p c : Nat) (m : Mod) : Mod :=
  match prog d p m, (drun d p m).cur with
  | some P, some x =>
    (match NMap.find x.chunks c with
     | none => m
     | some ck =>
       match P.step? ck.step with
       | none => m
       | some st =>
         let us := if st.timeout = 0 then P.timeout else st.timeout
         let t := ck.time + us * 1000
         if ck.phase ≠ 1 ∧ ck.phase ≠ 2 then m
         else
           let stalled := (bitList 64 ck.left).filter (fun e => !creditOk P x e c)
           if ck.phase = 2 ∧ stalled.isEmpty then m
           else
             let m := if now d m < t then runTo d t m else m
             if ck.phase = 1 then
               let aw := awaited ck st
               if st.partOk then
                 let m := updChunk d p false c (fun q => { q with closed := setBit q.closed ck.step true }) m
                 let m := updInst d p false (fun y => { y with missing := max y.missing aw.length, partialDone := true }) m
                 chunkGo d p c (formNow d p c P x ck.step st ck m)
               else if st.timed then timedFail d p P.fn st.res St.deadline 0x15 m
               else instFail d p St.linkLost (if aw.any (fun e => match P.edge? e with | some k => inputDown k m | none => false) then 0x51 else 0x52) m
             else if st.partOk ∧ stalled.all (fun e => match P.edge? e with | some k => k.kind == 1 | none => false) then
               updInst d p false (fun y =>
                 { y with partialDone := true
                          dropped := stalled.foldl (fun w e => setBit w e true) y.dropped
                          rt := y.rt.filter (fun k => !(stalled.contains (k.1 / 2 ^ 20) && decide (k.2 + P.window ≤ c)))
                          missing := max y.missing ((stalled.map (fun e =>
                            ((P.edge? e).map DEdge.leaves).getD 0 - (y.rt.filter (fun k => k.1 / 2 ^ 20 == e && decide (c < k.2 + P.window))).length)).foldl max 0) }) m
             else instFail d p St.linkLost 0x53 m)
  | _, _ => m

/-! ## Reset, fencing and function level reset (R388, R502, R61) -/

/-- DROVER_PROGRAM_RESET. -/
def progReset (d p : Nat) (m : Mod) : Mod :=
  if (prog d p m).isNone then m
  else
    let m := instFail d p St.hostAbort 0x54 m
    updDrun d p (fun r => { r with state := 1, next := cur F.DRV_PCMD_INSTANCE d p m }) (force F.DRV_PCMD_RESET d p 0 m)

/-- The Drover is fenced: its instances end, and its programs halt. -/
def droverFence (d : Nat) (m : Mod) : Mod :=
  (progsOf d d m).foldl (fun m e => updDrun d e.1 (fun r => { r with state := 3 }) (instFail d e.1 St.linkLost 0x54 m)) m

/-- The owner of programs undergoes a function level reset. -/
def droverFlr (d f : Nat) (m : Mod) : Mod :=
  each dies (fun x m =>
    ((progsOf x x m).filter (fun e => e.2.fn == f && e.2.src == d)).foldl (fun m e => instFail x e.1 St.hostAbort 0x53 m) m) m

/-- The program table of a die is taken from the Shepherd: programs come back HALTED after an absence, others as they run. -/
def droverTable (d : Nat) (m : Mod) : Mod :=
  let m := { m with drv := { m.drv with run := NMap.keep (fun k => k / 256 != d || (NMap.find (tabs d m).drv k).isSome) m.drv.run } }
  showStoreOf d ((List.range 256).foldl (fun m p =>
    if (prog d p m).isSome || rd F.DRV_PSTATE_STATE d p m != 0 then showProg d p m else m) m)

/-- Programs of a die that returns come back HALTED (R388). -/
def droverReturn (d : Nat) (m : Mod) : Mod :=
  (progsOf 4 d m).foldl (fun m e => updDrun d e.1 (fun r => { r with state := 3, cur := none, pend := none, old := none }) m) m

/-- Some instance of the die runs. -/
def droverBusy (d : Nat) (m : Mod) : Bool := m.drv.run.any (fun e => e.1 / 256 == d && e.2.state == 2)

/-! ## COLL_START (R372, R373, R384) -/

/-- What a COLL_START entry carries (R282, R372). -/
structure CollArgs where
  prog  : Nat
  inst  : Nat
  inAddr : Nat
  outAddr : Nat
  len   : Nat
  base  : Nat
  ownOff : Nat
  ownCount : Nat
  hflags : Nat
  xctx  : Nat
  deriving DecidableEq, Repr

/-- Element size of a program's vector: an element of MINLOC and MAXLOC is the value with its index. -/
def DProg.elem (P : DProg) : Nat :=
  let dt := ((P.steps.head?).map DStep.dt).getD 0
  if P.steps.any (fun s => s.op == 8 || s.op == 9) then dtSize dt + 4 else dtSize dt

/-- LENGTH or OWN_OFF does not fit the program (R372). -/
def collBadLen (d : Nat) (a : CollArgs) (m : Mod) : Bool :=
  match prog d a.prog m with
  | some P => decide (a.len % max 1 P.elem ≠ 0 ∨ a.ownOff % max 1 P.chunk ≠ 0)
  | none => false

/-- The host buffers of an instance: (write, address, length). -/
def collBufs (d : Nat) (a : CollArgs) (m : Mod) : List (Bool × Nat × Nat) :=
  match prog d a.prog m with
  | none => []
  | some P =>
    let own := if a.ownCount = 0 then a.len else min (a.ownCount * P.elem) (a.len - a.ownOff * P.elem)
    let hasIn := P.steps.any (fun s => s.op != 0 && (P.named s.ins).any (fun e => e.kind == 3))
    let hasOut := P.steps.any (fun s => s.op != 0 && (P.named s.outs).any (fun e => e.kind == 3))
    (if hasIn then [(false, a.inAddr, if bit a.hflags 0 then own else a.len)] else [])
      ++ (if hasOut then [(true, a.outAddr, if bit a.hflags 1 then own else a.len)] else [])

/-- A timed step whose inputs are all HOST or LOCAL is admitted at the take (R384): the detail of a refusal. -/
def stepAdmit (d : Nat) (P : DProg) (n base : Nat) (s : DStep) (m : Mod) : Option Nat :=
  if !s.timed || (P.named s.ins).any (fun e => decide (e.kind ≤ 2)) then none
  else match stepRes d P s m with
    | none => some TDet.noReservation
    | some r =>
      let x := Inst.new 0 n base
      let fl := ((List.range (x.total P)).map (fun c => stepFlits P s (elems P x c))).sum
      let q := resRun d s.res m
      let y := releaseOf q { r with allow := 0 } (now d m) fl
      if !rdB F.ETL_STATUS_TIMED_OK d 0 m then some TDet.timeNotOk
      else if !resPathUp d r m then some TDet.pathDown
      else if r.sigma < fl then some TDet.tooLarge
      else if 64 ≤ q.posts.length then some TDet.queueFull
      else if base + s.dlOff < y.1 + r.bound then some TDet.late else none

/-- The operation's own checks (R373): a failure, or whether the instance is made pending. -/
def collStartCheck (d f : Nat) (a : CollArgs) (m : Mod) : (Nat × Nat) ⊕ Bool :=
  match (prog d a.prog m).filter (fun P => P.fn == f && P.src == d) with
  | none => .inl (St.accessDenied, 0x51)
  | some P =>
    let r := drun d a.prog m
    if r.state = 3 ∨ [UnitSt.fenced, UnitSt.unusable].contains (unitState d 21 m) then .inl (St.notReady, 0x51)
    else match (mayStart r).filter (fun k => k.1 == a.inst) with
      | none => .inl (St.notReady, 0x52)
      | some (_, pending) =>
        let n := a.len / max 1 P.elem
        let base := if a.base = 0 then now d m else a.base
        if !localOk d P n m then .inl (St.accessDenied, 0x52)
        else match P.steps.findSome? (fun s => stepAdmit d P n base s m) with
          | some dt => .inl (0x08, dt)
          | none => .inr pending

/-- The instance of a COLL_START begins, or is queued as the pending one. -/
def collStart (d : Nat) (a : CollArgs) (pending : Bool) (owner : Owner) (m : Mod) : Mod :=
  match prog d a.prog m with
  | none => m
  | some P =>
    let base := if a.base = 0 then now d m else a.base
    instStart d a.prog pending { Inst.new a.inst (a.len / max 1 P.elem) base with
      inAddr := a.inAddr, outAddr := a.outAddr, ownOff := a.ownOff, ownCount := a.ownCount, inOwn := bit a.hflags 0, outOwn := bit a.hflags 1
      xctx := a.xctx, owner := owner } m

end Sys2Proof.Machine
end

