-- ==== Sys2Proof/Machine/AzxRing.lean ====
section
/-! DEFINITION. The Azrix mailbox rings: entries, responses, indices (spec/03, R80 to R86). -/
namespace Sys2Proof.Machine

/-! ## The Shepherd's records -/

def updAzx (f : AzxSt → AzxSt) (m : Mod) : Mod := { m with azx := f m.azx }
def updShep (f : ShepSt → ShepSt) (m : Mod) : Mod := { m with shep := f m.shep }

/-! ## Entries (R85, R86) -/
namespace AzCmd
def op (c : AzCmd) : Nat := rdLE c.ent 0 2
def flags (c : AzCmd) : Nat := rdLE c.ent 2 1
def checkOnly (c : AzCmd) : Bool := bit c.flags 0
def tag (c : AzCmd) : Nat := rdLE c.ent 4 4
def argLen (c : AzCmd) : Nat := rdLE c.ent 8 4
def argAddr (c : AzCmd) : Nat := rdLE c.ent 16 8
/-- A little-endian argument at an offset of INLINE. -/
def arg (c : AzCmd) (o n : Nat) : Nat := rdLE c.ent (24 + o) n
/-- The argument buffer; none reads as empty. -/
def data (c : AzCmd) : Bytes := c.buf.getD []
/-- Issued over the management interface. -/
def mgmt (c : AzCmd) : Bool := c.iss.isNone
end AzCmd

/-- A response entry (R86). -/
def respBytes (op status phase tag detail dur res0 res1 : Nat) : Bytes :=
  leBytes 2 op ++ leBytes 1 status ++ leBytes 1 phase ++ leBytes 4 tag ++ leBytes 4 detail ++ leBytes 4 dur
    ++ leBytes 8 res0 ++ leBytes 8 res1

/-! ## Rings (R80 to R83) -/

/-- Entries of a ring: 2^4 to 2^12, other values as 2^4. -/
def azxSize (f : Fld) (d fn : Nat) (m : Mod) : Nat :=
  let n := cur f d fn m
  if 4 ≤ n ∧ n ≤ 12 then 2 ^ n else 16

def cmdSize (d f : Nat) (m : Mod) : Nat := azxSize F.AZX_CTRL_CMD_LOG2 d f m
def rspSize (d f : Nat) (m : Mod) : Nat := azxSize F.AZX_CTRL_RSP_LOG2 d f m

/-- The response ring is full. -/
def rspFull (d f : Nat) (m : Mod) : Bool :=
  (rd F.AZX_RSP_TAIL_INDEX d f m + 1) % rspSize d f m == cur F.AZX_RSP_HEAD_INDEX d f m % rspSize d f m

/-- A command waits in the ring. -/
def cmdWaits (d f : Nat) (m : Mod) : Bool :=
  rd F.AZX_CMD_HEAD_INDEX d f m % cmdSize d f m != cur F.AZX_CMD_TAIL_INDEX d f m % cmdSize d f m

/-- A command of this issuer has been taken and not answered (R81). -/
def issBusy (iss : Option (Nat × Nat)) (m : Mod) : Bool :=
  m.azx.jobs.any (fun j => decide (j.cmd.iss = iss)) || m.azx.held.any (fun h => decide (some (h.die, h.fn) = iss))

/-- The die's endpoint answers its host: not fenced, unusable or absent. -/
def hostUp (d : Nat) (m : Mod) : Bool :=
  [DieSt.quarantine, DieSt.active, DieSt.sleep].contains (dieState d m)

/-- The ring is in service: enabled, its base not found unreadable since then, and served (R47, R83). -/
def ringOn (d f : Nat) (m : Mod) : Bool :=
  curB F.AZX_CTRL_ENABLE d f m && hostUp d m && azxServed d f m && !NMap.get false m.azx.broken (fk d f)

/-- RING_ERR: a base of the ring could not be read or written; the ring takes nothing more until ENABLE is cleared and set
again, whatever becomes of the bit (R83). -/
def ringErr (d f : Nat) (m : Mod) : Mod :=
  wrB F.AZX_STATUS_RING_ERR d f true (updAzx (fun a => { a with broken := NMap.set false a.broken (fk d f) true }) m)

/-- STALLED: the ring is in use and no response slot can be reserved (R80). -/
def stalled (d f : Nat) (m : Mod) : Bool := curB F.AZX_CTRL_ENABLE d f m && rspFull d f m

/-- The Shepherd may take the ring's next command: a response slot is free, and the function has a tag for the reads (R85). -/
def canTake (d f : Nat) (m : Mod) : Bool :=
  ringOn d f m && cmdWaits d f m && !rspFull d f m && !issBusy (some (d, f)) m && tagOpen d f false m

/-- AZX_CMD_TAIL_WRITE (R80). -/
def cmdTailWrite (d f i : Nat) (m : Mod) : Mod := force F.AZX_CMD_TAIL_INDEX d f (i % cmdSize d f m) m

/-- AZX_RSP_HEAD is written: response slots are free again. -/
def rspHeadWrite (d f i : Nat) (m : Mod) : Mod := force F.AZX_RSP_HEAD_INDEX d f (i % rspSize d f m) m

/-- AZX_ENABLE (R83): from 0 to 1, every index is cleared and the phase is 1. -/
def azxEnable (d f : Nat) (m : Mod) : Mod :=
  if curB F.AZX_CTRL_ENABLE d f m then m
  else
    let m := force F.AZX_CTRL_ENABLE d f 1 m
    let m := wr F.AZX_RSP_TAIL_INDEX d f 0 (wr F.AZX_CMD_HEAD_INDEX d f 0 m)
    let m := force F.AZX_RSP_HEAD_INDEX d f 0 (force F.AZX_CMD_TAIL_INDEX d f 0 m)
    updAzx (fun a => { a with phase := NMap.set true a.phase (fk d f) true, broken := NMap.set false a.broken (fk d f) false }) m

/-- A push of table `t` that still waits for die `d` (R74). -/
def Wait.pushes (t d : Nat) : Wait → Bool
  | .push u w _ => u == t && bit w d
  | _ => false

/-- A calendar switch that a die has yet to acknowledge (R222). -/
def Wait.switching : Wait → Bool
  | .push 4 w _ => w != 0
  | _ => false

/-- Die `d` has switched. -/
def Wait.switched (d : Nat) : Wait → Wait
  | .frame f l => .frame f (setBit l d false)
  | w => w

/-- A drain that die `d` takes part in (R484, R489). -/
def Wait.drains (d : Nat) : Wait → Bool
  | .drain x _ => x == d
  | .drainAll _ => true
  | _ => false

/-- A wait for the return of die `d` (R77). -/
def Wait.backs (d : Nat) : Wait → Bool
  | .dieBack x _ => x == d
  | _ => false

/-- The commands of an issuer that run to completion are no longer answered. -/
def muteJobs (iss : Nat × Nat) (m : Mod) : Mod :=
  updAzx (fun a => { a with jobs := a.jobs.map (fun j => if j.cmd.iss = some iss then { j with mute := true } else j) }) m

/-- AZX_DISABLE (R83): commands not taken are discarded (the next ENABLE clears the indices), and the one taken is not
answered. -/
def azxDisable (d f : Nat) (m : Mod) : Mod :=
  let m := updAzx (fun a => { a with held := a.held.filter (fun h => h.die != d || h.fn != f) }) (force F.AZX_CTRL_ENABLE d f 0 m)
  muteJobs (d, f) m

/-- The ring is enabled and its base has not failed; the function may still be kept from issuing. -/
def ringKept (d f : Nat) (m : Mod) : Bool :=
  hostUp d m && curB F.AZX_CTRL_ENABLE d f m && !NMap.get false m.azx.broken (fk d f)

/-- Write a response entry to a function's ring, and signal vector 0 (R82, R83). While the function issues nothing the
response is held (R47). -/
def ringAnswer (d f op status tag detail dur res0 res1 : Nat) (m : Mod) : Mod :=
  if !ringKept d f m then m
  else if !azxServed d f m then
    updAzx (fun a => { a with held := a.held ++
      [{ die := d, fn := f, op := op, status := status, tag := tag, detail := detail, dur := dur, res0 := res0, res1 := res1 }] }) m
  else
    let t := rd F.AZX_RSP_TAIL_INDEX d f m
    let a := cur F.AZX_RSP_BASE_ADDR d f m * 32 + 32 * t
    let ph := NMap.get true m.azx.phase (fk d f)
    let c := accessBus d f a 32 1 m
    if !c.1 then ringErr d f c.2
    else
      let m := hostWrOrd d f a (respBytes op status (b2n ph) tag detail dur res0 res1) c.2
      let m := wr F.AZX_RSP_TAIL_INDEX d f ((t + 1) % rspSize d f m) m
      let m := if t + 1 = rspSize d f m then updAzx (fun x => { x with phase := NMap.set true x.phase (fk d f) (!ph) }) m else m
      msix d f 0 m

/-- Held responses whose ring is served again are written; those whose ring has gone are dropped. -/
def flushHeld (m : Mod) : Mod :=
  let h := m.azx.held
  let m := updAzx (fun a => { a with held := [] }) m
  h.foldl (fun m h => ringAnswer h.die h.fn h.op h.status h.tag h.detail h.dur h.res0 h.res1 m) m

/-- The response to a command taken at `t0` (R86); over the management interface `data` written to the argument buffer goes
with it (R84). PHASE of an entry sent there, where no ring is passed through, is 0 (DESIGN CHOICE: the spec is silent). -/
def answerData (data : Bytes) (c : AzCmd) (mute : Bool) (t0 status detail res0 res1 : Nat) (m : Mod) : Mod :=
  let dur := min (2 ^ 32 - 1) ((now 4 m - t0) / 1000)
  match c.iss with
  | none => emit (.mgmt 0 (respBytes c.op status 0 c.tag detail dur res0 res1 ++ data)) m
  | some (d, f) => if mute then m else ringAnswer d f c.op status c.tag detail dur res0 res1 m

/-- A response without data. -/
def answer (c : AzCmd) (mute : Bool) (t0 status detail res0 res1 : Nat) (m : Mod) : Mod :=
  answerData [] c mute t0 status detail res0 res1 m

/-- A job ends with its response. -/
def endJob (j : Job) (status detail res0 res1 : Nat) (m : Mod) : Mod :=
  answer j.cmd j.mute j.t0 status detail res0 res1 (updAzx (fun a => { a with jobs := a.jobs.erase j }) m)

/-- Every job that waits as `p` says ends with a status. -/
def endJobs (p : Wait → Bool) (status detail res0 : Nat) (m : Mod) : Mod :=
  (m.azx.jobs.filter (fun j => p j.wait)).foldl (fun m j => endJob j status detail res0 0 m) m

/-- Change what jobs wait for. -/
def updWaits (f : Wait → Wait) (m : Mod) : Mod :=
  updAzx (fun a => { a with jobs := a.jobs.map (fun j => { j with wait := f j.wait }) }) m

end Sys2Proof.Machine
end

