-- ==== Sys2Proof/Machine/Lanes.lean ====
section
/-! DEFINITION. Lanes (spec/05): training, blocks sent and received, lane power states (R480 to R482). -/
namespace Sys2Proof.Machine

/-! ## Ports and lanes -/

/-- The port's record, and a change of it. -/
def lport (pc : Nat) (m : Mod) : LPort := NMap.get LPort.reset m.lp pc
def updLp (pc : Nat) (f : LPort → LPort) (m : Mod) : Mod :=
  { m with lp := NMap.set LPort.reset m.lp pc (f (lport pc m)) }

/-- Lane `l` (0 to 3) of the quad of port code `pc`, by its number on the die; its register element. -/
def laneIx (pc l : Nat) : Nat := pc % 32 / 2 * 4 + l

/-- The lane's record, and a change of it. -/
def lane (pc l : Nat) (m : Mod) : Lane := NMap.get Lane.reset m.lane (pc / 32 * 64 + laneIx pc l)
def updLane (pc l : Nat) (f : Lane → Lane) (m : Mod) : Mod :=
  { m with lane := NMap.set Lane.reset m.lane (pc / 32 * 64 + laneIx pc l) (f (lane pc l m)) }

/-- A register field of the port, and a change of it. -/
def prd (f : Fld) (pc : Nat) (m : Mod) : Nat := rd f (pc / 32) (pc % 32) m
def pwr (f : Fld) (pc v : Nat) (m : Mod) : Mod := wr f (pc / 32) (pc % 32) v m
def pbump (f : Fld) (pc : Nat) (m : Mod) : Mod := bump f (pc / 32) (pc % 32) m

/-- The same for a lane. -/
def lrd (f : Fld) (pc l : Nat) (m : Mod) : Nat := rd f (pc / 32) (laneIx pc l) m
def lwr (f : Fld) (pc l v : Nat) (m : Mod) : Mod := wr f (pc / 32) (laneIx pc l) v m
def lbump (f : Fld) (pc l n : Nat) (m : Mod) : Mod := bumpBy f (pc / 32) (laneIx pc l) n m

/-- The quad is split into two x2 ports. -/
def splitQ (pc : Nat) (m : Mod) : Bool := rdB F.LNE_QCTRL_SPLIT (pc / 32) (pc % 32 / 2) m

/-- The lanes of a port (R132). -/
def portLanes (pc : Nat) (m : Mod) : List Nat :=
  if splitQ pc m then (if pc % 2 = 0 then [0, 1] else [2, 3]) else [0, 1, 2, 3]

/-- A mask of lanes. -/
def maskOf (l : List Nat) : Nat := (l.map (2 ^ ·)).sum

/-- STATE of the port (R135): 0 DISABLED, 1 DETECT, 2 CALIBRATE, 3 ALIGN, 4 EXCHANGE, 5 LOOPBACK, 6 ACTIVE. -/
def pst (pc : Nat) (m : Mod) : Nat := prd F.LNE_PORT_STATUS_STATE pc m

/-- The lane groups that R132 allows, widest first, lowest lanes first: mask and width. -/
def groups (pc : Nat) (m : Mod) : List (Nat × Nat) :=
  let l := portLanes pc m
  (if splitQ pc m then [(maskOf l, 2)] else [(15, 4), (3, 2), (12, 2)]) ++ l.map (fun i => (2 ^ i, 1))

/-- The group chosen for usable lanes and a requested width (R132). -/
def chooseGroup (pc usable req : Nat) (m : Mod) : Option (Nat × Nat) :=
  let maxW := if req = 1 then 2 else if req = 2 then 1 else 4
  (groups pc m).find? (fun g => decide (g.2 ≤ maxW) && Nat.land g.1 usable == g.1)

/-! ## Lane direction states and their time (R139, R468, R538) -/

/-- TX_STATE and RX_STATE. -/
def txState : Fld := F.LNE_LANE_STATUS_TX_STATE
def rxState : Fld := F.LNE_LANE_STATUS_RX_STATE

/-- The field of a direction: 0 transmit, 1 receive. -/
def dirFld (dir : Nat) : Fld := if dir = 0 then txState else rxState

/-- The time a lane direction has spent in its state is charged (R468, R538). -/
def chargeLane (d ln dir : Nat) (m : Mod) : Mod :=
  let k := (d * 64 + ln) * 2 + dir
  let t := now d m
  let dt := t - NMap.get 0 m.tly.laneSince k
  let st := rd (dirFld dir) d ln m
  let m := { m with tly := { m.tly with laneSince := NMap.set 0 m.tly.laneSince k t } }
  let q := ln / 4
  let port := if rdB F.LNE_QCTRL_SPLIT d q m && decide (2 ≤ ln % 4) then 2 * q + 1 else 2 * q
  match st with
  | 0 => energy d q dir dt (if dir = 0 then count d (12 * port + 10) dt m else m)
  | 1 => energy d q (2 + dir) dt (if dir = 0 then count d (12 * port + 11) dt m else m)
  | 2 => energy d q 4 dt (if dir = 0 then count d (12 * port + 11) dt m else m)
  | _ => m

/-- Every lane direction of a die is charged. -/
def chargeLanes (d : Nat) (m : Mod) : Mod :=
  each (List.range 64) (fun ln m => chargeLane d ln 1 (chargeLane d ln 0 m)) m

/-- Set the state of a lane direction: 0 ACTIVE, 1 QUIET, 2 SLEEP, 3 OFF. -/
def setDir (pc l dir st : Nat) (m : Mod) : Mod :=
  lwr (dirFld dir) pc l st (chargeLane (pc / 32) (laneIx pc l) dir m)

/-- Lanes of the port out of use. -/
def lanesOff (pc : Nat) (m : Mod) : Mod :=
  each (portLanes pc m) (fun l m => setDir pc l 1 3 (setDir pc l 0 3 m)) m

/-! ## Units that return (R501, R543) -/

/-- The counters of a unit (R538): first index and number. -/
def unitCounters (u : Nat) : Nat × Nat :=
  if u < 16 then (24 * u, 24)
  else match u with
    | 16 => (384, 32) | 17 => (416, 32) | 18 => (448, 64) | 19 => (512, 32) | 20 => (544, 32) | 21 => (576, 32)
    | 23 => (608, 32) | 22 => (640, 32) | 27 => (672, 32) | _ => (0, 0)

/-- Counters of die `d` from `lo`, `n` of them, restart from zero and EPOCH increments (R543). -/
def restartCounters (d lo n : Nat) (m : Mod) : Mod :=
  let keep := fun k => !(k / 1024 == d && decide (lo ≤ k % 1024) && decide (k % 1024 < lo + n))
  { m with ctr := NMap.keep keep m.ctr, ctrWrap := NMap.keep keep m.ctrWrap
           ctrEpoch := NMap.set 0 m.ctrEpoch d ((NMap.get 0 m.ctrEpoch d + 1) % 65536) }

/-- A unit enters QUARANTINE from FENCED or SLEEP. -/
def unitQuarantine (d u : Nat) (m : Mod) : Mod :=
  restartCounters d (unitCounters u).1 (unitCounters u).2 (setUnit d u UnitSt.quarantine m)

/-! ## Port states (R135) -/

/-- Enter a port state; leaving ACTIVE clears RETRAIN, the active sets and the streams, and takes the link
down (R168, R170). -/
def setPst (pc st : Nat) (m : Mod) : Mod :=
  let old := pst pc m
  let m := pwr F.LNE_PORT_STATUS_STATE pc st m
  if old = 6 ∧ st ≠ 6 then
    let m := pwr F.LNE_PORT_STATUS_RX_SET pc 0 (pwr F.LNE_PORT_STATUS_TX_SET pc 0 m)
    let m := force F.LNE_PORT_CTRL_RETRAIN (pc / 32) (pc % 32) 0 (lanesOff pc m)
    let m := updLp pc (fun l => { l with
      txStream := [], rxStream := [], resync := false, rxOn := false, leaving := 0, waking := [], restart := false }) m
    let m := setPortTime pc { portTime pc m with txMsg := [], rxMsg := [] } m
    linkPortDown pc m
  else m

/-- The lanes this end receives well: aligned, not left out (R572) and not found to reach another lane (R130). -/
def goodLanes (pc : Nat) (m : Mod) : Nat :=
  maskOf ((portLanes pc m).filter (fun l => lrd F.LNE_LANE_STATUS_ALIGNED pc l m == 1 && !bit (lport pc m).out l && !bit (lport pc m).wrong l))

/-- Lanes are left out of GOOD_LANES, which shows them so, unless that leaves no group: then every lane is offered again
(R572). -/
def leaveOut (pc missed : Nat) (m : Mod) : Mod :=
  let out := Nat.lor (lport pc m).out missed
  if (portLanes pc m).all (bit out) then updLp pc (fun l => { l with out := 0 }) m
  else
    let d := pc / 32
    let q := pc % 32 / 2
    wr F.LNE_QSTATUS_GOOD_LANES d q (Nat.land (rd F.LNE_QSTATUS_GOOD_LANES d q m) (Nat.xor 15 missed % 16))
      (updLp pc (fun l => { l with out := out }) m)

/-- To DETECT; the lanes in `missed` are left out, unless that leaves no group (R572). -/
def toDetect (pc missed : Nat) (m : Mod) : Mod :=
  let m := updLp pc (fun l => { l with
    tx := 0, last := none, peer := none, ready := false, req := false, agreed := none, leave := false, full := true, heard := 0, wrong := 0 }) (leaveOut pc missed m)
  let m := each (portLanes pc m) (fun l m =>
    updLane pc l (fun _ => Lane.reset) (lwr F.LNE_LANE_STATUS_ALIGNED pc l 0 m)) m
  setPst pc 1 m

/-- A training attempt fails (R135). -/
def trainFail (pc missed : Nat) (m : Mod) : Mod := toDetect pc missed (pbump F.LNE_PORT_CNT_TRAIN_FAIL pc m)

/-- A port of a quad that goes out of service. -/
def portDisable (pc : Nat) (m : Mod) : Mod :=
  let m := setPst pc 0 m
  pwr F.LNE_PORT_STATUS_LANES pc 0 (pwr F.LNE_PORT_STATUS_WIDTH pc 0 (updLp pc (fun l => { LPort.reset with nonce := l.nonce, seq := l.seq }) m))

/-- The ports of quad `q` of die `d` under its split setting. -/
def quadPorts (d q : Nat) (m : Mod) : List Nat :=
  if rdB F.LNE_QCTRL_SPLIT d q m then [32 * d + 2 * q, 32 * d + 2 * q + 1] else [32 * d + 2 * q]

/-- QUAD_ENABLE: ENABLE set from 0 moves the quad's ports to DETECT and offers every lane again (R572). -/
def quadEnable (d q : Nat) (m : Mod) : Mod :=
  let was := curB F.LNE_QCTRL_ENABLE d q m
  let m := force F.LNE_QCTRL_ENABLE d q 1 m
  if was || !unitUp d q m then m
  else each (quadPorts d q m) (fun pc m =>
    if pst pc m = 0 then toDetect pc 0 (updLp pc (fun l => { l with out := 0 }) m) else m) m

/-- ENABLE cleared: the ports go DISABLED. -/
def quadDisable (d q : Nat) (m : Mod) : Mod :=
  each [32 * d + 2 * q, 32 * d + 2 * q + 1] portDisable (force F.LNE_QCTRL_ENABLE d q 0 m)

/-- SIGNAL_DETECT: a signal on any lane of a port in DETECT. -/
def signalDetect (pc : Nat) (m : Mod) : Mod :=
  if pst pc m = 1 then setPst pc 2 (updLp pc (fun l => { l with full := true }) m) else m

/-- A lane's filter after a calibration that found a code and a margin (R131): with PEAK_FIXED the code is PEAK_SET; a quick
calibration moves at most two codes. -/
def calLane (pc l : Nat) (full : Bool) (e : Nat × Nat) (m : Mod) : Mod :=
  let last := lrd F.LNE_LANE_STATUS_PEAK pc l m
  let code := if lrd F.LNE_LANE_CTRL_PEAK_FIXED pc l m = 1 then lrd F.LNE_LANE_CTRL_PEAK_SET pc l m
    else if full then min 15 e.1 else max (last - 2) (min (min 15 (last + 2)) e.1)
  updLane pc l (fun _ => Lane.reset) (lwr F.LNE_LANE_STATUS_ALIGNED pc l 0
    (lwr F.LNE_LANE_STATUS_PEAK pc l code (lwr F.LNE_LANE_STATUS_EYE_MARGIN pc l (min 255 e.2) m)))

/-- CALIBRATION_COMPLETE (R131): per lane the peaking code with the largest margin found, and that margin. In an ACTIVE port
the receive lanes in SLEEP have calibrated on their wake (R139, R141) and are QUIET until they join. -/
def calibrationComplete (pc : Nat) (found : List (Nat × Nat)) (m : Mod) : Mod :=
  match pst pc m with
  | 2 => setPst pc 3 (each (portLanes pc m) (fun l m => calLane pc l (lport pc m).full (found.getD l (0, 0)) m) m)
  | 6 => each ((bitList 4 (prd F.LNE_PORT_STATUS_LANES pc m)).filter (fun l => lrd rxState pc l m == 2)) (fun l m =>
      setDir pc l 1 1 (calLane pc l false (found.getD l (0, 0)) m)) m
  | _ => m

/-- ALIGN_TIMEOUT: lanes not aligned have missed it. -/
def alignTimeout (pc : Nat) (m : Mod) : Mod :=
  if pst pc m = 3 then
    trainFail pc (maskOf ((portLanes pc m).filter (fun l => lrd F.LNE_LANE_STATUS_ALIGNED pc l m != 1))) m
  else m

/-- EXCHANGE_TIMEOUT: lanes that decoded no valid message with their own LANE_ID have missed it. -/
def exchangeTimeout (pc : Nat) (m : Mod) : Mod :=
  if pst pc m = 4 then
    trainFail pc (maskOf ((portLanes pc m).filter (fun l => !bit (lport pc m).heard l))) m
  else m

/-! ## Training messages (R136 to R138) -/

/-- The 32 bytes of the message being sent. -/
def trainMsg (pc : Nat) (m : Mod) : Bytes :=
  let l := lport pc m
  let rq := cur F.LNE_PORT_CTRL_REQ_WIDTH (pc / 32) (pc % 32) m
  let b := leBytes 1 l.tx ++ leBytes 1 (b2n (compat pc m)) ++ leBytes 3 (eidOf (pc / 32) m) ++ leBytes 1 pc
    ++ leBytes 1 (rd F.LNE_QSTATUS_GOOD_LANES (pc / 32) (pc % 32 / 2) m) ++ leBytes 1 (if rq = 3 then 0 else rq)
    ++ leBytes 2 l.nonce ++ leBytes 1 l.seq ++ zeros 19
  b ++ leBytes 2 (crc16 b)

/-- Begin to send a message: its SEQ increments; GOOD_LANES is what this end advertises now. -/
def sendTrain (pc t : Nat) (m : Mod) : Mod :=
  let good := Nat.lor (Nat.land (rd F.LNE_QSTATUS_GOOD_LANES (pc / 32) (pc % 32 / 2) m) (Nat.xor 15 (maskOf (portLanes pc m)))) (goodLanes pc m)
  wr F.LNE_QSTATUS_GOOD_LANES (pc / 32) (pc % 32 / 2) good (updLp pc (fun l => { l with tx := t, seq := (l.seq + 1) % 256 }) m)

/-- A new nonce for a training. -/
def newTrainNonce (pc : Nat) (m : Mod) : Mod :=
  let x := draw 16 m
  updLp pc (fun l => { l with nonce := x.1 }) x.2

/-- This end's triple is higher (R137), or equal. -/
def rank (eid port nonce : Nat) : Nat := (eid * 256 + port) * 65536 + nonce
def ownRank (pc : Nat) (m : Mod) : Nat := rank (eidOf (pc / 32) m) pc (lport pc m).nonce

/-- ALIGN is left for EXCHANGE. -/
def enterExchange (pc : Nat) (m : Mod) : Mod :=
  let m := updLp pc (fun l => { l with heard := 0, wrong := 0, last := none, peer := none, ready := false }) (newTrainNonce pc m)
  setPst pc 4 (sendTrain pc 1 m)

/-- The width is chosen; READY is sent, or the attempt fails (R132). -/
def chooseWidth (pc : Nat) (init : Bool) (t : TMsg) (m : Mod) : Mod :=
  let own := cur F.LNE_PORT_CTRL_REQ_WIDTH (pc / 32) (pc % 32) m
  let usable := Nat.land (Nat.land (goodLanes pc m) t.good) (Nat.xor 15 (lport pc m).wrong)
  match chooseGroup pc usable (if init then own else t.req) m with
  | none => trainFail pc 0 (updLp pc (fun l => { l with out := 15 }) m)
  | some g =>
    let m := pwr F.LNE_PORT_STATUS_LANES pc g.1 (pwr F.LNE_PORT_STATUS_WIDTH pc (if g.2 = 4 then 3 else g.2) m)
    let m := pwr F.LNE_PORT_STATUS_LAST_INITIATOR pc (b2n init) (pwr F.LNE_PORT_STATUS_COMPAT pc (b2n (compat pc m)) m)
    let m := sendTrain pc 4 m
    if (lport pc m).ready then setPst pc 5 m else m

/-- ADVERTISE in EXCHANGE. -/
def takeAdvertise (pc : Nat) (t : TMsg) (m : Mod) : Mod :=
  let l := lport pc m
  if l.tx ≠ 1 then m
  else
    let m := updLp pc (fun l => { l with peer := some t }) m
    match l.agreed with
    | some init => chooseWidth pc init t m
    | none =>
      let a := ownRank pc m
      let b := rank t.eid t.port t.nonce
      if a = b then sendTrain pc 1 (newTrainNonce pc m)
      else chooseWidth pc (decide (b < a)) t (pbump F.LNE_PORT_CNT_SIM_START pc m)

/-- READY in EXCHANGE. -/
def takeReady (pc : Nat) (m : Mod) : Mod :=
  if (lport pc m).tx = 4 then setPst pc 5 m else updLp pc (fun l => { l with ready := true }) m

/-- REQUEST in ACTIVE: answered, unless this end's own outstanding one is higher (R136, R137). -/
def takeRequest (pc : Nat) (t : TMsg) (m : Mod) : Mod :=
  let l := lport pc m
  let answer := fun m => sendTrain pc 3 (updLp pc (fun l => { l with req := false, agreed := some false, peer := some t }) m)
  if l.tx = 3 ∨ l.leave then m
  else if !l.req then answer m
  else if l.peer.any (fun p => p.nonce == t.nonce && p.seq == t.seq) then m
  else
    let a := ownRank pc m
    let b := rank t.eid t.port t.nonce
    if a = b then sendTrain pc 2 (newTrainNonce pc m)
    else
      let m := pbump F.LNE_PORT_CNT_SIM_START pc m
      if b < a then updLp pc (fun l => { l with peer := some t }) m else answer m

/-- ANSWER in ACTIVE: the port leaves ACTIVE at the next block boundary. -/
def takeAnswer (pc : Nat) (t : TMsg) (m : Mod) : Mod :=
  if (lport pc m).req then
    updLp pc (fun l => { l with req := false, agreed := some true, leave := true, peer := some t }) m
  else m

/-- A training message on lane `ln`, from a block with LANE_ID `id`: with a bad CRC it is ignored (R138); with another lane's
number it marks the lane as not good for this training, else as heard (R130, R135). -/
def trainNote (pc ln id : Nat) (b : Bytes) (m : Mod) : Option TMsg × Mod :=
  if rdLE b 30 2 ≠ crc16 (sub b 0 30) ∨ !(portLanes pc m).contains ln then (none, m)
  else if id ≠ ln then (none, updLp pc (fun l => { l with wrong := setBit l.wrong ln true }) m)
  else (some { kind := rdLE b 0 1, compat := bit (rdLE b 1 1) 0, eid := rdLE b 2 3 % 2 ^ 20, port := rdLE b 5 1
               good := rdLE b 6 1 % 16, req := rdLE b 7 1 % 4, nonce := rdLE b 8 2, seq := rdLE b 10 1 },
    updLp pc (fun l => { l with heard := setBit l.heard ln true }) m)

/-- A training message is acted on once, however many lanes and blocks bring it. -/
def trainAct (pc : Nat) (t : TMsg) (m : Mod) : Mod :=
  let id := some (t.kind, t.nonce, t.seq)
  let take := fun (f : Mod → Mod) => f (updLp pc (fun l => { l with last := id }) m)
  if t.compat != compat pc m || (lport pc m).last == id then m
  else match pst pc m, t.kind with
    | 4, 1 => take (takeAdvertise pc t)
    | 4, 4 => take (takeReady pc)
    | 6, 2 => take (takeRequest pc t)
    | 6, 3 => take (takeAnswer pc t)
    | _, _ => m

/-- TRAINING_MESSAGE_RECEIVE: a message taken on lane `ln` from a block with LANE_ID `id`. -/
def trainReceive (pc ln id : Nat) (b : Bytes) (m : Mod) : Mod :=
  let r := trainNote pc ln id b m
  match r.1 with
  | some t => trainAct pc t r.2
  | none => r.2

/-- A retrain starts at this end: REQUEST is sent. -/
def startRetrain (pc : Nat) (m : Mod) : Mod :=
  if pst pc m = 6 ∧ (lport pc m).tx = 0 ∧ !(lport pc m).leave then
    sendTrain pc 2 (newTrainNonce pc (updLp pc (fun l => { l with req := true, peer := none }) m))
  else m

/-- PORT_RETRAIN: every lane is offered again (R572); no effect while the port is not ACTIVE (R136). -/
def portRetrain (pc : Nat) (m : Mod) : Mod :=
  if pst pc m = 6 then
    startRetrain pc (updLp pc (fun l => { l with out := 0 }) (force F.LNE_PORT_CTRL_RETRAIN (pc / 32) (pc % 32) 1 m))
  else m

/-- RETRAIN_REQUEST_TIMEOUT (R571). -/
def retrainTimeout (pc : Nat) (m : Mod) : Mod :=
  if pst pc m = 6 ∧ (lport pc m).req then trainFail pc 0 m else m

/-- The agreed retrain takes the port out of ACTIVE into a quick calibration. -/
def enterRetrain (pc : Nat) (m : Mod) : Mod :=
  setPst pc 2 (pbump F.LNE_PORT_CNT_RETRAINS pc (updLp pc (fun l => { l with leave := false, tx := 0, full := false, ready := false }) m))

/-- LOOPBACK_COMPLETE (R101): the port enters ACTIVE, its first block is RESTART. -/
def loopbackComplete (pc lp txpd rxpd lbd share : Nat) (m : Mod) : Mod :=
  if pst pc m = 5 then
    let m := loopbackMeasure (pc / 32) (pc % 32) lp txpd rxpd lbd share m
    let g := prd F.LNE_PORT_STATUS_LANES pc m
    let m := each (bitList 4 g) (fun l m => setDir pc l 1 0 (setDir pc l 0 0 m)) m
    let m := pwr F.LNE_PORT_STATUS_RX_SET pc g (pwr F.LNE_PORT_STATUS_TX_SET pc g m)
    let m := updLp pc (fun l => { l with
      tx := 0, last := none, peer := none, ready := false, req := false, agreed := none, leave := false, restart := true, rxOn := false
      idleAt := now (pc / 32) m }) m
    let m := linkPortUp pc (setPst pc 6 m)
    if widthBad pc m then contractDown pc 0x43 m else m
  else m

/-! ## Sending blocks (R119 to R126) -/

/-- Generate flits until the stream holds `n` symbols (at most `k` flits). -/
def fillStream : Nat → Nat → Nat → Mod → Mod
  | 0, _, _, m => m
  | k + 1, pc, n, m => if (lport pc m).txStream.length < n then fillStream k pc n (flitSend pc m) else m

/-- Symbols `i`, `i + w`, `i + 2w`, … of a stream, at most `n`. -/
def stride (w : Nat) : Nat → List Nat → List Nat
  | 0, _ => []
  | _ + 1, [] => []
  | n + 1, x :: r => x :: stride w n (r.drop (w - 1))

/-- Stuffed symbols sent before the data end (R121): positions, last level, run, data left. -/
def stuffCount : Nat → Nat → Nat → Nat → List Nat → Nat
  | 0, _, _, _, _ => 0
  | n + 1, prev, run, d, data =>
    if d = 0 then 0
    else if run = 31 then 1 + stuffCount n ((prev + 2) % 4) 1 d data
    else match data with
      | [] => 0
      | x :: r => stuffCount n x (if x = prev then run + 1 else 1) (d - 1) r

/-- Logical number of physical lane `l` in a group. -/
def logical (group l : Nat) : Nat := popcount l group

/-- A lane's scrambled levels for its share of data symbols. -/
def laneData (scr : Nat) (share : List Nat) : List Nat := (scramble scr share).map gray

/-- Send one block on a lane. -/
def sendBlock (pc l : Nat) (field : List Nat) (c : Ctl) (m : Mod) : Mod :=
  emit (.block (pc / 32) (pc % 32) l (blockLevels field (ctlBits c))) m

/-- The number λ that seeds the scrambler of a lane's TRAIN block (R123): in ACTIVE the logical number in the trained group,
before a group is chosen the lane's place in the port. -/
def trainLane (pc l : Nat) (m : Mod) : Nat :=
  let g := prd F.LNE_PORT_STATUS_LANES pc m
  if pst pc m = 6 ∧ bit g l then logical g l else l - (portLanes pc m).headD 0

/-- TRAIN blocks with the message on every lane of the port (R135, R138); a time message that was being sent is not
resumed (R126). -/
def sendTrainBlocks (pc : Nat) (m : Mod) : Mod :=
  let msg := if (lport pc m).tx = 0 then zeros 32 else trainMsg pc m
  let syms := byteSyms msg ++ List.replicate 1792 0
  let data := (portLanes pc m).map (fun l => (l, laneData (scrSeed (trainLane pc l m)) syms))
  let n := (data.map (fun e => stuffFit 1920 0 1 e.2)).foldl min 1920
  let ask := (lport pc m).resync
  data.foldl (fun m e =>
    sendBlock pc e.1 (stuffTx 1920 0 1 n e.2)
      { mark := false, lane := e.1, resync := ask, status := 5, stuff := 1920 - n, time := 0 } m)
    (setPortTime pc { portTime pc m with txMsg := [] } m)

/-- The time byte of this block, if any, and whether it is the mark block's: the first block sent in a cycle is (R99, R126).
TX_TIME is the counter at the transmit tap plus TXPD (R101). -/
def timeByte (pc : Nat) (m : Mod) : Option (Nat × Bool) × Mod :=
  let t := portTime pc m
  let cyc := now (pc / 32) m / 1024
  if compat pc m then (none, m)
  else if (lport pc m).mark < cyc then
    let tx := ((now16 (pc / 32) m : Int) + t.txpd).toNat
    let msg := (timeMsg pc tx m).map BitVec.toNat
    (msg.head?.map (fun b => (b, true)),
      setPortTime pc { t with txMsg := msg.drop 1, marks := (tx :: t.marks).take 2 } (updLp pc (fun l => { l with mark := cyc }) m))
  else match t.txMsg with
    | b :: r => (some (b, false), setPortTime pc { t with txMsg := r } m)
    | [] => (none, m)

/-- The block period of an ACTIVE direction: data on the active set, WAKE and JOIN on waking lanes. These carry fill alone;
their STUFF_MAP is the port's K of the period, with which step 3 of R127 holds at the receiver (DESIGN CHOICE: the spec does
not give it). A lane leaves in a block that says LEAVE, not in a RESTART. -/
def sendData4 (pc : Nat) (m : Mod) : Mod :=
  let group := prd F.LNE_PORT_STATUS_LANES pc m
  let set := prd F.LNE_PORT_STATUS_TX_SET pc m
  let lanes := bitList 4 set
  let w := lanes.length
  let restart := (lport pc m).restart && w != 0
  let m := if restart then
      let m := each (bitList 4 group) (fun l m => updLane pc l (fun r => { r with txScr := scrSeed (logical group l) }) m) m
      let m := updLp pc (fun l => { l with txStream := [] }) m
      if linkUp pc m then beginReplay pc m else m
    else m
  let m := fillStream 9 pc (1920 * w) m
  let st := (lport pc m).txStream
  let shares := (List.range w).map (fun i => stride w 1920 (st.drop i))
  let data := List.zipWith (fun l s => (l, laneData (lane pc l m).txScr s)) lanes shares
  let n := (data.map (fun e => stuffFit 1920 0 1 e.2)).foldl min 1920
  let tb := if w = 0 then (none, setPortTime pc { portTime pc m with txMsg := [] } m) else timeByte pc m
  let m := tb.2
  let p := lport pc m
  let ctl := fun l status (first : Bool) =>
    ({ mark := first && (match tb.1 with | some (_, b) => b | none => false), lane := l, resync := p.resync
       status := status, stuff := 1920 - n
       time := if first then (match tb.1 with | some (b, _) => b | none => 0) else 0 } : Ctl)
  let m := data.foldl (fun m e =>
    let status := if restart then 1 else if bit p.leaving e.1 then 2 else 0
    lbump F.LNE_LANE_STUFFED_STUFFED pc e.1 (stuffCount 1920 0 1 n e.2)
      (sendBlock pc e.1 (stuffTx 1920 0 1 n e.2) (ctl e.1 status (some e.1 == lanes.head?)) m)) m
  let fill := stuffTx 1920 0 1 0 []
  let m := p.waking.foldl (fun m e =>
    sendBlock pc e.1 fill (ctl e.1 (if e.2 = 2 then 3 else 4) false) m) m
  let m := each (bitList 4 group) (fun l m => updLane pc l (fun r => { r with txScr := scrSkip 3840 r.txScr }) m) m
  -- the sets of the next period
  let joined := (p.waking.filter (fun e => e.2 == 2)).map Prod.fst
  let left := if restart then [] else bitList 4 (Nat.land p.leaving set)
  let m := each left (fun l m => setDir pc l 0 1 m) m
  let m := each joined (fun l m => setDir pc l 0 0 m) m
  let set' := maskOf ((List.range 4).filter (fun l => (bit set l && !left.contains l) || joined.contains l))
  let m := pwr F.LNE_PORT_STATUS_TX_SET pc set' m
  updLp pc (fun l => { l with
    txStream := l.txStream.drop (n * w), restart := if w = 0 then l.restart else false, leaving := if restart then l.leaving else 0
    waking := l.waking.filter (fun e => e.2 != 2) }) m

/-- The DETECT pattern: levels 0 and 3 alternately. -/
def pattern : List Nat := (List.range 2048).map (fun i => if i % 2 = 0 then 0 else 3)

/-- LANE_BLOCK_SEND: one block period of a port's transmit direction. -/
def blockSend (pc : Nat) (m : Mod) : Mod :=
  match pst pc m with
  | 0 => m
  | 1 => each (portLanes pc m) (fun l m => emit (.block (pc / 32) (pc % 32) l pattern) m) m
  | 6 =>
    let l := lport pc m
    if l.leave then
      let m := enterRetrain pc m
      sendTrainBlocks pc m
    else if l.tx ≠ 0 then
      let m := sendTrainBlocks pc m
      if l.tx = 3 then updLp pc (fun l => { l with leave := true }) m else m
    else sendData4 pc m
  | _ => sendTrainBlocks pc m

/-! ## Receiving blocks (R127 to R129) -/

/-- A lane's block after its sync word has been looked at (R127 step 1, R129): the levels, corrected for
polarity, where the word is good and the lane aligned. The fourth block, which makes the lane aligned, is not itself decoded
(DESIGN CHOICE: the spec does not say). -/
def syncLane (pc l : Nat) (lv : Option (List Nat)) (m : Mod) : Option (List Nat) × Mod :=
  let q := pc % 32 / 2
  let d := pc / 32
  let inv := bit (rd F.LNE_QSTATUS_POL_INV d q m) l
  let flip := fun (x : List Nat) => x.map (fun v => 3 - v)
  let aligned := lrd F.LNE_LANE_STATUS_ALIGNED pc l m == 1
  let use := lv.map (fun x => if inv then flip x else x)
  let ok := match use with | some x => decide (syncErrors x ≤ 2) | none => false
  let turned := match use with | some x => !aligned && !ok && decide (syncErrors (flip x) ≤ 2) | none => false
  let m := if turned then
      wr F.LNE_QSTATUS_POL_INV d q (setBit (rd F.LNE_QSTATUS_POL_INV d q m) l (!inv)) m else m
  if ok || turned then
    let g := (lane pc l m).good + 1
    let m := updLane pc l (fun r => { r with good := min 4 g, bad := 0 }) m
    let m := if 4 ≤ g then lwr F.LNE_LANE_STATUS_ALIGNED pc l 1 m else m
    (if aligned then (if turned then use.map flip else use) else none, m)
  else
    let b := (lane pc l m).bad + 1
    let m := updLane pc l (fun r => { r with good := 0, bad := min 4 b }) m
    (none, if aligned ∧ 4 ≤ b then lbump F.LNE_LANE_CNT_SYNC_LOSS pc l 1 (lwr F.LNE_LANE_STATUS_ALIGNED pc l 0 m) else m)

/-- A decoded block: lane, payload levels, control bits. -/
structure RxBlk where
  lane  : Nat
  field : List Nat
  ctl   : Ctl
  deriving DecidableEq, Repr

/-- Step 2 of R127 on one lane. -/
def decodeLane (pc l : Nat) (lv : List Nat) (m : Mod) : Option RxBlk × Mod :=
  let p := pc % 32
  match blockDecode lv with
  | none =>
    (none, updLane pc l (fun r => { r with unc := r.unc + 1 })
      (count (pc / 32) (12 * p + 9) 1 (lbump F.LNE_LANE_CNT_UNC_BLK pc l 1 m)))
  | some (f, c, n) =>
    (some { lane := l, field := f, ctl := ctlOf c },
      count (pc / 32) (12 * p + 8) n (lbump F.LNE_LANE_CNT_CORR_SYM pc l n m))

/-- Steps 1 and 2 on every lane. -/
def decodeAll (pc : Nat) (lanes : List Nat) (blocks : List (Nat × List Nat)) (m : Mod) : List RxBlk × Mod :=
  lanes.foldl (fun (acc : List RxBlk × Mod) l =>
    let lv := (blocks.find? (fun e => e.1 == l)).map Prod.snd
    let s := syncLane pc l lv acc.2
    match s.1 with
    | none => (acc.1, s.2)
    | some x =>
      let r := decodeLane pc l x s.2
      (match r.1 with | some b => acc.1 ++ [b] | none => acc.1, r.2)) ([], m)

/-- The training message of a TRAIN block, noted for its lane. -/
def trainBlock (pc : Nat) (b : RxBlk) (m : Mod) : Option TMsg × Mod :=
  match destuff 0 1 (1920 - b.ctl.stuff) b.field with
  | none => (none, lbump F.LNE_LANE_CNT_STUFF_ERR pc b.lane 1 m)
  | some lv =>
    match symBytes ((scramble (scrSeed (trainLane pc b.lane m)) (lv.map gray)).take 128) with
    | some bytes => if rdLE bytes 0 1 = 0 then (none, m) else trainNote pc b.lane b.ctl.lane bytes m
    | none => (none, m)

/-- The TRAIN blocks of a period: every lane's copy is noted, then the message is acted on. -/
def trainBlocks (pc : Nat) (bs : List RxBlk) (m : Mod) : Mod :=
  let r := bs.foldl (fun (acc : Option TMsg × Mod) b => let x := trainBlock pc b acc.2; (acc.1.or x.1, x.2)) (none, m)
  match r.1 with
  | some t => trainAct pc t r.2
  | none => r.2

/-- Step 3 of R127 over every block decoded in a period: they are kept where STUFF_MAP is the same on all and at most 61,
else the period is lost on every lane. -/
def sameStuff (pc : Nat) (bs : List RxBlk) (m : Mod) : List RxBlk × Mod :=
  let k := (bs.map (fun b => b.ctl.stuff)).headD 0
  if bs.all (fun b => b.ctl.stuff == k) && decide (k ≤ 61) then (bs, m)
  else ([], bs.foldl (fun m b => lbump F.LNE_LANE_CNT_STUFF_ERR pc b.lane 1 m) m)

/-- Time bytes of the carrying lane (R126). -/
def timeRx (pc : Nat) (b : Option RxBlk) (m : Mod) : Mod :=
  let t := portTime pc m
  match b with
  | none => setPortTime pc { t with rxMsg := [] } m
  | some b =>
    let t := if b.ctl.mark then { t with rxMsg := [b.ctl.time], rxStamp := ((now16 (pc / 32) m : Int) - t.rxpd).toNat }
      else if t.rxMsg.isEmpty then t else { t with rxMsg := t.rxMsg ++ [b.ctl.time] }
    if 24 ≤ t.rxMsg.length then
      timeMsgReceive (pc / 32) (pc % 32) t.rxStamp (t.rxMsg.map toByte) (setPortTime pc { t with rxMsg := [] } m)
    else setPortTime pc t m

/-- Flits leave the received stream: 1,024 symbols each; errored data fail the flit (R128). -/
def cutFlits : Nat → Nat → Mod → Mod
  | 0, _, m => m
  | k + 1, pc, m =>
    let st := (lport pc m).rxStream
    if st.length < 1024 then m
    else
      let m := updLp pc (fun l => { l with rxStream := st.drop 1024 }) m
      cutFlits k pc (match symBytes (st.take 1024) with
        | some b => flitReceive pc b m
        | none => if 2 ≤ linkState pc m then flitBad pc m else m)

/-- Round-robin of the lanes' symbols (R133). -/
def interleave : Nat → List (List Nat) → List Nat
  | 0, _ => []
  | n + 1, ls => ls.map (fun l => l.headD 4) ++ interleave n (ls.map (fun l => l.drop 1))

/-- A flit cut short by a restart or a lost period fails (R166). -/
def cutShort (pc : Nat) (m : Mod) : Mod :=
  let m := if (lport pc m).rxStream.isEmpty ∨ linkState pc m < 2 then m else flitBad pc m
  updLp pc (fun l => { l with rxStream := [] }) m

/-- The port leaves ACTIVE or asks for a retrain because of its lanes (R136, R571). -/
def laneLosses (pc : Nat) (m : Mod) : Mod :=
  let rx := bitList 4 (prd F.LNE_PORT_STATUS_RX_SET pc m)
  let lost := rx.filter (fun l => lrd F.LNE_LANE_STATUS_ALIGNED pc l m != 1)
  let lim := cur F.LNE_PORT_CTRL_UNC_LIMIT (pc / 32) (pc % 32) m
  let worn := rx.filter (fun l => decide (lim ≠ 0 ∧ lim < (lane pc l m).unc) && !bit (lport pc m).out l)
  if !rx.isEmpty && lost.length == rx.length then trainFail pc 0 m
  else if lost.isEmpty && worn.isEmpty then m
  else
    let m := worn.foldl (fun m l => raise (pc / 32) (pc % 32 / 2) 17 0 (pc + 256 * l) none
      (leaveOut pc (2 ^ l) m)) m
    startRetrain pc m

/-- Data of one block period of an ACTIVE port, from the blocks that passed step 3 (steps 4 and 5 of R127, R128, R133, R134).
A period lost on every lane asks for a restart. -/
def rxData (pc : Nat) (bs : List RxBlk) (m : Mod) : Mod :=
  let group := prd F.LNE_PORT_STATUS_LANES pc m
  let set := bitList 4 (prd F.LNE_PORT_STATUS_RX_SET pc m)
  let data := bs.filter (fun b => set.contains b.lane && decide (b.ctl.status ≤ 2))
  let k := (bs.map (fun b => b.ctl.stuff)).headD 0
  let m := if data.any (fun b => b.ctl.status == 1) then
      let m := if (lport pc m).resync then pbump F.LNE_PORT_CNT_RESYNCS pc m else m
      let m := each (bitList 4 group) (fun l m => updLane pc l (fun r => { r with rxScr := scrSeed (logical group l) }) m) m
      updLp pc (fun l => { l with rxOn := true, resync := false }) (cutShort pc m)
    else m
  let n := 1920 - k
  let r := set.foldl (fun (acc : List (List Nat) × Bool × Mod) l =>
    let lost := (acc.1 ++ [List.replicate n 4], acc.2.1, acc.2.2)
    match data.find? (fun b => b.lane == l) with
    | none => lost
    | some b =>
      match destuff 0 1 n b.field with
      | none => (lost.1, lost.2.1, lbump F.LNE_LANE_CNT_STUFF_ERR pc l 1 acc.2.2)
      | some lv => (acc.1 ++ [scramble (lane pc l acc.2.2).rxScr (lv.map gray)], true, acc.2.2)) ([], false, m)
  let m := r.2.2
  let m := each (bitList 4 group) (fun l m => updLane pc l (fun x => { x with rxScr := scrSkip 3840 x.rxScr }) m) m
  if set.isEmpty then m
  else if !r.2.1 then updLp pc (fun l => { l with rxOn := false, resync := true }) (if (lport pc m).rxOn then cutShort pc m else m)
  else if (lport pc m).rxOn then
    cutFlits 9 pc (updLp pc (fun l => { l with rxStream := l.rxStream ++ interleave n r.1 }) m)
  else updLp pc (fun l => { l with resync := true }) m

/-- A lane of the trained group that sends data without being in the receive set has joined by a block that was not decoded:
it is in the set now, and unless the stream begins anew with this block a restart is asked for (R128, R141). -/
def joinMissed (pc : Nat) (bs : List RxBlk) (m : Mod) : Mod :=
  bs.foldl (fun m b =>
    let s := prd F.LNE_PORT_STATUS_RX_SET pc m
    if b.ctl.status ≤ 2 ∧ !bit s b.lane ∧ bit (prd F.LNE_PORT_STATUS_LANES pc m) b.lane then
      let m := pwr F.LNE_PORT_STATUS_RX_SET pc (setBit s b.lane true) (setDir pc b.lane 1 0 m)
      if b.ctl.status = 1 then m else updLp pc (fun l => { l with rxOn := false, resync := true }) (cutShort pc m)
    else m) m

/-- What the control bits ask: a restart, and lanes that leave or join the receive set (R134, R140, R482). -/
def rxControl (pc : Nat) (bs : List RxBlk) (m : Mod) : Mod :=
  let m := if bs.any (fun b => b.ctl.resync) then
      updLp pc (fun l => { l with restart := true }) (if (lport pc m).restart then m else pbump F.LNE_PORT_CNT_RESYNCS pc m) else m
  if compat pc m then m
  else bs.foldl (fun m b =>
    let s := prd F.LNE_PORT_STATUS_RX_SET pc m
    if b.ctl.status = 2 ∧ bit s b.lane then
      pwr F.LNE_PORT_STATUS_RX_SET pc (setBit s b.lane false) (setDir pc b.lane 1 1 m)
    else if b.ctl.status = 3 ∧ !bit s b.lane ∧ bit (prd F.LNE_PORT_STATUS_LANES pc m) b.lane then
      pwr F.LNE_PORT_STATUS_RX_SET pc (setBit s b.lane true) (setDir pc b.lane 1 0 m)
    else m) m

/-- LANE_BLOCK_RECEIVE: the blocks of one period, by physical lane. A receiver in SLEEP is off until it has calibrated (R139).
ALIGN is left as soon as one lane that is not left out is aligned, which is a usable group of its own (DESIGN CHOICE: R135
does not say which group it waits for). -/
def blockReceive (pc : Nat) (blocks : List (Nat × List Nat)) (m : Mod) : Mod :=
  match pst pc m with
  | 6 =>
    let lanes := (portLanes pc m).filter (fun l =>
      lrd rxState pc l m != 2 && (bit (prd F.LNE_PORT_STATUS_RX_SET pc m) l || blocks.any (fun b => b.1 == l)))
    let r := decodeAll pc lanes blocks m
    let s := sameStuff pc r.1 r.2
    let train := s.1.filter (fun b => b.ctl.status == 5)
    if !train.isEmpty then
      let m := trainBlocks pc train s.2
      laneLosses pc (rxControl pc train (timeRx pc none m))
    else
      let m := joinMissed pc s.1 s.2
      let set := prd F.LNE_PORT_STATUS_RX_SET pc m
      let m := timeRx pc (s.1.find? (fun b => some b.lane == (bitList 4 set).head?)) m
      laneLosses pc (rxControl pc s.1 (rxData pc s.1 m))
  | 3 =>
    let r := decodeAll pc (portLanes pc m) blocks m
    if goodLanes pc r.2 = 0 then r.2 else enterExchange pc r.2
  | 4 | 5 =>
    let r := decodeAll pc (portLanes pc m) blocks m
    let s := sameStuff pc r.1 r.2
    trainBlocks pc (s.1.filter (fun b => b.ctl.status == 5)) s.2
  | _ => m

/-- At a frame boundary the uncorrectable blocks are counted anew. -/
def laneFrame (d : Nat) (m : Mod) : Mod :=
  { m with lane := (m.lane.map (fun e => (e.1, if e.1 / 64 = d then { e.2 with unc := 0 } else e.2))).filter (fun e => e.2 != Lane.reset) }

/-! ## Resting and waking lanes (R480 to R482, R140 to R142) -/

/-- The port's active or shadow calendar owns a slot (R236). -/
def calOwned (pc : Nat) (m : Mod) : Bool :=
  let t := tabs (pc / 32) m
  [NMap.find t.calA pc, NMap.find t.calS pc].any (fun c => match c with | some c => !c.slots.isEmpty | none => false)

/-- The planner may rest lanes of the port (R481). -/
def mayRest (pc : Nat) (m : Mod) : Bool := pst pc m == 6 && !compat pc m && !calOwned pc m

/-- Lane 0 must stay ACTIVE: the peer may use this direction as its time source (R481). -/
def lane0Held (pc : Nat) (m : Mod) : Bool :=
  let t := portTime pc m
  t.peer.isSome && t.gmId == m.tm.gmId && t.hops == m.tm.hops + 1

/-- The direction has been idle for `n` ns. -/
def idleFor (pc n : Nat) (m : Mod) : Bool := !waiting pc m && decide ((lport pc m).idleAt + n ≤ now (pc / 32) m)

/-- QUIET_IDLE_NS in force at a die. -/
def quietIdle (d : Nat) (m : Mod) : Nat := rd F.TLY_ACTION_QUIET_IDLE_NS d 0 m

/-- Logical lane 0 of a port, as a mask. -/
def lane0 (pc : Nat) (m : Mod) : Nat := maskOf ((bitList 4 (prd F.LNE_PORT_STATUS_LANES pc m)).take 1)

/-- Every port that may rest is wholly at rest (R487). -/
def allAtRest (m : Mod) : Bool :=
  (List.range 128).all (fun pc =>
    !(dieActive (pc / 32) m && mayRest pc m && !lane0Held pc m) || prd F.LNE_PORT_STATUS_TX_SET pc m == 0)

/-- M0 and M1 follow the lanes (R488). -/
def restState (m : Mod) : Mod := if m.tly.mstate ≤ 1 then setMState (b2n (allAtRest m)) m else m

/-- LANE_IDLE_QUIET: every lane but logical lane 0 leaves in its last block. -/
def laneIdleQuiet (pc : Nat) (m : Mod) : Mod :=
  if mayRest pc m && idleFor pc (quietIdle (pc / 32) m) m then
    updLp pc (fun l => { l with leaving := Nat.lor l.leaving (Nat.land (prd F.LNE_PORT_STATUS_TX_SET pc m) (Nat.xor 15 (lane0 pc m))) }) m
  else m

/-- LANE0_IDLE_QUIET: logical lane 0 leaves too; once it has, the whole set is at rest. It stays while another lane wakes, as
every active set keeps it (R140). -/
def lane0IdleQuiet (pc : Nat) (m : Mod) : Mod :=
  if mayRest pc m && !lane0Held pc m && idleFor pc (4 * quietIdle (pc / 32) m) m
      && prd F.LNE_PORT_STATUS_TX_SET pc m == lane0 pc m && (lport pc m).waking.isEmpty && !(lport pc m).restart then
    restState (sendData4 pc (updLp pc (fun l => { l with leaving := lane0 pc m }) m))
  else m

/-- The unit of a quad sleeps while every trained lane direction of it does (R501). -/
def quadSleep (d q : Nat) (m : Mod) : Mod :=
  let st := (List.range 4).map (fun l => (rd txState d (4 * q + l) m, rd rxState d (4 * q + l) m))
  if st.any (fun e => e.1 == 2) && st.all (fun e => decide (2 ≤ e.1) && decide (2 ≤ e.2)) && unitState d q m == UnitSt.active then
    setUnit d q UnitSt.sleep m
  else m

/-- LANE_SLEEP_TIMER: a lane direction QUIET for 100 µs goes to SLEEP; a receiver that is off is no longer aligned. -/
def laneSleep (pc l dir : Nat) (m : Mod) : Mod :=
  if pst pc m = 6 ∧ lrd (dirFld dir) pc l m = 1 ∧ !(NMap.find (lport pc m).waking l).isSome then
    let m := if dir = 1 then updLane pc l (fun _ => Lane.reset) (lwr F.LNE_LANE_STATUS_ALIGNED pc l 0 m) else m
    quadSleep (pc / 32) (pc % 32 / 2) (setDir pc l dir 2 m)
  else m

/-- LANE_WAKE: a backlog above WAKE_FLITS wakes every lane at rest; with the whole set at rest a waiting
flit, or a restart to ask for, wakes lane 0 (R134, R142, R480). A lane that begins to wake sends levels 0 and 3 alternately
up to the next block boundary of the port, and WAKE blocks from there on (R141). -/
def laneWake (pc : Nat) (m : Mod) : Mod :=
  let group := prd F.LNE_PORT_STATUS_LANES pc m
  let set := prd F.LNE_PORT_STATUS_TX_SET pc m
  let many := (List.range 4).any (fun vc => decide (cur F.TLY_WAKE_WAKE_FLITS (pc / 32) 0 m < backlog pc vc m))
  let lanes := bitList 4 (Nat.land group (Nat.xor 15 set))
  let lanes := if many then lanes
    else if set = 0 ∧ (waiting pc m ∨ (lport pc m).resync) then bitList 4 (lane0 pc m) else []
  if pst pc m = 6 ∧ !lanes.isEmpty then
    let q := pc % 32 / 2
    let m := if unitState (pc / 32) q m = UnitSt.sleep then setUnit (pc / 32) q UnitSt.active (unitQuarantine (pc / 32) q m) else m
    let new := lanes.filter (fun i => (NMap.find (lport pc m).waking i).isNone)
    let m := each new (fun l m => emit (.block (pc / 32) (pc % 32) l pattern) m) m
    restState (updLp pc (fun l => { l with waking := new.foldl (fun k i => NMap.put k i 1) l.waking }) m)
  else m

/-- LANE_JOIN: at the first block boundary at or after the wake time the waking lanes send JOIN. -/
def laneJoin (pc : Nat) (m : Mod) : Mod :=
  if pst pc m = 6 ∧ !(lport pc m).waking.isEmpty then
    sendData4 pc (updLp pc (fun l => { l with waking := l.waking.map (fun e => (e.1, 2)) }) m)
  else m

end Sys2Proof.Machine
end

