-- ==== Sys2Proof/Machine/Arrive.lean ====
section
/-! DEFINITION. Reliable transport, the receiving side (spec/09): the checks of R251, conduit matching (R247),
the pen (R252), the receive rule (R253), trackers (R258, R259) and acknowledgements (R250, R255). -/
namespace Sys2Proof.Machine

/-! ## The packet (R249, R251 step 1) -/

/-- Length of an operation header (R307, R329, R348). -/
def opHdrLen (t : Th) : Nat :=
  if t.timed then 0
  else if [Op.ack, Op.close, Op.trkReq].contains t.op then 0
  else if t.op = Op.atomic then 56 else 24

/-- OP is known. -/
def opKnown (op : Nat) : Bool :=
  decide (1 ≤ op ∧ op ≤ 5) || decide (0x10 ≤ op ∧ op ≤ 0x12) || decide (0x20 ≤ op ∧ op ≤ 0x23) || decide (0x40 ≤ op ∧ op ≤ 0x42)

/-- Bytes after the headers that are not a trailer. -/
def restOf (b : Bytes) : Bytes :=
  if (Th.of b).enc then (b.drop 64).take (b.length - 88) else b.drop 64

/-- Step 1 as far as clear text shows it. -/
def formatOk (b : Bytes) : Bool :=
  let t := Th.of b
  let excess := opHdrLen t + (if t.enc then 24 else 0)
  let pay := b.length - 64 - excess
  let isAck := t.op == Op.ack
  Hdr.proto b == 1 && Hdr.length b == b.length && decide (64 + excess ≤ b.length) && opKnown t.op
    && decide (t.flags < 64) && zeroAt b 27 1 && zeroAt b 31 1 && zeroAt b 35 1 && zeroAt b 54 2
    && (t.timed || t.deadline == 0)
    && (if isAck then decide (t.len < 2 ^ 30 ∧ t.trk < 8192) && pay == 0 && !t.last && !t.tracked
        else decide (t.trk < 4096) && decide (t.off + (if carries t.op then pay else 0) ≤ t.len)
          && (carries t.op || pay == 0) && (!t.timed || t.op == Op.put)
          && !(t.op == Op.eager && decide (16384 < t.len)) && !(t.op == Op.atomicRsp && pay != 16))

/-- Step 1 of the operation header's reserved fields. `bridge`: the pasture is a bridge pasture, whose ATOMICs may
swap (R461). -/
def opHdrOk (t : Th) (r : Bytes) (bridge : Bool) : Bool :=
  if t.timed || opHdrLen t = 0 then true
  else if t.op = Op.put || t.op = Op.getReq || t.op = Op.atomic then
    decide (rdLE r 8 2 < 4096) && decide (Rma.flags r < 128) && zeroAt r 11 5
      && ((t.op == Op.put && Rma.hasImm r) || Rma.imm r == 0)
      && !(t.op == Op.atomic && (decide ((if bridge then 3 else 2) < Rma.aop r) || decide (16 < Rma.asize r)))
  else if t.op = Op.getRsp || t.op = Op.atomicRsp then zeroAt r 0 10 && zeroAt r 13 3
  else if t.op = Op.eager || t.op = Op.rts then
    decide (rdLE r 8 2 < 4096) && decide (rdLE r 10 2 < 4096) && zeroAt r 12 4
      && (t.op == Op.rts || (zeroAt r 10 2 && zeroAt r 16 8))
  else if t.op = Op.fin then zeroAt r 0 8 && decide (rdLE r 8 2 < 4096) && zeroAt r 10 2 && zeroAt r 18 2
  else decide (rdLE r 8 2 < 4096) && (t.op != Op.lockReq || decide (Lk.code r < 3))
    && (t.op != Op.lockProbe || (Lk.code r == 0 && Lk.arg r == 0)) && (t.op == Op.lockGrant || Lk.word r == 0)

/-! ## Authentication (R263, R264) -/

/-- Step 3: the packet with its text in clear, headers and trailer as they came; none: it fails. -/
def openPacket (d : Nat) (b : Bytes) (m : Mod) : Option Bytes :=
  let t := Th.of b
  match pkey d (Hdr.pasture b) m, t.enc with
  | none, false => some b
  | none, true => none
  | some _, false => none
  | some k, true =>
    let key := if t.phase == (k.gen % 2 == 1) then some k.key else k.old
    match key with
    | none => none
    | some key =>
      let n := b.length
      (Config.gcmOpen key (gcmIv (Hdr.src b) (rdLE b (n - 24) 8)) (gcmAad b) (restOf b) (b.drop (n - 16))).map
        (fun p => b.take 64 ++ padTo (n - 88) p ++ b.drop (n - 24))

/-- A packet fails step 3: at most one event in a frame. -/
def authFail (d : Nat) (b : Bytes) (m : Mod) : Mod :=
  let m := bump F.CND_CNT0_AUTH_FAIL d 0 m
  let fr := now d m / 1048576 + 1
  if NMap.get 0 m.trn.auth d = fr then m
  else event d 0 0x0042 0 (leBytes 2 (Hdr.pasture b) ++ zeros 2 ++ leBytes 3 (Hdr.src b)) (updTrn (fun t => { t with auth := NMap.put t.auth d fr }) m)

/-! ## Acknowledgements sent (R250) -/

/-- Acknowledge a packet from conduit `scn` (2^24 − 1: none), with the context of `cn`. -/
def sendAck (d cn scn : Nat) (b : Bytes) (status detail : Nat) (dup : Bool) (trk : Option Nat) (m : Mod) : Mod :=
  let t := Th.of b
  let c := cond d cn m
  let info := Hdr.pathIdx b + 8 * Hdr.clevel b + 128 * b2n (Hdr.ce b) + 2 ^ 8 * status + 2 ^ 16 * detail
    + 2 ^ 24 * (if c.rxLog = 0 then 8 else c.rxLog) + 2 ^ 29 * b2n dup
  let a : Th := { op := Op.ack, flags := 16 * b2n t.timed + 32 * b2n t.mcast, round := t.round, dcn := t.scn, scn := scn, psn := t.psn
                  msg := t.msg, off := c.rxNext, len := info, trk := (match trk with | some k => k + 4096 | none => 0), deadline := 0 }
  count d 451 1 (sendLoose d (Hdr.src b) (Hdr.pasture b) 1 a [] m)

/-- No conduit. -/
def noCn : Nat := 0xFFFFFF

/-- A NOT_READY refusal of R573. -/
def refuseNr (d cn : Nat) (b : Bytes) (detail : Nat) (m : Mod) : Mod :=
  sendAck d cn noCn b St.notReady detail false none (count d 456 1 (bump F.CND_CNT1_NR_SENT d 0 m))

/-! ## Matching by peer (R247, R248) -/

/-- PEER_CN is learned. -/
def learnPeer (d cn scn : Nat) (m : Mod) : Mod :=
  if scn = noCn then m
  else updCond d cn (fun c => if c.peerCn = noCn then { c with peerCn := scn, state := if c.state = CSt.opening then CSt.open_ else c.state } else c) m

/-- A conduit becomes resident at once where the cache has room, else it is fetched later. -/
def placeCond (d cn : Nat) (m : Mod) : Mod :=
  let go := fun m => showCache d (touchCond d cn (updCond d cn (fun c => { c with resident := true }) m))
  if (residents d m).length < cacheSize d m then go m
  else match victim d m with
    | some v => go (evict d v m)
    | none => startFetch d cn m

/-- Take a conduit from the gate pool for a stray; none where the pool is empty. -/
def takeGate (d f : Nat) (b : Bytes) (leaf : Bool) (m : Mod) : Option Nat × Mod :=
  match gatePool d f m with
  | [] => (none, bump F.CND_CNT1_GATE_EMPTY d 0 m)
  | cn :: l =>
    let w := cur F.CND_STRAY_DEF_WINDOW d 0 m
    let c : Cond := { Cond.reset with
      state := CSt.open_, fromGate := true, mcast := leaf, fn := f, peer := Hdr.src b, peerCn := (Th.of b).scn, pasture := Hdr.pasture b, rxLog := 8
      scores := 0, lastPath := 7, window := w, eff := w, adapt := curB F.CND_STRAY_DEF_ADAPT d 0 m, spray := curB F.CND_STRAY_DEF_SPRAY d 0 m
      retryBase := 1000 * max 1 (cur F.CND_STRAY_DEF_RETRY_BASE_US d 0 m), retryLimit := max 1 (cur F.CND_STRAY_DEF_RETRY_LIMIT d 0 m)
      epoch := epochOf d f m, openedAt := now d m, agedAt := now d m }
    let m := placeCond d cn (saveCond d cn (setCond d cn c (setGate d f l m)))
    let m := event d f 0x0040 0 (leBytes 3 cn ++ zeros 1 ++ leBytes 3 (Hdr.src b) ++ zeros 1 ++ leBytes 2 (Hdr.pasture b)) (count d 457 1 m)
    -- a leaf of a confirmed timed flock is pinned when its first packet creates it, within the die's 4,096 (R214)
    let r := Hdr.res b
    let pin := leaf && (Th.of b).timed && decide ((pinnedBy d m).eraseDups.length < 4096) && (match resEnt d r m with
      | some e => e.isDest && e.isFlock && e.src == Hdr.src b && e.pasture == Hdr.pasture b
      | none => false)
    (some cn, if pin then setPins d r ((resRun d r m).pins ++ [cn]) m else m)

/-- The conduit of a packet whose DCN is unknown; none: refused NO_GATE. -/
def matchPeer (d f : Nat) (b : Bytes) (m : Mod) : Option Nat × Mod :=
  let t := Th.of b
  let p := Hdr.pasture b
  let s := Hdr.src b
  if t.mcast then
    match (condsOf d m).find? (fun cn =>
        let c := cond d cn m
        c.mcast && c.fromGate && c.peer == s && c.pasture == p && c.peerCn == t.scn && condState d cn m != CSt.closed) with
    | some cn => (some cn, m)
    | none => takeGate d f b true m
  else match unicastOf d f s p m with
    | none => takeGate d f b false m
    | some cn =>
      let c := cond d cn m
      if c.peerCn = noCn then (some cn, saveCond d cn (learnPeer d cn t.scn m))
      else if c.peerCn = t.scn then (some cn, m)
      else takeGate d f b false (closeCond d cn 5 St.conduitClosed 0 m)

/-! ## Step 9 to 11 (R253, R258, R259) -/

/-- A free tracker of a die. -/
def freeTrk (d : Nat) (m : Mod) : Option Nat :=
  if 4096 ≤ (m.trn.trk.filter (fun e => e.1 / 4096 == d)).length then none
  else (List.range 4096).find? (fun k => (NMap.find m.trn.trk (d * 4096 + k)).isNone)

/-- The live tracker of a conduit and MSG_ID. -/
def liveTrk (d cn msg : Nat) (m : Mod) : Option Nat :=
  ((m.trn.trk.filter (fun e => e.1 / 4096 == d && e.2.cn == cn && e.2.msg == msg)).head?).map (fun e => e.1 % 4096)

/-- A TRACKER_REQ is granted a tracker, or none. -/
def trkGrant (d cn : Nat) (t : Th) (m : Mod) : Option Nat × Mod :=
  match freeTrk d m with
  | none => (none, m)
  | some k =>
    let m := updTrn (fun x => { x with trk := NMap.put x.trk (d * 4096 + k) { cn := cn, msg := t.msg, len := t.len, count := 0, last := now d m } }) m
    (some k, count d 458 1 (wr F.CND_TRK_IN_USE d 0 (m.trn.trk.filter (fun e => e.1 / 4096 == d)).length m))

/-- The key of a message being received. -/
def rxKey (t : Th) : Nat := if t.op = Op.getRsp ∨ t.op = Op.atomicRsp then respId t.msg else t.msg

/-- A message being received is complete: what waited for it happens (R258). -/
def rxComplete (d cn key : Nat) (ans : HostAns) (m : Mod) : Mod :=
  match NMap.find (cond d cn m).rx key with
  | none => m
  | some r =>
    let m := updCond d cn (fun c => { c with rx := NMap.del c.rx key }) m
    if r.op = Op.put then putDone d cn r m
    else if r.op = Op.getRsp then getDone d cn (key - 2 ^ 32) r.fail m
    else if r.op = Op.atomicRsp then atomicDone d cn (key - 2 ^ 32) r.fail r.data ans m
    else if r.op = Op.lockGrant then lockGrantIn d cn r.hdr m
    else if r.op = Op.lockNotice then lockNoticeIn d cn r.hdr m
    else if r.op = Op.fin then finIn d cn r.hdr m
    else match r.mtok with
      | some tok => sendWhole tok r.fail.isSome m
      | none => m

/-- What step 11 answers: an outcome with a matching token, or the packet waits at the far bridge. -/
inductive Step11 where
  | done (o : HOut) (tok : Option Nat)
  | held (m : Mod)

/-- Step 11: the operation's own checks and effect. -/
def step11 (d cn : Nat) (b : Bytes) (d0 : Bool) (ans : HostAns) (m : Mod) : Step11 :=
  let t := Th.of b
  let r := restOf b
  let src := Hdr.src b
  if isBridge d (Hdr.pasture b) m && [Op.put, Op.getReq, Op.atomic].contains t.op then
    match bridgeIn d cn src t r b ans m with
    | .done o => .done o none
    | .held m => .held m
  else if t.op = Op.put then .done (putIn d cn Cls5.remote t r ans m) none
  else if t.op = Op.getReq then .done (getIn d cn Cls5.remote t r m) none
  else if t.op = Op.atomic then .done (atomicIn d cn t r ans m) none
  else if t.op = Op.getRsp then .done (getRspIn d cn t r ans m) none
  else if t.op = Op.eager ∨ t.op = Op.rts then
    let o := sendIn d cn src t r d0 ans m
    .done o.1 o.2
  else if t.op = Op.lockReq then .done (lockReqIn d cn src r ans m) none
  else .done (St.ok, 0, m) none

/-- The record of the message with one more packet. -/
def rxNote (t : Th) (r : Bytes) (old : Option RxMsg) (o : Nat × Nat) (tok : Option Nat) : RxMsg :=
  let base : RxMsg := old.getD { op := t.op, len := t.len, firstPsn := none, lastPsn := none, got := 0, fail := none, hdr := r.take 24, data := []
                                 tracked := t.tracked, mtok := none }
  let rsp := t.op == Op.getRsp || t.op == Op.atomicRsp
  let f : Option (Nat × Nat) :=
    if o.1 ≠ St.ok then some o
    else if rsp && Rma.rstatus r != 0 then some (Rma.rstatus r, Rma.rdetail r) else none
  { base with
    firstPsn := if t.off = 0 then some t.psn else base.firstPsn
    lastPsn := if t.last then some t.psn else base.lastPsn
    got := base.got + (r.length - opHdrLen t)
    fail := match base.fail with | some x => some x | none => f
    data := if t.op = Op.atomicRsp then r.drop 24 else base.data
    mtok := match base.mtok with | some x => some x | none => tok }

/-- RX_NEXT moves over every PSN received, and what waits for it happens (R253, R346). -/
def rxAdvance (d cn : Nat) (ans : HostAns) : Nat → Mod → Mod
  | 0, m => m
  | n + 1, m =>
    let c := cond d cn m
    if !bit c.rxMap 0 then m
    else
      let psn := c.rxNext
      let start := (c.rx.filter (fun e => e.2.firstPsn == some psn)).filterMap (fun e => e.2.mtok)
      let stop := (c.rx.filter (fun e => e.2.lastPsn == some psn && !e.2.tracked)).map Prod.fst
      let m := start.foldl (fun m tok => match mmsg tok m with
        | some x => if x.place = 0 then matchPoint tok m else m
        | none => m) m
      let m := if bit c.lastMap 0 then stop.foldl (fun m k => rxComplete d cn k ans m) m else m
      rxAdvance d cn ans n (rxShift d cn m)

/-- A packet's bytes are counted by its tracker, which is freed with the whole message. -/
def trkCount (d cn k n key : Nat) (ans : HostAns) (m : Mod) : Mod :=
  match NMap.find m.trn.trk (d * 4096 + k) with
  | none => m
  | some t =>
    let t' := { t with count := t.count + n, last := now d m }
    if t.len ≤ t'.count then rxComplete d cn key ans (trkFree d k m)
    else updTrn (fun x => { x with trk := NMap.put x.trk (d * 4096 + k) t' }) m

/-- Steps 10 and 11 for a new PSN at distance `dist`, its record in the maps and its acknowledgement.  CND_CNT1.NR_SENT counts the
refusals of R247 and R252 alone; the conduit's own NR_SENT and the Tally counter count these too. -/
def rxNew (d cn dist : Nat) (b : Bytes) (ans : HostAns) (m : Mod) : Mod :=
  let t := Th.of b
  let r := restOf b
  let record := rxMark d cn dist (t.last && !t.tracked)
  let taken := fun (m : Mod) => updCond d cn (fun c => { c with
    pktsRx := (c.pktsRx + 1) % 2 ^ 64, bytesRx := (c.bytesRx + (r.length - opHdrLen t)) % 2 ^ 64 }) m
  let advance := fun (m : Mod) => rxAdvance d cn ans (2 ^ (cond d cn m).rxLog + 1) m
  if t.op = Op.trkReq then
    let k := trkGrant d cn t m
    advance (sendAck d cn cn b St.ok 0 false k.1 (record (taken (count d 450 1 k.2))))
  else if t.op = Op.close then
    closeCond d cn 1 St.conduitClosed 0 (sendAck d cn cn b St.ok 0 false none (record (taken (count d 450 1 m))))
  else if t.tracked && liveTrk d cn t.msg m != some (t.trk % 4096) then
    advance (sendAck d cn cn b St.remoteAccess RaDet.noTracker false none (record m))
  else match step11 d cn b (dist == 0) ans m with
    | .held m => m
    | .done o tok =>
      let m := o.2.2
      if o.1 = St.notReady then
        sendAck d cn cn b o.1 o.2.1 false none (updCond d cn (fun c => { c with nrSent := (c.nrSent + 1) % 2 ^ 32 }) (count d 456 1 m))
      else
        let m := if o.1 = St.ok then taken (count d 450 1 m) else m
        let key := rxKey t
        let m := updCond d cn (fun c => { c with rx := NMap.put c.rx key (rxNote t r (NMap.find c.rx key) (o.1, o.2.1) tok) }) m
        let m := sendAck d cn cn b o.1 o.2.1 false none (record m)
        let m := if t.tracked then trkCount d cn (t.trk % 4096) (r.length - opHdrLen t) key ans m else m
        advance m

/-- Steps 7 to 11 for a packet whose conduit is resident. -/
def step7 (d cn : Nat) (b : Bytes) (ans : HostAns) (m : Mod) : Mod :=
  let t := Th.of b
  let c := cond d cn m
  let live := condState d cn m != CSt.closed && inRange d c.fn cn m && c.peer == Hdr.src b && c.pasture == Hdr.pasture b
    && (c.peerCn == t.scn || c.peerCn == noCn)
  if !live then sendAck d cn cn b St.conduitClosed 0 false none (bump F.CND_CNT0_NO_CONDUIT d 0 m)
  else
    let m := touchCond d cn (learnPeer d cn t.scn m)
    if t.timed then
      let cls := if isBridge d (Hdr.pasture b) m then Cls5.peer else Cls5.remote
      let o := timedIn d cn (Hdr.res b) cls t (restOf b) ans m
      let m := if o.1 = St.ok then
          count d 450 1 (updCond d cn (fun c => { c with
            pktsRx := (c.pktsRx + 1) % 2 ^ 64, bytesRx := (c.bytesRx + (restOf b).length) % 2 ^ 64 }) o.2.2)
        else o.2.2
      sendAck d cn cn b o.1 o.2.1 false none m
    else
      let dist := (t.psn + 2 ^ 32 - c.rxNext) % 2 ^ 32
      let trk := if t.op = Op.trkReq then liveTrk d cn t.msg m else none
      let again := fun (m : Mod) => updCond d cn (fun c => { c with dups := (c.dups + 1) % 2 ^ 32 }) m
      if 2 ^ c.rxLog ≤ dist then sendAck d cn cn b St.ok 0 true trk (bump F.CND_CNT1_STALE d 0 (again m))
      else if rxBit d c dist m then sendAck d cn cn b St.ok 0 true trk (bump F.CND_CNT1_DUPS d 0 (again m))
      else rxNew d cn dist b ans m

/-- Step 6: the conduit is resident and has nothing in the pen, or the packet enters the pen. -/
def step6 (d cn : Nat) (b : Bytes) (ans : HostAns) (m : Mod) : Mod :=
  if (cond d cn m).resident && !penned d cn m then step7 d cn b ans m
  else
    let l := pen d m
    if 16384 ≤ l.length ∨ 8388608 < (l.map (fun e => e.2.length)).sum + b.length then refuseNr d cn b 0x04 m
    else startFetch d cn (count d 455 1 (setPen d (l ++ [(cn, b)]) m))

/-! ## Acknowledgements received (R251 step 4, R255) -/

/-- An acknowledgement of a multicast conduit's packet (R262).  CE on any leaf's halves E; the packet's bytes count once, when
its last leaf has acknowledged it, as bytes with CE if any leaf's carried it (R201).  The first leaf's SCN makes the conduit OPEN
and is kept as PEER_CN, though every packet goes out with DCN unknown (DEDUCED: R265 opens a conduit when PEER_CN is learned, and
R262 speaks of an OPEN multicast conduit). -/
def mcastAck (d cn : Nat) (t : Th) (status : Nat) (ce : Bool) (m : Mod) : Mod :=
  match (cond d cn m).recs.find? (fun r => r.psn == t.psn) with
  | none => bump F.CND_CNT1_ACK_DISCARD d 0 m
  | some r =>
    let m := learnPeer d cn t.scn m
    if status ≠ St.ok ∨ r.round ≠ t.round then m
    else
      let r' := { r with acks := r.acks + 1, ce := r.ce || ce }
      let m := updCond d cn (fun c => { c with nrCount := 0, recs := c.recs.map (fun x => if x.psn = r.psn then r' else x) }) m
      let m := if ce then adaptWindow d cn 0 true m else m
      if (cond d cn m).leaves ≤ r'.acks then
        let m := advanceUna d cn (resolve d cn r' St.ok 0 none m)
        let m := if r'.ce then updCond d cn (fun c => { c with acked := c.acked + r.len, ackedCe := c.ackedCe + r.len }) m
          else adaptWindow d cn r.len false m
        if r.op = Op.close then dropCond d cn 0 St.conduitClosed 0 m else showRetry d cn m
      else m

/-- An acknowledgement that matches a unicast conduit. -/
def uniAck (d cn : Nat) (t : Th) (level path : Nat) (ce : Bool) (status detail rxLog : Nat) (trk : Option Nat) (m : Mod) : Mod :=
  let c := cond d cn m
  let span := (c.txNext + 2 ^ 32 - c.txUna) % 2 ^ 32
  if span ≤ (t.psn + 2 ^ 32 - c.txUna) % 2 ^ 32 then bump F.CND_CNT1_ACK_DISCARD d 0 m
  else
    let m := updCond d cn (fun c => { c with peerRx := rxLog }) (learnPeer d cn t.scn m)
    let o := (t.off + 2 ^ 32 - c.txUna) % 2 ^ 32
    let below := if o ≤ span then c.recs.filter (fun r => r.psn != t.psn && decide ((r.psn + 2 ^ 32 - c.txUna) % 2 ^ 32 < o)) else []
    let own := c.recs.find? (fun r => r.psn == t.psn)
    let m := below.foldl (fun m r => resolve d cn r St.ok 0 none m) m
    let m := match own with
      | none => m
      | some r =>
        if status = St.notReady then notReady d cn r detail m
        else if status = St.conduitClosed ∧ r.op ≠ Op.close then closeCond d cn 2 St.conduitClosed 0 m
        else resolve d cn r status detail trk m
    if (cond d cn m).state = CSt.closed then m
    else
      let done := (below ++ (if status = St.notReady then [] else own.toList))
      let m := adaptWindow d cn ((done.map Rec.len).sum) ce (scoreAck d cn path level (advanceUna d cn m))
      let m := if status = St.ok then updCond d cn (fun c => { c with nrCount := 0 }) m else m
      if done.any (fun r => r.op == Op.close) then dropCond d cn 0 St.conduitClosed 0 m else showRetry d cn m

/-- Step 4 for an ACK. -/
def ackIn (d : Nat) (b : Bytes) (m : Mod) : Mod :=
  let t := Th.of b
  let cn := t.dcn
  let c := cond d cn m
  let status := bits t.len 8 8
  let detail := bits t.len 16 8
  let trk := if bit t.trk 12 then some (t.trk % 4096) else none
  let leafAck := c.mcast && !c.fromGate
  let ok := condState d cn m != CSt.closed && c.resident && (if leafAck then c.pasture == Hdr.pasture b
    else c.peer == Hdr.src b && (t.scn == noCn || c.peerCn == noCn || c.peerCn == t.scn))
  if cn = noCn || !ok then bump F.CND_CNT1_ACK_DISCARD d 0 m
  else
    let m := touchCond d cn m
    let m := sampleAck d cn t.psn (bits t.len 3 4) (bit t.len 7) m
    if t.timed then
      let m := timedAck d cn t.msg t.psn status detail (learnPeer d cn t.scn m)
      if status = St.conduitClosed ∧ !leafAck then closeCond d cn 2 St.conduitClosed 0 m else m
    else if leafAck then mcastAck d cn t status (bit t.len 7) m
    else uniAck d cn t (bits t.len 3 4) (bits t.len 0 3) (bit t.len 7) status detail (bits t.len 24 5) trk m

/-! ## Arrival (R251) -/

/-- One packet from the fabric, steps 1 to 6.  The operation header of an encrypted packet can be read, and its reserved fields
checked, only once step 3 has opened it (DEDUCED). -/
def arrive (d : Nat) (b : Bytes) (ans : HostAns) (m : Mod) : Mod :=
  let m := energy d 18 8 1 m
  let p := Hdr.pasture b
  let hdrOk := fun (o : Bytes) => opHdrOk (Th.of o) (restOf o) (isBridge d p m)
  if !formatOk b || (!(Th.of b).enc && !hdrOk b) then bump F.CND_CNT0_FORMAT_ERR d 0 m
  else match (pastOf d p m).filter (fun x => cndOn d x.fn m) with
    | none => bump F.CND_CNT0_PASTURE_MISS d 0 m
    | some x =>
      match openPacket d b m with
      | none => authFail d b m
      | some o =>
        let t := Th.of o
        if !hdrOk o then bump F.CND_CNT0_FORMAT_ERR d 0 m
        else if t.op = Op.ack then ackIn d o m
        else if t.dcn ≠ noCn then step6 d t.dcn o ans m
        else
          let k := matchPeer d x.fn o m
          match k.1 with
          | none => refuseNr d noCn o 0x03 k.2
          | some cn => step6 d cn o ans k.2

/-- The next packet delivered to the die is checked. -/
def takeNext (d : Nat) (ans : HostAns) (m : Mod) : Mod :=
  match NMap.get [] m.xb.tq d with
  | [] => m
  | b :: l => arrive d b ans (updXb (fun y => { y with tq := if l.isEmpty then NMap.del y.tq d else NMap.put y.tq d l }) m)

/-- TRANSPORT_PACKET_ARRIVE: a packet that resumes at step 7, else the next one delivered to the die. -/
def transportArrive (d : Nat) (ans : HostAns) (m : Mod) : Mod :=
  match NMap.get [] m.trn.resume d with
  | (cn, b) :: l =>
    step7 d cn b ans (updTrn (fun t => { t with resume := if l.isEmpty then NMap.del t.resume d else NMap.put t.resume d l }) m)
  | [] => takeNext d ans m

/-- ACK_RECEIVE: the next packet delivered to the die, where it is an acknowledgement. -/
def ackReceive (d : Nat) (ans : HostAns) (m : Mod) : Mod :=
  match NMap.get [] m.xb.tq d with
  | [] => m
  | b :: _ => if (Th.of b).op = Op.ack then takeNext d ans m else m

/-- CONDUIT_FETCH_COMPLETE: the conduit is resident, and its pen packets resume at step 7 in arrival order. -/
def fetchComplete (d cn : Nat) (ans : HostAns) (m : Mod) : Mod :=
  match makeResident d cn ans m with
  | none => m
  | some m =>
    let mine := (pen d m).filter (fun e => e.1 == cn)
    mine.foldl (fun m e =>
      if (pen d m).contains e then step7 d cn e.2 ans (setPen d ((pen d m).erase e) m) else m) m

/-- TRACKER_IDLE_TIMEOUT: a tracker with no new byte counted for TRK_IDLE_US is freed (R259). -/
def trkIdle (d k : Nat) (m : Mod) : Mod :=
  match NMap.find m.trn.trk (d * 4096 + k) with
  | none => m
  | some t =>
    let due := t.last + 1000 * max 1 (cur F.CND_TIMING_TRK_IDLE_US d 0 m)
    trkFree d k (if now d m < due then runTo d due m else m)

/-- OLD_KEY_EXPIRY: the replaced key of a pasture is no longer accepted (R264). -/
def oldKeyExpiry (d p : Nat) (m : Mod) : Mod :=
  match pkey d p m with
  | none => m
  | some k => { m with keys := NMap.put m.keys (d * 65536 + p) { k with old := none } }

end Sys2Proof.Machine
end

