-- ==== Sys2Proof/Machine/Work.lean ====
section
/-! DEFINITION. Work entries (spec/10): taking an entry, the checks of R287, the meaning of each opcode, and the
scheduling of queues and groups (R276 to R295). -/
namespace Sys2Proof.Machine

/-! ## Entries (R276, R277) -/

/-! Opcodes. -/
namespace Wop
def nop : Nat := 0x01
def put : Nat := 0x10
def get : Nat := 0x11
def send : Nat := 0x12
def add32 : Nat := 0x20
def add64 : Nat := 0x21
def fetchAdd32 : Nat := 0x22
def fetchAdd64 : Nat := 0x23
def cas32 : Nat := 0x24
def cas64 : Nat := 0x25
def cas128 : Nat := 0x26
def lockAcquire : Nat := 0x30
def lockTry : Nat := 0x31
def lockRelease : Nat := 0x32
def recvPost : Nat := 0x38
def collStart : Nat := 0x40
def conduitOpen : Nat := 0x50
def conduitClose : Nat := 0x51
def fmSend : Nat := 0x60
end Wop

/-! Details of MALFORMED (R288). -/
namespace Mal
def badOpcode : Nat := 1
def reservedSet : Nat := 2
def badFlags : Nat := 3
def badLength : Nat := 4
def badAlign : Nat := 5
def badFragments : Nat := 6
def badArgument : Nat := 7
end Mal

/-- An entry as taken: its queue, index, the queue's generation, function and 64 bytes. -/
structure Ent where
  die : Nat
  q   : Nat
  idx : Nat
  gen : Nat
  fn  : Nat
  b   : Bytes
  deriving DecidableEq, Repr

/-! The common header (R276) and its FLAGS. -/
def Ent.op (e : Ent) : Nat := rdLE e.b 0 1
def Ent.flags (e : Ent) : Nat := rdLE e.b 1 1
def Ent.signal (e : Ent) : Bool := bit e.flags 0
def Ent.indirect (e : Ent) : Bool := bit e.flags 2
def Ent.timed (e : Ent) : Bool := bit e.flags 3
def Ent.imm (e : Ent) : Bool := bit e.flags 4
def Ent.remoteCpl (e : Ent) : Bool := bit e.flags 5
def Ent.cring (e : Ent) : Nat := rdLE e.b 2 2
def Ent.tag (e : Ent) : Nat := rdLE e.b 4 4
def Ent.cn (e : Ent) : Nat := rdLE e.b 8 3
def Ent.xctx (e : Ent) : Nat := rdLE e.b 12 2
def Ent.aux (e : Ent) : Nat := rdLE e.b 14 2

/-- The owner of what the entry starts. -/
def Ent.owner (e : Ent) : Owner := .queue e.q e.idx e.gen e.op e.tag e.cring e.signal

/-- The opcodes whose bytes 8–10 name a conduit (R277, R287). -/
def Ent.usesConduit (e : Ent) : Bool :=
  [0x10, 0x11, 0x12, 0x20, 0x21, 0x22, 0x23, 0x24, 0x25, 0x26, 0x30, 0x31, 0x32, 0x50, 0x51].contains e.op

/-- PEER and CONDUIT of the entry's own completion (R296): the conduit and its partner; of FM_SEND the destination
and no conduit; otherwise neither. -/
def Ent.who (e : Ent) (m : Mod) : Nat × Nat :=
  if e.usesConduit then (if inRange e.die e.fn e.cn m then (cond e.die e.cn m).peer else 0, e.cn)
  else if e.op = 0x60 then (e.cn % 2 ^ 20, 0)
  else (0, 0)

/-- The entry completes with a status. -/
def Ent.done (e : Ent) (status detail result : Nat) (m : Mod) : Mod :=
  entryDone e.die e.q e.idx e.gen e.op e.tag e.cring e.signal status detail 0 result (e.who m).1 (e.who m).2 m

/-- MALFORMED with a detail. -/
def Ent.malformed (e : Ent) (detail : Nat) (m : Mod) : Mod := e.done St.malformed detail 0 m

/-! ## The checks of R287 -/

/-- Step 1 for the common header: flags admitted beside SIGNAL and FENCE, then reserved fields. -/
def Ent.badCommon (e : Ent) (admitted : Nat) (aux : Nat) : Option Nat :=
  if Nat.land (e.flags % 64) (Nat.xor (3 + admitted) 63) ≠ 0 ∨ (e.imm ∧ !e.remoteCpl) ∨ (e.imm ∧ e.timed) then some Mal.badFlags
  else if 64 ≤ e.flags ∨ !zeroAt e.b 11 1 ∨ 4096 ≤ e.xctx ∨ aux ≤ e.aux then some Mal.reservedSet
  else none

/-- The first of several findings. -/
def firstBadOf2 (a b : Option Nat) : Option Nat := a.orElse (fun _ => b)

/-- A finding where a condition holds. -/
def badIf (c : Bool) (detail : Nat) : Option Nat := if c then some detail else none

/-- FRAGS and the alignment of the fragment table (R278, R285). -/
def Ent.badFrags (e : Ent) (tbl off : Nat) : Option Nat :=
  let n := rdLE e.b off 2
  if e.indirect then firstBadOf2 (badIf (decide (n = 0 ∨ 4096 < n)) Mal.badLength) (badIf (decide (rdLE e.b tbl 8 % 16 ≠ 0)) Mal.badAlign)
  else none

/-- FRAGS is reserved without INDIRECT. -/
def Ent.fragsSet (e : Ent) (off : Nat) : Bool := !e.indirect && !zeroAt e.b off 2

/-- Steps 1, 3 and 4 for an entry that uses its conduit; then the rest. -/
def Ent.onConduit (e : Ent) (bad : Option Nat) (rest : Mod → Mod) (m : Mod) : Mod :=
  match bad with
  | some dt => e.malformed dt m
  | none =>
    if !inRange e.die e.fn e.cn m || inGate e.die e.fn e.cn m then e.done St.accessDenied 0 0 m
    else if !condLive e.die e.cn m then e.done St.conduitClosed 0 0 m
    else rest m

/-- A fragment's address and length. -/
def fragOf (b : Bytes) (i : Nat) : Nat × Nat := (rdLE b (16 * i) 8, rdLE b (16 * i + 8) 4)

/-- Step 5: the buffer's fragments, or the failure. -/
def Ent.fragments (e : Ent) (tbl len off : Nat) (ans : HostAns) (m : Mod) : (List (Nat × Nat) ⊕ (Nat × Nat × Nat)) × Mod :=
  if !e.indirect then (.inl [(rdLE e.b tbl 8, len)], m)
  else
    let n := rdLE e.b off 2
    let r := readVa e.die e.fn e.xctx (rdLE e.b tbl 8) (16 * n) Cls5.local_ ans m
    match r.1 with
    | .bad st dt va => (.inr (st, dt, va), r.2)
    | .ok b =>
      let l := (List.range n).map (fragOf b)
      if (List.range n).any (fun i => !zeroAt b (16 * i + 12) 4) then (.inr (St.malformed, Mal.reservedSet, 0), r.2)
      else if l.any (fun f => f.2 == 0) || (l.map Prod.snd).sum != len then (.inr (St.malformed, Mal.badFragments, 0), r.2)
      else (.inl l, r.2)

/-- Steps 5 and 6 for a buffer; `rest` gets its fragments and whether a page has side effects. -/
def Ent.withBuf (e : Ent) (tbl len off kind : Nat) (ans : HostAns) (rest : List (Nat × Nat) → Bool → Mod → Mod) (m : Mod) : Mod :=
  let r := e.fragments tbl len off ans m
  match r.1 with
  | .inr f => e.done f.1 f.2.1 f.2.2 r.2
  | .inl l =>
    let k := checkBuf e.die e.fn e.xctx kind Cls5.local_ ans l false r.2
    match k.1 with
    | .bad st dt va => e.done st dt va k.2.2
    | .ok _ => rest l k.2.1 k.2.2

/-- The message of an entry joins its conduit and is injected next. -/
def Ent.start (e : Ent) (g : Msg) (m : Mod) : Mod :=
  let r := addMsg e.die e.cn { g with owner := e.owner, xctx := e.xctx, cls := Cls5.local_ } m
  updSq e.die e.q (fun s => { s with inj := some (e.cn, r.1) }) r.2

/-- Count an admission (R227). -/
def noteRefused (d : Nat) (m : Mod) : Mod := count d 518 1 (bump F.CAL_ADMIT_CNT_REFUSED d 0 m)

/-! ## PUT, GET, SEND (R278) -/

/-- LENGTH, REMOTE and RES. -/
def Ent.len (e : Ent) : Nat := rdLE e.b 32 4
def Ent.remote (e : Ent) : Nat := rdLE e.b 24 8
def Ent.res (e : Ent) : Nat := rdLE e.b 38 2

/-- Step 1 for R278. -/
def Ent.bad278 (e : Ent) (admitted : Nat) : Option Nat :=
  firstBadOf2 (e.badCommon admitted 4096)
    (firstBadOf2 (badIf (e.fragsSet 36 || !zeroAt e.b 56 8 || (if e.timed then decide (2 ^ 14 ≤ e.res) else decide (e.res ≠ 0))
        || (!e.imm && !zeroAt e.b 40 8) || (!e.timed && !zeroAt e.b 48 8) || (e.timed && decide (e.remote ≠ 0 ∨ e.aux ≠ 0))) Mal.reservedSet)
      (e.badFrags 16 36))

/-- A timed PUT after steps 1 to 6 (R227, R229). -/
def Ent.timedPut (e : Ent) (buf : List (Nat × Nat)) (se : Bool) (ans : HostAns) (m : Mod) : Mod :=
  let d := e.die
  if se then
    let x := seFault d e.fn e.xctx 0 Cls5.local_ ans buf m
    e.done St.xltFault (xDetail 0 0x0A) x.1 x.2
  else match admitPost d e.fn e.res e.cn e.len (rdLE e.b 48 8) m with
    | .inl dt => e.done 0x08 dt 0 (noteRefused d m)
    | .inr y =>
      let r := readBuf d e.fn e.xctx Cls5.local_ ans buf m
      let pay := match r.1 with | .ok b => some b | .bad _ _ _ => none
      count d 517 1 (accept d e.fn e.res e.cn e.len (rdLE e.b 48 8) e.owner y pay r.2)

/-- PUT. -/
def workPut (e : Ent) (ans : HostAns) (m : Mod) : Mod :=
  e.onConduit (e.bad278 (4 + 8 + 16 + 32)) (fun m =>
    e.withBuf 16 e.len 36 0 ans (fun buf se m =>
      if e.timed then e.timedPut buf se ans m
      else
        let c := cond e.die e.cn m
        let spray := c.spray && !c.mcast && decide (cur F.CND_TIMING_SPRAY_MIN_KIB e.die 0 m * 1024 ≤ e.len)
        e.start { Msg.blank with
          op := Op.put, len := e.len, addr := e.remote, buf := buf, ask := b2n spray
          hdr := rmaHdr e.remote (e.aux % 4096) (b2n e.remoteCpl + 2 * b2n e.imm) (rdLE e.b 40 8) } m) m) m

/-- GET. -/
def workGet (e : Ent) (ans : HostAns) (m : Mod) : Mod :=
  e.onConduit (e.bad278 4) (fun m =>
    e.withBuf 16 e.len 36 1 ans (fun buf _ m =>
      e.start { Msg.blank with
        op := Op.getReq, len := e.len, addr := e.remote, buf := buf, wait := if e.len = 0 then 0 else 1
        hdr := rmaHdr e.remote (e.aux % 4096) 0 0 } m) m) m

/-- The eager limit in bytes (R349, MTC_CTRL). -/
def eagerLimit (d : Nat) (m : Mod) : Nat := max 1 (min 16 (cur F.MTC_CTRL_EAGER_KIB d 0 m)) * 1024

/-- SEND: eagerly, or by rendezvous (R349). -/
def workSend (e : Ent) (ans : HostAns) (m : Mod) : Mod :=
  let eager := decide (e.len ≤ eagerLimit e.die m)
  e.onConduit (firstBadOf2 (e.bad278 4) (badIf (e.indirect && !eager) Mal.badLength)) (fun m =>
    e.withBuf 16 e.len 36 0 ans (fun buf _ m =>
      let dom := e.aux % 4096
      if eager then
        e.start { Msg.blank with op := Op.eager, len := e.len, addr := 0, buf := buf, hdr := mtHdr e.remote dom 0 0 0 } m
      else
        e.start { Msg.blank with
          op := Op.rts, len := e.len, addr := 0, buf := buf, wait := 4, hdr := mtHdr e.remote dom e.xctx 0 (rdLE e.b 16 8) } m) m) m

/-! ## Atomics (R279, R305) -/

/-- TARGET and RESULT_ADDR. -/
def Ent.target (e : Ent) : Nat := rdLE e.b 16 8
def Ent.resultAddr (e : Ent) : Nat := rdLE e.b 24 8

/-- Step 1 for R279. -/
def Ent.badAtomic (e : Ent) (aop size : Nat) : Option Nat :=
  firstBadOf2 (e.badCommon 0 4096)
    (firstBadOf2 (badIf ((aop == 0 && decide (e.resultAddr ≠ 0)) || !zeroAt e.b (32 + size) (16 - size)
        || (if aop = 2 then !zeroAt e.b (48 + size) (16 - size) else !zeroAt e.b 48 16)) Mal.reservedSet)
      (badIf (decide (e.target % size ≠ 0 ∨ e.resultAddr % size ≠ 0)) Mal.badAlign))

/-- The ATOMIC message of an entry: `aop` 0 ADD, 1 FETCH_ADD, 2 CAS (R315). -/
def Ent.atomicMsg (e : Ent) (aop size : Nat) : Msg :=
  { Msg.blank with
    op := Op.atomic, len := size, addr := e.target, wait := if aop = 0 then 0 else 2, resAddr := e.resultAddr
    hdr := rmaHdr e.target (e.aux % 4096) (4 * aop + 32 * (if size = 4 then 0 else if size = 8 then 1 else 2)) 0
      ++ sub e.b 32 16 ++ sub e.b 48 16 }

/-- An atomic of a size. -/
def workAtomic (aop size : Nat) (e : Ent) (ans : HostAns) (m : Mod) : Mod :=
  e.onConduit (e.badAtomic aop size) (fun m =>
    if e.resultAddr = 0 then e.start (e.atomicMsg aop size) m
    else
      let k := checkBuf e.die e.fn e.xctx 1 Cls5.local_ ans [(e.resultAddr, size)] false m
      match k.1 with
      | .bad st dt va => e.done st dt va k.2.2
      | .ok _ => e.start (e.atomicMsg aop size) k.2.2) m

/-! ## Locks (R280, R332) -/

/-- Step 1 for R280. -/
def Ent.badLock (e : Ent) : Option Nat :=
  firstBadOf2 (e.badCommon 0 4096)
    (firstBadOf2 (badIf (!zeroAt e.b 25 39) Mal.reservedSet) (badIf (decide (e.target % 8 ≠ 0)) Mal.badAlign))

/-- The LOCK_REQ message of an entry. -/
def Ent.lockMsg (e : Ent) (kind : Nat) : Msg :=
  { Msg.blank with
    op := Op.lockReq, wait := if kind = 2 then 0 else 3, hdr := lockHdr e.target (e.aux % 4096) kind (rdLE e.b 24 1) e.tag 0 }

/-- A lock entry: kind 0 ACQUIRE, 1 TRY, 2 RELEASE. -/
def workLock (kind : Nat) (e : Ent) (m : Mod) : Mod := e.onConduit e.badLock (fun m => e.start (e.lockMsg kind) m) m

/-! ## RECV_POST (R281, R353) -/

/-- Step 1 for R281. -/
def Ent.badRecv (e : Ent) : Option Nat :=
  firstBadOf2 (e.badCommon 4 4096)
    (firstBadOf2 (badIf (e.fragsSet 48 || !zeroAt e.b 43 1 || !zeroAt e.b 50 14 || decide (bits (rdLE e.b 40 3) 20 3 ≠ 0)) Mal.reservedSet)
      (e.badFrags 16 48))

/-- The receive that an entry posts. -/
def Ent.recv (e : Ent) (buf : List (Nat × Nat)) (time : Nat) : Recv :=
  { bits := rdLE e.b 24 8, ignore := rdLE e.b 32 8, source := rdLE e.b 40 3 % 2 ^ 20, any := bit (rdLE e.b 40 3) 23, len := rdLE e.b 44 4, buf := buf
    indirect := e.indirect, xctx := e.xctx, cring := e.cring, tag := e.tag, idx := e.idx, q := e.q, gen := e.gen, time := time }

/-- RECV_POST. -/
def workRecv (e : Ent) (ans : HostAns) (m : Mod) : Mod :=
  match e.badRecv with
  | some dt => e.malformed dt m
  | none =>
    e.withBuf 16 (rdLE e.b 44 4) 48 1 ans (fun buf _ m =>
      let x := Sys2Proof.Machine.recvPost e.die (e.aux % 4096) e.fn (e.recv buf (now e.die m)) m
      match x.1 with
      | some f => e.done f.1 f.2 0 x.2
      | none => x.2) m

/-! ## COLL_START (R282, R372, R373) -/

/-- The entry's arguments. -/
def Ent.coll (e : Ent) : CollArgs :=
  { prog := rdLE e.b 16 2, inst := rdLE e.b 18 2, inAddr := rdLE e.b 24 8, outAddr := rdLE e.b 32 8, len := rdLE e.b 40 4, base := rdLE e.b 44 8
    ownOff := rdLE e.b 52 4, ownCount := rdLE e.b 56 4, hflags := rdLE e.b 60 1, xctx := e.xctx }

/-- Step 6 for the host buffers of an instance: an input with side effects is refused (R436). -/
def Ent.collCheck (e : Ent) (ans : HostAns) : List (Bool × Nat × Nat) → Mod → Option (Nat × Nat × Nat) × Mod
  | [], m => (none, m)
  | (w, a, n) :: r, m =>
    let k := checkBuf e.die e.fn e.xctx (b2n w) Cls5.drover ans [(a, n)] false m
    match k.1 with
    | .bad st dt va => (some (st, dt, va), k.2.2)
    | .ok _ =>
      if k.2.1 && !w then
        let x := seFault e.die e.fn e.xctx 0 Cls5.drover ans [(a, n)] k.2.2
        (some (St.xltFault, xDetail 0 0x0A, x.1), x.2)
      else e.collCheck ans r k.2.2

/-- Step 1 for R282. -/
def Ent.badColl (e : Ent) (m : Mod) : Option Nat :=
  firstBadOf2 (e.badCommon 0 1)
    (firstBadOf2 (badIf (!zeroAt e.b 20 4 || !zeroAt e.b 61 3 || decide (4 ≤ e.coll.hflags)) Mal.reservedSet)
      (badIf (decide (e.coll.prog < 256) && collBadLen e.die e.coll m) Mal.badLength))

/-- COLL_START. -/
def workColl (e : Ent) (ans : HostAns) (m : Mod) : Mod :=
  let a := e.coll
  let prg := decide (a.prog < 256)
  match e.badColl m with
  | some dt => e.malformed dt m
  | none =>
    let k := e.collCheck ans (if prg then collBufs e.die a m else []) m
    match k.1 with
    | some f => e.done f.1 f.2.1 f.2.2 k.2
    | none =>
      if !prg then e.done St.accessDenied 0x51 0 k.2
      else match collStartCheck e.die e.fn a k.2 with
        | .inl f => e.done f.1 f.2 0 (if f.1 = 0x08 then noteRefused e.die k.2 else k.2)
        | .inr pending => collStart e.die a pending e.owner k.2

/-! ## CONDUIT_OPEN, CONDUIT_CLOSE (R246, R266) -/

/-! Fields of CONDUIT_OPEN (R283). -/
def Ent.openPeer (e : Ent) : Nat := rdLE e.b 16 3
def Ent.openFlags (e : Ent) : Nat := rdLE e.b 19 1
def Ent.openMcast (e : Ent) : Bool := bit e.openFlags 2
def Ent.openPasture (e : Ent) : Nat := rdLE e.b 20 2
def Ent.openWindow (e : Ent) : Nat := rdLE e.b 22 2
def Ent.openLeaves (e : Ent) : Nat := rdLE e.b 24 2
def Ent.openRx (e : Ent) : Nat := rdLE e.b 26 1
def Ent.openLimit (e : Ent) : Nat := rdLE e.b 27 1
def Ent.openBase (e : Ent) : Nat := rdLE e.b 28 4
def Ent.openMap (e : Ent) : Nat := rdLE e.b 32 8

/-- Step 1 for R283. -/
def Ent.badOpen (e : Ent) : Option Nat :=
  firstBadOf2 (e.badCommon 0 1)
    (badIf (decide (2 ^ 20 ≤ e.openPeer ∨ 8 ≤ e.openFlags ∨ 32 ≤ e.openRx) || (!e.openMcast && decide (e.openLeaves ≠ 0))
      || !zeroAt e.b 48 16) Mal.reservedSet)

/-- The conduit, its pasture or both are not the function's. -/
def Ent.openDenied (e : Ent) (m : Mod) : Bool :=
  !inRange e.die e.fn e.cn m || inGate e.die e.fn e.cn m || (pastOf e.die e.openPasture m).map Past.fn != some e.fn

/-- An argument is out of its range, the conduit is not CLOSED, or the unicast pair is already open (R246). -/
def Ent.openBad (e : Ent) (m : Mod) : Bool :=
  decide (e.openRx < 8 ∨ 20 < e.openRx ∨ (8 < e.openRx ∧ !poolOwned e.die e.die e.fn e.openMap (2 ^ e.openRx / 4) m) ∨ e.openBase < 1000
    ∨ 65535000 < e.openBase ∨ e.openLimit = 0 ∨ (e.openMcast ∧ (e.openLeaves = 0 ∨ 4096 < e.openLeaves)))
  || decide (condState e.die e.cn m ≠ CSt.closed ∨ (!e.openMcast ∧ (unicastOf e.die e.fn e.openPeer e.openPasture m).isSome))

/-- The context that CONDUIT_OPEN makes. -/
def Ent.openCond (e : Ent) (m : Mod) : Cond :=
  { Cond.reset with
    state := CSt.opening, adapt := bit e.openFlags 0, spray := bit e.openFlags 1, mcast := e.openMcast, rxLog := e.openRx, fn := e.fn
    peer := e.openPeer, peerCn := 0xFFFFFF, pasture := e.openPasture, window := e.openWindow, eff := e.openWindow, lastPath := 7
    leaves := e.openLeaves, epoch := epochOf e.die e.fn m, agedAt := now e.die m, openedAt := now e.die m, retryBase := e.openBase
    retryLimit := e.openLimit, mapOff := e.openMap, userCtx := rdLE e.b 40 8 }

/-- CONDUIT_OPEN. -/
def workOpen (e : Ent) (m : Mod) : Mod :=
  match e.badOpen with
  | some dt => e.malformed dt m
  | none =>
    if e.openDenied m then e.done St.accessDenied 0 0 m
    else if e.openBad m then e.malformed Mal.badArgument m
    else e.done St.ok 0 0 (saveCond e.die e.cn (extClear e.die (e.openCond m)
      (setCond e.die e.cn (e.openCond m) (energy e.die 23 10 4 m))))

/-- CONDUIT_CLOSE. -/
def workClose (e : Ent) (m : Mod) : Mod :=
  e.onConduit (firstBadOf2 (e.badCommon 0 1) (badIf (!zeroAt e.b 16 48) Mal.reservedSet))
    (fun m => startClose e.die e.cn (e.done St.ok 0 0 m)) m

/-! ## NOP, FM_SEND (R277, R284) -/

/-- NOP. -/
def workNop (e : Ent) (m : Mod) : Mod :=
  match firstBadOf2 (e.badCommon 0 1) (badIf (!zeroAt e.b 16 48) Mal.reservedSet) with
  | some dt => e.malformed dt m
  | none => e.done St.ok 0 0 m

/-- FM_SEND. -/
def workFm (e : Ent) (m : Mod) : Mod :=
  let hops := rdLE e.b 14 1
  let n := rdLE e.b 15 1
  match firstBadOf2 (e.badCommon 0 65536) (firstBadOf2 (badIf (decide (2 ^ 20 ≤ e.cn)) Mal.reservedSet)
      (badIf (decide (hops = 0 ∨ 8 < hops ∨ 40 < n)) Mal.badLength)) with
  | some dt => e.malformed dt m
  | none =>
    if !isPf e.die e.fn m then e.done St.accessDenied 0 0 m
    else
      let route := (List.range 8).map (fun i => rdLE e.b (16 + i) 1)
      let m := startPacket e.die false 3 (mkHdr route hops false false 0 e.cn (eidOf e.die m) 0 3 (24 + n) 0 ++ sub e.b 24 n) m
      e.done St.ok 0 0 m

/-! ## Taking an entry (R274, R287, R289) -/

/-- What an opcode does. -/
def workOf (e : Ent) (ans : HostAns) (m : Mod) : Mod :=
  match e.op with
  | 0x01 => workNop e m
  | 0x10 => workPut e ans m
  | 0x11 => workGet e ans m
  | 0x12 => workSend e ans m
  | 0x20 => workAtomic 0 4 e ans m
  | 0x21 => workAtomic 0 8 e ans m
  | 0x22 => workAtomic 1 4 e ans m
  | 0x23 => workAtomic 1 8 e ans m
  | 0x24 => workAtomic 2 4 e ans m
  | 0x25 => workAtomic 2 8 e ans m
  | 0x26 => workAtomic 2 16 e ans m
  | 0x30 => workLock 0 e m
  | 0x31 => workLock 1 e m
  | 0x32 => workLock 2 e m
  | 0x38 => workRecv e ans m
  | 0x40 => workColl e ans m
  | 0x50 => workOpen e m
  | 0x51 => workClose e m
  | 0x60 => workFm e m
  | _ => e.malformed Mal.badOpcode m

/-- The next entry of a queue where it may be taken: ACTIVE, in its slot, no entry injecting, FENCE satisfied. -/
def nextEntry (d q : Nat) (m : Mod) : Option Bytes :=
  if !dieActive d m || NMap.get false m.shep.drain d then none
  else if qState d 0 q m ≠ QSt.active ∨ (sq d q m).inj.isSome ∨ sqTail d q m = sqFetch d q m then none
  else (NMap.find (sq d q m).slots (sqFetch d q m)).filter (fun b => !bit (rdLE b 1 1) 1 || sqOpen d q m == 0)

/-- The entry `b`, next of its queue, as taken. -/
def entryOf (d q : Nat) (b : Bytes) (m : Mod) : Ent :=
  { die := d, q := q, idx := sqFetch d q m, gen := (sq d q m).gen, fn := qOwner d q m, b := b }

/-- The queue without it: its slot is free, SQ_FETCH is past it, and it is counted and perhaps sampled (R289, R447). -/
def entryTaken (d q : Nat) (b : Bytes) (m : Mod) : Mod :=
  let i := sqFetch d q m
  let e := entryOf d q b m
  let bell := ((sq d q m).bells.head?.map Prod.snd).getD (now d m)
  let next := (i + 1) % sqSize d q m
  let m := updSq d q (fun s => { s with
    slots := NMap.del s.slots i, bells := if s.bells.head?.map Prod.fst = some next then s.bells.drop 1 else s.bells }) m
  let m := sampleTake d q i e.gen e.fn bell b m
  let m := wr F.WQU_QSTATE_TAKEN_OPEN d (qix 0 q) (sqOpen d q m + 1) (wr F.WQU_QSTATE_FETCH d (qix 0 q) next m)
  count d 516 1 (count d 513 1 m)

/-- Take the entry `b`, the next of its queue, and run it; a bad CRING halts the queue first (R274). -/
def takeEntry (d q : Nat) (b : Bytes) (run : Ent → Mod → Mod) (m : Mod) : Mod :=
  if !crUsable d q (rdLE b 2 2) m then haltQueue d q 4 m
  else readAhead d q (showSlots d (run (entryOf d q b m) (entryTaken d q b m)))

/-- A command of one opcode: the queue's next entry is taken where it has that opcode. -/
def takeOp (code d q : Nat) (run : Ent → Mod → Mod) (m : Mod) : Mod :=
  match nextEntry d q m with
  | some b => if rdLE b 0 1 = code then takeEntry d q b run m else m
  | none => m

/-! ## Groups (R291 to R294) -/

/-- The engine's record of a group. -/
def grp (d g : Nat) (m : Mod) : Group := NMap.get Group.reset m.trn.grp (d * 1024 + g)
def updGrp (d g : Nat) (f : Group → Group) (m : Mod) : Mod :=
  updTrn (fun t => { t with grp := NMap.set Group.reset t.grp (d * 1024 + g) (f (grp d g m)) }) m

/-- Registers of a group as in force. -/
def grpRate (d g : Nat) (m : Mod) : Nat := max 1 (min 800000 (cur F.WQU_QCFG_G_RATE_MBPS d (qix 2 g) m))
def grpBurst (d g : Nat) (m : Mod) : Nat := max 8 (min 16384 (cur F.WQU_QCFG_G_BURST_KIB d (qix 2 g) m)) * 1024 * 65536
def grpQuantum (d g : Nat) (m : Mod) : Nat := max 1 (min 16384 (cur F.WQU_QCFG_G_QUANTUM_64 d (qix 2 g) m)) * 64
def grpShaped (d g : Nat) (m : Mod) : Bool := curB F.WQU_QCFG_G_SHAPE_EN d (qix 2 g) m
def grpOverhead (d g : Nat) (m : Mod) : Nat := cur F.WQU_QCFG_G_OVERHEAD d (qix 2 g) m

/-- Tokens now, in 2^-16 byte. -/
def tokensNow (d g : Nat) (m : Mod) : Nat :=
  let k := grp d g m
  min (grpBurst d g m) (k.tokens + (now d m - k.since) * grpRate d g m * 65536 / 8000)

/-- Bring the tokens to the present. -/
def accrue (d g : Nat) (m : Mod) : Mod := updGrp d g (fun k => { k with tokens := tokensNow d g m, since := now d m }) m

/-- A LIVE change of rate, burst or SHAPE_EN takes effect: tokens full or zero (R294). -/
def grpRestart (d g : Nat) (m : Mod) : Mod :=
  updGrp d g (fun k => { k with
    tokens := if curB F.WQU_QCFG_G_RESET_FULL d (qix 2 g) m then grpBurst d g m else 0, since := now d m }) m

/-- The queues of a group that are ACTIVE or still inject, ascending. -/
def grpQueues (d g : Nat) (m : Mod) : List Nat :=
  ((m.regs.filter (fun e => keyReg e.1 == F.WQU_QSTATE_STATE.reg && keyLo e.1 == F.WQU_QSTATE_STATE.lo
      && keyDie e.1 == d && keyIdx e.1 / 65536 == 0)).map (fun e => keyIdx e.1 % 65536)).filter
    (fun q => cur F.WQU_QCFG_Q_GROUP d (qix 0 q) m == g)

/-- The message that a queue injects. -/
def injMsg (d q : Nat) (m : Mod) : Option (Nat × Msg) :=
  (sq d q m).inj.bind (fun e => ((msgOf d e.1 e.2 m).filter (fun g => !g.all)).map (fun g => (e.1, g)))

/-- An entry is injected when all its packets have started. -/
def injEnd (d q : Nat) (m : Mod) : Mod :=
  if (injMsg d q m).isSome then m else updSq d q (fun s => { s with inj := none }) m

/-- LENGTH of an FM_SEND entry's packet, which it sends as it is taken; no other entry does. -/
def entryLen (b : Bytes) : Nat := if rdLE b 0 1 = Wop.fmSend then 24 + rdLE b 15 1 else 0

/-- The first packet of an entry once taken: its operation and its LENGTH without a trailer; none where it sends none on its
conduit, or its packets leave by its reservation (R295). -/
def Ent.first (e : Ent) (m : Mod) : Option (Nat × Nat) :=
  if e.op = Wop.put then
    (if e.timed then none
     else if (cond e.die e.cn m).spray && !(cond e.die e.cn m).mcast
        && decide (cur F.CND_TIMING_SPRAY_MIN_KIB e.die 0 m * 1024 ≤ e.len) then some (Op.trkReq, 64)
     else some (Op.put, 88 + pieceLen Op.put e.remote e.len 0))
  else if e.op = Wop.get then some (Op.getReq, 88)
  else if e.op = Wop.send then
    (if e.len ≤ eagerLimit e.die m then some (Op.eager, 88 + pieceLen Op.eager 0 e.len 0) else some (Op.rts, 88))
  else if Wop.add32 ≤ e.op ∧ e.op ≤ Wop.cas128 then some (Op.atomic, 120)
  else if Wop.lockAcquire ≤ e.op ∧ e.op ≤ Wop.lockRelease then some (Op.lockReq, 88)
  else none

/-- That packet, where the entry's conduit is one it may use: an entry that steps 3 and 4 of R287 refuse sends nothing. -/
def Ent.sends (e : Ent) (m : Mod) : Option (Nat × Nat) :=
  if inRange e.die e.fn e.cn m && !inGate e.die e.fn e.cn m && condLive e.die e.cn m then e.first m else none

/-- An entry may be taken: its first packet is ready, or it has none (R291), and a buffer list can be read, for which its function
needs a general tag (R54). The walk of a translation that misses takes its tag within the command and does not wait (DESIGN CHOICE). -/
def Ent.ready (e : Ent) (m : Mod) : Bool :=
  (!e.indirect || !canIssue e.die e.fn m || tagOpen e.die e.fn false m) && match e.sends m with
  | none => true
  | some (op, len) => sendReady e.die e.cn op none m && (takeBufs e.die e.cn (flitCount len) m).1

/-- The queue may be served: an entry in progress with a ready packet, or an entry to take. -/
def qReady (d q : Nat) (m : Mod) : Bool :=
  match injMsg d q m with
  | some (cn, g) => packetReady d cn g m && recordReady d cn g m
  | none => match nextEntry d q m with
    | some b => (entryOf d q b m).ready m
    | none => false

/-- The counted length of what a queue sends next. -/
def qCounted (d g q : Nat) (m : Mod) : Nat :=
  match injMsg d q m with
  | some (cn, x) => nextLen d cn x m + grpOverhead d g m
  | none => match nextEntry d q m with
    | some b =>
      let e := entryOf d q b m
      let n := match e.sends m with
        | some (_, len) => len + (if (pkey d (cond d e.cn m).pasture m).isSome then 24 else 0)
        | none => entryLen b
      if n = 0 then 0 else n + grpOverhead d g m
    | none => 0

/-- What keeps a queue from being ready is set going: its next descriptor, its conduit, a send record. -/
def prepare (d q : Nat) (m : Mod) : Mod :=
  let m := fetchNext d q m
  match injMsg d q m with
  | some (cn, g) => if packetReady d cn g m && !recordReady d cn g m then (takeBufs d cn (flitCount (nextLen d cn g m)) m).2
    else startFetch d cn m
  | none => match nextEntry d q m with
    | some b =>
      let e := entryOf d q b m
      (match e.sends m with
       | some (op, len) =>
         if sendReady d e.cn op none m && !(takeBufs d e.cn (flitCount len) m).1 then (takeBufs d e.cn (flitCount len) m).2
         else startFetch d e.cn m
       | none => m)
    | none => m

/-- A new round: every queue has its weight again. -/
def newRound (d g : Nat) (m : Mod) : Mod :=
  (grpQueues d g m).foldl (fun m q => updSq d q (fun s => { s with left := max 1 (cur F.WQU_QCFG_Q_WEIGHT d (qix 0 q) m), burst := 0 }) m) m

/-- The queue that is served next: the visit goes on, or the next after the last served. -/
def pickQueue (d g : Nat) (skip : List Nat) (m : Mod) : Option Nat :=
  let k := grp d g m
  let l := (grpQueues d g m).filter (fun q =>
    !skip.contains q && qReady d q m && ((injMsg d q m).isSome || decide (0 < (sq d q m).left)))
  let last := k.last
  let stay := l.contains last && (((injMsg d last m).isSome) || decide (0 < (sq d last m).burst))
  if stay then some last
  else ((l.filter (fun q => decide (last < q))) ++ (l.filter (fun q => decide (q ≤ last)))).head?

/-- One packet, or one entry, of queue `q`; answers whether something was done. -/
def serve (d g q : Nat) (ans : HostAns) (m : Mod) : Bool × Mod :=
  let counted := qCounted d g q m
  let spend := fun (n : Nat) (m : Mod) => updGrp d g (fun k => { k with
    deficit := k.deficit - n, tokens := if grpShaped d g m then k.tokens - n * 65536 else k.tokens }) m
  let visit := fun (m : Mod) => updGrp d g (fun k => { k with last := q }) m
  match injMsg d q m with
  | some (cn, x) =>
    let r := injectPacket d cn x.id ans none m
    if r.1 = 0 ∧ (injMsg d q r.2).isSome then (false, r.2)
    else (true, injEnd d q (visit (if r.1 = 0 then r.2 else spend counted r.2)))
  | none =>
    match nextEntry d q m with
    | none => (false, m)
    | some b =>
      let s := sq d q m
      let bst := if (grp d g m).last = q ∧ 0 < s.burst then s.burst
        else min (max 1 (min 64 (cur F.WQU_QCFG_Q_BURST d (qix 0 q) m))) s.left
      let m := updSq d q (fun s => { s with left := s.left - 1, burst := bst - 1 }) (visit m)
      let own := if entryLen b = 0 then 0 else counted
      (true, spend own (takeEntry d q b (fun e m => workOf e ans m) m))

/-- The turn's loop (R293). -/
def turnLoop (d g : Nat) (ans : HostAns) : Nat → List Nat → Bool → Mod → Mod
  | 0, _, _, m => m
  | n + 1, skip, fresh, m =>
    let m := (grpQueues d g m).foldl (fun m q => injEnd d q m) m
    match pickQueue d g skip m with
    | none =>
      if !fresh && (grpQueues d g m).any (fun q => !skip.contains q && (injMsg d q m).isNone && qReady d q m) then turnLoop d g ans n skip true (newRound d g m)
      else updGrp d g (fun k => { k with deficit := 0 }) m
    | some q =>
      let c := qCounted d g q m
      if (grp d g m).deficit < c ∨ (grpShaped d g m ∧ (grp d g m).tokens < c * 65536) then m
      else
        let r := serve d g q ans m
        turnLoop d g ans n (if r.1 then skip else q :: skip) false r.2

/-- The group is eligible: a packet is ready, and its tokens cover it. -/
def eligible (d g : Nat) (m : Mod) : Bool :=
  (grpQueues d g m).any (fun q => qReady d q m && (!grpShaped d g m || decide (qCounted d g q m * 65536 ≤ (grp d g m).tokens)))

/-- Packets and entries that one turn may handle at most. -/
def turnFuel : Nat := 4096

/-- GROUP_TURN: the queues' next descriptors, conduits and send records are sought first (R242, R289), then an eligible group has
its turn. -/
def groupTurn (d g : Nat) (ans : HostAns) (m : Mod) : Mod :=
  let m := accrue d g m
  let m := (grpQueues d g m).foldl (fun m q => prepare d q (injEnd d q m)) m
  if 1024 ≤ g ∨ !eligible d g m then m
  else turnLoop d g ans turnFuel [] false (updGrp d g (fun k => { k with deficit := k.deficit + grpQuantum d g m }) m)

/-- PACKET_INJECT: the next packet of a conduit that may start; a packet of a work entry needs its group's deficit and
tokens (R293). -/
def packetInject (d cn : Nat) (ans : HostAns) (m : Mod) : Mod :=
  match (cond d cn m).msgs.find? (fun g => packetReady d cn g m) with
  | none => if (cond d cn m).msgs.any (fun g => !g.all) then startFetch d cn m else m
  | some x =>
    match x.owner with
    | .queue q _ _ _ _ _ _ =>
      let g := cur F.WQU_QCFG_Q_GROUP d (qix 0 q) m
      let m := accrue d g m
      let c := nextLen d cn x m + grpOverhead d g m
      if (sq d q m).inj ≠ some (cn, x.id) ∨ (grp d g m).deficit < c ∨ (grpShaped d g m ∧ (grp d g m).tokens < c * 65536) then m
      else injEnd d q (serve d g q ans m).2
    | _ => (injectPacket d cn x.id ans none m).2

end Sys2Proof.Machine
end

