-- ==== Sys2Proof/Machine/Fence.lean ====
section
/-! DEFINITION. Publication of GEN, die-to-die links, and fencing of units, dies and the module (spec/01, R26 to R40;
spec/19, R500 to R504). -/
namespace Sys2Proof.Machine

/-! ## GEN (R40) -/

/-- GEN_DIE_STATE.DIEn. -/
def dieFld (n : Nat) : Fld :=
  match n with
  | 0 => F.GEN_DIE_STATE_DIE0
  | 1 => F.GEN_DIE_STATE_DIE1
  | 2 => F.GEN_DIE_STATE_DIE2
  | _ => F.GEN_DIE_STATE_DIE3

/-- A mask of the dies that satisfy `p`. -/
def dieMask (p : Nat → Bool) : Nat := ((dies.filter p).map (2 ^ ·)).sum

/-- ORDER (R1). -/
def orderOf (m : Mod) : Nat :=
  match popcount 4 m.conf.mask with
  | 4 => 0x40
  | 3 => 0x30
  | _ => 0x20

/-- Quad `q` of the module (0 to 63) is usable and its die ACTIVE. -/
def quadUsable (q : Nat) (m : Mod) : Bool :=
  dieActive (q / 16) m && !([UnitSt.fenced, UnitSt.unusable].contains (unitState (q / 16) (q % 16) m))

/-- A port that runs has fewer lanes than its quad gives it. -/
def lanesMissing (m : Mod) : Bool :=
  (List.range 128).any (fun pc => portExists pc m && pst pc m == 6 && decide (prd F.LNE_PORT_STATUS_WIDTH pc m < (portLanes pc m).length))

/-- DEGRADED. -/
def degraded (m : Mod) : Bool :=
  dies.any (fun d => fusedIn d m && (!dieUsable d m || macrosBad d m != 0
    || (List.range 16).any (fun u => [UnitSt.fenced, UnitSt.unusable].contains (unitState d u m)))) || lanesMissing m

/-- Links in service by the layout of GEN_D2D_STATUS: the Shepherd's in the low four bits. -/
def pairMask (m : Mod) : Nat := (((List.range 6).filter (fun i => NMap.get false m.d2d i)).map (2 ^ ·)).sum
def shepMask (m : Mod) : Nat := dieMask (fun d => d2dUp d 4 m)

/-- The configuration as endpoint `h` reports it. A DIEn field is held as its difference from its reset value, which is 1
for a die that is fused in. -/
def genAt (h : Nat) (m : Mod) : Mod :=
  let m := wr F.GEN_CONFIG_USABLE_MASK h 0 (dieMask (fun d => dieUsable d m)) m
  let m := each dies (fun n m => wr (dieFld n) h 0 (Nat.xor (dieState n m) (b2n (fusedIn n m))) m) m
  let m := wr F.GEN_BUF_PART_TRANSPORT_MIB h 0 (partOf h m) (wr F.GEN_BUF_PART_DROVER_MIB h 0 (16 - partOf h m) m)
  let m := wr F.GEN_QUAD_MASK_USABLE h 0 ((((List.range 64).filter (fun q => quadUsable q m)).map (2 ^ ·)).sum) m
  let m := wr F.GEN_D2D_STATUS_PAIR_UP h 0 (pairMask m) (wr F.GEN_D2D_STATUS_SHEP_UP h 0 (shepMask m) m)
  let m := wr F.GEN_MACRO_STATUS_MACROS_UNUSABLE h 0 (macrosBad h m) m
  wrB F.GEN_STATUS_DEGRADED h 0 (degraded m) (wr F.GEN_STATUS_CONFIG_SEQ h 0 (rd F.GEN_STATUS_CONFIG_SEQ h 0 m + 1) m)

/-- GEN_PUBLISH: every endpoint reports the configuration as it is now, and CONFIG_SEQ increments. -/
def genPublish (m : Mod) : Mod := each dies genAt m

/-- GEN_DIE_STATE.DIEn as endpoint `h` reads it. -/
def dieShown (n h : Nat) (m : Mod) : Nat := Nat.xor (rd (dieFld n) h 0 m) (b2n (fusedIn n m))

/-- GEN_DIE_STATE as endpoint `h` reads it. -/
def dieStates (h : Nat) (m : Mod) : Nat := (dies.map (fun n => dieShown n h m * 16 ^ n)).sum

/-- The Shepherd decides a die's state. -/
def setDie (d st : Nat) (m : Mod) : Mod := { m with dieSt := NMap.set 0 m.dieSt d st }

/-- Every unit of a die takes a state. -/
def setUnits (d st : Nat) (m : Mod) : Mod := each (List.range 28) (fun u m => setUnit d u st m) m

/-! ## The Shepherd regions (R73) -/

/-- The die whose Shepherd region mirrors the tables of `d`: the next usable one, W0 after W3; none where no other is
usable. -/
def mirrorDie (d : Nat) (m : Mod) : Option Nat := ([1, 2, 3].map (fun k => (d + k) % 4)).find? (fun x => dieUsable x m)

/-- The authoritative copy is written to the region of each usable die and to its mirror; a copy elsewhere is no mirror any
more. -/
def saveRegions (m : Mod) : Mod :=
  let own := dies.filter (fun d => dieUsable d m)
  let put := fun (l : NMap Tabs) (d : Nat) =>
    (d :: (mirrorDie d m).toList).foldl (fun l x => NMap.put l (x * 4 + d) (tabs 4 m)) l
  updShep (fun s => { s with region := own.foldl put (NMap.keep (fun k => !(own.contains (k % 4))) s.region) }) m

/-- The region of a die that returns from repair is rebuilt from its mirror (R77). -/
def rebuildRegion (d : Nat) (m : Mod) : Mod :=
  match (mirrorDie d m).bind (fun x => NMap.find m.shep.region (x * 4 + d)) with
  | some t => updShep (fun s => { s with region := NMap.put s.region (d * 4 + d) t }) m
  | none => m

/-! ## Slices (R511 to R513) -/

/-- Macros whose slices run on a die, and those to be taken again. -/
def slicesOf (d : Nat) (m : Mod) : List Nat := NMap.get [] m.bst.run d
def againOf (d : Nat) (m : Mod) : List Nat := NMap.get [] m.bst.again d
def setSlices (d : Nat) (run again : List Nat) (pos : Nat) (m : Mod) : Mod :=
  wrB F.BST_STATUS_RUNNING d 0 (!run.isEmpty) { m with bst := { m.bst with
    run := NMap.set [] m.bst.run d run, again := NMap.set [] m.bst.again d again, pos := NMap.set 0 m.bst.pos d pos } }

/-- The slices in progress on a die that leaves ACTIVE are abandoned, as those whose clock leaves its bounds (R513). -/
def slicesDrop (d : Nat) (m : Mod) : Mod :=
  (slicesOf d m).foldl (fun m k =>
    bump F.BST_CNT_ABORTED d 0 (setSlices d ((slicesOf d m).erase k) (againOf d m ++ [k]) (NMap.get 0 m.bst.pos d) m)) m

/-! ## A die leaves service (R38, R76) -/

/-- Exits of the crossbar on die `d`. -/
def onDie (d x : Nat) : Bool := dieOf x == d

/-- What the crossbar holds for ports, endpoint and Drover of the die is discarded. -/
def xbarPurge (d : Nat) (m : Mod) : Mod :=
  let mine := fun (k : Nat) => onDie d (k / 4)
  let drop := fun (l : NMap (List Flit)) (m : Mod) => (l.filter (fun e => mine e.1)).foldl (fun m e => e.2.foldl (fun m f => flitLeave f m) m) m
  let m := drop m.xb.outq (drop m.xb.inq m)
  updXb (fun y => { y with
    inq := NMap.keep (fun k => !mine k) y.inq, outq := NMap.keep (fun k => !mine k) y.outq
    dest := (NMap.keep (fun k => !mine k) y.dest).map (fun e => (e.1, e.2.filter (fun x => !onDie d x)))
    asm := NMap.keep (fun k => !onDie d (k % 256)) y.asm, held := NMap.del y.held d, tq := NMap.del y.tq d, dq := NMap.del y.dq d
    cache := NMap.keep (fun k => k / 2 ^ 20 != d) y.cache }) m

/-- The ports of a die go electrically idle. -/
def portsIdle (d : Nat) (m : Mod) : Mod := each (List.range 32) (fun p m => portDisable (32 * d + p) m) m

/-- The endpoint stops: nothing more leaves it, and its host sees no device. -/
def hostGone (d : Nat) (m : Mod) : Mod :=
  let m := ideDrop d 1 (ideDrop d 0 m)
  let mine := fun (k : Nat) => k / 2048 == d
  let h := m.hif
  let m := { m with hif := { h with
    bme := NMap.keep (fun k => !mine k) h.bme, d3 := NMap.keep (fun k => !mine k) h.d3, silent := NMap.keep (fun k => !mine k) h.silent
    ro := NMap.keep (fun k => !mine k) h.ro, half := NMap.keep (fun k => !mine k) h.half
    msix := NMap.keep (fun k => !mine (k / 2048)) h.msix, pba := NMap.keep (fun k => !mine (k / 2048)) h.pba
    tags := NMap.keep (fun k => k / 1024 != d) h.tags, waitQ := h.waitQ.filter (fun q => q.die != d)
    vfEn := NMap.keep (fun k => k / 2 != d) h.vfEn, numVf := NMap.keep (fun k => k / 2 != d) h.numVf
    devCtl := NMap.keep (fun k => k / 2 != d) h.devCtl, devCtl2 := NMap.keep (fun k => k / 2 != d) h.devCtl2
    bars := NMap.keep (fun k => k / 16 != d) h.bars, released := NMap.del h.released d } }
  let m := each [0, 1] (fun p m => wr F.HIF_LINK_STATUS_WIDTH d p 0 (wr F.HIF_LINK_STATUS_SPEED d p 0
    (wrB F.HIF_LINK_STATUS_L0P d p false (wrB F.HIF_STATUS_LINK_UP d p false m)))) m
  wrB F.HIF_CTRL_ENABLE d 0 false m

/-- The commands that wait for a die's test or return fail: DIE_RESTORE and DIE_ACTIVATE with RESTORE_FAILED, to which R90
gives `detail`; DIE_WAKE, for which it names no such status, with DIE_NOT_READY (DESIGN CHOICE). -/
def backFails (d detail : Nat) (m : Mod) : Mod :=
  (m.azx.jobs.filter (fun j => j.wait.backs d || j.wait == .dieTest d)).foldl (fun m j =>
    if j.cmd.op = 0x52 then endJob j St.dieNotReady 0 DieSt.fenced 0 m
    else endJob j St.restoreFailed detail DieSt.fenced 0 m) m

/-- A die that no longer takes part leaves the acknowledgement masks of running pushes (R76), a switch, and its own
restore or activation ends. -/
def dropFromJobs (d : Nat) (m : Mod) : Mod :=
  let m := backFails d 3 m
  let m := endJobs (fun w => match w with
    | .unitTest x _ => x == d | .unitBack x _ => x == d | .drain x _ => x == d | _ => false) St.dieNotReady 0 0 m
  updWaits (fun w => match w with
    | .push t wait acked => .push t (setBit wait d false) (setBit acked d false)
    | .frame f left => .frame f (setBit left d false)
    | w => w) m

/-- The static energy of an ACTIVE die up to now (R468). -/
def chargeDie (d : Nat) (m : Mod) : Mod :=
  let t := now d m
  let m := if dieActive d m then energy d 24 11 (t - NMap.get 0 m.tly.actSince d) m else m
  { m with tly := { m.tly with actSince := NMap.set 0 m.tly.actSince d t } }

/-- A conduit of a die that is fenced closes, trigger FENCED, without a CLOSE (R265, R266, R339). -/
def fenceCond (d cn : Nat) (m : Mod) : Mod :=
  let c := cond d cn m
  let m := if condState d cn m = CSt.closed then m else event d c.fn 0x0041 7 (leBytes 3 cn ++ zeros 5 ++ leBytes 8 c.userCtx) m
  dropCond d cn 7 St.conduitClosed 0 m

/-- FENCE_DIE and DIE_FENCE: a die in QUARANTINE, ACTIVE or SLEEP leaves service. It sends no CLOSE (R339). -/
def fenceDie (d : Nat) (m : Mod) : Mod :=
  if !hostUp d m then m
  else
    let m := (condsOf d m).foldl (fun m cn => fenceCond d cn m) (chargeDie d m)
    let m := hostGone d m
    let m := droverFence d m
    let m := portsIdle d m
    let m := xbarPurge d (slicesDrop d m)
    let m := setUnits d UnitSt.fenced (setDie d DieSt.fenced m)
    let m := updShep (fun s => { s with go := NMap.del s.go d, waits := NMap.del s.waits d, drain := NMap.del s.drain d, kept := NMap.del s.kept d }) m
    saveRegions (dropFromJobs d m)

/-! ## Which dies stay (R28) -/

/-- Sets of dies, larger first, then by their numbers in ascending order. -/
def dieSets : List (List Nat) :=
  [[0, 1, 2, 3], [0, 1, 2], [0, 1, 3], [0, 2, 3], [1, 2, 3], [0, 1], [0, 2], [0, 3], [1, 2], [1, 3], [2, 3], [0], [1], [2], [3]]

/-- Every two dies of a set are joined directly or through one of the set. -/
def joined (s : List Nat) (m : Mod) : Bool :=
  s.all (fun a => s.all (fun b => a == b || d2dUp a b m || s.any (fun i => i != a && i != b && d2dUp a i m && d2dUp i b m)))

/-- The set that stays in service. -/
def keepSet (m : Mod) : List Nat := (dieSets.find? (fun s => s.all (fun d => dieUp d m) && joined s m)).getD []

/-- The decision after a change of die-to-die link state: the dies outside the set are fenced. -/
def isolate (m : Mod) : Mod :=
  let out := dies.filter (fun d => dieUp d m && !(keepSet m).contains d)
  each out fenceDie m

/-- A die is fenced by a command, a fault or the loss of its Shepherd link; the dies that only it joined to the others
follow (R28, R29). -/
def fenceOut (d : Nat) (m : Mod) : Mod := isolate (fenceDie d m)

/-! ## Die-to-die links (R26, R177) -/

/-- A flock's crossing or a packet's: whether a path between dies uses the link of `a` and `b`. -/
def usesLink (a b : Nat) (l : List (Nat × Nat)) : Bool := l.any (fun e => e == (a, b) || e == (b, a))

/-- Packets whose open end lies beyond the link are ended with ABORT; answers how many.  The ABORT flits of a packet that entered
at a port count in that port's ABORTS: R151 gives the count to a port, and this packet has no other (DESIGN CHOICE). -/
def d2dCut (a b : Nat) (m : Mod) : Nat × Mod :=
  m.xb.dest.foldl (fun acc e =>
    let s := e.1 / 4
    let vc := e.1 % 4
    let beyond := e.2.filter (fun x => usesLink a b ((crossOf s x acc.2).getD []))
    if beyond.isEmpty then acc
    else
      let p := if s < 128 then ((link s acc.2).openRx.getD vc none).getD 0 else 0
      let f : Flit := { vc := vc, sop := false, eop := true, abort := true, data := zeros 1, pkt := p, fid := acc.2.xb.nextFid
                        res := if vc = 2 ∧ s < 128 then (link s acc.2).timRes else none, org := 0 }
      let m := updXb (fun y => { y with
        nextFid := y.nextFid + 1, refs := NMap.put y.refs f.fid beyond.length
        dest := NMap.put y.dest e.1 (e.2.filter (fun x => !beyond.contains x)) }) acc.2
      let m := if s < 128 then bumpBy F.LNK_CNT1_ABORTS (s / 32) (s % 32) beyond.length m else m
      (acc.1 + beyond.length, beyond.foldl (fun m x => putFlit x f m) m)) (0, m)

/-- The status register of the link of die `d` to `far` (4: the Shepherd). -/
def d2dIx (d far : Nat) : Nat := if far = 4 then d else far

/-- A link goes out of service; `failed`: for good (R26). LNK_D2D_STATUS has one count at each end and the spec does not
divide the packets between them: both ends show the packets of both directions that this failure ended (DESIGN CHOICE). -/
def d2dOut (a b lane : Nat) (failed : Bool) (m : Mod) : Mod :=
  if !d2dUp a b m then m
  else
    let c := d2dCut a b m
    let m := { c.2 with d2d := NMap.set false c.2.d2d (pairIx a b) false
                        d2dFail := if failed then NMap.set false c.2.d2dFail (pairIx a b) true else c.2.d2dFail }
    let ends := if b = 4 then [(a, 4)] else [(a, b), (b, a)]
    let m := ends.foldl (fun m e =>
      let i := d2dIx e.1 e.2
      let m := wrB F.LNK_D2D_STATUS_FAILED e.1 i true (wr F.LNK_D2D_STATUS_PKTS_DISCARDED e.1 i (min (2 ^ 32 - 1) c.1) m)
      if e.1 = a then wr F.LNK_D2D_STATUS_FIRST_LANE e.1 i lane m else m) m
    let m := later (.d2dDown a b) m
    if b = 4 then fenceOut a m else isolate m

/-- Data lanes of each direction of a link to die `b`, 4 being the Shepherd (R175). -/
def d2dLanes (b : Nat) : Nat := if b = 4 then 64 else 512

/-- D2D_PARITY_ERROR: die `a` finds a parity error on a lane of the link from `b` (4: the Shepherd). -/
def d2dParity (a b lane : Nat) (m : Mod) : Mod :=
  if a = b ∨ 4 ≤ a ∨ 5 ≤ b ∨ d2dLanes b ≤ lane ∨ !d2dUp a b m then m
  else raise a 22 16 0 (b + 256 * (lane % 512)) none (d2dOut a b lane true m)

/-! ## Units (R500 to R502) -/

/-- A quad is fenced. -/
def quadIdle (d q : Nat) (m : Mod) : Mod := portDisable (32 * d + 2 * q + 1) (portDisable (32 * d + 2 * q) m)

/-- FENCE_UNIT: a unit that is ACTIVE or in QUARANTINE is absent (R501 names no change from SLEEP to FENCED). For unit 22 only the link
that DETAIL names is fenced, one after another (R500). -/
def fenceUnit (d u detail : Nat) (m : Mod) : Mod :=
  let link := detail % 8
  let m := if u = 22 ∧ dieUp d m ∧ link < 4 ∧ link ≠ d then d2dOut d link 0 false m else m
  if !dieUp d m || !([UnitSt.active, UnitSt.quarantine].contains (unitState d u m)) then m
  else
    let m := if u < 16 then quadIdle d u m else if u = 21 then droverFence d m else m
    endJobs (fun w => w == .unitBack d u) St.ok 0 UnitSt.fenced (setUnit d u UnitSt.fenced m)

/-! ## The module (R504) -/

/-- The crash area receives every open record. -/
def crashWrite (m : Mod) : Mod :=
  { m with flash := { m.flash with crash := (m.flt.log.filter FaultRec.isOpen).map (fun r => { r with crash := true }) } }

/-- STOP_MODULE: every worker die that R72 lets be fenced is, the open records go to the crash area, and no command in
progress completes. A die still in BOOTING, which R72 takes to QUARANTINE and UNUSABLE alone, goes no further. -/
def stopModule (m : Mod) : Mod :=
  let m := updAzx (fun a => { a with jobs := [], mgmtQ := [] }) m
  let m := each dies fenceDie m
  crashWrite { m with flt := { m.flt with stopped := true }, pin := { m.pin with ready := false } }

/-- One reaction that has fallen due (R493); a fence already in effect is not repeated. -/
def react (x : Due) (m : Mod) : Mod :=
  match x with
  | .stop => if m.flt.stopped then m else stopModule m
  | .fenceDie d => fenceOut d m
  | .fenceUnit d u detail => fenceUnit d u detail m

/-- When several fall due together, STOP_MODULE comes before FENCE_DIE, and that before FENCE_UNIT. -/
def dueRank : Due → Nat
  | .stop => 0
  | .fenceDie _ => 1
  | .fenceUnit _ _ _ => 2

/-- Carry out the reactions that have fallen due, and those that they cause. -/
def reactAll : Nat → Mod → Mod
  | 0, m => m
  | n + 1, m =>
    match m.flt.due with
    | [] => m
    | l =>
      let next := (l.find? (fun x => dueRank x == 0)).orElse (fun _ => (l.find? (fun x => dueRank x == 1)).orElse (fun _ => l.head?))
      match next with
      | none => m
      | some x => reactAll n (react x { m with flt := { m.flt with due := m.flt.due.erase x } })

end Sys2Proof.Machine
end

