-- ==== Sys2Proof/Machine/FuncReset.lean ====
section
/-! DEFINITION. Bus Master Enable, D3hot, function level reset, links of the hosts, SR-IOV and completions (spec/02,
R42 to R64; spec/22, R565). -/
namespace Sys2Proof.Machine

/-- Change the endpoints' records. -/
def updHif (f : Hif → Hif) (m : Mod) : Mod := { m with hif := f m.hif }

def setBme (d f : Nat) (b : Bool) (m : Mod) : Mod := updHif (fun h => { h with bme := NMap.set false h.bme (fk d f) b }) m
def setD3 (d f : Nat) (b : Bool) (m : Mod) : Mod := updHif (fun h => { h with d3 := NMap.set false h.d3 (fk d f) b }) m
def setSilent (d f : Nat) (b : Bool) (m : Mod) : Mod := updHif (fun h => { h with silent := NMap.set false h.silent (fk d f) b }) m
def fnSilent (d f : Nat) (m : Mod) : Bool := NMap.get false m.hif.silent (fk d f)

/-! ## Requests stop (R46, R59) -/

/-- Every send queue and completion ring of the function is HALTED, cause BUS_MASTER. -/
def haltRings (d f : Nat) (m : Mod) : Mod :=
  let m := each (queuesOf d 0 f m) (fun q m => haltQueue d q 1 m) m
  each (queuesOf d 1 f m) (fun r m => if qState d 1 r m = QSt.disabled then m else setQState d 1 r QSt.halted m) m

/-- The function issues no new request. -/
def stopRequests (d f : Nat) (m : Mod) : Mod :=
  startDrain d f (seqsStop d f RaDet.fnNotReady (locksDiscard d f RaDet.fnNotReady (slotsWithdraw d f (haltRings d f m))))

/-- BUS_MASTER_ENABLE_CLEAR (R59). -/
def bmeClear (d f : Nat) (m : Mod) : Mod :=
  if cfgReaches d f m && bme d f m then setBme d f false (stopRequests d f m) else m

/-- D3HOT_ENTRY (R46, R47). -/
def d3Enter (d f : Nat) (m : Mod) : Mod :=
  if !fnExists d f m || inD3 d f m || fnState d f m == FnSt.resetting then m
  else
    let st := fnState d f m
    let m := setD3 d f true (stopRequests d f m)
    if st = FnSt.disabled ∨ st = FnSt.halted then setFn d f FnSt.d3hot m else m

/-! ## Function level reset (R61 to R64) -/

/-- The functions that a reset of `f` reaches: a PF's VFs with it (R64). -/
def flrScope (d f : Nat) (m : Mod) : List Nat :=
  if isPf d f m then f :: (vfsOf d (pfOf d f m) m) else [f]

/-- The functions in RESETTING of the scope of `f`, whether or not they still exist. -/
def resettingOf (d f : Nat) (m : Mod) : List Nat :=
  (if isPf d f m then allFns.filter (fun g => pfOf d g m == pfOf d f m) else [f]).filter (fun g => fnState d g m == FnSt.resetting)

/-- The queues and rings of a function return to reset; taken entries are forgotten. -/
def resetQueues (d f : Nat) (m : Mod) : Mod :=
  let m := each (queuesOf d 0 f m) (fun q m => queueReset d 0 q m) m
  let m := each (queuesOf d 1 f m) (fun r m => queueReset d 1 r m) m
  clearRegs (fun r e i =>
    [F.WQU_QBASE_ADDR.reg, F.WQU_QCFG_Q_LOG2.reg, F.WQU_QCFG_R_LOG2.reg, F.WQU_QSTATE_STATE.reg].contains r && e == d
      && decide (i < 131072) && qOwner d (i % 65536) m == f) m

/-- One function enters RESETTING: no doorbell, no fetch, no new request. -/
def flrBegin (d f : Nat) (m : Mod) : Mod :=
  let m := muteJobs (d, f) (force F.AZX_CTRL_ENABLE d f 0 m)
  let m := resetQueues d f m
  setSilent d f false (setD3 d f false (setBme d f false (setFn d f FnSt.resetting m)))

/-- VF Enable of a PF is cleared. -/
def clearVfEn (d p : Nat) (m : Mod) : Mod :=
  updHif (fun h => { h with vfEn := NMap.set false h.vfEn (d * 2 + p) false, numVf := NMap.set 0 h.numVf (d * 2 + p) 0 }) m

/-- FLR_INITIATE. -/
def flrInitiate (d f : Nat) (m : Mod) : Mod :=
  if fnExists d f m then
    let n := each (flrScope d f m) (fun g m => flrBegin d g m) m
    if isPf d f m then clearVfEn d (pfOf d f m) n else n
  else m

/-- The function's outstanding tags go to quarantine, and its waiting requests are dropped (R62). -/
def quarantineTags (d f : Nat) (m : Mod) : Mod :=
  updHif (fun h => { h with
    tags := h.tags.map (fun e => if e.1 / 1024 == d && e.2.fn == f then (e.1, { e.2 with quar := true, work := .discard }) else e)
    waitQ := h.waitQ.filter (fun q => !(q.die == d && q.fn == f)) }) m

/-- The domains of a function. -/
def domsOf (d f : Nat) (m : Mod) : List Nat := (List.range 4096).filter (fun n => domState d n m != 0 && domFn d n m == f)

/-- Packets held at the far bridge for pages of `f`, or about to resume from there, are acknowledged REMOTE_ACCESS. -/
def holdsRefuse (d f detail : Nat) (m : Mod) : Mod :=
  let mine := fun (h : Hold) => h.die == d && h.fn == f
  let res := NMap.get [] m.trn.resume d
  let l := (m.trn.hold.filter mine).map (fun h => (h.cn, h.pkt)) ++ res.filter (fun e => (cond d e.1 m).fn == f)
  let m := updTrn (fun t => { t with
    hold := t.hold.filter (fun h => !mine h), resume := NMap.set [] t.resume d (res.filter (fun e => (cond d e.1 m).fn != f)) }) m
  l.foldl (fun m e => sendAck d e.1 e.1 e.2 St.remoteAccess detail false none m) m

/-- The answers that the conduits of `f` still owe for operations accepted before: grants and atomic responses as they are, a GET
response ended with REMOTE_ACCESS (R267). -/
def answerNow (d f detail : Nat) (m : Mod) : Mod :=
  ((condsOf d m).filter (fun cn => (cond d cn m).fn == f && condState d cn m != CSt.closed)).foldl (fun m cn =>
    ((cond d cn m).msgs.filter (fun g => [Op.lockGrant, Op.atomicRsp, Op.getRsp].contains g.op && !g.all)).foldl (fun m g =>
      (injectPacket d cn g.id [] (if g.op = Op.getRsp then some (St.remoteAccess, detail) else none) m).2) m) m

/-- One function is silent.  What it had accepted is answered REMOTE_ACCESS before its conduits close (R267). -/
def flrSilent (d f : Nat) (m : Mod) : Mod :=
  let m := slotsWithdraw d f (quarantineTags d f m)
  let m := seqsStop d f RaDet.fnReset (locksDiscard d f RaDet.fnReset (holdsRefuse d f RaDet.fnReset m))
  let m := answerNow d f RaDet.fnReset m
  let m := closeFn d f St.conduitClosed m
  let m := postsDrop d f (droverFlr d f m)
  let m := each (domsOf d f m) (fun n m => domainDisable d n false m) m
  setSilent d f true m

/-- FLR_SILENCE. -/
def flrSilence (d f : Nat) (m : Mod) : Mod :=
  each ((resettingOf d f m).filter (fun g => !fnSilent d g m)) (fun g m => flrSilent d g m) m

/-- The contexts a function owns by XLT_CTX_CFG.FN, in use or not, and its regions. -/
def ctxsOf (d f : Nat) (m : Mod) : List Nat := (List.range 4096).filter (fun c => cur F.XLT_CTX_CFG_FN d c m == f)
def regionsOf (d f : Nat) (m : Mod) : List Nat := ((regions d m).filter (fun r => r.fn == f && (!r.anyFn || f == 0))).map Region.num

/-- Registers of one element return to reset: those of the numbers in `l` of registers between two offsets. -/
def resetElems (d lo hi : Nat) (l : List Nat) (m : Mod) : Mod :=
  clearRegs (fun r e i => decide (lo ≤ r ∧ r < hi) && e == d && l.contains i) m

/-- The regions that a reset of `f` returns to reset values: a VF's own; of a PF all that its functions own (R444), disabled
ones included. -/
def resetRegions (d f : Nat) (m : Mod) : List Nat :=
  if isPf d f m then
    (List.range 1024).filter (fun r => pfOf d (if curB F.ACP_RCTL_ANY_FN d r m then 0 else cur F.ACP_RCTL_FN d r m) m == pfOf d f m)
  else regionsOf d f m

/-- The PF's windows: both sets and every register return to reset (R61, R454). -/
def resetWindows (d f : Nat) (m : Mod) : Mod :=
  if isPf d f m then
    let p := pfOf d f m
    let ws := (List.range 256).filter (fun w => winPf d w m == p)
    updTrn (fun t => { t with win := NMap.keep (fun k => k / 256 != d || !ws.contains (k % 256)) t.win
                              strict := NMap.keep (fun k => k / 256 != d || !ws.contains (k % 256)) t.strict })
      (resetElems d F.PWN_WIN_BASE_OFFSET.reg (F.PWN_WIN_STATUS_ACTIVE.reg + 8) ws m)
  else m

/-- A PF's configuration space returns to reset; a function level reset leaves Max Payload Size and the BAR4 size as they are
(PRESUMED: PCI Express Base 6.0). Its IDE streams end, and their address associations are gone. -/
def cfgReset (d p : Nat) (m : Mod) : Mod :=
  updHif (fun h => { h with
    devCtl := NMap.set 0x2000 h.devCtl (d * 2 + p) (0x2000 + bits (devCtl d p m) 5 3 * 32), devCtl2 := NMap.del h.devCtl2 (d * 2 + p)
    bars := NMap.keep (fun k => k / 8 != d * 2 + p) h.bars }) (ideDrop d p m)

/-- One function's state returns to reset values. -/
def flrEnd (d f : Nat) (m : Mod) : Mod :=
  let cs := ctxsOf d f m
  let x := xlt d m
  let m := setXlt d { x with tlb := x.tlb.filter (fun e => !cs.contains e.ctx), walk := x.walk.filter (fun e => !cs.contains e.ctx) } m
  let m := resetQueues d f m
  let m := resetElems d F.XLT_CTX_ROOT_ROOT.reg (F.XLT_CTX_CFG_ENABLE.reg + 8) cs m
  let m := resetElems d F.XLT_INV_ADDR_VA.reg (F.XLT_LOCK_CMD_GO.reg + 8) [f] m
  let m := resetElems d F.WQU_QSEL_NUMBER.reg (F.WQU_QSEL_NUMBER.reg + 8) [f] m
  let m := resetElems d F.WQU_EVR_BASE_ADDR.reg (F.WQU_EVR_STATUS_TAIL.reg + 8) [f] m
  let m := { m with evr := NMap.del m.evr (fk d f) }
  let m := resetElems d F.AZX_CTRL_ENABLE.reg (F.AZX_RSP_HEAD_INDEX.reg + 4) [f] m
  let m := updAzx (fun a => { a with phase := NMap.del a.phase (fk d f) }) m
  let m := resetElems d F.ACP_RSTART_START.reg (F.ACP_RSTART_START.reg + 0x20) (resetRegions d f m) m
  let m := resetWindows d f m
  let m := updHif (fun h => { h with
    msix := NMap.keep (fun k => k / 2048 != fk d f) h.msix, pba := NMap.keep (fun k => k / 2048 != fk d f) h.pba
    ro := NMap.del h.ro (fk d f), half := NMap.del h.half (fk d f), silent := NMap.del h.silent (fk d f) }) m
  let m := when (isPf d f m) (cfgReset d (pfOf d f m)) m
  setFn d f FnSt.disabled m

/-- FLR_COMPLETE. -/
def flrComplete (d f : Nat) (m : Mod) : Mod :=
  each ((resettingOf d f m).filter (fun g => fnSilent d g m)) (fun g m => flrEnd d g m) m

/-- D3HOT_EXIT: the return to D0 is a function level reset (R46). -/
def d3Exit (d f : Nat) (m : Mod) : Mod := if inD3 d f m then flrInitiate d f m else m

/-- VF_DISABLE: every VF of the PF enters RESETTING. -/
def vfDisable (d p : Nat) (m : Mod) : Mod :=
  if cfgReaches d (pfFn p) m then clearVfEn d p (each (vfsOf d p m) (fun g m => flrBegin d g m) m) else m

/-- BAR4_RESIZE: log2 of the new size, 30 to 40 (R49). -/
def bar4Resize (d p n : Nat) (m : Mod) : Mod :=
  if 30 ≤ n ∧ n ≤ 40 ∧ cfgReaches d (pfFn p) m then windowsOff d p (updHif (fun h => { h with bar4 := NMap.set 30 h.bar4 (d * 2 + p) n }) m) else m

/-! ## Host links (R42, R561, R565) -/

/-- The widths of link `p` (0 link A, 1 link B): x16 where the die is not split, else x8 (R41, R43). -/
def linkWidths (d p : Nat) (m : Mod) : List Nat :=
  if bifurcated d m then [1, 2, 4, 8] else if p = 0 then [1, 2, 4, 8, 16] else []

/-- HOST_LINK_UP: a released link trains at a width and speed (R41). Of a link that is up at the speed, fewer lanes than
negotiated stand for L0p, and the negotiated width for its end (DESIGN CHOICE: the table has no row for L0p). -/
def hostLinkUp (d p width speed : Nat) (m : Mod) : Mod :=
  if hostUp d m && dieState d m != DieSt.sleep && NMap.get false m.hif.released d && !NMap.get false m.hif.perst d
      && (linkWidths d p m).contains width && [4, 5, 6].contains speed then
    if rdB F.HIF_STATUS_LINK_UP d p m && rd F.HIF_LINK_STATUS_SPEED d p m == speed && decide (width ≤ rd F.HIF_LINK_STATUS_WIDTH d p m) then
      wrB F.HIF_LINK_STATUS_L0P d p (decide (width < rd F.HIF_LINK_STATUS_WIDTH d p m)) m
    else wrB F.HIF_STATUS_LINK_UP d p true (wrB F.HIF_LINK_STATUS_L0P d p false
      (wr F.HIF_LINK_STATUS_WIDTH d p width (wr F.HIF_LINK_STATUS_SPEED d p speed m)))
  else m

/-- HOST_LINK_DOWN of one link: each fails independently of the other (R43). -/
def hostLinkDown (d p : Nat) (m : Mod) : Mod :=
  wrB F.HIF_STATUS_LINK_UP d p false (wrB F.HIF_LINK_STATUS_L0P d p false
    (wr F.HIF_LINK_STATUS_WIDTH d p 0 (wr F.HIF_LINK_STATUS_SPEED d p 0 m)))

/-- Both links of a die go down. -/
def hostLinksDown (d : Nat) (m : Mod) : Mod := hostLinkDown d 1 (hostLinkDown d 0 m)

/-- PERST_ASSERT: the links go down, and every function undergoes a function level reset. -/
def perstAssert (d : Nat) (m : Mod) : Mod :=
  let m := hostLinksDown d (updHif (fun h => { h with perst := NMap.set false h.perst d true }) m)
  each ((liveFns d m).filter (fun f => isPf d f m)) (fun f m => flrInitiate d f m) m

/-- PERST_RELEASE: the link may train again. -/
def perstRelease (d : Nat) (m : Mod) : Mod := updHif (fun h => { h with perst := NMap.set false h.perst d false }) m

/-! ## Completions (R55, R62) -/

/-- The work of a read gets its data, or none. -/
def workDone (d : Nat) (w : Work) (data : Option Bytes) (m : Mod) : Mod :=
  match w with
  | .discard => m
  | .exclusive n => seqRead n data m
  | .fetch q idx n =>
    (List.range n).foldl (fun m i => fetchDone d q ((idx + i) % sqSize d q m) (data.map (fun b => sub b (64 * i) 64)) m) m

/-- HOST_COMPLETION_RECEIVED: status 0 is success; any other fails the work. -/
def hostCompletion (d tag status : Nat) (data : Bytes) (m : Mod) : Mod :=
  match tagOf d tag m with
  | none => bump F.HIF_CPL_ERR_UNEXPECTED d 0 m
  | some g =>
    if g.quar then bump F.HIF_CPL_ERR_LATE_QUARANTINED d 0 m
    else
      let m := count d 416 data.length (energy d 17 7 ((data.length + 255) / 256) (freeTagNow d tag m))
      workDone d g.work (if status = 0 then some data else none) m

/-- COMPLETION_TIMEOUT. -/
def completionTimeout (d tag : Nat) (m : Mod) : Mod :=
  match tagOf d tag m with
  | none => m
  | some g => if g.quar then m else count d 421 1 (workDone d g.work none (freeTagNow d tag m))

/-- TAG_QUARANTINE_EXPIRY. -/
def quarantineExpiry (d tag : Nat) (m : Mod) : Mod :=
  match tagOf d tag m with
  | none => m
  | some g => if g.quar then freeTagNow d tag m else m

end Sys2Proof.Machine
end

