-- ==== Sys2Proof/Machine/Shepherd.lean ====
section
/-! DEFINITION. The Shepherd: boot, die states and the return procedure (spec/03, R66 to R79, R569), sleep and module
states (spec/18, R483 to R489), self-test (spec/19, R509 to R517), reset and supplies (spec/22, R557 to R566). -/
namespace Sys2Proof.Machine

/-! ## Tables (R74) -/

/-- Key of a table's authoritative generation: one for each die of a table that a die has to itself (pastures, programs,
buffer partition), one for the module otherwise. -/
def genKey (t d : Nat) : Nat := if [6, 7, 9].contains t then t + 16 * (d + 1) else t

/-- The authoritative generation of table `t` of die `d`, and the one that the die holds. -/
def genNow (t d : Nat) (m : Mod) : Nat := NMap.get 0 (tabs 4 m).gen (genKey t d)
def genOf (t d : Nat) (m : Mod) : Nat := NMap.get 0 (tabs d m).gen t

/-- A load increments the authoritative generation; the dies' Shepherd regions receive the authoritative copy. -/
def genBump (t d : Nat) (m : Mod) : Mod :=
  saveRegions (updTabs 4 (fun x => { x with gen := NMap.set 0 x.gen (genKey t d) ((NMap.get 0 x.gen (genKey t d) + 1) % 2 ^ 32) }) m)

/-- The generations that a die reports. -/
def showGens (d : Nat) (m : Mod) : Mod :=
  let m := wr F.RTE_GEN_PATH_GEN d 0 (genOf 0 d m) (wr F.RTE_GEN_PASS_GEN d 0 (genOf 1 d m) (wr F.RTE_GEN_FLOCK_GEN d 0 (genOf 2 d m) m))
  let m := wr F.CAL_GEN_SHADOW_GEN d 0 (genOf 3 d m) (wr F.CAL_GEN_ACTIVE_GEN d 0 (genOf 4 d m) m)
  wr F.CAL_GEN_RES_GEN d 0 (genOf 5 d m) (wr F.DRV_GEN_GEN d 0 (genOf 6 d m) m)

/-- The keys of pastures that the die's endpoint holds come to its transport engine; a key replaced is still accepted, and
the counter of a new key starts at 0 (R263, R264). -/
def pushKeys (d : Nat) (m : Mod) : Mod :=
  let own := fun (p : Nat) => (NMap.find (tabs d m).past (d * 65536 + p)).isSome
  let auth := (m.keys.filter (fun e => e.1 / 65536 == 4 && own (e.1 % 65536)))
  let keep := NMap.keep (fun k => !(k / 65536 == d && (NMap.find m.keys (4 * 65536 + k % 65536)).isNone)) m.keys
  let same := fun (e : Nat × PKey) => match NMap.find m.keys (d * 65536 + e.1 % 65536) with | some o => o.gen == e.2.gen | none => false
  let m := { m with trn := { m.trn with ctr := auth.foldl (fun l e => if same e then l else NMap.del l (d * 65536 + e.1 % 65536)) m.trn.ctr } }
  { m with keys := auth.foldl (fun l e =>
      let k := d * 65536 + e.1 % 65536
      match NMap.find l k with
      | some o => if o.gen = e.2.gen then l else NMap.put l k { key := e.2.key, gen := e.2.gen, old := some o.key }
      | none => NMap.put l k { key := e.2.key, gen := e.2.gen, old := none }) keep }

/-- The entries of a table of ports that are die `d`'s, those of the others kept. -/
def takePorts {α : Type} (d : Nat) (auth own : NMap α) : NMap α :=
  (NMap.keep (fun k => k / 32 == d) auth).foldl (fun l e => NMap.put l e.1 e.2) (NMap.keep (fun k => k / 32 != d) own)

/-- The buffer partition of a die (R22, R23), which GEN shows from the next publication on (R40); its transport buffer has
4,096 flit buffers per MiB (R326). -/
def setPartition (d mib : Nat) (m : Mod) : Mod :=
  wr F.RMA_TB_STATUS_TOTAL d 0 (4096 * mib) (updTabs d (fun t => { t with part := NMap.set 12 t.part d mib }) m)

/-- The working copy of table `t` of die `d` becomes the authoritative one; cached records of it are dropped (R192). -/
def pushTable (t d : Nat) (m : Mod) : Mod :=
  let a := tabs 4 m
  let m := count 4 3 1 m
  let m := match t with
    | 0 => updXb (fun y => { y with cache := NMap.keep (fun k => k / 2 ^ 20 != d) y.cache }) (updTabs d (fun x => { x with path := a.path }) m)
    | 1 => updTabs d (fun x => { x with pass := a.pass }) m
    | 2 => updTabs d (fun x => { x with flock := a.flock }) m
    | 3 => updTabs d (fun x => { x with calS := takePorts d a.calS x.calS }) m
    | 4 => updTabs d (fun x => { x with calA := takePorts d a.calA x.calA }) m
    | 5 => resTake d a.res m
    | 6 => droverTable d (updTabs d (fun x => { x with drv := NMap.keep (fun k => k / 256 == d) a.drv }) m)
    | 7 =>
      let m := updTabs d (fun x => { x with past := NMap.keep (fun k => k / 65536 == d) a.past }) m
      { m with keys := NMap.keep (fun k => k / 65536 != d || (NMap.find (tabs d m).past k).isSome) m.keys }
    | 8 => pushKeys d m
    | 9 => setPartition d (NMap.get 12 a.part d) m
    | 10 => wr F.TLY_BUDGET_BUDGET d 0 m.tly.budget m
    | _ => m
  showGens d (updTabs d (fun x => { x with gen := NMap.set 0 x.gen t (genNow t d m) }) m)

/-- Every table. -/
def tables : List Nat := [0, 1, 2, 3, 4, 5, 6, 7, 8, 9, 10]

/-! ## Readiness (R71) -/

/-- Every die that is fused in has settled. -/
def settled (m : Mod) : Bool :=
  dies.all (fun d => !fusedIn d m || dieActive d m || dieState d m == DieSt.unusable
    || (dieState d m == DieSt.quarantine && bit m.flash.hold d))

/-- Readiness is signalled, once for each start. -/
def signalReady (m : Mod) : Mod :=
  if m.shep.booted && !m.pin.ready && !m.flt.stopped && settled m then
    emit (.mgmt 1 []) { m with pin := { m.pin with ready := true, sig := true } }
  else m

/-! ## A die's engines -/

/-- The counter of a die takes the Shepherd's count (R77, R114): it is stepped where it is more than 10 ns off. -/
def dieTime (d : Nat) (m : Mod) : Mod :=
  let s := clock 4 m
  let c := clock d m
  let off := ((c.count : Int) - s.count).natAbs
  if c.run ∧ off ≤ 10 * 2 ^ 40 then m
  else later (.stepped d) (smpStepped d (count d 674 1 (setClock d { c.stepTo s.count with run := true } m)))

/-- The units of a die enter QUARANTINE, those found bad at their tests UNUSABLE; from an absence the counters restart
(R543). -/
def unitsBack (d : Nat) (restart : Bool) (m : Mod) : Mod :=
  let m := setUnits d UnitSt.quarantine m
  let m := each (List.range 28) (fun u m => if NMap.get false m.bst.badUnit (d * 32 + u) then setUnit d u UnitSt.unusable m else m) m
  if restart then restartCounters d 0 704 m else m

/-- The quads, links and the crossbar slice of a die are put in service. -/
def portsOn (d : Nat) (m : Mod) : Mod :=
  let m := each (List.range 16) (fun q m =>
    if unitUp d q m then
      let m := quadEnable d q (force F.LNE_QCTRL_ENABLE d q 0 m)
      each (quadPorts d q m) (fun pc m => linkEnable pc m) m
    else m) m
  force F.RTE_CTRL_ENABLE d 0 1 m

/-- A die enters QUARANTINE (R72). -/
def enterQuarantine (d : Nat) (restart : Bool) (m : Mod) : Mod :=
  let m := unitsBack d restart (setDie d DieSt.quarantine m)
  let m := portsOn d m
  { m with hif := { m.hif with released := NMap.set false m.hif.released d true } }

/-- The blocks that the Shepherd enables when a die becomes ACTIVE. -/
def blockEnables : List Fld :=
  [F.HIF_CTRL_ENABLE, F.CAL_CTRL_ENABLE, F.CND_CTRL_ENABLE, F.WQU_CTRL_ENABLE, F.RMA_CTRL_ENABLE, F.CRK_CTRL_ENABLE
   , F.MTC_CTRL_ENABLE, F.DRV_CTRL_ENABLE, F.RDU_CTRL_ENABLE, F.XLT_CTRL_ENABLE, F.ACP_CTRL_ENABLE, F.PWN_CTRL_ENABLE
   , F.TLY_CTRL_ENABLE, F.FLT_CTRL_ENABLE]

/-- A die enters ACTIVE: its blocks are in service, self-test runs, function 0 may hold conduits, and causes that last
until the return have ended (R495); a unit still UNUSABLE has not returned (DEDUCED). -/
def enterActive (d : Nat) (m : Mod) : Mod :=
  let m := setDie d DieSt.active m
  let m := each (List.range 28) (fun u m =>
    if unitState d u m = UnitSt.quarantine then unitReturned d u (setUnit d u UnitSt.active m) else causeEnd d u endsOnDie m) m
  let m := blockEnables.foldl (fun m f => wr f d 0 1 m) m
  let m := cndFnEnable d 0 true (force F.BST_CTRL_ENABLE d 0 1 m)
  { m with tly := { m.tly with actSince := NMap.set 0 m.tly.actSince d (now d m) } }

/-- What a die's caches hold is invalidated (R77). -/
def dropCaches (d : Nat) (m : Mod) : Mod :=
  let m := (residents d m).foldl (fun m cn => saveCond d cn (updCond d cn (fun c => { c with resident := false, fetching := false }) m)) m
  let m := setXlt d Xlt.reset (updXb (fun y => { y with cache := NMap.keep (fun k => k / 2 ^ 20 != d) y.cache }) m)
  let m := each ((m.trn.sq.filter (fun e => e.1 / 65536 == d)).map (fun e => e.1 % 65536)) (fun q m => updSq d q (fun s => { s with slots := [] }) m) m
  showSlots d (showCache d m)

/-- Entries of a table by die whose numbers count `n` to a die are dropped. -/
def dropOf {α : Type} (d n : Nat) (l : NMap α) : NMap α := NMap.keep (fun k => k / n != d) l

/-- Everything a die holds in SRAM and context memory is gone: its registers (all but GEN, Tally, faults and self-test)
return to reset, its engines are empty. -/
def dieWipe (d : Nat) (m : Mod) : Mod :=
  let m := clearRegs (fun r e _ => e == d && (decide (0x100000 ≤ r ∧ r < 0x1300000) || decide (0x1600000 ≤ r))) m
  let t := m.trn
  let t := { t with
    cond := dropOf d (2 ^ 24) t.cond, pen := dropOf d 1 t.pen, resume := dropOf d 1 t.resume, gate := dropOf d 2048 t.gate
    trk := dropOf d 4096 t.trk, run := dropOf d 16384 t.run, locks := dropOf d 1 t.locks, slot := dropOf d 64 t.slot
    dom := dropOf d 4096 t.dom, mmsg := t.mmsg.filter (fun e => e.2.cn / 2 ^ 24 != d), full := dropOf d 1 t.full
    sq := dropOf d 65536 t.sq, cr := dropOf d 65536 t.cr, grp := dropOf d 1024 t.grp, win := dropOf d 256 t.win
    bar4 := t.bar4.filter (fun b => b.die != d), hold := t.hold.filter (fun h => h.die != d), seqs := t.seqs.filter (fun s => s.die != d)
    mir := dropOf d 64 t.mir, strict := dropOf d 256 t.strict, pwSig := dropOf d 1 t.pwSig, auth := dropOf d 1 t.auth, ctr := dropOf d 65536 t.ctr }
  let m := { m with
    trn := t, lp := dropOf d 32 m.lp, lane := dropOf d 64 m.lane, lnk := dropOf d 32 m.lnk, tabs := NMap.del m.tabs d, evr := dropOf d 2048 m.evr
    xlt := dropOf d 1 m.xlt, drv := { run := dropOf d 256 m.drv.run, gap := dropOf d 1 m.drv.gap }, pool := dropOf d (2 ^ 40) m.pool
    smp := dropOf d 1 m.smp, keys := dropOf d 65536 m.keys, tm := { m.tm with ports := dropOf d 32 m.tm.ports }
    azx := { m.azx with phase := dropOf d 2048 m.azx.phase, broken := dropOf d 2048 m.azx.broken }
    shep := { m.shep with region := dropOf d 4 m.shep.region } }
  { m with hif := { m.hif with bar4 := NMap.keep (fun k => k / 2 != d) m.hif.bar4 } }

/-! ## Cold start (R68, R69, R557) -/

/-- Module reset: everything but the flash, the fuses and what the factory fixed returns to reset; every die that is fused in
is BOOTING (R72). -/
def moduleReset (m : Mod) : Mod :=
  { Mod.reset with dieSt := (dies.filter (fun d => fusedIn d m)).map (fun d => (d, DieSt.booting)), flash := m.flash, conf := m.conf, out := m.out, free := m.free, hif := { Hif.reset with perst := m.hif.perst } }

/-- The pass map is used: present, whole, and written by the same firmware version (R69). -/
def mapFor (fw : Nat) (m : Mod) : Option PassMap := m.flash.passMap.filter (fun p => p.intact && p.fw == fw)

/-- The crash records enter the log as its lowest numbers, CLOSED, and leave the flash (R504). -/
def loadCrash (m : Mod) : Mod :=
  let l := (List.range m.flash.crash.length).zip m.flash.crash
  { m with flt := { m.flt with
              log := (l.map (fun e => { e.2 with seq := e.1, isOpen := false, crash := true })).reverse, nextSeq := l.length }
           flash := { m.flash with crash := [] } }

/-- What a pass map records of a die enters the boot: units and macros recorded as failed are not tested. -/
def useMap (p : PassMap) (d : Nat) (m : Mod) : Mod :=
  let m := wrB F.BST_BOOT_MAP_USED d 0 true m
  match NMap.find p.dies d with
  | none => m
  | some x =>
    if !x.tested then m
    else { m with bst := { m.bst with
      badUnit := (bitList 28 (Nat.xor (setBit (x.units % 2 ^ 28) 23 (bit x.units 23 && x.hbmOk)) (2 ^ 28 - 1))).foldl (fun l u => NMap.set false l (d * 32 + u) true) m.bst.badUnit
      bad := x.failed.foldl (fun l k => NMap.set false l (d * 2048 + k % 2048) true) m.bst.bad } }

/-- A worker die leaves reset (R68 step 3). -/
def dieStart (pm : Option PassMap) (d : Nat) (m : Mod) : Mod :=
  let m := setClock d { Clock.reset with run := true, count := (clock 4 m).count } (setDie d DieSt.booting m)
  let mib := NMap.get 12 m.flash.part d
  let m := setPartition d mib (updTabs 4 (fun t => { t with part := NMap.set 12 t.part d mib }) m)
  match pm with
  | some p => useMap p d m
  | none => m

/-- The firmware runs (R68 steps 2 and 3); the tables held in flash become the authoritative ones, which the return
procedure pushes to each die (step 7). -/
def firmwareStart (slot : Nat) (im : Image) (m : Mod) : Mod :=
  let m := runImage slot im m
  let pm := mapFor m.sec.fwVer m
  let m := updTabs 4 (fun _ => m.flash.tabs) m
  let m := loadCrash { m with flash := { m.flash with passMap := none }
                              tly := { m.tly with coefs := m.flash.coefs }
                              shep := { m.shep with booted := true, mapUsed := pm.isSome } }
  each (dies.filter (fun d => fusedIn d m)) (dieStart pm) (setMState 0 m)

/-- MODULE_RESET_RELEASE: the endpoint identities, and the management address straps as sampled (R564). -/
def resetRelease (fz : Fuse) (eids : List Nat) (strap : Nat) (m : Mod) : Mod :=
  if !m.pin.rst then m
  else
    let m := { m with
      pin := { m.pin with rst := false, pwr := true, refS := true, mgmtAddr := strap % 8 }
      conf := { m.conf with eids := (dies.filter (fun d => fusedIn d m && decide (d < eids.length))).foldl (fun l d =>
                              NMap.put l d (eids.getD d 0 % 2 ^ 20)) [] } }
    let m := secReset fz (setClock 4 { Clock.reset with run := true } m)
    match bootImage fz m with
    | some (slot, im) => firmwareStart slot im m
    | none => { m with shep := { m.shep with bootFail := true, bootRec := bootRecord fz m } }

/-- MODULE_RESET_ASSERT. -/
def resetAssert (m : Mod) : Mod := moduleReset m

/-- An image slot as written. -/
def imageOf (x : ImageFile) : Image := { hdr := x.hdr, body := x.body, key := x.key }

/-- The flash after a board programmer's write: the image slots and the boot options; the rest stays (R566). -/
def flashFrom (x : FlashFile) (f : Flash) : Flash :=
  { f with
    imgA := x.imgA.map imageOf, imgB := x.imgB.map imageOf, bifur := x.bifur, hold := x.hold, pref := x.pref
    part := x.part.foldl (fun l e => NMap.set 12 l e.1 e.2) [] }

/-- BOARD_FLASH_WRITE: only while MOD_RST_N is asserted (R566). -/
def flashWrite (f : Flash) (m : Mod) : Mod := if m.pin.rst then { m with flash := f } else m

/-! ## Boot self-test (R36, R37, R68, R517) -/

/-- Macros whose loss a die absorbs (R36): 32 for each MiB of the Drover staging share and of the transport buffer above
1 MiB, and 256 of the conduit cache. -/
def macroRoom : Nat := 15 * 32 + 256

/-- The units of R500. -/
def unitAlone (u : Nat) : Bool := fenceable u

/-- The failure that marks a whole die UNUSABLE: its unit, source and detail. R517 leaves the choice among its three sources: HBM_FAIL
is that of the HBM3E unit, SRAM_UE_STATE that of the macros (DESIGN CHOICE). -/
def dieFails (d links : Nat) (hbm hard : Bool) (m : Mod) : Option (Nat × Nat × Nat) :=
  let bad := (List.range 28).filter (fun u => NMap.get false m.bst.badUnit (d * 32 + u))
  if !hbm ∨ bad.contains 23 then some (23, 20, 0)
  else match bad.find? (fun u => !unitAlone u) with
    | some u => some (u, 3, 0)
    | none => if macroRoom < macrosBad d m ∨ hard then some (26, 2, 0) else if !bit links 4 then some (22, 3, 4) else none

/-- The links of a die have trained or not; one to a die that has settled needs both ends. -/
def linksTrained (d links : Nat) (m : Mod) : Mod :=
  each [0, 1, 2, 3, 4] (fun j m =>
    if j = d then m
    else
      let first := j = 4 ∨ dieState j m = DieSt.booting ∨ !fusedIn j m
      let up := bit links j && (decide first || d2dUp d j m) && (j == 4 || fusedIn j m)
      { m with d2d := NMap.set false m.d2d (pairIx d j) up }) m

/-- The die-to-die decision is taken once every die has left BOOTING. -/
def isolateAll (m : Mod) : Mod := if dies.any (fun d => dieState d m == DieSt.booting) then m else isolate m

/-- A die is marked UNUSABLE (R38): no endpoint, no lanes. -/
def dieUnusable (d : Nat) (m : Mod) : Mod := setUnits d UnitSt.unusable (setDie d DieSt.unusable m)

/-- The links of a die to other worker dies that failed at its start: the other end is there, and the link did not train. -/
def linksFailed (d links : Nat) (m : Mod) : List Nat :=
  dies.filter (fun j => j != d && fusedIn j m && dieState j m != DieSt.unusable && !bit links j)

/-- BOOT_SELF_TEST_COMPLETE. A worker-to-worker link end that fails marks unit 22 and stays out (R517). -/
def bootTested (d links units : Nat) (macros : List Nat) (hbm hard : Bool) (m : Mod) : Mod :=
  if dieState d m ≠ DieSt.booting ∨ !m.shep.booted ∨ m.flt.stopped then m
  else
    let lost := linksFailed d links m
    let units := setBit units 22 (bit units 22 || !lost.isEmpty)
    let m := { m with d2dFail := lost.foldl (fun l j => NMap.set false l (pairIx d j) true) m.d2dFail }
    let m := { m with bst := { m.bst with
      badUnit := (bitList 28 units).foldl (fun l u => NMap.set false l (d * 32 + u) true) m.bst.badUnit
      bad := macros.foldl (fun l k => if k < 1920 then NMap.set false l (d * 2048 + k) true else l) m.bst.bad } }
    let m := wr F.BST_BOOT_FAILED_AT_START d 0 (macrosBad d m) (linksTrained d links m)
    let m := match dieFails d links hbm hard m with
      | some (u, s, x) => raise d u s 0 x none (dieUnusable d m)
      | none =>
        let bad := (List.range 28).filter (fun u => NMap.get false m.bst.badUnit (d * 32 + u))
        let m := enterQuarantine d false m
        let m := bad.foldl (fun m u => raise d u 3 0 (if u = 22 then lost.headD 0 else 0) none m) m
        (lost.drop 1).foldl (fun m j => raise d 22 3 0 j none m) m
    signalReady (isolateAll m)

/-! ## The return procedure (R77, R501) -/

/-- DIE_ACTIVATE has been received, or the die is not held. -/
def mayActivate (d : Nat) (m : Mod) : Bool := !bit m.flash.hold d || NMap.get false m.shep.go d

/-- Every die that MODULE_RESUME woke has become ACTIVE, waits for DIE_ACTIVATE, or has left service. -/
def wokenAll (m : Mod) : Bool :=
  dies.all (fun d => dieState d m != DieSt.sleep && (dieState d m != DieSt.quarantine || NMap.get false m.shep.waits d))

/-- MODULE_RESUME is answered, with the module in M0 (R488). -/
def resumeDone (m : Mod) : Mod :=
  if m.azx.jobs.any (fun j => j.wait == .wakeAll) && wokenAll m then
    let m := updShep (fun s => { s with standby := false }) (if m.tly.mstate = 3 then setMState 0 m else m)
    endJobs (· == .wakeAll) St.ok 0 m.tly.mstate m
  else m

/-- M2 ends when the last sleeping die becomes ACTIVE (R488). -/
def leaveM2 (m : Mod) : Mod :=
  if m.tly.mstate = 2 ∧ dies.all (fun d => dieState d m != DieSt.sleep && dieState d m != DieSt.quarantine) then restState (setMState 0 m) else m

/-- The procedure on a die in QUARANTINE. -/
def returnDie (d : Nat) (m : Mod) : Mod :=
  let m := if NMap.get false m.shep.repair d then rebuildRegion d m else m
  let late := tables.filter (fun t => genOf t d m != genNow t d m || !(bit (NMap.get 0 m.shep.kept d) t))
  let m := late.foldl (fun m t => pushTable t d m) m
  let m := if NMap.get false m.shep.waits d then m else droverReturn d m
  let m := dieTime d (dropCaches d m)
  let m := updShep (fun s => { s with kept := NMap.set 0 s.kept d (2 ^ 11 - 1), repair := NMap.del s.repair d }) m
  if mayActivate d m then
    let m := updShep (fun s => { s with waits := NMap.del s.waits d, kept := NMap.del s.kept d }) m
    let m := enterActive d m
    let m := endJobs (Wait.backs d) St.ok 0 DieSt.active m
    signalReady (resumeDone (leaveM2 m))
  else
    let m := updShep (fun s => { s with waits := NMap.set false s.waits d true }) m
    let m := endJobs (· == .dieBack d false) St.ok 0 DieSt.quarantine m
    signalReady (resumeDone m)

/-- The procedure on the units of an ACTIVE die that are in QUARANTINE: their tables, caches and time. -/
def returnUnits (d : Nat) (m : Mod) : Mod :=
  each ((List.range 28).filter (fun u => unitState d u m == UnitSt.quarantine)) (fun u m =>
    let m := if u < 16 then pushTable 3 d (pushTable 4 d m)
      else if u = 21 then droverReturn d (pushTable 6 d m)
      else if u = 22 then
        { m with d2d := [0, 1, 2, 3].foldl (fun l j =>
            if j ≠ d ∧ dieUp j m ∧ !NMap.get false m.d2dFail (pairIx d j) then NMap.set false l (pairIx d j) true else l) m.d2d }
      else m
    let m := unitReturned d u (setUnit d u UnitSt.active m)
    endJobs (· == .unitBack d u) St.ok 0 UnitSt.active m) m

/-- RETURN_PROCEDURE. -/
def returnProcedure (d : Nat) (m : Mod) : Mod :=
  if dieState d m = DieSt.quarantine then returnDie d m
  else if dieActive d m then returnUnits d m else m

/-- RETURN_TIMEOUT: the procedure's own work, before or after a wait for DIE_ACTIVATE, has exceeded 1 s (R72, R77, R569). -/
def returnTimeout (d : Nat) (m : Mod) : Mod :=
  if dieState d m = DieSt.quarantine ∧ (!NMap.get false m.shep.waits d ∨ mayActivate d m) then
    resumeDone (fenceOut d (backFails d 2 m))
  else m

/-! ## Tests of dies and units (R501, R569) -/

/-- DIE_TEST_COMPLETE: the result, and the links that trained (as in `bootTested`). -/
def dieTested (d links : Nat) (pass : Bool) (m : Mod) : Mod :=
  if !m.azx.jobs.any (fun j => j.wait == .dieTest d) then m
  else if !pass || !bit links 4 then
    let m := dieUnusable d m
    signalReady (endJobs (· == .dieTest d) St.restoreFailed 1 DieSt.unusable m)
  else
    let m := each [0, 1, 2, 3, 4] (fun j m =>
      if j = d then m
      else
        let up := bit links j && (j == 4 || dieUp j m || dieState j m == DieSt.sleep)
        let m := { m with d2d := NMap.set false m.d2d (pairIx d j) up, d2dFail := NMap.del m.d2dFail (pairIx d j) }
        let clear := fun e i m => wrB F.LNK_D2D_STATUS_FAILED e i (!up) (wr F.LNK_D2D_STATUS_FIRST_LANE e i 0 (wr F.LNK_D2D_STATUS_PKTS_DISCARDED e i 0 m))
        if j = 4 then clear d d m else clear d j (clear j d m)) (dieWipe d m)
    let m := updShep (fun s => { s with repair := NMap.set false s.repair d true, kept := NMap.del s.kept d }) (enterQuarantine d true m)
    let m := updWaits (fun w => if w = .dieTest d then .dieBack d false else w) m
    isolateAll m

/-- UNIT_TEST_COMPLETE. -/
def unitTested (d u : Nat) (pass : Bool) (m : Mod) : Mod :=
  if !m.azx.jobs.any (fun j => j.wait == .unitTest d u) then m
  else if pass then
    let m := unitQuarantine d u m
    let m := if u < 16 then each (quadPorts d u m) (fun pc m => if pst pc m = 0 then toDetect pc 0 (updLp pc (fun l => { l with out := 0 }) m) else m) m else m
    updWaits (fun w => if w = .unitTest d u then .unitBack d u else w) m
  else
    let m := setUnit d u UnitSt.unusable { m with bst := { m.bst with badUnit := NMap.set false m.bst.badUnit (d * 32 + u) true } }
    endJobs (· == .unitTest d u) St.ok 0 UnitSt.unusable m

/-! ## Die sleep (R484 to R486) -/

/-- A reservation or a calendar slot holds the die (R484 step 2). -/
def dieTimed (d : Nat) (m : Mod) : Bool :=
  let t := tabs 4 m
  t.res.any (fun e => (e.2.isSource && dieOfEid e.2.src m == some d) || (e.2.isDest && (destDies e.2 m).contains d))
    || (t.calA ++ t.calS).any (fun e => e.1 / 32 == d && !e.2.slots.isEmpty)

/-- Every taken entry has completed and no program runs (R484 step 3). -/
def dieIdle (d : Nat) (m : Mod) : Bool :=
  ((m.trn.sq.filter (fun e => e.1 / 65536 == d)).all (fun e => sqOpen d (e.1 % 65536) m == 0)) && !droverBusy d m

/-- Send queues stop taking, or take again. -/
def setDrain (d : Nat) (on : Bool) (m : Mod) : Mod := updShep (fun s => { s with drain := NMap.set false s.drain d on }) m

/-- The die sleeps: ports DISABLED, conduits written back, storage that is not retained lost, the counter stopped. -/
def dieSleep (d : Nat) (retain : Bool) (m : Mod) : Mod :=
  let m := portsIdle d (chargeDie d (chargeLanes d m))
  let m := (residents d m).foldl (fun m cn => evict d cn m) m
  let m := xbarPurge d (dropCaches d (slicesDrop d m))
  let keep := if retain then [1, 2, 6] else []
  let m := updTabs d (fun t =>
    let t' : Tabs := { Tabs.reset with gen := NMap.keep (fun k => keep.contains k) t.gen }
    if retain then { t' with pass := t.pass, flock := t.flock, drv := t.drv } else t') m
  let m := showGens d { m with keys := dropOf d 65536 m.keys }
  let m := updShep (fun s => { s with kept := NMap.set 0 s.kept d (if retain then 0b1000110 else 0), drain := NMap.del s.drain d, go := NMap.del s.go d }) m
  let m := setClock d { clock d m with run := false } m
  wrB F.HIF_CTRL_ENABLE d 0 false (setUnits d UnitSt.sleep (setDie d DieSt.sleep m))

/-- A die wakes into QUARANTINE. -/
def dieWake (d : Nat) (m : Mod) : Mod :=
  if dieState d m ≠ DieSt.sleep then m
  else enterQuarantine d true (setClock d { clock d m with run := true } m)

/-- The endpoints of a module in M3 are idle. -/
def endpointIdle (d : Nat) (m : Mod) : Mod :=
  hostLinksDown d { m with hif := { m.hif with released := NMap.del m.hif.released d } }

/-- The dies that a module-wide command concerns. -/
def activeDies (m : Mod) : List Nat := dies.filter (fun d => dieActive d m)

/-- STANDBY completes: every die sleeps, M3. -/
def enterStandby (m : Mod) : Mod :=
  let m := each (activeDies m) (fun d m => dieSleep d false m) m
  let m := each dies (fun d m => if dieState d m = DieSt.sleep then endpointIdle d m else m) m
  setMState 3 (updShep (fun s => { s with standby := true }) { m with pin := { m.pin with ready := false } })

/-- DIE_SLEEP_DRAIN_END: the drain of a die, or of the whole module, ends idle or with BUSY. -/
def drainEnd (d : Nat) (m : Mod) : Mod :=
  match m.azx.jobs.find? (fun j => j.wait.drains d) with
  | none => m
  | some j =>
    match j.wait with
    | .drain _ retain =>
      if dieIdle d m then
        let m := dieSleep d retain m
        let m := if m.tly.mstate = 3 then m else setMState 2 m
        endJob j St.ok 0 DieSt.sleep 0 m
      else endJob j St.dieNotReady 2 0 0 (setDrain d false m)
    | .drainAll down =>
      match (activeDies m).find? (fun x => !dieIdle x m) with
      | some x => endJob j St.dieNotReady x 0 0 (each dies (fun x m => setDrain x false m) m)
      | none =>
        if down then
          let m := each (activeDies m) (fun x m => dieSleep x false m) m
          updWaits (fun w => if w = .drainAll true then .testAll else w) m
        else
          let m := enterStandby m
          endJob j St.ok 0 m.tly.mstate 0 m
    | _ => m

/-- The macros of a die that spares have replaced (R514). -/
def sparedOf (d : Nat) (m : Mod) : List Nat := (m.bst.spared.filter (fun e => e.1 / 2048 == d)).map (fun e => e.1 % 2048)

/-- A die's part of the pass map (R516). -/
def passDie (l : List TestRes) (d : Nat) (m : Mod) : PassDie :=
  match l.find? (fun r => r.die == d) with
  | none => { tested := false, units := 0, hbmOk := false, failed := [] }
  | some r =>
    let f := (r.failed ++ (sparedOf d m).filter (fun k => !r.failed.contains k)).filter (· < 1920)
    if 64 < f.length ∨ dieState d m = DieSt.unusable ∨ !fusedIn d m then { tested := false, units := 0, hbmOk := false, failed := [] }
    else { tested := true, units := r.units % 2 ^ 28, hbmOk := r.hbmOk, failed := f }

/-- SHUTDOWN_TEST_COMPLETE: the pass map is written, and the response with the module in M3. -/
def shutdownTested (l : List TestRes) (m : Mod) : Mod :=
  if !m.azx.jobs.any (fun j => j.wait == .testAll) then m
  else
    let p : PassMap := { fw := m.sec.fwVer, frame := now 4 m / 1048576, dies := dies.map (fun d => (d, passDie l d m)), intact := true }
    let m := enterStandby { m with flash := { m.flash with passMap := some p } }
    endJobs (· == .testAll) St.ok 0 3 m

/-! ## Rails and watchdogs -/

/-- GROUP_4_SUPPLY_CHANGE: in M3 the rails of group 4 that are outside tolerance (R559). -/
def group4 (mask : Nat) (m : Mod) : Mod :=
  if m.tly.mstate = 3 then { m with pin := { m.pin with rail4 := mask % 32 } } else m

/-- What MODULE_RESUME finds wrong with the rails (R559). -/
def railBad (m : Mod) : Option Nat :=
  match dies.find? (fun d => bit m.pin.rail4 d) with
  | some d => some (0x10 + d)
  | none => if bit m.pin.rail4 4 then some 0x20 else none

/-- CORE_WATCHDOG_EXPIRY (R67): not of a core that is halted (R530). -/
def watchdog (core : Nat) (m : Mod) : Mod :=
  if 8 ≤ core ∨ bit m.sec.halted core ∨ !m.shep.booted then m else raise 4 (32 + core) 28 0 core none m

/-- FAULT_DETECTED: a supply out of range stops the slices of its die (R513). The collector of a fenced die reports while its Shepherd
link is up (R499); with the link down the record reaches no log. -/
def faultDetected (d u s addr detail : Nat) (fn : Option Nat) (m : Mod) : Mod :=
  if !sourceKnown u s ∨ !unitKnown d u ∨ (d < 4 ∧ !fusedIn d m) ∨ m.pin.rst then m
  else
    let m := if s = 26 ∨ s = 27 then { m with bst := { m.bst with supplyOut := NMap.set false m.bst.supplyOut d true } } else m
    if dieState d m = DieSt.fenced ∧ !d2dUp d 4 m then m else raise d u s addr detail fn m

/-- FAULT_CAUSE_END: a cause that ends by itself (R495). -/
def faultCauseEnd (d u s : Nat) (m : Mod) : Mod :=
  if !([24, 26].contains s) then m
  else
    let m := if s = 26 then { m with bst := { m.bst with supplyOut := NMap.del m.bst.supplyOut d } } else m
    causeEnd d u (2 ^ s) m

/-! ## Periodic self-test (R511 to R514) -/

/-- The macro is in use: not lost at start, and not replaced by a spare. -/
def macroLive (d k : Nat) (m : Mod) : Bool := !NMap.get false m.bst.bad (d * 2048 + k) && !NMap.get false m.bst.spared (d * 2048 + k)

/-- The macros of the plan from `pos` on. -/
def planFrom (d pos : Nat) (m : Mod) : List Nat := ((List.range (1920 - pos)).map (· + pos)).filter (fun k => macroLive d k m)

/-- Slices of a frame: SLICES, at most 9, and at most the spares left. -/
def sliceCount (d : Nat) (m : Mod) : Nat := min (min 9 (cur F.BST_CTRL_SLICES d 0 m)) (rd F.BST_SPARES_SPARES_LEFT d 0 m)

/-- At a frame boundary: `ok` says that the conditions of R513 on supply and clocks hold. -/
def sliceStart (d : Nat) (ok : Bool) (m : Mod) : Mod :=
  let ok := ok && !NMap.get false m.bst.supplyOut d && dieActive d m
  let m := wrB F.BST_STATUS_COND_OK d 0 ok m
  let n := sliceCount d m
  if !curB F.BST_CTRL_ENABLE d 0 m ∨ n = 0 then m
  else if !ok then bump F.BST_CNT_SKIPPED_FRAMES d 0 (count d 678 n m)
  else
    let again := (againOf d m).take n
    let pos := NMap.get 0 m.bst.pos d
    let next := (planFrom d pos m).take (n - again.length)
    setSlices d (slicesOf d m ++ again ++ next) ((againOf d m).drop n) (match next.getLast? with | some k => k + 1 | none => pos) m

/-- The pass ends with its last slice. -/
def passEnd (d : Nat) (m : Mod) : Mod :=
  if (slicesOf d m).isEmpty && (againOf d m).isEmpty && (planFrom d (NMap.get 0 m.bst.pos d) m).isEmpty then
    setSlices d [] [] 0 (bumpWrap F.BST_PASS_PASSES d 0 (wr F.BST_PASS_LAST_PASS_FRAME d 0 (now d m / 1048576) m))
  else m

/-- SLICE_COMPLETE: the macro, the unit that owns it, and the result. -/
def sliceComplete (d k u : Nat) (pass : Bool) (m : Mod) : Mod :=
  if !(slicesOf d m).contains k then m
  else
    let m := setSlices d ((slicesOf d m).erase k) (againOf d m) (NMap.get 0 m.bst.pos d) m
    let m := bump F.BST_CNT_SLICES_DONE d 0 (count d 677 1 m)
    let m := if pass then m
      else
        let left := rd F.BST_SPARES_SPARES_LEFT d 0 m - 1
        let m := { m with bst := { m.bst with spared := NMap.set false m.bst.spared (d * 2048 + k) true } }
        let m := wr F.BST_SPARES_SPARES_LEFT d 0 left (bump F.BST_SPARES_REPAIRED d 0 (bump F.BST_CNT_FAILED d 0 m))
        let m := wr F.BST_LAST_FAIL_MACRO d 0 k (wr F.BST_LAST_FAIL_FRAME d 0 (now d m / 1048576) m)
        let m := raise d (if unitKnown d u then u else 26) 5 0 k none m
        if left = 0 then raise d 26 6 0 0 none (wrB F.BST_STATUS_NO_SPARE d 0 true m) else m
    passEnd d m

/-- SLICE_ABORT: the macro is taken again at the next frame that qualifies. -/
def sliceAbort (d k : Nat) (m : Mod) : Mod :=
  if !(slicesOf d m).contains k then m
  else bump F.BST_CNT_ABORTED d 0 (setSlices d ((slicesOf d m).erase k) (againOf d m ++ [k]) (NMap.get 0 m.bst.pos d) m)

end Sys2Proof.Machine
end

