-- ==== Sys2Proof/Machine/Azrix.lean ====
section
/-! DEFINITION. The Azrix commands (spec/03, R84 to R91; and those of spec/18 to spec/21): taking, checks, table loads with
their pushes, and each command's effect. -/
namespace Sys2Proof.Machine

/-! ## What a command is (R87, R88) -/

/-- Issuer classes (R87). -/
inductive Who where
  | any | owner | pf | mgmt
  deriving DecidableEq, Repr

/-- One command: the arguments of INLINE (first byte, bytes, bits in use), its issuer class, whether its argument buffer is
read, the table that it loads, its own checks (steps 5 to 9 of R89: the status and DETAIL of the first that fails), and its
effect. -/
structure AzRow where
  inl   : List (Nat × Nat × Nat)
  who   : Who
  reads : Bool
  table : Option Nat
  chk   : Fuse → AzCmd → Mod → Option (Nat × Nat)
  run   : Fuse → Job → Mod → Mod

/-- The first check of a list that fails. -/
def firstFail (l : List (Bool × Nat × Nat)) : Option (Nat × Nat) := (l.find? Prod.fst).map Prod.snd

/-- The lowest of the offsets at which arguments are bad (R86). -/
def badAt (l : List (Bool × Nat)) : Option (Nat × Nat) := ((l.filter Prod.fst).map Prod.snd).min?.map (fun n => (St.badArgument, n))

/-- Checks one after the other. -/
def orFail (a b : Option (Nat × Nat)) : Option (Nat × Nat) := a.orElse (fun _ => b)

/-- The die that a per-die command names. -/
def AzCmd.die (c : AzCmd) : Nat := c.arg 0 1

/-- A die that takes no per-die command (R90). -/
def dieRefuses (d : Nat) (m : Mod) : Bool :=
  !fusedIn d m || [DieSt.absent, DieSt.fenced, DieSt.sleep, DieSt.unusable].contains (dieState d m)

/-- Steps 5 and 6 of a per-die command: `l` are its further arguments. -/
def perDie (c : AzCmd) (l : List (Bool × Nat)) (m : Mod) : Option (Nat × Nat) :=
  orFail (badAt ((decide (3 < c.die), 0) :: l)) (if dieRefuses c.die m then some (St.dieNotReady, 0) else none)

/-- The argument buffer is shorter than `n` bytes (R88): DETAIL names its end. -/
def tooShort (c : AzCmd) (n : Nat) : Bool × Nat := (decide (c.argLen < n), 40 + c.argLen)

/-- The function that issued a command: its die and number; the management interface acts as PF0 of the named die. -/
def AzCmd.issuer (c : AzCmd) : Nat × Nat := c.iss.getD (c.die, 0)

/-! ## Responses -/

/-- A command of which the response is written at once, with OK. -/
def Job.ok (j : Job) (res0 : Nat) (m : Mod) : Mod := answer j.cmd j.mute j.t0 St.ok 0 res0 0 m
def Job.fail (j : Job) (status detail res0 : Nat) (m : Mod) : Mod := answer j.cmd j.mute j.t0 status detail res0 0 m

/-- A command that waits. -/
def Job.await (j : Job) (w : Wait) (m : Mod) : Mod := updAzx (fun a => { a with jobs := a.jobs ++ [{ j with wait := w }] }) m

/-- Write `data` into the argument buffer, then the response (R88). -/
def Job.okData (j : Job) (data : Bytes) (res0 res1 : Nat) (m : Mod) : Mod :=
  match j.cmd.iss with
  | none => answerData data j.cmd j.mute j.t0 St.ok 0 res0 res1 m
  | some (d, f) =>
    let c := if data.isEmpty then (true, m) else accessBus d f j.cmd.argAddr data.length 1 m
    if !c.1 then j.fail St.hostAbort 0 0 c.2
    else answer j.cmd j.mute j.t0 St.ok 0 res0 res1 (hostWr d f j.cmd.argAddr data c.2)

/-! ## Table loads (R74 to R76) -/

/-- A reservation table names an endpoint of die `x` (R213). -/
def resNames (x : Nat) (l : NMap Resv) (m : Mod) : Bool := l.any (fun e => (resDies e.2 m).contains x)

/-- The ACTIVE dies that use the table of a load: of the reservations, those of the endpoints that the loaded table, or
the die's own copy of it, names (R213). -/
def usersOf (t d : Nat) (c : AzCmd) (m : Mod) : Nat :=
  dieMask (fun x => dieActive x m && (
    if [6, 7, 9].contains t then x == d
    else if t = 5 then resNames x (tabs 4 m).res m || resNames x (tabs x m).res m
    else if t = 8 then (NMap.find (tabs 4 m).past (x * 65536 + c.arg 2 2)).isSome else true))

/-- A load has been written to the authoritative copy: its generation rises and it is pushed. -/
def Job.load (j : Job) (t d res0 : Nat) (m : Mod) : Mod :=
  let m := genBump t d m
  let g := genNow t d m
  let k : Job := if j.cmd.op = 0x40 then { j with res0 := res0, res1 := g } else { j with res0 := g }
  k.await (.push t (usersOf t d j.cmd m) 0) m

/-- Two loads exclude each other: the same table (of the same die); the two calendars; reservations and the budget while
one waits for its turn (R222, R474). -/
def excludes (t d : Nat) (j : Job) : Bool :=
  let same := fun (u : Nat) => (t == u && (!([6, 7, 9].contains t) || j.cmd.die == d)) || (t == 3 && u == 4) || (t == 4 && u == 3)
  match j.wait with
  | .turn u => same u || (t == 5 && u == 10) || (t == 10 && u == 5)
  | .push u _ _ => same u
  | .frame _ _ => t == 3 || t == 4
  | _ => false

/-! ## Tables' contents -/

/-- A path entry (R191), and why it is refused: its offset in the record. -/
def pathEntOf (b : Bytes) : PathEnt :=
  let ctl := rdLE b 8 1
  { route := (List.range 8).map (fun i => rdLE b i 1), hops := ctl % 16, valid := bit ctl 4, timedOk := bit ctl 5, bias := rdLE b 9 1 % 16 }
def pathEntBad (e : PathEnt) : Option Nat :=
  if !e.valid then none
  else if e.hops = 0 ∨ 8 < e.hops then some 8
  else if [0xFD, 0xFE].contains (e.route.getD (e.hops - 1) 0) then none else some (e.hops - 1)

/-- A flock entry (R202). -/
def flockOf (b : Bytes) : FlockEnt :=
  let i := rdLE b 16 3
  { out := rdLE b 0 16, id := i % 2 ^ 20, valid := bit i 20, toDrv := bit i 21, drvDie := bits i 22 2, host := rdLE b 19 1 % 16
    owner := rdLE b 20 3 % 2 ^ 20, pasture := rdLE b 24 2 }

/-- An action table (R476), and where it is refused. -/
def actionsOf (b : Bytes) : List Action :=
  (List.range 8).map (fun i =>
    { up := rdLE b (16 * i) 2, down := rdLE b (16 * i + 2) 2, inj := rdLE b (16 * i + 4) 2, gap := rdLE b (16 * i + 8) 2
      quiet := rdLE b (16 * i + 12) 4 })
def actionsBad (b : Bytes) : List (Bool × Nat) :=
  ((List.range 8).zip (actionsOf b)).flatMap (fun e =>
    [(decide (e.2.inj = 0 ∨ 256 < e.2.inj), 40 + 16 * e.1 + 4), (decide (e.2.quiet < 256), 40 + 16 * e.1 + 12)])

/-! ## QUERY_STATE -/

/-- QUERY_STATE: the registers as last published. -/
def azQuery : AzRow where
  inl := []
  who := .any
  reads := false
  table := none
  chk := fun _ _ _ => none
  run := fun _ j m => answer j.cmd j.mute j.t0 St.ok 0 (rd F.GEN_STATUS_CONFIG_SEQ 0 0 m + dieStates 0 m * 2 ^ 32)
    (m.conf.mask * 16 + rd F.GEN_CONFIG_USABLE_MASK 0 0 m + orderOf m * 65536) m

/-! ## Pastures (R570, R449, R528) -/

/-- A conduit of a pasture at an endpoint is not CLOSED. -/
def pastureBusy (d p : Nat) (m : Mod) : Bool :=
  (condsOf d m).any (fun cn => (cond d cn m).pasture == p && condState d cn m != CSt.closed)

/-- The pasture exists at the die's endpoint, as the Shepherd has it. -/
def pastureAt (d p : Nat) (m : Mod) : Bool := (NMap.find (tabs 4 m).past (d * 65536 + p)).isSome

def azPastureCreate : AzRow where
  inl := [(0, 1, 8), (2, 2, 16), (4, 2, 11), (6, 1, 3)]
  who := .pf
  reads := true
  table := some 7
  chk := fun _ c m =>
    let d := c.die
    orFail (perDie c [(decide (1024 < c.arg 4 2) && !(bifurcated d m && c.arg 4 2 == 1025), 4)] m)
      (firstFail [(pastureAt d (c.arg 2 2) m, St.inUse, 0)
        , (decide (4096 ≤ ((tabs 4 m).past.filter (fun e => e.1 / 65536 == d)).length), St.noResource, 0)])
  run := fun _ j m =>
    let c := j.cmd
    j.load 7 c.die 0 (updTabs 4 (fun t => { t with
      past := NMap.put t.past (c.die * 65536 + c.arg 2 2) { fn := c.arg 4 2, flags := c.arg 6 1 } }) m)

def azPastureDestroy : AzRow where
  inl := [(0, 1, 8), (2, 2, 16)]
  who := .owner
  reads := true
  table := some 7
  chk := fun _ c m =>
    orFail (perDie c [(decide (c.die ≤ 3) && !pastureAt c.die (c.arg 2 2) m, 2)] m)
      (firstFail [(pastureBusy c.die (c.arg 2 2) m, St.inUse, 0)])
  run := fun _ j m =>
    let c := j.cmd
    let p := c.arg 2 2
    let m := updTabs 4 (fun t => { t with past := NMap.del t.past (c.die * 65536 + p) }) m
    let m := if dies.any (fun d => pastureAt d p m) then m else { m with keys := NMap.del m.keys (4 * 65536 + p) }
    j.load 7 c.die 0 m

/-- The session that wraps a key: of the issuing function's DOE mailbox, or of the management interface. -/
def keySession (c : AzCmd) (m : Mod) : Option Session :=
  (session (match c.iss with | some (d, f) => mailbox d (pfOf d f m) | none => 4) (rdLE c.data 4 4) m).filter (fun s => s.est)

/-- The key that the argument buffer carries, opened (R528). -/
def keyOpened (c : AzCmd) (m : Mod) : Option Bytes :=
  (keySession c m).bind (fun s =>
    Config.gcmOpen (Config.sessionKey s.draw) (sub c.data 8 12) (leBytes 2 (c.arg 2 2)) (sub c.data 20 32) (sub c.data 52 16))

def azPastureKey : AzRow where
  inl := [(2, 2, 16)]
  who := .owner
  reads := true
  table := some 8
  chk := fun _ c m =>
    badAt [(!dies.any (fun d => pastureAt d (c.arg 2 2) m), 2), tooShort c 72
      , (decide (rdLE c.data 0 2 ≠ c.arg 2 2), 40), (!zeroAt c.data 2 2, 42), ((keySession c m).isNone, 44)
      , ((keySession c m).isSome && (keyOpened c m).isNone, 92), (!zeroAt c.data 68 4, 108)]
  run := fun _ j m =>
    let k := 4 * 65536 + j.cmd.arg 2 2
    let g := match NMap.find m.keys k with | some o => o.gen + 1 | none => 0
    j.load 8 0 0 { m with keys := NMap.put m.keys k { key := (keyOpened j.cmd m).getD [], gen := g, old := none } }

/-! ## Path table, pass sets, flock table (R186, R191, R202) -/

def azPathLoad : AzRow where
  inl := [(0, 4, 20), (4, 4, 32)]
  who := .pf
  reads := true
  table := some 0
  chk := fun _ c _ =>
    let n := c.arg 4 4
    let bad := decide (n = 0 ∨ 2 ^ 20 - c.arg 0 4 < n)
    if bad then some (St.badArgument, 4)
    else
      let ent := (List.range (8 * n)).findSome? (fun i => (pathEntBad (pathEntOf (sub c.data (16 * i) 16))).map (fun o => 40 + 16 * i + o))
      badAt [tooShort c (128 * n), (ent.isSome, ent.getD 0)]
  run := fun _ j m =>
    let c := j.cmd
    j.load 0 0 0 (updTabs 4 (fun t => { t with
      path := (List.range (8 * c.arg 4 4)).foldl (fun l i =>
        let e := pathEntOf (sub c.data (16 * i) 16)
        if e.valid then NMap.put l (c.arg 0 4 * 8 + i) e else NMap.del l (c.arg 0 4 * 8 + i)) t.path }) m)

def azPassLoad : AzRow where
  inl := [(0, 2, 16)]
  who := .pf
  reads := true
  table := some 1
  chk := fun _ c _ => badAt [tooShort c (16 * popcount 16 (c.arg 0 2))]
  run := fun _ j m =>
    let l := bitList 16 (j.cmd.arg 0 2)
    j.load 1 0 0 (updTabs 4 (fun t => { t with
      pass := (l.zip (List.range l.length)).foldl (fun x e => NMap.set 0 x e.1 (rdLE j.cmd.data (16 * e.2) 16)) t.pass }) m)

def azFlockLoad : AzRow where
  inl := [(0, 2, 16), (4, 4, 32)]
  who := .pf
  reads := true
  table := some 2
  chk := fun _ c _ =>
    let n := c.arg 4 4
    if n = 0 ∨ 65536 - c.arg 0 2 < n then some (St.badArgument, 4) else badAt [tooShort c (32 * n)]
  run := fun _ j m =>
    let c := j.cmd
    j.load 2 0 0 (updTabs 4 (fun t => { t with
      flock := (List.range (c.arg 4 4)).foldl (fun l i =>
        let e := flockOf (sub c.data (32 * i) 32)
        if e.valid then NMap.put l (c.arg 0 2 + i) e else NMap.del l (c.arg 0 2 + i)) t.flock }) m)

/-! ## Calendars (R218, R222) -/

def azCalLoad : AzRow where
  inl := [(0, 2, 16)]
  who := .pf
  reads := true
  table := some 3
  chk := fun _ c m =>
    let o := calBad c.data (c.arg 0 2) m
    badAt [tooShort c (8256 * c.arg 0 2), (o.isSome, 40 + o.getD 0)]
  run := fun _ j m => j.load 3 0 0 (calLoad j.cmd.data (j.cmd.arg 0 2) m)

/-- The named frame has begun on an ACTIVE die. -/
def frameBegun (f : Nat) (m : Mod) : Bool := dies.any (fun d => dieActive d m && decide (f * 1048576 ≤ now d m))

/-- No die holds a named switch any more. -/
def switchClear (m : Mod) : Mod :=
  each dies (fun d m => wrB F.CAL_STATUS_SWITCH_PENDING d 0 false (wrB F.CAL_SWITCH_VALID d 0 false m)) m

def azCalSwitch : AzRow where
  inl := [(0, 8, 44)]
  who := .pf
  reads := true
  table := some 4
  chk := fun _ _ _ => none
  run := fun _ j m =>
    if frameBegun (j.cmd.arg 0 8) m then j.fail St.tooLate 0 0 m
    else j.await (.push 4 (usersOf 4 0 j.cmd m) 0) m

/-- Every ACTIVE die has switched: so does the authoritative copy. A die that became ACTIVE meanwhile takes it, and a die
in QUARANTINE takes both calendars again at its return, even where their generations are the same (R78). -/
def switchDone (j : Job) (m : Mod) : Mod :=
  let g := tabs 4 m
  let m := dies.foldl (fun m d => swapCals 4 d m) m
  let m := updTabs 4 (fun t => { t with gen := NMap.set 0 (NMap.set 0 t.gen 4 (NMap.get 0 g.gen 3)) 3 (NMap.get 0 g.gen 4) }) m
  let m := each (dies.filter (fun d => dieActive d m && genOf 4 d m != genNow 4 d m)) (fun d m => pushTable 3 d (pushTable 4 d m)) m
  let m := updShep (fun s => { s with kept := s.kept.map (fun e => if dieActive e.1 m then e else (e.1, Nat.land e.2 0x7E7)) }) m
  endJob j St.ok 0 (genNow 4 0 m) 0 (switchClear m)

/-! ## Reservations and the budget (R212 to R216, R472 to R474) -/

def azResConfirm : AzRow where
  inl := [(0, 2, 14), (2, 1, 3), (3, 1, 3), (4, 3, 20), (7, 3, 20), (10, 2, 16), (12, 2, 11), (14, 2, 16), (16, 4, 32), (20, 4, 32), (24, 4, 32)]
  who := .pf
  reads := true
  table := some 5
  chk := fun _ c m =>
    let e := resvOf (c.ent.drop 24)
    let r := c.arg 0 2
    orFail ((resBad r e m).min?.map (fun n => (St.badArgument, n)))
      (firstFail [(pinsFull e m, St.noResource, 0)
        , (!covers m.tly.budget m.tly.headroom (reservedE (NMap.put (tabs 4 m).res r e) m) m, St.unaffordable, 0)])
  run := fun _ j m => j.load 5 0 0 (resConfirm (j.cmd.arg 0 2) (resvOf (j.cmd.ent.drop 24)) m)

def azResWithdraw : AzRow where
  inl := [(0, 2, 14), (2, 1, 2)]
  who := .pf
  reads := true
  table := some 5
  chk := fun _ c m => (withdrawBad (c.arg 0 2) (c.arg 2 1) m).map (fun n => (St.badArgument, n))
  run := fun _ j m => j.load 5 0 0 (resWithdraw (j.cmd.arg 0 2) (j.cmd.arg 2 1) m)

def azBudgetSet : AzRow where
  inl := [(0, 4, 32), (4, 1, 8), (5, 1, 1)]
  who := .pf
  reads := true
  table := some 10
  chk := fun _ c m =>
    let tbl := bit (c.arg 5 1) 0
    orFail (if tbl then badAt (tooShort c 128 :: actionsBad c.data) else none)
      (firstFail [(!covers (c.arg 0 4) (c.arg 4 1) (reservedE (tabs 4 m).res m) m, St.unaffordable, 0)])
  run := fun _ j m =>
    let c := j.cmd
    let m := { m with tly := { m.tly with
      budget := c.arg 0 4, headroom := c.arg 4 1, table := if bit (c.arg 5 1) 0 then actionsOf c.data else m.tly.table } }
    j.load 10 0 0 m

/-! ## Drover programs (R365 to R370) -/

def azProgLoad : AzRow where
  inl := [(0, 1, 8), (4, 4, 32)]
  who := .any
  reads := true
  table := some 6
  chk := fun _ c m =>
    let b := c.data
    let o := progBad c.die b m
    orFail (perDie c [(decide (c.arg 4 4 = 0) || (decide (64 * c.arg 4 4 ≤ c.argLen) && c.arg 4 4 != progRecs b), 4)
        , tooShort c (64 * max 1 (c.arg 4 4)), (decide (c.die ≤ 3) && o.isSome, 40 + o.getD 0)] m)
      (firstFail [(progFull c.die (progOf 0 0 b) m, St.noResource, 0)])
  run := fun _ j m =>
    let c := j.cmd
    let d := c.die
    let p := (freeProg d m).getD 0
    j.load 6 d p (updTabs 4 (fun t => { t with drv := NMap.put t.drv (d * 256 + p) (progOf c.issuer.1 c.issuer.2 c.data) }) m)

/-- The program as the Shepherd has it. -/
def AzCmd.prog (c : AzCmd) (m : Mod) : Option DProg := NMap.find (tabs 4 m).drv (c.die * 256 + c.arg 1 1)

def azProgUnload : AzRow where
  inl := [(0, 1, 8), (1, 1, 8)]
  who := .owner
  reads := true
  table := some 6
  chk := fun _ c m =>
    orFail (perDie c [(decide (c.die ≤ 3) && (c.prog m).isNone, 1)] m)
      (firstFail [((drun c.die (c.arg 1 1) m).state == 2, St.inUse, 0)])
  run := fun _ j m =>
    let c := j.cmd
    j.load 6 c.die 0 (updTabs 4 (fun t => { t with drv := NMap.del t.drv (c.die * 256 + c.arg 1 1) }) m)

/-! ## Working pool and buffer partition (R88, R23) -/

/-- The working pool of a die (R25), its unit of allocation, and the lowest free offset that holds `size` bytes. -/
def poolBytes : Nat := 10624 * 1048576
def poolUnit : Nat := 65536
def poolSize (n : Nat) : Nat := (n + poolUnit - 1) / poolUnit * poolUnit
def poolFit (l : List Pool) (size : Nat) : Option Nat :=
  let off := l.foldl (fun o a => if o + size ≤ a.off then o else max o (a.off + a.size)) poolUnit
  if off + size ≤ poolBytes then some off else none

/-- Allocations of a die, by ascending offset. -/
def poolOf (d : Nat) (m : Mod) : List Pool := NMap.get [] m.pools d
def setPool (d : Nat) (l : List Pool) (m : Mod) : Mod := { m with pools := NMap.set [] m.pools d l }

def azPoolAlloc : AzRow where
  inl := [(0, 1, 8), (8, 8, 64)]
  who := .any
  reads := true
  table := none
  chk := fun _ c m =>
    orFail (perDie c [(c.arg 8 8 == 0, 8)] m)
      (firstFail [((poolFit (poolOf c.die m) (poolSize (c.arg 8 8))).isNone, St.noResource, 0)])
  run := fun _ j m =>
    let c := j.cmd
    let size := poolSize (c.arg 8 8)
    let l := poolOf c.die m
    let off := (poolFit l size).getD poolUnit
    let a : Pool := { off := off, size := size, fn := c.issuer.2, src := c.issuer.1 }
    j.ok off (setPool c.die (l.filter (fun x => decide (x.off < off)) ++ a :: l.filter (fun x => decide (off < x.off))) m)

def azPoolFree : AzRow where
  inl := [(0, 1, 8), (8, 8, 64)]
  who := .owner
  reads := true
  table := none
  chk := fun _ c m => perDie c [(!(poolOf c.die m).any (fun a => a.off == c.arg 8 8), 8)] m
  run := fun _ j m => j.ok 0 (setPool j.cmd.die ((poolOf j.cmd.die m).filter (fun a => a.off != j.cmd.arg 8 8)) m)

def azBufPartition : AzRow where
  inl := [(0, 1, 8), (1, 1, 8), (2, 1, 1)]
  who := .pf
  reads := true
  table := some 9
  chk := fun _ c m =>
    orFail (badAt [(decide (3 < c.die), 0), (decide (c.arg 1 1 = 0 ∨ 15 < c.arg 1 1), 1)])
      (firstFail [(!fusedIn c.die m || [DieSt.active, DieSt.absent, DieSt.unusable].contains (dieState c.die m), St.dieNotReady, 0)])
  run := fun _ j m =>
    let c := j.cmd
    let m := if bit (c.arg 2 1) 0 then { m with flash := { m.flash with part := NMap.put m.flash.part c.die (c.arg 1 1) } } else m
    j.load 9 c.die 0 (updTabs 4 (fun t => { t with part := NMap.set 12 t.part c.die (c.arg 1 1) }) m)

/-! ## Dies and units (R72, R569, R501) -/

/-- A per-die command that a die takes only in some states. -/
def inStates (c : AzCmd) (l : List Nat) (m : Mod) : Option (Nat × Nat) :=
  orFail (badAt [(decide (3 < c.die), 0)])
    (firstFail [(!fusedIn c.die m || !l.contains (dieState c.die m), St.dieNotReady, 0)])

def azDieFence : AzRow where
  inl := [(0, 1, 8)]
  who := .pf
  reads := true
  table := none
  chk := fun _ c m => inStates c [DieSt.quarantine, DieSt.active, DieSt.sleep] m
  run := fun _ j m =>
    let m := fenceOut j.cmd.die m
    j.ok (dieState j.cmd.die m) m

def azDieRestore : AzRow where
  inl := [(0, 1, 8)]
  who := .pf
  reads := true
  table := none
  chk := fun _ c m => inStates c [DieSt.fenced] m
  run := fun _ j m => j.await (.dieTest j.cmd.die) m

def azDieActivate : AzRow where
  inl := [(0, 1, 8)]
  who := .pf
  reads := true
  table := none
  chk := fun _ c m => inStates c [DieSt.quarantine] m
  run := fun _ j m => j.await (.dieBack j.cmd.die true) (updShep (fun s => { s with go := NMap.set false s.go j.cmd.die true }) m)

def azUnitRestore : AzRow where
  inl := [(0, 1, 8), (1, 1, 8)]
  who := .pf
  reads := true
  table := none
  chk := fun _ c m =>
    orFail (badAt [(decide (3 < c.die), 0), (decide (28 ≤ c.arg 1 1), 1)])
      (firstFail [(!dieActive c.die m || unitState c.die (c.arg 1 1) m != UnitSt.fenced, St.dieNotReady, 0)])
  run := fun _ j m => j.await (.unitTest j.cmd.die (j.cmd.arg 1 1)) m

/-! ## Time (R107, R109) -/

def azTimeRole : AzRow where
  inl := [(0, 1, 2), (4, 4, 32)]
  who := .mgmt
  reads := true
  table := none
  chk := fun _ c _ => badAt [(decide (1000000 < c.arg 4 4), 4)]
  run := fun _ j m =>
    let c := j.cmd
    j.ok 0 (publishTime { m with tm := { m.tm with gmOn := bit (c.arg 0 1) 0, ppsOn := bit (c.arg 0 1) 1, ppsDly := c.arg 4 4 } })

def azTimeOfDay : AzRow where
  inl := [(0, 8, 44), (8, 8, 64)]
  who := .mgmt
  reads := true
  table := none
  chk := fun _ c _ => badAt [(decide (999999999 < c.arg 8 8 % 2 ^ 30), 8)]
  run := fun _ j m =>
    let c := j.cmd
    j.ok 0 (each dies (fun d m => wr F.ETL_TOD_FRAME_FRAME d 0 (c.arg 0 8)
      (wr F.ETL_TOD_VALUE_SECONDS d 0 (c.arg 8 8 / 2 ^ 30) (wr F.ETL_TOD_VALUE_NANOS d 0 (c.arg 8 8 % 2 ^ 30) m))) m)

/-! ## Power states (R483 to R489, R515, R559) -/

/-- SCAN is in force: no die sleeps or wakes (R535). -/
def scanOn (m : Mod) : Bool := m.sec.debug == 3

def azDieSleep : AzRow where
  inl := [(0, 1, 8), (1, 1, 1)]
  who := .pf
  reads := true
  table := none
  chk := fun _ c m =>
    orFail (badAt [(decide (3 < c.die), 0)])
      (firstFail [(scanOn m || !dieActive c.die m, St.dieNotReady, 0), (dieTimed c.die m, St.dieNotReady, 1)])
  run := fun _ j m => j.await (.drain j.cmd.die (bit (j.cmd.arg 1 1) 0)) (setDrain j.cmd.die true m)

def azDieWake : AzRow where
  inl := [(0, 1, 8)]
  who := .pf
  reads := true
  table := none
  chk := fun _ c m => orFail (inStates c [DieSt.sleep] m) (firstFail [(scanOn m, St.dieNotReady, 0)])
  run := fun _ j m => j.await (.dieBack j.cmd.die false) (dieWake j.cmd.die m)

/-- The ACTIVE die that keeps the module from sleeping. -/
def standbyBad (m : Mod) : Option (Nat × Nat) :=
  if scanOn m then some (St.dieNotReady, 0) else ((activeDies m).find? (fun d => dieTimed d m)).map (fun d => (St.dieNotReady, d))

def azStandby (down : Bool) : AzRow where
  inl := []
  who := .mgmt
  reads := true
  table := none
  chk := fun _ _ m => standbyBad m
  run := fun _ j m => j.await (.drainAll down) (each (activeDies m) (fun d m => setDrain d true m) m)

def azResume : AzRow where
  inl := []
  who := .mgmt
  reads := true
  table := none
  chk := fun _ _ m => (railBad m).map (fun n => (St.dieNotReady, n))
  run := fun _ j m =>
    let m := { m with flash := { m.flash with passMap := none } }
    j.await .wakeAll (each dies dieWake m)

/-! ## Faults (R496, R499, R507, R509, R510) -/

/-- FAULT_LOG_READ: up to n records, as many as ARG_LEN gives room for. -/
def azFaultLog : AzRow where
  inl := [(0, 4, 32), (4, 4, 32)]
  who := .any
  reads := false
  table := none
  chk := fun _ c _ =>
    if c.arg 4 4 = 0 ∨ 8192 < c.arg 4 4 then some (St.badArgument, 4) else none
  run := fun _ j m =>
    let c := j.cmd
    let mine := fun (r : FaultRec) => match c.iss with
      | none => true
      | some (d, f) => isPf d f m || r.fn == some f && r.die == d
    let l := ((m.flt.log.filter (fun r => mine r && decide (c.arg 0 4 ≤ r.seq))).reverse).take (min (c.arg 4 4) (c.argLen / 64))
    j.okData (l.flatMap recBytes) l.length ((m.flt.log.map FaultRec.seq).foldl max 0) m

/-- The log's record of a Shepherd unit with a number. -/
def shepRec (seq : Nat) (m : Mod) : Option FaultRec := m.flt.log.find? (fun r => r.seq == seq && r.die == 4)

def azFaultClear : AzRow where
  inl := [(0, 4, 32)]
  who := .pf
  reads := true
  table := none
  chk := fun _ c m => badAt [((shepRec (c.arg 0 4) m).isNone, 0)]
  run := fun _ j m =>
    match (shepRec (j.cmd.arg 0 4) m).filter (fun r => r.isOpen) with
    | none => j.ok 0 m
    | some r =>
      let x := clearRec 4 r.unit m
      j.ok (b2n (!x.2)) x.1

/-- Arguments that name a fault source: bytes 0 to 2. -/
def srcBad (c : AzCmd) : List (Bool × Nat) :=
  [(decide (4 < c.die), 0), (decide (c.die ≤ 4) && !unitKnown c.die (c.arg 1 1), 1), (!sourceKnown (c.arg 1 1) (c.arg 2 1), 2)]

/-- A worker die that takes no command about its units. -/
def srcRefused (c : AzCmd) (m : Mod) : Option (Nat × Nat) := firstFail [(decide (c.die ≤ 3) && dieRefuses c.die m, St.dieNotReady, 0)]

def azReactSet : AzRow where
  inl := [(0, 1, 8), (1, 1, 8), (2, 1, 8), (3, 1, 6)]
  who := .pf
  reads := true
  table := none
  chk := fun _ c m => orFail (badAt (srcBad c)) (srcRefused c m)
  run := fun _ j m =>
    let c := j.cmd
    let m := setReact c.die (c.arg 1 1) (c.arg 2 1) (c.arg 3 1) m
    j.ok (reactMask c.die (c.arg 1 1) (c.arg 2 1) (severity (c.arg 2 1) 0) m) m

def azInject : AzRow where
  inl := [(0, 1, 8), (1, 1, 8), (2, 1, 8), (3, 1, 8), (8, 8, 64)]
  who := .mgmt
  reads := true
  table := none
  chk := fun _ c m => orFail (badAt ((c.arg 3 1 == 0, 3) :: srcBad c)) (srcRefused c m)
  run := fun _ j m =>
    let c := j.cmd
    let m := (List.range (c.arg 3 1)).foldl (fun m _ => raiseInj true c.die (c.arg 1 1) (c.arg 2 1) 0 (c.arg 8 8) none m) m
    if m.flt.due.contains .stop then m else j.ok 1 m

/-! ## Security (R522, R527 to R532) -/

def azSecCommit : AzRow where
  inl := [(0, 1, 1)]
  who := .mgmt
  reads := true
  table := none
  chk := fun _ _ _ => none
  run := fun fz j m => j.ok (max fz.fsvn (min 64 m.sec.svn)) (secCommit (bit (j.cmd.arg 0 1) 0) m)

def azNonce : AzRow where
  inl := []
  who := .mgmt
  reads := false
  table := none
  chk := fun _ c _ => badAt [tooShort c 32]
  run := fun _ j m => j.okData (nonceBytes m) 0 0 m

/-- The token of a command and the owner's key behind it. -/
def AzCmd.token (c : AzCmd) : Bytes := sub c.data 0 184
def AzCmd.ownerKey (c : AzCmd) : Bytes := sub c.data 184 96

def azUnlock : AzRow where
  inl := []
  who := .mgmt
  reads := true
  table := none
  chk := fun fz c m =>
    orFail (badAt [tooShort c (if rdLE c.data 2 1 = 1 then 280 else 184)])
      (firstFail [(c.checkOnly && !(presentToken fz c.token c.ownerKey m).2, St.dieNotReady, 0)])
  run := fun fz j m =>
    let r := presentToken fz j.cmd.token j.cmd.ownerKey m
    if r.2 then j.ok r.1.sec.debug r.1 else j.fail St.dieNotReady 0 r.1.sec.debug r.1

def azLock : AzRow where
  inl := []
  who := .pf
  reads := true
  table := none
  chk := fun _ _ m => firstFail [(decide (2 ≤ m.sec.debug), St.dieNotReady, 0)]
  run := fun _ j m => j.ok (debugLock m).1.sec.debug (debugLock m).1

def azLifecycle : AzRow where
  inl := [(0, 1, 8)]
  who := .mgmt
  reads := true
  table := none
  chk := fun fz c m =>
    let s := c.arg 0 1
    orFail (badAt [(!((fz.lifecycle == 0 && s == 1) || (fz.lifecycle == 1 && s == 2) || ((fz.lifecycle == 1 || fz.lifecycle == 2) && s == 3)), 0)
        , (decide (s = 3 ∧ c.argLen < 184), 40 + c.argLen)])
      (firstFail [(c.checkOnly && decide ((lifecycleAdvance fz s c.token m).2 ≠ St.ok), St.dieNotReady, 0)])
  run := fun fz j m =>
    let r := lifecycleAdvance fz (j.cmd.arg 0 1) j.cmd.token m
    if r.2 = St.ok then j.ok (j.cmd.arg 0 1) r.1 else j.fail r.2 0 0 r.1

def azOwnerKey : AzRow where
  inl := []
  who := .mgmt
  reads := true
  table := none
  chk := fun fz c m =>
    orFail (badAt [tooShort c 48]) (firstFail [(decide ((ownerKeySet fz (sub c.data 0 48) m).2 ≠ St.ok), St.dieNotReady, 0)])
  run := fun fz j m => j.ok 0 (ownerKeySet fz (sub j.cmd.data 0 48) m).1

/-! ## Shepherd counters (R546) -/

/-- A counter register: COUNT in bits 47 to 0, WRAPPED in bit 63. -/
def ctrWord (d i : Nat) (m : Mod) : Nat :=
  NMap.get 0 m.ctr (d * 1024 + i) + b2n (NMap.get false m.ctrWrap (d * 1024 + i)) * 2 ^ 63

def azCntRead : AzRow where
  inl := [(0, 2, 16), (2, 2, 16)]
  who := .pf
  reads := false
  table := none
  chk := fun _ c _ =>
    let a := c.arg 0 2
    let n := c.arg 2 2
    badAt [(decide (191 < a), 0), (decide (n = 0 ∨ 192 < n) || decide (a ≤ 191 ∧ 192 < a + n), 2), tooShort c (16 * n)]
  run := fun _ j m =>
    let a := j.cmd.arg 0 2
    let n := j.cmd.arg 2 2
    j.okData ((List.range n).flatMap (fun i => leBytes 8 (ctrWord 4 (a + i) m) ++ leBytes 8 (now 4 m))) n 0 m

/-! ## The command set (R87, R483, R509, R527, R546) -/

/-- The command of an opcode; FAULT_INJECT exists only in BLANK (R510). -/
def azRow (op : Nat) (m : Mod) : Option AzRow :=
  match op with
  | 0x01 => some azQuery
  | 0x10 => some azPastureCreate
  | 0x11 => some azPastureDestroy
  | 0x12 => some azPastureKey
  | 0x20 => some azPathLoad
  | 0x21 => some azPassLoad
  | 0x22 => some azFlockLoad
  | 0x30 => some azCalLoad
  | 0x31 => some azCalSwitch
  | 0x32 => some azResConfirm
  | 0x33 => some azResWithdraw
  | 0x40 => some azProgLoad
  | 0x41 => some azProgUnload
  | 0x50 => some azBudgetSet
  | 0x51 => some azDieSleep
  | 0x52 => some azDieWake
  | 0x53 => some (azStandby false)
  | 0x54 => some azResume
  | 0x55 => some (azStandby true)
  | 0x60 => some azFaultLog
  | 0x61 => some azFaultClear
  | 0x62 => some azReactSet
  | 0x63 => if m.sec.lifecycle = 0 then some azInject else none
  | 0x64 => some azCntRead
  | 0x70 => some azBufPartition
  | 0x71 => some azPoolAlloc
  | 0x72 => some azPoolFree
  | 0x80 => some azDieFence
  | 0x81 => some azDieRestore
  | 0x82 => some azDieActivate
  | 0x83 => some azUnitRestore
  | 0x90 => some azTimeRole
  | 0x91 => some azTimeOfDay
  | 0xA0 => some azSecCommit
  | 0xA1 => some azNonce
  | 0xA2 => some azUnlock
  | 0xA3 => some azLock
  | 0xA4 => some azLifecycle
  | 0xA5 => some azOwnerKey
  | _ => none

/-! ## The checks (R89) -/

/-- Step 1: reserved fields, ARG_LEN and ARG_ADDR; INLINE has no bit set but those its command names. -/
def azMalformed (c : AzCmd) (row : Option AzRow) : Bool :=
  let used := fun (l : List (Nat × Nat × Nat)) => l.foldl (fun a e => Nat.lor a ((2 ^ e.2.2 - 1) * 256 ^ e.1)) 0
  decide (2 ≤ c.flags) || !zeroAt c.ent 3 1 || !zeroAt c.ent 12 4 || decide (67108864 < c.argLen) || decide (c.argAddr % 64 ≠ 0)
    || (match row with
        | some r => Nat.lor (c.arg 0 40) (used r.inl) != used r.inl
        | none => false)

/-- The issuer owns the object of an OWNER command, or it does not exist (R87). -/
def ownsObject (c : AzCmd) (d f : Nat) (m : Mod) : Bool :=
  match c.op with
  | 0x11 => !pastureAt c.die (c.arg 2 2) m
  | 0x12 => !dies.any (fun x => pastureAt x (c.arg 2 2) m)
  | 0x41 => (match c.prog m with | some P => P.fn == f && P.src == d | none => true)
  | _ => (match (poolOf c.die m).find? (fun a => a.off == c.arg 8 8) with | some a => a.fn == f && a.src == d | none => true)

/-- Step 3: the issuer class. -/
def mayIssue (w : Who) (c : AzCmd) (m : Mod) : Bool :=
  match c.iss with
  | none => true
  | some (d, f) =>
    match w with
    | .any => true
    | .owner => isPf d f m || ownsObject c d f m
    | .pf => isPf d f m
    | .mgmt => false

/-- Step 4: the argument buffer can be read. -/
def bufferOk (r : AzRow) (c : AzCmd) (m : Mod) : Bool × Mod :=
  if !r.reads ∨ c.argLen = 0 then (true, m)
  else match c.iss with
    | none => (true, m)
    | some (d, f) =>
      let x := accessBus d f c.argAddr c.argLen 0 m
      (x.1 && c.buf.isSome, x.2)

/-- Steps 5 to 9 and the effect. -/
def azApply (fz : Fuse) (r : AzRow) (j : Job) (m : Mod) : Mod :=
  match r.chk fz j.cmd m with
  | some (s, dt) => j.fail s dt 0 m
  | none => if j.cmd.checkOnly then j.ok 0 m else r.run fz j m

/-- A load that must wait behind an earlier one of its table (R75). -/
def azBlocked (r : AzRow) (j : Job) (before : List Job) : Bool :=
  match r.table with
  | some t => !j.cmd.checkOnly && before.any (excludes t j.cmd.die)
  | none => false

/-- A command is taken now: counted, checked, carried out. Its buffer holds ARG_LEN bytes. -/
def azPerform (fz : Fuse) (c : AzCmd) (m : Mod) : Mod :=
  let c := { c with buf := c.buf.map (·.take c.argLen) }
  let m := count 4 (64 + c.op / 16 % 16) 1 (count 4 10 1 m)
  let row := azRow c.op m
  let j : Job := { cmd := c, t0 := now 4 m, wait := .wakeAll, mute := false, res0 := 0, res1 := 0 }
  if azMalformed c row then j.fail St.malformed 0 0 m
  else match row with
    | none => j.fail St.unknownOpcode 0 0 m
    | some r =>
      if !mayIssue r.who c m then j.fail St.accessDenied 0 0 m
      else
        let b := bufferOk r c m
        if !b.1 then j.fail St.hostAbort 0 0 b.2
        else if azBlocked r j b.2.azx.jobs then j.await (.turn (r.table.getD 0)) b.2
        else azApply fz r j b.2

/-! ## Taking (R80, R81, R84) -/

/-- What the module answers when its boot has failed: its identity (family, stepping, order, dies fused in) and the boot
failure record (R69). -/
def bootAnswer (m : Mod) : Bytes := leBytes 1 0x09 ++ leBytes 1 0x01 ++ leBytes 1 (orderOf m) ++ leBytes 1 m.conf.mask ++ m.shep.bootRec

/-- While the boot has failed, and after STOP_MODULE, few commands of the management interface are answered (R69, R504). -/
def mgmtTake (fz : Fuse) (c : AzCmd) (m : Mod) : Mod :=
  if m.shep.bootFail then emit (.mgmt 3 (bootAnswer m)) m
  else if !m.shep.booted then m
  else if m.flt.stopped && c.op != 0x01 && c.op != 0x60 then m
  else azPerform fz c m

/-- The functions of a die whose AZX_CTRL.ENABLE is not as reset leaves it, or waits to be: no other ring can be on. -/
def ringsSet (d : Nat) (m : Mod) : List Nat :=
  let mine := fun (e : Nat × Nat) => keyReg e.1 == F.AZX_CTRL_ENABLE.reg && keyLo e.1 == F.AZX_CTRL_ENABLE.lo && keyDie e.1 == d
  ((m.regs.filter mine) ++ (m.live.filter mine)).map (fun e => keyIdx e.1)

/-- The functions whose ring has a command that could be taken now, by the number of R81's round robin. -/
def takeRings (m : Mod) : List Nat :=
  dies.flatMap (fun d =>
    let l := ringsSet d m
    if hostUp d m && !l.isEmpty then (allFns.filter (fun f => l.contains f && canTake d f m)).map (fun f => fk d f) else [])

/-- The source that the round robin reaches first. -/
def nextSource (l : List Nat) (m : Mod) : Option Nat := (l.find? (fun n => decide (m.azx.next ≤ n))).orElse (fun _ => l.head?)

/-- A command of this issuer, sent now, would be taken at once: it waits at the head of its ring, or it is the only one of
the management interface, and the round robin reaches it first (R81). -/
def azTurn (iss : Option (Nat × Nat)) (m : Mod) : Bool :=
  match iss with
  | none => m.azx.mgmtQ.isEmpty && !issBusy none m && nextSource (takeRings m ++ [8192]) m == some 8192
  | some (d, f) =>
    canTake d f m && nextSource (takeRings m ++ if !m.azx.mgmtQ.isEmpty && !issBusy none m then [8192] else []) m == some (fk d f)

/-- The round robin goes on after an issuer; the head of its ring moves. -/
def azFront (iss : Option (Nat × Nat)) (m : Mod) : Mod :=
  match iss with
  | none => updAzx (fun a => { a with next := 8193 }) m
  | some (d, f) => updAzx (fun a => { a with next := fk d f + 1 })
      (wr F.AZX_CMD_HEAD_INDEX d f ((rd F.AZX_CMD_HEAD_INDEX d f m + 1) % cmdSize d f m) m)

/-- A command's row: the issuer sends this command next. It is taken at once where its turn has come; otherwise one of a
function stays in its ring, and one of the management interface is queued. -/
def azRowTake (op : Nat) (fz : Fuse) (iss : Option (Nat × Nat)) (ent : Bytes) (buf : Option Bytes) (m : Mod) : Mod :=
  let c : AzCmd := { iss := iss, ent := leBytes 2 op ++ (padTo 64 ent).drop 2, buf := buf }
  match iss with
  | none =>
    if m.shep.bootFail ∨ !m.shep.booted then mgmtTake fz c m
    else if azTurn none m then mgmtTake fz c (azFront none m)
    else updAzx (fun a => { a with mgmtQ := a.mgmtQ ++ [c] }) m
  | some (d, f) => if azTurn (some (d, f)) m then azPerform fz c (azFront (some (d, f)) m) else m

/-- MCTP_COMMAND_RECEIVED: the command is queued for its turn. -/
def mctpReceived (ent : Bytes) (buf : Option Bytes) (m : Mod) : Mod :=
  if m.shep.bootFail then emit (.mgmt 3 (bootAnswer m)) m
  else if !m.shep.booted then m
  else updAzx (fun a => { a with mgmtQ := a.mgmtQ ++ [{ iss := none, ent := padTo 64 ent, buf := buf }] }) m

/-- The sources of commands that could be taken now. -/
def takeable (m : Mod) : List Nat := takeRings m ++ (if !m.azx.mgmtQ.isEmpty && !issBusy none m then [8192] else [])

/-- AZX_COMMAND_TAKE: the next command in round robin; `ans` is what host memory answers. -/
def azTake (fz : Fuse) (ans : HostAns) (m : Mod) : Mod :=
  match nextSource (takeable m) m with
  | none => m
  | some n =>
    let m := updAzx (fun a => { a with next := n + 1 }) m
    if n = 8192 then
      match m.azx.mgmtQ with
      | [] => m
      | c :: q => mgmtTake fz c (updAzx (fun a => { a with mgmtQ := q }) m)
    else
      let d := n / 2048
      let f := n % 2048
      let h := rd F.AZX_CMD_HEAD_INDEX d f m
      let a := cur F.AZX_CMD_BASE_ADDR d f m * 64 + 64 * h
      let x := accessBus d f a 64 0 m
      if !x.1 then ringErr d f x.2
      else
        let e := readPieces d f false ans [(a, 64)] x.2
        match e.1 with
        | none => ringErr d f e.2
        | some ent =>
          let c : AzCmd := { iss := some (d, f), ent := ent, buf := none }
          let m := wr F.AZX_CMD_HEAD_INDEX d f ((h + 1) % cmdSize d f e.2) e.2
          let want := match azRow c.op m with | some r => r.reads && decide (c.argLen ≠ 0) && decide (c.argLen ≤ 67108864) | none => false
          if want then
            let b := readPieces d f false ans [(c.argAddr, c.argLen)] m
            azPerform fz { c with buf := b.1 } b.2
          else azPerform fz c m

/-! ## Acknowledgements, frames, turns -/

/-- Replace a job. -/
def swapJob (a b : Job) (m : Mod) : Mod :=
  updAzx (fun x => { x with jobs := x.jobs.map (fun j => if j = a then b else j) }) m

/-- A CAL_SWITCH comes too late: no die changes (R91). -/
def switchLate (j : Job) (m : Mod) : Mod := endJob j St.tooLate 0 0 0 (switchClear m)

/-- The working copy of a die becomes the one pushed; a PATH_LOAD drops only the cached records of its range (R192). -/
def takePush (c : AzCmd) (t d : Nat) (m : Mod) : Mod :=
  if t = 4 ∧ c.op = 0x31 then
    wrB F.CAL_STATUS_SWITCH_PENDING d 0 true (wrB F.CAL_SWITCH_VALID d 0 true (wr F.CAL_SWITCH_FRAME d 0 (c.arg 0 8) m))
  else if t = 0 then
    let kept := NMap.keep (fun k => !(k / 2 ^ 20 == d && decide (c.arg 0 4 ≤ k % 2 ^ 20) && decide (k % 2 ^ 20 < c.arg 0 4 + c.arg 4 4))) m.xb.cache
    updXb (fun y => { y with cache := kept }) (pushTable 0 d m)
  else pushTable t d m

/-- TABLE_PUSH_ACK: die `d` acknowledges the table that is being pushed to it (R74). -/
def pushAck (d t : Nat) (m : Mod) : Mod :=
  match m.azx.jobs.find? (fun j => j.wait.pushes t d) with
  | none => m
  | some j =>
    if t = 4 ∧ frameBegun (j.cmd.arg 0 8) m then switchLate j m
    else match j.wait with
      | .push u w a => takePush j.cmd t d (swapJob j { j with wait := .push u (setBit w d false) (setBit a d true) } m)
      | _ => m

/-- CALENDAR_SWITCH_FRAME (R222, R91). -/
def calSwitchFrame (d : Nat) (m : Mod) : Mod :=
  match m.azx.jobs.find? (fun j => j.wait.switching) with
  | some j =>
    if dieActive d m then switchLate j (runTo d (j.cmd.arg 0 8 * 1048576) m) else m
  | none => updWaits (Wait.switched d) (calendarSwitch d m)

/-- A load that every die has acknowledged ends. -/
def pushDone (j : Job) (m : Mod) : Mod :=
  match j.wait with
  | .push t _ acked =>
    if t = 4 then
      let left := dieMask (fun d => dieActive d m && rdB F.CAL_SWITCH_VALID d 0 m)
      swapJob j { j with wait := .frame (j.cmd.arg 0 8) left } m
    else endJob j St.ok acked j.res0 j.res1 m
  | .frame _ _ => switchDone j m
  | _ => m

/-- The first load whose turn has come; the first list holds the loads that run and those that wait before it. -/
def turnReady (m : Mod) : List Job → List Job → Option Job
  | _, [] => none
  | before, j :: l =>
    match j.wait, azRow j.cmd.op m with
    | .turn _, some r => if azBlocked r j before then turnReady m (before ++ [j]) l else some j
    | _, _ => turnReady m (before ++ [j]) l

/-- Loads that are done end, and those whose turn it is begin; held responses go out. -/
def azxSettle (fz : Fuse) : Nat → Mod → Mod
  | 0, m => m
  | n + 1, m =>
    match m.azx.jobs.find? (fun j => match j.wait with | .push _ 0 _ => true | .frame _ 0 => true | _ => false) with
    | some j => azxSettle fz n (pushDone j m)
    | none =>
      match turnReady m (m.azx.jobs.filter (fun j => match j.wait with | .push _ _ _ => true | .frame _ _ => true | _ => false)) m.azx.jobs with
      | some j =>
        let m := updAzx (fun a => { a with jobs := a.jobs.erase j }) m
        (match azRow j.cmd.op m with
         | some r => azxSettle fz n (azApply fz r j m)
         | none => azxSettle fz n m)
      | none => if m.azx.held.isEmpty then m else flushHeld m

end Sys2Proof.Machine
end

