-- ==== Sys2Proof/Machine/Counters.lean ====
section
/-! DEFINITION. Counter pages (spec/21, R537 to R545). -/
namespace Sys2Proof.Machine

/-- The group of counter `i` of a die (R538). -/
def ctrGroup (i : Nat) : Nat :=
  if i < 384 then 0 else if i < 448 then (i - 384) / 32 + 1 else if i < 512 then 3 else (i - 512) / 32 + 4

/-- The groups that function `f` may read, as in force (R545). -/
def ctrAllowed (d f : Nat) (m : Mod) : Nat := cur F.CNT_FN_ALLOW_GROUPS d f m

/-- What a counter of function `f`'s page reads: zero with WRAPPED 0 where its group is not allowed (R545). -/
def ctrSeen (d f i : Nat) (m : Mod) : Nat := if bit (ctrAllowed d f m) (ctrGroup i) then ctrWord d i m else 0

/-- COUNTER_WRAP: a counter passes from 2^48 − 1 to 0 and its WRAPPED bit is set (R537). -/
def ctrWrap (d i : Nat) (m : Mod) : Mod :=
  if (d < 4 ∧ i < 704) ∨ (d = 4 ∧ i < 192) then
    { m with ctr := NMap.set 0 m.ctr (d * 1024 + i) 0, ctrWrap := NMap.set false m.ctrWrap (d * 1024 + i) true }
  else m

/-- A write of 1 to WRAPPED through the PF's page (R542, R544). -/
def ctrClear (d i : Nat) (m : Mod) : Mod := { m with ctrWrap := NMap.set false m.ctrWrap (d * 1024 + i) false }

/-- The groups with a counter whose WRAPPED is set. -/
def wrapGroups (d : Nat) (m : Mod) : Nat :=
  let ks := (m.ctrWrap.filter (fun e => e.1 / 1024 == d && e.2)).map (fun e => ctrGroup (e.1 % 1024))
  ((List.range 10).map (fun g => if ks.contains g then 2 ^ g else 0)).sum

end Sys2Proof.Machine
end

