-- ==== Sys2Proof/Machine/Operands.lean ====
section
/-! DEFINITION. The operand forms of a register access: where an offset of a function's BARs leads (R43, R44, R48 to
R52, R70, R270, R272, R485, R544).  Offsets from 0x400_0000 on are the function's BAR2. -/
namespace Sys2Proof.Machine

/-- Where four aligned bytes lead: a register's element (its upper half when `hi`; a read-only copy when `ro`), a
double word of the MSI-X table or of the PBA, a user page's register, a PF's configuration space, or nothing.  `dead`: a BAR2 access that is
discarded, its read all ones; `mute`: one that is not counted either (R70). -/
inductive Place where
  | reg (r : Reg) (i : Nat) (hi ro : Bool)
  | msix (vec word : Nat)
  | pba (word : Nat)
  | page (q off : Nat)
  | dead
  | mute
  | cfg (pf off : Nat)
  | none
  deriving DecidableEq, Repr

/-- The element of an array register at a distance from element 0 (dimensions with the larger stride first). -/
def elemOf : List (Nat × Nat × Nat) → Nat → Option Nat
  | [], o => if o = 0 then some 0 else none
  | (n, s, k) :: r, o => if o / s < n then (elemOf r (o % s)).map (o / s * k + ·) else none

/-- The element that a register's selection adds to its place in an array, or that it stands for; none where a VF's
selection is not its own (R272, R364). -/
def selElem (r : Reg) (d f e : Nat) (m : Mod) : Option Nat :=
  let kind := if cur F.WQU_QSEL_KIND d f m = 3 then 0 else cur F.WQU_QSEL_KIND d f m
  let n := cur F.WQU_QSEL_NUMBER d f m
  let own := if isPf d f m then (if kind = 2 then groupPf d n m else queuePf d n m) == pfOf d f m
    else kind != 2 && ownerOf d n m == f
  let obj := if !own ∨ (kind = 2 ∧ 1024 ≤ n) then none else some (qix kind n)
  let dom := cur F.MTC_DSEL_DOMAIN d f m
  match r.sel with
  | .plain => some e
  | .fn => some f
  | .pf => some (pfOf d f m)
  | .wqu => obj
  | .wquQ => if kind = 0 then obj else none
  | .wquR => if kind = 1 then obj else none
  | .wquG => if kind = 2 then obj else none
  | .mtc => if isPf d f m || cur F.MTC_DCFG_FN d dom m == f then some dom else none
  | .drv => some (cur F.DRV_PSEL_PROGRAM d 0 m)
  | .tland => some (cur F.RMA_TLAND_SEL_RES d 0 m)
  | .calres => some (cur F.CAL_RES_SEL_RES d 0 m)

/-- Whether the register lies at a BAR0 offset of the PF, and which element and half of it. -/
def regAt (r : Reg) (d f off : Nat) (m : Mod) : Option (Nat × Bool) :=
  if off < r.off then none
  else
    match elemOf r.dims (off - r.off) with
    | some e => (selElem r d f e m).map (·, false)
    | none =>
      if r.bits = 64 ∧ 4 ≤ off - r.off then
        (elemOf r.dims (off - r.off - 4)).bind (fun e => (selElem r d f e m).map (·, true))
      else none

/-- The register found among some rows. -/
def findReg (d f off : Nat) (ro : Bool) (m : Mod) : List Reg → Place
  | [] => .none
  | r :: l =>
    match regAt r d f off m with
    | some (i, hi) => .reg r i hi ro
    | none => findReg d f off ro m l

/-- The rows of the block that an offset falls in (R51); rows of other blocks cannot hold it. -/
def blockRows (off : Nat) : List Reg :=
  match off / 0x100000 with
  | 0x00 => regsGEN | 0x01 => regsHIF | 0x02 => regsAZX | 0x03 => regsETL | 0x04 => regsLNE | 0x05 => regsLNK
  | 0x06 => regsRTE | 0x07 => regsRTE | 0x08 => regsCAL | 0x09 => regsCND | 0x0A => regsWQU | 0x0B => regsRMA
  | 0x0C => regsCRK | 0x0D => regsMTC | 0x0E => regsDRV | 0x0F => regsRDU | 0x10 => regsXLT | 0x11 => regsACP
  | 0x12 => regsPWN | 0x13 => regsTLY | 0x14 => regsFLT | 0x15 => regsBST | 0x16 => regsSEC | 0x17 => regsCNT
  | 0x18 => regsSMP | _ => []

/-- The wait slot that a VF reaches: the lowest assigned to it (R336). -/
def slotOf (d f : Nat) (m : Mod) : Option Nat :=
  (List.range 64).find? (fun k => curB F.CRK_SLOT_CFG_ENABLE d k m && cur F.CRK_SLOT_CFG_FN d k m == f)

/-- The PF BAR0 offset that an offset of VF BAR0 stands for, and whether it is a read-only copy (R50). -/
def vfOffset (d f off : Nat) (m : Mod) : Option (Nat × Bool) :=
  if off < 0x8 then some (F.HIF_FN_STATE.reg + 8 * f + off, true)
  else if 0x20 ≤ off ∧ off < 0x40 then some (F.CND_FN_RANGE_BASE.reg + 0x20 * f + (off - 0x20), true)
  else if off < 0x1000 then none
  else if off < 0x2000 then some (0x200000 + (off - 0x1000), false)
  else if off < 0x3000 then some (0xA01000 + (off - 0x2000), false)
  else if off < 0x4000 then (slotOf d f m).map (fun k => (0xC10000 + 0x1000 * k + (off - 0x3000), false))
  else if off < 0x6000 then some (0x1710000 + (off - 0x4000), false)
  else if off < 0x6020 then some (0x1000020 + (off - 0x6000), false)
  else if 0x7000 ≤ off ∧ off < 0x8000 then some (0xD01000 + (off - 0x7000), false)
  else none

/-- The die has finished the return procedure and waits in QUARANTINE for DIE_ACTIVATE (R70). -/
def diesWaits (d : Nat) (m : Mod) : Bool := dieState d m == DieSt.quarantine && NMap.get false m.shep.waits d

/-- The blocks that the endpoint of a sleeping die (R485), or of a held die that waits (R70), serves. -/
def blockServed (d off : Nat) (m : Mod) : Bool :=
  if dieState d m = DieSt.sleep then [0x00, 0x01, 0x02, 0x13].contains (off / 0x100000)
  else if diesWaits d m then [0x00, 0x01, 0x02].contains (off / 0x100000)
  else true

/-- An alarm of the other PF of a bifurcated die (spec/04, "Alarms"): an access to it is discarded and counted. -/
def alarmForeign (d f off : Nat) (m : Mod) : Bool :=
  decide (0x302000 ≤ off ∧ off < 0x302200) && bifurcated d m && alarmPf d (32 + (off - 0x302000) / 16) m != f

/-- A register of half 1 of a quad that is not split, which does not exist (R144). -/
def halfAbsent (d off : Nat) (m : Mod) : Bool :=
  let o := off % 0x10000
  off / 0x100000 == 4 && (decide (0x18 ≤ o ∧ o < 0x1C) || decide (0x28 ≤ o ∧ o < 0x2C) || decide (0x38 ≤ o ∧ o < 0x40))
    && !rdB F.LNE_QCTRL_SPLIT d (off / 0x10000 % 16) m

/-- A register offset of the PF's BAR0, once MSI-X and the blocks served are taken into account. -/
def pfPlace (d f off : Nat) (ro : Bool) (m : Mod) : Place :=
  if !blockServed d off m || alarmForeign d f off m || halfAbsent d off m then .none else findReg d f off ro m (blockRows off)

/-- BAR2: the page and offset (R44, R50, R270). -/
def bar2Place (d f o : Nat) (m : Mod) : Place :=
  if diesWaits d m then .mute
  else if dieState d m = DieSt.sleep then .dead
  else
    match pageOf d f (o / 4096) m with
    | some q => .page q (o % 4096)
    | none => .dead

/-- Where four aligned bytes at an offset of function `f` lead. -/
def locate (d f off : Nat) (m : Mod) : Place :=
  if cfgBase ≤ off then (if isPf d f m then .cfg (pfOf d f m) (off - cfgBase) else .none)
  else if 0x4000000 ≤ off then bar2Place d f (off - 0x4000000) m
  else if isPf d f m then
    (if 0x180000 ≤ off ∧ off < 0x188000 then .msix ((off - 0x180000) / 16) (off / 4 % 4)
     else if 0x190000 ≤ off ∧ off < 0x190100 then .pba ((off - 0x190000) / 4)
     else pfPlace d f off false m)
  else if 0x8000 ≤ off ∧ off < 0x8400 then .msix ((off - 0x8000) / 16) (off / 4 % 4)
  else if 0x9000 ≤ off ∧ off < 0x9008 then .pba ((off - 0x9000) / 4)
  else match vfOffset d f off m with
    | some (o, ro) => pfPlace d f o ro m
    | none => .none

/-- An access of `f` reaches the endpoint: its link is up, the function exists and is in D0; a configuration request in any
power state while the function is not resetting (R61). -/
def reaches (d f off : Nat) (m : Mod) : Bool :=
  decide (d < 4) && rdB F.HIF_STATUS_LINK_UP d (pfOf d f m) m && fnExists d f m
    && (if cfgBase ≤ off then fnState d f m != FnSt.resetting else !inD3 d f m)

end Sys2Proof.Machine
end

