-- ==== Sys2Proof/Machine/RegView.lean ====
section
/-! DEFINITION. What a register reads: fields that are computed from the unit's own state, and all others as last
written or set by hardware (R9, R11). -/
namespace Sys2Proof.Machine

/-- The record that a unit's FLT_UREC registers show: its latest. -/
def unitRec (d u : Nat) (m : Mod) : Option FaultRec := m.flt.log.find? (fun r => r.die == d && r.unit == u)

/-- One number of it; 0 where the unit has had none. -/
def unitRecVal (d u : Nat) (f : FaultRec → Nat) (m : Mod) : Nat := ((unitRec d u m).map f).getD 0

/-- The units of a die that have an open record. -/
def openUnits (d : Nat) (m : Mod) : Nat := ((List.range 28).map (fun u => if (openRec d u m).isSome then 2 ^ u else 0)).sum

/-- A calendar's slot as CAL_SLOT shows it: OWNED and RES, or 0 where it is free (R217). -/
def slotShown (c : Option Cal) (i : Nat) : Nat := (c.bind (fun c => (NMap.find c.slots i).map (0x8000 + ·))).getD 0

/-- Accesses checked under rules older than the last change of an access-control rule (R445): at least 1 while a change
waits for its boundary. -/
def fencePending (d : Nat) (m : Mod) : Nat :=
  let waits := m.live.any (fun e => keyDie e.1 == d
    && [F.ACP_DEFAULT_PERM.reg, F.ACP_RPERM_PERM.reg, F.ACP_RATTR_ST.reg, F.ACP_RCTL_LOCK.reg].contains (keyReg e.1))
  let open_ := ((xlt d m).older.filter (fun n => m.trn.seqs.any (fun s => s.num == n && s.die == d))).length
  if waits then max 1 open_ else open_

/-- A field has a LIVE write that waits for its boundary. -/
def waitsLive (F : Fld) (d i : Nat) (m : Mod) : Bool := (NMap.find m.live (F.key d i)).isSome

/-- Command bits that read 0 (the tables of the LNK, MTC, XLT, PWN and FLT blocks). -/
def reads0 : List Fld :=
  [ F.LNK_PORT_CTRL_FLUSH, F.MTC_DCTL_RESUME, F.MTC_BIND_CMD_GO, F.XLT_INV_CMD_GO, F.XLT_LOCK_CMD_GO
  , F.PWN_PWLOG_IDX_REARM, F.PWN_WIN_CMD_COMMIT, F.FLT_UREC_CLR_CLEAR ]

/-- Whether a field is one of a list. -/
def Fld.among (F : Fld) (l : List Fld) : Bool := l.any (fun G => G.reg == F.reg && G.lo == F.lo)

/-- The GEN, HIF, ETL, RTE and CAL fields that are computed, with their values in element `i` of die `d`; a PF sees its own
link and timeout (R43, R44). -/
def viewA (d f i : Nat) (m : Mod) : List (Fld × Nat) :=
  let tags := fun p => (tagsWhere d p m).length
  let pass := NMap.get 0 (tabs d m).pass i
  let pc := 32 * d + i
  [ (F.GEN_ID_HERE_DIE, d)
  , (F.GEN_CONFIG_ORDER, orderOf m)
  , (F.GEN_CONFIG_FUSED_MASK, m.conf.mask)
  , (F.GEN_DIE_STATE_DIE0, dieShown 0 d m)
  , (F.GEN_DIE_STATE_DIE1, dieShown 1 d m)
  , (F.GEN_DIE_STATE_DIE2, dieShown 2 d m)
  , (F.GEN_DIE_STATE_DIE3, dieShown 3 d m)
  , (F.HIF_STATUS_BIFURCATED, b2n (bifurcated d m))
  , (F.HIF_STATUS_LINK_UP, rd F.HIF_STATUS_LINK_UP d (pfOf d f m) m)
  , (F.HIF_LINK_STATUS_L0P, rd F.HIF_LINK_STATUS_L0P d (pfOf d f m) m)
  , (F.HIF_LINK_STATUS_WIDTH, rd F.HIF_LINK_STATUS_WIDTH d (pfOf d f m) m)
  , (F.HIF_LINK_STATUS_SPEED, rd F.HIF_LINK_STATUS_SPEED d (pfOf d f m) m)
  , (F.HIF_CPL_TIMEOUT_TIMEOUT_US, cplTimeout d (pfOf d f m) m)
  , (F.HIF_TAG_STATUS_QUARANTINED, tags (fun t g => decide (t < 0x300) && g.quar))
  , (F.HIF_TAG_STATUS_INBOUND_IN_USE, tags (fun t _ => decide (0x300 ≤ t)))
  , (F.HIF_TAG_STATUS_GENERAL_IN_USE, tags (fun t g => decide (t < 0x300) && !g.quar))
  , (F.HIF_FN_TAGS_IN_USE, tagsHeld d i m)
  , (F.ETL_PORT_MEAS_SOURCE, b2n (m.tm.src == some pc))
  , (F.AZX_STATUS_STALLED, b2n (stalled d i m))
  , (F.ETL_NOW_NS_NS, now d m)
  , (F.RTE_PASS_LO_MEMBERS, pass % 2 ^ 64)
  , (F.RTE_PASS_HI_MEMBERS, pass >>> 64)
  , (F.RTE_PORT_FLITS_FLITS_OUT, NMap.get 0 m.ctr (d * 1024 + 12 * i))
  , (F.RTE_PORT_PKTS_PKTS_OUT, NMap.get 0 m.ctr (d * 1024 + 12 * i + 1))
  , (F.RTE_PORT_STALL_STALL_CYCLES, NMap.get 0 m.ctr (d * 1024 + 12 * i + 2))
  , (F.RTE_PORT_DEPTH_REQ, backlog pc 0 m)
  , (F.RTE_PORT_DEPTH_RSP, backlog pc 1 m)
  , (F.RTE_PORT_DEPTH_TIM, backlog pc 2 m)
  , (F.RTE_PORT_DEPTH_BYP, backlog pc 3 m)
  , (F.CAL_RES_VIEW0_POSTS, (resRun d i m).posts.length)
  , (F.CAL_RES_VIEW0_ROLE, ((resEnt d i m).map (fun e => e.role % 8)).getD 0)
  , (F.CAL_RES_VIEW1_LAST_RELEASE, (resRun d i m).lastRelease)
  , (F.CAL_RES_VIEW2_TOK_LAST, (resRun d i m).tok)
  , (F.CAL_PORT_STATE_CAP_SHADOW, ((NMap.find (tabs d m).calS pc).map Cal.cap).getD 0)
  , (F.CAL_PORT_STATE_CAP_ACTIVE, ((NMap.find (tabs d m).calA pc).map Cal.cap).getD 0)
  , (F.CAL_PORT_STATE_OWNED, ((NMap.find (tabs d m).calA pc).map (fun c => c.slots.length)).getD 0) ]

/-- CAL_SLOT: two slots of a copy of a port's calendar. -/
def viewSlot (d i : Nat) (m : Mod) : List (Fld × Nat) :=
  let pc := 32 * d + i / 4096
  let c := if i / 2048 % 2 = 0 then NMap.find (tabs d m).calA pc else NMap.find (tabs d m).calS pc
  [ (F.CAL_SLOT_SLOT_ODD, slotShown c (2 * (i % 2048) + 1)), (F.CAL_SLOT_SLOT_EVEN, slotShown c (2 * (i % 2048))) ]

/-- Computed fields of the WQU, RDU, XLT, ACP, TLY and SEC blocks. -/
def viewB (fz : Fuse) (d i : Nat) (m : Mod) : List (Fld × Nat) :=
  [ (F.RDU_DRAW_OUT_DRAW, rduDraw (cur F.RDU_DRAW_SEED_SEED d 0 m) (cur F.RDU_DRAW_ARG_INSTANCE d 0 m) (cur F.RDU_DRAW_ARG_INDEX d 0 m))
  , (F.XLT_INV_CMD_BUSY, b2n (rdB F.XLT_INV_CMD_BUSY d i m || waitsLive F.XLT_INV_CMD_GO d i m))
  , (F.XLT_LOCK_CMD_BUSY, b2n (waitsLive F.XLT_LOCK_CMD_GO d i m))
  , (F.XLT_CTX_CFG_DRAINING, b2n (rdB F.XLT_CTX_CFG_DRAINING d i m || (curB F.XLT_CTX_CFG_ENABLE d i m && !rdB F.XLT_CTX_CFG_ENABLE d i m)))
  , (F.ACP_FENCE_PENDING, fencePending d m)
  , (F.TLY_UNIT_E_ENERGY, NMap.get 0 m.tly.energy (lk d i))
  , (F.SEC_STATUS_ZERO_FAIL, b2n m.sec.zeroFail)
  , (F.SEC_STATUS_ZEROISED, b2n m.sec.zeroised)
  , (F.SEC_STATUS_KEY0_REVOKED, b2n fz.revoked0)
  , (F.SEC_STATUS_SLOT, m.sec.slot)
  , (F.SEC_STATUS_KEY_ID, m.sec.keyId)
  , (F.SEC_STATUS_DEBUG, m.sec.debug)
  , (F.SEC_STATUS_LIFECYCLE, m.sec.lifecycle)
  , (F.SEC_SVN_FW_VERSION, m.sec.fwVer)
  , (F.SEC_SVN_FSVN, fz.fsvn)
  , (F.SEC_SVN_SVN, m.sec.svn)
  , (F.SEC_IDE_SECURE, ((List.range 4).map (fun n => if NMap.get false m.sec.ide (d * 8 + 4 * i + n) then 2 ^ n else 0)).sum)
  , (F.SEC_DEBUG_SESSIONS, m.sec.sessions.length)
  , (F.SEC_DEBUG_FAILS, m.sec.fails) ]

/-- Computed fields of the FLT block: unit `i`'s record, and in FLT_REACT unit and source. -/
def viewFlt (d i : Nat) (m : Mod) : List (Fld × Nat) :=
  let v := fun f => unitRecVal d i f m
  let sev := severity (i % 32) 0
  [ (F.FLT_STATUS_OPEN, openUnits d m)
  , (F.FLT_UREC_INFO_SEQ, v FaultRec.seq)
  , (F.FLT_UREC_INFO_OPEN, v (fun r => b2n r.isOpen))
  , (F.FLT_UREC_INFO_PERSISTS, v (fun r => b2n (r.pers != 0)))
  , (F.FLT_UREC_INFO_SEVERITY, v FaultRec.sev)
  , (F.FLT_UREC_INFO_REACTED, v FaultRec.reacted)
  , (F.FLT_UREC_INFO_SOURCE, v FaultRec.src)
  , (F.FLT_UREC_INFO_MERGES, v FaultRec.merges)
  , (F.FLT_UREC_CAUSE_CAUSE, v FaultRec.cause)
  , (F.FLT_UREC_FIRST_FIRST, v FaultRec.first)
  , (F.FLT_UREC_LAST_LAST, v FaultRec.last)
  , (F.FLT_UREC_ADDR_ADDR, v FaultRec.addr)
  , (F.FLT_UREC_DETAIL_DETAIL, v FaultRec.detail)
  , (F.FLT_UREC_FN_FN_VALID, v (fun r => b2n r.fn.isSome))
  , (F.FLT_UREC_FN_FN, v (fun r => r.fn.getD 0))
  , (F.FLT_REACT_SEVERITY, sev)
  , (F.FLT_REACT_REACT, Nat.lor (Nat.xor (rd F.FLT_REACT_REACT d i m) (reactDefault sev)) (reactFloor sev) % 64) ]

/-- Computed fields of the counter pages of function `f`: element `i` is a counter, or the function. -/
def viewCnt (d f i : Nat) (m : Mod) : List (Fld × Nat) :=
  [ (F.CNT_WRAP_SUM_GROUPS, wrapGroups d m)
  , (F.CNT_PAGE_STATUS_EPOCH, NMap.get 0 m.ctrEpoch d)
  , (F.CNT_PAGE_STATUS_ALLOWED, ctrAllowed d f m)
  , (F.CNT_CTR_WRAPPED, ctrSeen d f i m >>> 63)
  , (F.CNT_CTR_COUNT, ctrSeen d f i m % 2 ^ 48) ]

/-- Tokens of a group in bytes, as WQU_QSTATE shows them in [63:32] of its TAIL and FETCH fields. -/
def viewGroup (d i : Nat) (m : Mod) : List (Fld × Nat) :=
  if i / 65536 = 2 then
    let t := tokensNow d (i % 65536) m / 65536
    [(F.WQU_QSTATE_TAIL, t >>> 16), (F.WQU_QSTATE_FETCH, t % 65536)]
  else []

/-- The computed fields of the block that a field's register lies in. -/
def views (fz : Fuse) (G : Fld) (d f i : Nat) (m : Mod) : List (Fld × Nat) :=
  match G.reg / 0x100000 with
  | 0x00 | 0x01 | 0x03 | 0x06 => viewA d f i m
  | 0x08 => if G.reg = F.CAL_SLOT_SLOT_EVEN.reg then viewSlot d i m else viewA d f i m
  | 0x0A => viewGroup d i m
  | 0x0F | 0x10 | 0x11 | 0x13 | 0x16 => viewB fz d i m
  | 0x14 => viewFlt d i m
  | 0x17 => viewCnt d f i m
  | _ => []

/-- What a read of a field of element `i` returns to function `f` (R9, R11). -/
def view (fz : Fuse) (F : Fld) (d f i : Nat) (m : Mod) : Nat :=
  if F.among reads0 then 0
  else match (views fz F d f i m).find? (fun x => x.1.reg == F.reg && x.1.lo == F.lo) with
    | some x => x.2 % 2 ^ F.w
    | none => rd F d i m

/-- The whole register. -/
def regValue (fz : Fuse) (r : Reg) (d f i : Nat) (m : Mod) : Nat := (r.flds.map (fun F => view fz F d f i m <<< F.lo)).sum

end Sys2Proof.Machine
end

