-- ==== Sys2Proof/Machine/RegAccess.lean ====
section
/-! DEFINITION. Reads and writes of the registers (R7 to R14, R43, R44, R52, R270, R272, R434, R444, R544), and the
LIVE writes that take effect at a cycle boundary (R11).  A LIVE write that waits is held as the value read back in
`regs` and the value still in force in `live`; it takes effect when its entry of `live` goes, and a field whose writing
does more than store a value has its effect run at that moment. -/
namespace Sys2Proof.Machine

/-! ## Whether a block is enabled (R11, R65, R273) -/

/-- The object of a queue window's register is enabled: its STATE is not DISABLED; a group always. -/
def objEnabled (d i : Nat) (m : Mod) : Bool := i / 65536 == 2 || rd F.WQU_QSTATE_STATE d i m != QSt.disabled

/-- The block of a register's element is enabled. R65 speaks of the PF's VF Enable; on a bifurcated die, which has one
HIF_VF_PAGES and two PFs, the block counts as enabled while either VF Enable is 1 (DESIGN CHOICE). -/
def regEnabled (r : Reg) (d i : Nat) (m : Mod) : Bool :=
  if r.off = F.HIF_VF_PAGES_PAGES.reg then NMap.get false m.hif.vfEn (d * 2) || NMap.get false m.hif.vfEn (d * 2 + 1)
  else match r.sel with
    | .wqu => objEnabled d i m
    | .wquQ => objEnabled d i m
    | .wquR => objEnabled d i m
    | .wquG => true
    | _ =>
      match r.en with
      | none => true
      | some E => curB E d (if r.enDiv = 0 then 0 else i / r.enDiv) m

/-- WRITE_REFUSED of the block is set (R14). -/
def noteWriteRefused (r : Reg) (d f i : Nat) (m : Mod) : Mod :=
  let e := if r.wrDiv = 0 then 0 else if r.wr.reg = F.WQU_FN_STATUS_WRITE_REFUSED.reg then f else i / r.wrDiv
  wrB r.wr d e true m

/-- An access is counted in HIF_ACC_ERR.UNDECODED. -/
def undecoded (d : Nat) (m : Mod) : Mod := bump F.HIF_ACC_ERR_UNDECODED d 0 m

/-! ## Effects of LIVE fields -/

/-- A one-bit field in force changes: `up` from 0 to 1, `down` from 1 to 0. -/
def onEdge (old new : Nat) (up down : Mod → Mod) (m : Mod) : Mod :=
  if old = 0 ∧ new = 1 then up m else if old = 1 ∧ new = 0 then down m else m

/-- A group's rate or burst changes, or shaping begins (R294). -/
def groupChange (G : Fld) (d i old new : Nat) (only1 : Bool) (m : Mod) : Mod :=
  let m := force G d i new m
  if old ≠ new ∧ (!only1 ∨ new = 1) then grpRestart d (i % 65536) m else m

/-- ARM of an alarm takes effect: an alarm already due fires (R97). -/
def alarmArm (d i : Nat) (m : Mod) : Mod :=
  let m := force F.ETL_ALARM_CTL_ARM d i 1 m
  if (clock d m).run ∧ (clock d m).notBefore (cur F.ETL_ALARM_CMP_CMP d i m) ≤ now d m then alarmFire d (i + 32) m else m

/-- Accesses that run when an access-control rule changes were checked under older rules (R445). -/
def rulesChange (d : Nat) (m : Mod) : Mod :=
  setXlt d { xlt d m with older := (m.trn.seqs.filter (fun s => s.die == d)).map (fun s => s.num) } m

/-- The fabric-management ring is enabled: indices at 0, as in R83. -/
def fmrEnable (d : Nat) (m : Mod) : Mod :=
  wr F.WQU_FMR_CFG_TAIL d 0 0 (force F.WQU_FMR_CFG_HEAD d 0 0 (force F.WQU_FMR_CFG_ENABLE d 0 1 m))

/-- What the taking effect of a LIVE write does beside the new value, for element `i` of die `d`. -/
def liveHooks (d i old new : Nat) (ans : HostAns) : List (Fld × (Mod → Mod)) :=
  let pc := 32 * d + i
  [ (F.AZX_CTRL_ENABLE, onEdge old new (azxEnable d i) (azxDisable d i))
  , (F.AZX_CMD_TAIL_INDEX, cmdTailWrite d i new)
  , (F.AZX_RSP_HEAD_INDEX, rspHeadWrite d i new)
  , (F.ETL_ALARM_CTL_ARM, onEdge old new (alarmArm d i) id)
  , (F.LNE_QCTRL_ENABLE, onEdge old new (quadEnable d i) (quadDisable d i))
  , (F.LNE_PORT_CTRL_RETRAIN, portRetrain pc)
  , (F.LNK_PORT_CTRL_ENABLE, onEdge old new (linkEnable pc) (linkDisable pc))
  , (F.LNK_PORT_CTRL_FLUSH, linkFlush pc)
  , (F.CND_FN_CTL_ENABLE, onEdge old new (cndFnEnable d i true) (cndFnEnable d i false))
  , (F.WQU_FMR_CFG_ENABLE, onEdge old new (fmrEnable d) id)
  , (F.WQU_QCMD_ENABLE, queueEnable d (i / 65536) (i % 65536))
  , (F.WQU_QCMD_DISABLE, queueDisable d (i / 65536) (i % 65536))
  , (F.WQU_QCMD_RESET, queueReset d (i / 65536) (i % 65536))
  , (F.WQU_QCFG_G_RATE_MBPS, groupChange F.WQU_QCFG_G_RATE_MBPS d i old new false)
  , (F.WQU_QCFG_G_BURST_KIB, groupChange F.WQU_QCFG_G_BURST_KIB d i old new false)
  , (F.WQU_QCFG_G_SHAPE_EN, groupChange F.WQU_QCFG_G_SHAPE_EN d i old new true)
  , (F.WQU_EVR_CFG_ENABLE, onEdge old new (evrEnable d i true) (evrEnable d i false))
  , (F.WQU_EVR_HEAD_INDEX, evrHead d i new)
  , (F.CRK_SLOT_CMD_ACQUIRE, slotAcquire d i)
  , (F.CRK_SLOT_CMD_RELEASE, slotRelease d i)
  , (F.MTC_DCTL_ENABLE, onEdge old new (domainEnable d i) (domainDisable d i true))
  , (F.MTC_DCTL_RESUME, domainResume d i)
  , (F.MTC_OVF_IDX_HEAD, ovfHead d i new)
  , (F.MTC_BIND_CMD_GO, matchBind d i)
  , (F.DRV_PCMD_RESET, progReset d i)
  , (F.XLT_INV_CMD_GO, xltInvalidate d i)
  , (F.XLT_LOCK_CMD_GO, xltLock d i ans)
  , (F.XLT_CTX_CFG_ENABLE, onEdge old new id (contextDisable d i))
  , (F.ACP_RCTL_LOCK, regionLock d i)
  , (F.PWN_PWLOG_IDX_REARM, pwRearm d)
  , (F.PWN_WIN_CMD_COMMIT, windowCommit d i)
  , (F.FLT_UREC_CLR_CLEAR, fun m => (clearRec d i m).1)
  , (F.SMP_CTRL_ENABLE, onEdge old new (samplerEnable d true) (samplerEnable d false))
  , (F.SMP_RING_IDX_HEAD, samplerHead d new) ]

/-- The effect of a field's LIVE write. -/
def liveHook (G : Fld) (d i old new : Nat) (ans : HostAns) : Option (Mod → Mod) :=
  ((liveHooks d i old new ans).find? (fun x => x.1.reg == G.reg && x.1.lo == G.lo)).map Prod.snd

/-- Fields with an effect of their own. -/
def hooked (G : Fld) : Bool := (liveHook G 0 0 0 0 []).isSome

/-- Command bits that stay 1 after their effect, until it ends. -/
def staysSet : List Fld := [F.ACP_RCTL_LOCK, F.LNE_PORT_CTRL_RETRAIN]

/-- The LIVE write of element `i` of a field takes effect. -/
def applyLive (G : Fld) (d i : Nat) (ans : HostAns) (m : Mod) : Mod :=
  let m := when (G.among [F.ACP_DEFAULT_PERM, F.ACP_RPERM_PERM] || [F.ACP_RATTR_ST.reg, F.ACP_RCTL_LOCK.reg].contains G.reg) (rulesChange d) m
  match liveHook G d i (cur G d i m) (rd G d i m) ans with
  | none => { m with live := NMap.del m.live (G.key d i) }
  | some h =>
    let was := pst (32 * d + i) m
    let m := h m
    if G.acc = .W1S ∧ (!G.among staysSet ∨ (G.among [F.LNE_PORT_CTRL_RETRAIN] ∧ was ≠ 6)) then force G d i 0 m
    else { m with live := NMap.del m.live (G.key d i) }

/-- The field that a key names. -/
def fieldOf (k : Nat) : Option Fld :=
  ((blockRows (keyReg k)).flatMap Reg.flds).find? (fun G => G.reg == keyReg k && G.lo == keyLo k)

/-- The LIVE writes of some keys take effect together: plain values first, then the effects. -/
def applyKeys (d : Nat) (ks : List Nat) (ans : HostAns) (m : Mod) : Mod :=
  let go := fun (hook : Bool) (m : Mod) (k : Nat) =>
    match fieldOf k with
    | some G => if hooked G == hook && (NMap.find m.live k).isSome then applyLive G d (keyIdx k) ans m else m
    | none => if hook then m else { m with live := NMap.del m.live k }
  ks.foldl (go true) (ks.foldl (go false) m)

/-- LIVE_WRITE_APPLY: a cycle boundary of die `d` (R11, R12). -/
def liveApply (d : Nat) (ans : HostAns) (m : Mod) : Mod :=
  applyKeys d ((NMap.keys m.live).filter (fun k => keyDie k == d)) ans m

/-! ## Reads -/

/-- RC fields that a read covers return to 0 (R9). -/
def clearRc (r : Reg) (d i mask : Nat) (m : Mod) : Mod :=
  r.flds.foldl (fun m G => if G.acc = .RC ∧ bits mask G.lo G.w ≠ 0 then wr G d i 0 m else m) m

/-- A register is read under a mask: its value, RC fields cleared, a counter's capture time noted (R541) and the
fraction of the time captured (R116). -/
def regRead (fz : Fuse) (r : Reg) (d f i mask : Nat) (m : Mod) : Nat × Mod :=
  let v := Nat.land (regValue fz r d f i m) mask
  let m := clearRc r d i mask m
  let m := when (r.off == F.ETL_NOW_NS_NS.reg && bit mask 0) (wr F.ETL_NOW_FRAC_FRAC d 0 (now16 d m)) m
  (v, when (r.off == F.CNT_CTR_COUNT.reg) (wr F.CNT_PAGE_TIME_WHEN d f (now d m)) m)

/-- Masks of an access. -/
def m32 : Nat := 2 ^ 32 - 1
def m64 : Nat := 2 ^ 64 - 1

/-- A register's own offset and element as one number: what a pending or captured half is tied to (R8). -/
def halfKey (r : Reg) (i : Nat) : Nat := r.off * 2 ^ 24 + i

/-- The halves of function `f`. -/
def halfOf (d f : Nat) (m : Mod) : Half := NMap.get { wReg := none, rReg := none } m.hif.half (fk d f)
def setHalf (d f : Nat) (h : Half) (m : Mod) : Mod :=
  updHif (fun x => { x with half := NMap.set { wReg := none, rReg := none } x.half (fk d f) h }) m

/-- A user page's register (R270). -/
def pageValue (d q o : Nat) (m : Mod) : Nat :=
  match o with
  | 0x00 => sqTail d q m
  | 0x04 => sqFetch d q m + qState d 0 q m * 65536
  | 0x08 => rd F.WQU_QSTATE_TAIL d (qix 1 q) m
  | 0x0C => b2n (cring d q m).arm
  | 0x10 => (sq d q m).inval
  | 0x14 => b2n (invalBusy d q m)
  | _ => 0

/-- A user page's register can be reached: it is one of R270's, and queue `q` is ACTIVE. -/
def pageOpen (d q o : Nat) (m : Mod) : Bool :=
  [0x00, 0x04, 0x08, 0x0C, 0x10, 0x14].contains o && qState d 0 q m == QSt.active

/-- A double word of an MSI-X entry: address, address, data, mask (R58). -/
def msixWord (d f v w : Nat) (m : Mod) : Nat :=
  let e := msixEnt d f v m
  match w with
  | 0 => e.addr % 2 ^ 32
  | 1 => e.addr >>> 32
  | 2 => e.data
  | _ => b2n e.masked

/-- 32 bits of the PBA. -/
def pbaWord (d f w : Nat) (m : Mod) : Nat :=
  ((List.range 32).map (fun b => if NMap.get false m.hif.pba (vk d f (32 * w + b)) then 2 ^ b else 0)).sum

/-- Whether a place reaches something; an access to a user page that is not open does not. -/
def Place.hit (p : Place) (d : Nat) (m : Mod) : Bool :=
  match p with
  | .none => false
  | .dead => false
  | .mute => true
  | .page q o => pageOpen d q o m
  | _ => true

/-- Four bytes are read (R8): the lower half of a 64-bit register captures the upper; an upper half returns what was
captured.  A BAR2 read that is discarded under R270 returns an open value, under R50 or R485 all ones. -/
def read4 (fz : Fuse) (d f : Nat) (p : Place) (m : Mod) : Nat × Mod :=
  match p with
  | .reg r i hi _ =>
    if r.bits = 32 then regRead fz r d f i m32 m
    else
      let h := halfOf d f m
      if !hi then
        let x := regRead fz r d f i m64 m
        (x.1 % 2 ^ 32, setHalf d f { h with rReg := some (halfKey r i, x.1 >>> 32) } x.2)
      else match h.rReg with
        | some (k, v) => if k = halfKey r i then (v, setHalf d f { h with rReg := none } m)
                         else let x := regRead fz r d f i (m32 * 2 ^ 32) m; (x.1 >>> 32, x.2)
        | none => let x := regRead fz r d f i (m32 * 2 ^ 32) m; (x.1 >>> 32, x.2)
  | .msix v w => (msixWord d f v w m, m)
  | .pba w => (pbaWord d f w m, m)
  | .page q o => if pageOpen d q o m then (pageValue d q o m, m) else draw 32 m
  | .dead => (m32, m)
  | .mute => (m32, m)
  | .cfg p o => (cfgRead d p o m, m)
  | .none => (0, m)

/-- The answer of a read leaves the endpoint. -/
def answerRead (d f off v : Nat) (m : Mod) : Mod := emit (.readData d f off v) m

/-- The wait slot whose WAIT register a read of this place would take from (R337): a read of 8 bytes or of the lower half. An
upper half alone returns what was captured (R8). -/
def waitSlot (p : Place) : Option (Nat × Nat) :=
  match p with
  | .reg r i false _ => if r.off = F.CRK_SLOT_WAIT_STATUS.reg then some (i, halfKey r i) else none
  | _ => none

/-- A register read by function `f` (R7, R8, R9, R52). -/
def readAt (fz : Fuse) (d f off size : Nat) (m : Mod) : Mod :=
  if !reaches d f off m then m
  else if (size ≠ 4 ∧ size ≠ 8) ∨ off % size ≠ 0 then
    answerRead d f off (2 ^ (8 * size) - 1) (bump F.HIF_ACC_ERR_BAD_SIZE d 0 m)
  else
    let p := locate d f off m
    match waitSlot p with
    | some (k, key) =>
      slotWaitRead d k (f, off) (if size = 4 then setHalf d f { halfOf d f m with rReg := some (key, 0) } m else m)
    | none =>
      if size = 4 then
        let x := read4 fz d f p (when (!p.hit d m) (undecoded d) m)
        answerRead d f off x.1 x.2
      else
        match p with
        | .reg r i false ro =>
          if r.bits = 64 then let x := regRead fz r d f i m64 m; answerRead d f off x.1 x.2
          else
            let lo := read4 fz d f (.reg r i false ro) m
            let hi := read4 fz d f (locate d f (off + 4) lo.2) lo.2
            answerRead d f off (lo.1 + hi.1 * 2 ^ 32) hi.2
        | _ =>
          let q := locate d f (off + 4) m
          let lo := read4 fz d f p (when (!p.hit d m && !q.hit d m) (undecoded d) m)
          let hi := read4 fz d f q lo.2
          answerRead d f off (lo.1 + hi.1 * 2 ^ 32) hi.2

/-! ## Writes -/

/-- The value stored for a value written: FLT_REACT keeps its difference from the default. -/
def storeVal (G : Fld) (i v : Nat) : Nat :=
  if G.reg = F.FLT_REACT_REACT.reg then Nat.xor v (reactDefault (severity (i % 32) 0)) else v

/-- The value of an RW field after a write under a mask. -/
def mergeVal (fz : Fuse) (G : Fld) (d f i val mask : Nat) (m : Mod) : Nat :=
  let fm := bits mask G.lo G.w
  Nat.lor (Nat.land (bits val G.lo G.w) fm) (Nat.land (view fz G d f i m) (Nat.xor fm (2 ^ G.w - 1)))

/-- A LIVE write is accepted: read back at once, in force later; the value in force is kept. -/
def pendLive (G : Fld) (d i v : Nat) (m : Mod) : Mod :=
  let old := cur G d i m
  let m := wr G d i v m
  { m with live := if (NMap.find m.live (G.key d i)).isSome then m.live else NMap.put m.live (G.key d i) old }

/-- A GO write is discarded while its command is busy (R434, R435). -/
def goBusy (G : Fld) (d i : Nat) (m : Mod) : Bool :=
  (G.among [F.XLT_INV_CMD_GO] && (rdB F.XLT_INV_CMD_BUSY d i m || waitsLive G d i m))
    || (G.among [F.XLT_LOCK_CMD_GO] && waitsLive G d i m)

/-- Fields that only the PF writes in a window that VFs have too (R272, R336, R343). -/
def pfFields : List Fld := [F.WQU_QCFG_Q_GROUP, F.CRK_SLOT_CFG_FN, F.CRK_SLOT_CFG_ENABLE, F.MTC_DCFG_FN]

/-- One field of a register is written under a mask, its block enabled or not (R9, R11, R13). -/
def fieldWrite (fz : Fuse) (r : Reg) (en : Bool) (d f i val mask : Nat) (m : Mod) (G : Fld) : Mod :=
  let fm := bits mask G.lo G.w
  let ones := Nat.land (bits val G.lo G.w) fm
  if fm = 0 ∨ (!isPf d f m ∧ G.among pfFields) then m
  else match G.acc with
    | .RO => m
    | .RC => m
    | .W1C =>
      if ones = 0 then m
      else if G.reg = F.CNT_CTR_WRAPPED.reg then ctrClear d i m
      else wr G d i (Nat.land (rd G d i m) (Nat.xor ones (2 ^ G.w - 1))) m
    | .W1S => if ones = 0 ∨ (G.among [F.LNE_PORT_CTRL_RETRAIN] ∧ pst (32 * d + i) m ≠ 6) then m else if goBusy G d i m then undecoded d m else pendLive G d i ones m
    | .RW =>
      let v := storeVal G i (mergeVal fz G d f i val mask m)
      match G.cls with
      | .GUARDED => if en then noteWriteRefused r d f i m else wr G d i v m
      | .STATIC => wr G d i v m
      | .LIVE => pendLive G d i v m

/-- The function to whose PF an entry belongs (R44), where the register is part of such an entry; and whether it is
enabled. -/
def entryFn (r : Reg) (d i : Nat) (m : Mod) : Option (Nat × Bool) :=
  if r.off = F.XLT_CTX_ROOT_ROOT.reg ∨ r.off = F.XLT_CTX_CFG_FN.reg then
    some (cur F.XLT_CTX_CFG_FN d i m, curB F.XLT_CTX_CFG_ENABLE d i m)
  else if 0x1110000 ≤ r.off ∧ r.off < 0x1110020 then
    some (if curB F.ACP_RCTL_ANY_FN d i m then 0 else cur F.ACP_RCTL_FN d i m, curB F.ACP_RCTL_ENABLE d i m)
  else if r.sel = .mtc then some (cur F.MTC_DCFG_FN d i m, curB F.MTC_DCTL_ENABLE d i m)
  else if 0x910000 ≤ r.off ∧ r.off < 0x910020 then some (i, true)
  else if 0xC10000 ≤ r.off ∧ r.off < 0xC11000 then some (cur F.CRK_SLOT_CFG_FN d i m, curB F.CRK_SLOT_CFG_ENABLE d i m)
  else none

/-- The blocks of R43 that PF1 of a bifurcated die only reads. -/
def dieWide (off : Nat) : Bool := [0x04, 0x05, 0x06, 0x07, 0x08, 0x0E, 0x0F, 0x13, 0x14, 0x15].contains (off / 0x100000)

/-- A PF's write is discarded because the register is the other PF's (R43, R44). -/
def otherPf (r : Reg) (d f i : Nat) (m : Mod) : Bool :=
  bifurcated d m && isPf d f m &&
    ((f == 1025 && dieWide r.off) ||
      match entryFn r d i m with
      | some (g, en) => if !en && !fnExists d g m then false else pfOf d g m != pfOf d f m
      | none => false)

/-- A VF selects a queue, ring or domain that is not its own, or a group (R272, R364). -/
def selForeign (fz : Fuse) (r : Reg) (d f i val mask : Nat) (m : Mod) : Bool :=
  !isPf d f m &&
    ((r.off == F.WQU_QSEL_KIND.reg &&
        (mergeVal fz F.WQU_QSEL_KIND d f i val mask m == 2 || ownerOf d (mergeVal fz F.WQU_QSEL_NUMBER d f i val mask m) m != f))
     || (r.off == F.MTC_DSEL_DOMAIN.reg && cur F.MTC_DCFG_FN d (mergeVal fz F.MTC_DSEL_DOMAIN d f i val mask m) m != f))

/-- A counter page takes no write but of WRAPPED through the PF's page (R544). -/
def pageWriteBad (r : Reg) (d f : Nat) (m : Mod) : Bool :=
  (r.off == F.CNT_PAGE_TIME_WHEN.reg || r.off == F.CNT_PAGE_STATUS_EPOCH.reg || r.off == F.CNT_CTR_COUNT.reg)
    && (!isPf d f m || r.off != F.CNT_CTR_COUNT.reg)

/-- A region that is locked (R444). -/
def regionLocked (r : Reg) (d i : Nat) (m : Mod) : Bool :=
  decide (0x1110000 ≤ r.off ∧ r.off < 0x1110020) && curB F.ACP_RCTL_LOCK d i m

/-- A register is written under a mask (R9, R11, R13). -/
def regWrite (fz : Fuse) (r : Reg) (d f i val mask : Nat) (ans : HostAns) (m : Mod) : Mod :=
  if otherPf r d f i m || selForeign fz r d f i val mask m || pageWriteBad r d f m then undecoded d m
  else if regionLocked r d i m then noteWriteRefused r d f i m
  else
    let en := regEnabled r d i m
    let m := r.flds.foldl (fieldWrite fz r en d f i val mask) m
    if en then m else applyKeys d (r.flds.map (fun G => G.key d i)) ans m

/-- A user page's register is written (R270, R271, R290, R298). -/
def pageWrite (d q o v : Nat) (m : Mod) : Mod :=
  match o with
  | 0x00 => sqDoorbell d q (v % 65536) m
  | 0x08 => crHead d q (v % 65536) m
  | 0x0C => when (bit v 0) (crArm d q) m
  | 0x10 => sqInvalidate d q (v % 65536) (v / 65536) m
  | _ => m

/-- A double word of an MSI-X entry is written: at once, and a pending message may follow (R58). -/
def msixSet (d f v w x : Nat) (m : Mod) : Mod :=
  let e := msixEnt d f v m
  let hi := e.addr / 2 ^ 32
  match w with
  | 0 => msixWrite d f v (hi * 2 ^ 32 + x) e.data e.masked m
  | 1 => msixWrite d f v (x * 2 ^ 32 + e.addr % 2 ^ 32) e.data e.masked m
  | 2 => msixWrite d f v e.addr x e.masked m
  | _ => msixPending d f v (msixWrite d f v e.addr e.data (bit x 0) m)

/-- A double word of a PF's configuration space is written. The size of BAR4 has a command of its own. -/
def cfgWrite (d p o v : Nat) (m : Mod) : Mod :=
  if 0x10 ≤ o ∧ o < 0x28 then updHif (fun h => { h with bars := NMap.set 0 h.bars ((d * 2 + p) * 8 + (o - 0x10) / 4) v }) m
  else if o = 0x100 then updHif (fun h => { h with devCtl := NMap.set 0x2000 h.devCtl (d * 2 + p) (v % 2 ^ 16) }) m
  else if o = 0x104 then updHif (fun h => { h with devCtl2 := NMap.set 0 h.devCtl2 (d * 2 + p) (v % 2 ^ 16) }) m
  else if 0x200 ≤ o ∧ o < 0x240 then
    { m with sec := { m.sec with assoc := NMap.set 0 m.sec.assoc ((d * 8 + 4 * p) * 4 + (o - 0x200) / 4) v } }
  else m

/-- Four bytes are written (R8): the lower half of a 64-bit register waits for its upper half. -/
def write4 (fz : Fuse) (d f : Nat) (p : Place) (v : Nat) (ans : HostAns) (m : Mod) : Mod :=
  match p with
  | .reg r i hi ro =>
    if ro then m
    else if r.bits = 32 then regWrite fz r d f i v m32 ans m
    else
      let h := halfOf d f m
      if !hi then setHalf d f { h with wReg := some (halfKey r i, v) } m
      else match h.wReg with
        | some (k, lo) =>
          if k = halfKey r i then regWrite fz r d f i (lo + v * 2 ^ 32) m64 ans (setHalf d f { h with wReg := none } m)
          else regWrite fz r d f i (v * 2 ^ 32) (m32 * 2 ^ 32) ans m
        | none => regWrite fz r d f i (v * 2 ^ 32) (m32 * 2 ^ 32) ans m
  | .msix vec w => msixSet d f vec w v m
  | .page q o => if pageOpen d q o m then pageWrite d q o v m else m
  | .cfg p o => cfgWrite d p o v m
  | _ => m

/-- Whatever an access counts in UNDECODED, it counts once (R52). -/
def countOnce (d : Nat) (before m : Mod) : Mod :=
  let n := satAdd 16 (rd F.HIF_ACC_ERR_UNDECODED d 0 before) 1
  if n < rd F.HIF_ACC_ERR_UNDECODED d 0 m then wr F.HIF_ACC_ERR_UNDECODED d 0 n m else m

/-- A register write by function `f` (R7, R8, R11, R52). -/
def writeAt (fz : Fuse) (d f off size val : Nat) (ans : HostAns) (m : Mod) : Mod :=
  if !reaches d f off m then m
  else if (size ≠ 4 ∧ size ≠ 8) ∨ off % size ≠ 0 then bump F.HIF_ACC_ERR_BAD_SIZE d 0 m
  else
    let p := locate d f off m
    if size = 4 then write4 fz d f p (val % 2 ^ 32) ans (when (!p.hit d m) (undecoded d) m)
    else
      match p with
      | .reg r i false ro =>
        if r.bits = 64 then (if ro then m else regWrite fz r d f i (val % 2 ^ 64) m64 ans m)
        else
          let n := write4 fz d f (.reg r i false ro) (val % 2 ^ 32) ans m
          countOnce d m (write4 fz d f (locate d f (off + 4) n) (val / 2 ^ 32 % 2 ^ 32) ans n)
      | _ =>
        let q := locate d f (off + 4) m
        let n := write4 fz d f p (val % 2 ^ 32) ans (when (!p.hit d m && !q.hit d m) (undecoded d) m)
        countOnce d m (write4 fz d f q (val / 2 ^ 32 % 2 ^ 32) ans n)

end Sys2Proof.Machine
end

