-- ==== Sys2Proof/Machine/Settle.lean ====
section
/-! DEFINITION. What other units still do before a command ends: reactions to faults (R493), messages whose ends are told
to their owners, closed conduits (R300, R338, R361, R215), exits and links gone down (R233), and Azrix commands that can
go on (R74, R75). -/
namespace Sys2Proof.Machine

/-- Whom a message's end is told (R296, R336, R352, R455). -/
def tellOwner (d cn peer : Nat) (o : Owner) (status detail len result : Nat) (m : Mod) : Mod :=
  match o with
  | .nobody => m
  | .queue q idx gen op tag cr signal => entryDone d q idx gen op tag cr signal status detail len result peer cn m
  | .bar4 win id off write => bar4Done d win id off write status detail result m
  | .slot k release => slotDone d k release status detail m
  | .rndv tok => rndvGot tok status detail len m

/-- The LIVE writes of a die take effect at the cycle boundary that its counter has passed. XLT_LOCK.GO, whose walk asks host
memory, waits for LIVE_WRITE_APPLY, which brings the host's answers (DESIGN CHOICE). -/
def liveDue (d : Nat) (m : Mod) : Mod :=
  if hostUp d m then
    applyKeys d ((NMap.keys m.live).filter (fun k => keyDie k == d
      && !(keyReg k == F.XLT_LOCK_CMD_GO.reg && keyLo k == F.XLT_LOCK_CMD_GO.lo))) [] m
  else m

/-- What a stepped counter has passed occurs once, at once: pending LIVE writes, alarms and a named calendar frame; the other
boundaries follow with their own commands (R114). -/
def stepPassed (d : Nat) (m : Mod) : Mod :=
  let m := if (clock d m).high ≤ now d m then liveDue d m else m
  let m := if rdB F.CAL_SWITCH_VALID d 0 m && decide (rd F.CAL_SWITCH_FRAME d 0 m * 1048576 ≤ now d m) then calSwitchFrame d m else m
  each ((List.range 32).map (· + 32)) (fun k m =>
    when (hostUp d m && curB F.ETL_ALARM_CTL_ARM d (k - 32) m
      && decide ((clock d m).notBefore (cur F.ETL_ALARM_CMP_CMP d (k - 32) m) ≤ now d m)) (alarmFire d k) m) m

/-- One thing left to do. -/
def todoRun (t : Todo) (m : Mod) : Mod :=
  match t with
  | .exitDown _ => timedSweep m
  | .d2dDown _ _ => timedSweep m
  | .timeBad _ => timedSweep m
  | .condClosed d cn _ status detail => pinsClosed d cn (matchClosed d cn status detail (locksAbandon d cn m))
  | .msgDone d cn peer o status detail len result => tellOwner d cn peer o status detail len result m
  | .bridgeNext d f page => bridgeNext d f page m
  | .liveDue d => liveDue d m
  | .stepped d => stepPassed d m

/-- The LIVE writes that time has brought in force since a command began. -/
def liveNow (m : Mod) : Mod :=
  let due := m.todo.filter (fun t => match t with | .liveDue _ => true | _ => false)
  due.foldl (fun m t => todoRun t m) { m with todo := m.todo.filter (fun t => !(due.contains t)) }

/-- Nothing is left to do. -/
def Mod.idle (m : Mod) : Bool := m.flt.due.isEmpty && m.todo.isEmpty

/-- Do what is left, reactions first; then let the Shepherd go on. -/
def settleGo (fz : Fuse) : Nat → Mod → Mod
  | 0, m => m
  | n + 1, m =>
    if !m.flt.due.isEmpty then settleGo fz n (reactAll 256 m)
    else match m.todo with
      | t :: ts => settleGo fz n (todoRun t { m with todo := ts })
      | [] =>
        let m := azxSettle fz 256 (signalReady (leaveM2 (resumeDone m)))
        if m.idle then m else settleGo fz n m

/-- The end of a command; packets held by R199 that may start now start first.  What the bound leaves undone is done at the end of the next command. -/
def settle (fz : Fuse) (m : Mod) : Mod := settleGo fz 1048576 (each dies releaseHeld (timedCheck m))

end Sys2Proof.Machine
end

