-- ==== Sys2Proof/WellFormed.lean ====
section
/-! DEFINITION. Which commands name things that exist: dies, functions, ports, queues and so on in the ranges the spec
gives them.  A command that names nothing of the module is refused. -/
namespace Sys2Proof

/-- A worker die (R1). -/
def dieOk (d : Nat) : Bool := decide (d < 4)

/-- A worker die or the Shepherd (4). -/
def holderOk (d : Nat) : Bool := decide (d < 5)

/-- A function number of a die: PF 0, VFs 1 to 1024, the second PF 1025 (R43, R44). -/
def fnOk (f : Nat) : Bool := decide (f < 1026)

/-- A PF of a die. -/
def pfOk (p : Nat) : Bool := decide (p < 2)

/-- A port of the module: 32 × die + port (R21). -/
def portNumOk (pc : Nat) : Bool := decide (pc < 128)

/-- An input of a crossbar: the ports, each die's host engine and Drover (128 + 2 × die), and die-to-die links (136 + 4 ×
from + to). -/
def inputOk (s : Nat) : Bool := decide (s < 152)

/-- A conduit number (R237). -/
def conduitOk (cn : Nat) : Bool := decide (cn < 2 ^ 24)

/-- A send queue or completion ring (R269). -/
def queueOk (q : Nat) : Bool := decide (q < 65536)

/-- A transport of SPDM (R524). -/
def viaOk (via : Nat) : Bool := decide (via < 17)

/-- A send queue (0) or a completion ring (1), by number. -/
def kindOk (kind n : Nat) : Bool := decide (kind < 2) && queueOk n

/-- Who issues an Azrix command: a function of a die, or the management interface (none). -/
def issuerOk : Option (Nat × Nat) → Bool
  | none => true
  | some (d, f) => dieOk d && fnOk f

/-- The boot options name dies and partitions (R23, R43, R70). -/
def FlashFile.ok (x : FlashFile) : Bool :=
  decide (x.bifur < 16) && decide (x.hold < 16) && decide (x.pref < 2) && x.part.all (fun e => dieOk e.1)

/-- A debug access names something of the module. -/
def DebugAt.ok : DebugAt → Bool
  | .reg d f _ => dieOk d && fnOk f
  | .pool d off => dieOk d && decide (off < 2 ^ 40)
  | .sram d _ => holderOk d
  | .key d p => dieOk d && decide (p < 65536)

/-- The same, of an INVASIVE_ACCESS. -/
def DebugOp.ok : DebugOp → Bool
  | .read t => t.ok
  | .write t v => t.ok && decide (v < 2 ^ 256)
  | .halt c => decide (c < 256)
  | .step c => decide (c < 8)

/-- The command names things that exist. -/
def Instr.wf : Instr → Bool
  | .registerWrite d f _ size val _ => dieOk d && fnOk f && decide (0 < size) && decide (val < 2 ^ 64)
  | .liveWriteApply d _ => dieOk d
  | .lowerHalfRead d f _ => dieOk d && fnOk f
  | .readClear d f _ size => dieOk d && fnOk f && decide (0 < size)
  | .moduleResetRelease eids strap => decide (eids.length = 4) && eids.all (fun e => decide (e < 2 ^ 20)) && decide (strap < 8)
  | .moduleResetAssert => true
  | .perstAssert d => dieOk d
  | .perstRelease d => dieOk d
  | .hostLinkDown link => dieOk link.1 && pfOk link.2
  | .d2dParityError a b lane => dieOk a && holderOk b && decide (a ≠ b) && decide (lane < (if b = 4 then 64 else 512))
  | .genPublish => true
  | .functionRun d f => dieOk d && fnOk f
  | .busMasterEnableClear d f => dieOk d && fnOk f
  | .busMasterEnableSet d f => dieOk d && fnOk f
  | .drainComplete d f => dieOk d && fnOk f
  | .d3hotEntry d f => dieOk d && fnOk f
  | .d3hotExit d f => dieOk d && fnOk f
  | .flrInitiate d f => dieOk d && fnOk f
  | .flrSilence d f => dieOk d && fnOk f
  | .flrComplete d f => dieOk d && fnOk f
  | .vfEnable d pf n => dieOk d && pfOk pf && decide (n ≤ 1024)
  | .vfDisable d pf => dieOk d && pfOk pf
  | .bar4Resize d pf _ => dieOk d && pfOk pf
  | .hostCompletionReceived d tag _ _ => dieOk d && decide (tag < 1024)
  | .completionTimeout d tag => dieOk d && decide (tag < 1024)
  | .tagQuarantineExpiry d tag => dieOk d && decide (tag < 1024)
  | .generalTagGrant d => dieOk d
  | .msixTableWrite d f vec addr data _ => dieOk d && fnOk f && decide (vec < 2048) && decide (addr < 2 ^ 64) && decide (data < 2 ^ 32)
  | .msixPendingSend d f vec => dieOk d && fnOk f && decide (vec < 2048)
  | .coreWatchdogExpiry core => decide (core < 8)
  | .azxCmdTailWrite d f i => dieOk d && fnOk f && decide (i < 65536)
  | .azxCommandTake _ => true
  | .azxEnable d f => dieOk d && fnOk f
  | .azxDisable d f => dieOk d && fnOk f
  | .mctpCommandReceived ent _ => decide (ent.length = 64)
  | .queryState iss ent _ => issuerOk iss && decide (ent.length = 64)
  | .pastureCreate iss ent _ => issuerOk iss && decide (ent.length = 64)
  | .pastureDestroy iss ent _ => issuerOk iss && decide (ent.length = 64)
  | .pastureKeyLoad iss ent _ => issuerOk iss && decide (ent.length = 64)
  | .pathLoad iss ent _ => issuerOk iss && decide (ent.length = 64)
  | .passSetLoad iss ent _ => issuerOk iss && decide (ent.length = 64)
  | .flockLoad iss ent _ => issuerOk iss && decide (ent.length = 64)
  | .calLoad iss ent _ => issuerOk iss && decide (ent.length = 64)
  | .calSwitch iss ent _ => issuerOk iss && decide (ent.length = 64)
  | .resConfirm iss ent _ => issuerOk iss && decide (ent.length = 64)
  | .resWithdraw iss ent _ => issuerOk iss && decide (ent.length = 64)
  | .drvProgLoad iss ent _ => issuerOk iss && decide (ent.length = 64)
  | .drvProgUnload iss ent _ => issuerOk iss && decide (ent.length = 64)
  | .budgetSet iss ent _ => issuerOk iss && decide (ent.length = 64)
  | .faultLogRead iss ent _ => issuerOk iss && decide (ent.length = 64)
  | .bufPartition iss ent _ => issuerOk iss && decide (ent.length = 64)
  | .poolAlloc iss ent _ => issuerOk iss && decide (ent.length = 64)
  | .poolFree iss ent _ => issuerOk iss && decide (ent.length = 64)
  | .dieFence iss ent _ => issuerOk iss && decide (ent.length = 64)
  | .dieRestore iss ent _ => issuerOk iss && decide (ent.length = 64)
  | .dieTestComplete d links _ => dieOk d && decide (links < 32)
  | .dieActivate iss ent _ => issuerOk iss && decide (ent.length = 64)
  | .returnProcedure d => dieOk d
  | .returnTimeout d => dieOk d
  | .tablePushAck d t => dieOk d && decide (t < 16)
  | .timeRole iss ent _ => issuerOk iss && decide (ent.length = 64)
  | .timeOfDay iss ent _ => issuerOk iss && decide (ent.length = 64)
  | .dieSleep iss ent _ => issuerOk iss && decide (ent.length = 64)
  | .dieSleepDrainEnd d => dieOk d
  | .dieWake iss ent _ => issuerOk iss && decide (ent.length = 64)
  | .moduleStandby iss ent _ => issuerOk iss && decide (ent.length = 64)
  | .moduleResume iss ent _ => issuerOk iss && decide (ent.length = 64)
  | .moduleShutdown iss ent _ => issuerOk iss && decide (ent.length = 64)
  | .faultClear iss ent _ => issuerOk iss && decide (ent.length = 64)
  | .faultReactSet iss ent _ => issuerOk iss && decide (ent.length = 64)
  | .faultInject iss ent _ => issuerOk iss && decide (ent.length = 64)
  | .unitRestore iss ent _ => issuerOk iss && decide (ent.length = 64)
  | .secCommit iss ent _ => issuerOk iss && decide (ent.length = 64)
  | .debugNonce iss ent _ => issuerOk iss && decide (ent.length = 64)
  | .debugUnlock iss ent _ => issuerOk iss && decide (ent.length = 64)
  | .debugLock iss ent _ => issuerOk iss && decide (ent.length = 64)
  | .lifecycleAdvance iss ent _ => issuerOk iss && decide (ent.length = 64)
  | .ownerKeySet iss ent _ => issuerOk iss && decide (ent.length = 64)
  | .shepCntRead iss ent _ => issuerOk iss && decide (ent.length = 64)
  | .cycleBoundary d => holderOk d
  | .frameBoundary d _ _ _ => holderOk d
  | .slotBoundary d => dieOk d
  | .servoInterval d => holderOk d
  | .alarmFire d k => dieOk d && decide (k < 64)
  | .timeMessageReceive d p _ b => dieOk d && decide (p < 32) && decide (b.length = 24)
  | .ppsEdge _ => true
  | .ppsTimeout => true
  | .ppsOutRise => true
  | .ppsOutFall => true
  | .laneBlockSend pc => portNumOk pc
  | .laneBlockReceive pc blocks => portNumOk pc && blocks.all (fun b => decide (b.1 < 4) && decide (b.2.length = 2048))
  | .quadEnable d q => dieOk d && decide (q < 16)
  | .signalDetect pc => portNumOk pc
  | .calibrationComplete pc found => portNumOk pc && decide (found.length ≤ 4) && found.all (fun x => decide (x.1 < 16))
  | .alignTimeout pc => portNumOk pc
  | .exchangeTimeout pc => portNumOk pc
  | .trainingMessageReceive pc lane id msg => portNumOk pc && decide (lane < 4) && decide (id < 4) && decide (msg.length = 32)
  | .loopbackComplete pc _ _ _ _ => portNumOk pc
  | .portRetrain pc => portNumOk pc
  | .retrainRequestTimeout pc => portNumOk pc
  | .laneIdleQuiet pc => portNumOk pc
  | .lane0IdleQuiet pc => portNumOk pc
  | .laneSleepTimer pc lane dir => portNumOk pc && decide (lane < 4) && decide (dir < 2)
  | .laneWake pc => portNumOk pc
  | .laneJoin pc => portNumOk pc
  | .flitSend pc => portNumOk pc
  | .flitReceive pc b => portNumOk pc && decide (b.length = 256)
  | .replayTimeout pc => portNumOk pc
  | .handshakeSend pc => portNumOk pc
  | .linkEnable pc => portNumOk pc
  | .linkDisable pc => portNumOk pc
  | .linkFlush pc => portNumOk pc
  | .packetRoute src vc => inputOk src && decide (vc < 4)
  | .flockReplicate src vc => inputOk src && decide (vc < 4)
  | .flockDieCopy e d vc => dieOk e && dieOk d && decide (e ≠ d) && decide (vc < 4)
  | .packetInject d cn _ => dieOk d && conduitOk cn
  | .pathRecordFetch d e => dieOk d && decide (e < 2 ^ 20)
  | .calendarSwitchFrame d => dieOk d
  | .timedRelease d r => dieOk d && decide (r < 16384)
  | .transportPacketArrive d _ => dieOk d
  | .ackReceive d _ => dieOk d
  | .conduitFetchComplete d cn _ => dieOk d && conduitOk cn
  | .retryTimeout d cn _ => dieOk d && conduitOk cn
  | .notReadyRetry d cn psn _ => dieOk d && conduitOk cn && decide (psn < 2 ^ 32)
  | .gatePoolRefill d f => dieOk d && fnOk f
  | .trackerIdleTimeout d k => dieOk d && decide (k < 4096)
  | .closeSend d cn => dieOk d && conduitOk cn
  | .oldKeyExpiry d p => dieOk d && decide (p < 65536)
  | .conduitFnEnable d f _ => dieOk d && fnOk f
  | .sqDoorbell d q tail => dieOk d && queueOk q && decide (tail < 65536)
  | .descriptorFetchComplete d q idx _ => dieOk d && queueOk q && decide (idx < 65536)
  | .groupTurn d g _ => dieOk d && decide (g < 1024)
  | .nop d q => dieOk d && queueOk q
  | .put d q _ => dieOk d && queueOk q
  | .get d q _ => dieOk d && queueOk q
  | .send d q _ => dieOk d && queueOk q
  | .add32 d q _ => dieOk d && queueOk q
  | .add64 d q _ => dieOk d && queueOk q
  | .fetchAdd32 d q _ => dieOk d && queueOk q
  | .fetchAdd64 d q _ => dieOk d && queueOk q
  | .cas32 d q _ => dieOk d && queueOk q
  | .cas64 d q _ => dieOk d && queueOk q
  | .cas128 d q _ => dieOk d && queueOk q
  | .lockAcquire d q => dieOk d && queueOk q
  | .lockTry d q => dieOk d && queueOk q
  | .lockRelease d q => dieOk d && queueOk q
  | .recvPost d q _ => dieOk d && queueOk q
  | .collStart d q _ => dieOk d && queueOk q
  | .conduitOpen d q => dieOk d && queueOk q
  | .conduitClose d q => dieOk d && queueOk q
  | .fmSend d q => dieOk d && queueOk q
  | .sqInvalidate d q first n => dieOk d && queueOk q && decide (first < 65536) && decide (n < 65536)
  | .crArm d r => dieOk d && queueOk r
  | .queueEnable d kind n => dieOk d && kindOk kind n
  | .queueDisable d kind n => dieOk d && kindOk kind n
  | .queueReset d kind n => dieOk d && kindOk kind n
  | .queueDrainComplete d q => dieOk d && queueOk q
  | .eventRingEnable d f => dieOk d && fnOk f
  | .eventRingHeadWrite d f i => dieOk d && fnOk f && decide (i < 65536)
  | .getResponseSegment d cn _ => dieOk d && conduitOk cn
  | .flitBufferGrant d cn => dieOk d && conduitOk cn
  | .lockProbeTimer d bus => dieOk d && decide (bus < 2 ^ 64)
  | .slotAcquire d k => dieOk d && decide (k < 64)
  | .slotRelease d k => dieOk d && decide (k < 64)
  | .slotWaitRead d k => dieOk d && decide (k < 64)
  | .slotWaitTimeout d k => dieOk d && decide (k < 64)
  | .eagerCopyComplete _ _ => true
  | .rendezvousGetComplete _ => true
  | .matchBind d n => dieOk d && decide (n < 4096)
  | .domainResume d n => dieOk d && decide (n < 4096)
  | .domainDisable d n => dieOk d && decide (n < 4096)
  | .overflowRingHeadWrite d n head => dieOk d && decide (n < 4096) && decide (head < 65536)
  | .chunkAdmit d p _ => dieOk d && decide (p < 256)
  | .droverTimeWaitEnd d p _ => dieOk d && decide (p < 256)
  | .collPacketReceive d => dieOk d
  | .collOutputSend d p _ edge _ => dieOk d && decide (p < 256) && decide (edge < 64)
  | .creditSend d p edge => dieOk d && decide (p < 256) && decide (edge < 64)
  | .stepTimeout d p _ => dieOk d && decide (p < 256)
  | .droverProgramReset d p => dieOk d && decide (p < 256)
  | .translationWalk d f ctx va _ kind cls _ => dieOk d && fnOk f && decide (ctx < 4096) && decide (va < 2 ^ 64) && decide (kind < 3) && decide (cls < 5)
  | .xltInvalidate d f => dieOk d && fnOk f
  | .invalidateDone d f => dieOk d && fnOk f
  | .xltLock d f _ => dieOk d && fnOk f
  | .contextDisable d ctx => dieOk d && decide (ctx < 4096)
  | .regionLock d r => dieOk d && decide (r < 1024)
  | .bar4Request d pf _ kind _ _ _ _ => dieOk d && pfOk pf && decide (kind < 3)
  | .windowCommit d win => dieOk d && decide (win < 256)
  | .peerReadTimeout d _ => dieOk d
  | .pwlogRearm d => dieOk d
  | .mirrorPoll d k => dieOk d && decide (k < 64)
  | .actionEntryApply d => dieOk d
  | .gainTrim _ => true
  | .faultDetected d u cause addr detail _ => holderOk d && decide (u < 64) && decide (cause < 64) && decide (addr < 2 ^ 64) && decide (detail < 2 ^ 64)
  | .faultRecordClear d u => dieOk d && decide (u < 28)
  | .errorPairReadback _ _ => true
  | .sliceComplete d k u _ => dieOk d && decide (k < 1920) && decide (u < 28)
  | .sliceAbort d k => dieOk d && decide (k < 1920)
  | .getVersion via => viaOk via
  | .getCapabilities via _ => viaOk via
  | .negotiateAlgorithms via _ => viaOk via
  | .getDigests via => viaOk via
  | .getCertificate via _ _ _ => viaOk via
  | .challenge via _ => viaOk via
  | .getMeasurements via _ => viaOk via
  | .keyExchange via _ => viaOk via
  | .finish via _ _ => viaOk via
  | .keyUpdate via _ => viaOk via
  | .heartbeat via _ => viaOk via
  | .endSession via _ => viaOk via
  | .setCertificate via _ _ => viaOk via
  | .ideKmRequest d stream op _ => dieOk d && decide (stream < 8) && decide (op < 3)
  | .ideIntegrityFail d stream => dieOk d && decide (stream < 8)
  | .extest cells => decide (cells < 2 ^ 20)
  | .samplePreload cells => decide (cells < 2 ^ 20)
  | .idcode => true
  | .debugAuth _ _ => true
  | .bypass => true
  | .observeAccess t => t.ok
  | .invasiveAccess x => x.ok
  | .scanSelect _ => true
  | .counterRead d f i => dieOk d && fnOk f && decide (i < 704)
  | .counterWrap d i => holderOk d && decide (i < 1024)
  | .samplerEnable d _ => dieOk d
  | .hostLinkUp link _ _ => dieOk link.1 && pfOk link.2
  | .etlNowNsRead d size => dieOk d && (size == 4 || size == 8)
  | .localInputReadComplete d p _ edge => dieOk d && decide (p < 256) && decide (edge < 64)
  | .faultCauseEnd d u cause => holderOk d && decide (u < 64) && decide (cause < 64)
  | .group4SupplyChange mask => decide (mask < 32)
  | .bootSelfTestComplete d links units macros _ => dieOk d && decide (links < 32) && decide (units < 2 ^ 28) && macros.all (fun k => decide (k < 1920))
  | .shutdownTestComplete l => l.all (fun r => dieOk r.die && r.failed.all (fun k => decide (k < 1920)))
  | .unitTestComplete d u _ => dieOk d && decide (u < 28)
  | .boardFlashWrite x => x.ok

end Sys2Proof
end

