-- ==== Sys2Proof/Machine/Act.lean ====
section
/-! DEFINITION. How every command ends: what it left to other units is done, and the fuses it blows are blown. -/
namespace Sys2Proof.Machine

/-- The state after a command whose own effect is `m`: other units act on it (`settle`), and fuses are blown. -/
def finish (s : State) (m : Mod) : State :=
  let m := settle s.fuse m
  { s with m := { m with burn := [] }, fuse := s.fuse.burn m.burn }

/-- A command with the effect `f`; `ok` says that it names things that exist. -/
def act (ok : Bool) (s : State) (f : Fuse → Mod → Mod) : Result :=
  if ok then .next (finish s (f s.fuse s.m)) else .refused .noSuchObject

end Sys2Proof.Machine
end

