-- ==== Sys2Proof/Machine/ExecAzrix.lean ====
section
/-! DEFINITION. Meanings of the commands: Azrix commands (spec/03, R87). -/
namespace Sys2Proof.Machine

/-- QUERY_STATE. R88, R85 to R89: the command of opcode 0x01, from its issuer (none: the management interface). -/
def execQueryState (iss : Option (Nat × Nat)) (ent : Bytes) (buf : Option Bytes) (s : State) : Result :=
  act (issuerOk iss && decide (ent.length = 64)) s (fun fz m => azRowTake 0x01 fz iss ent buf m)

/-- PASTURE_CREATE. R570, R85 to R89: the command of opcode 0x10, from its issuer (none: the management interface). -/
def execPastureCreate (iss : Option (Nat × Nat)) (ent : Bytes) (buf : Option Bytes) (s : State) : Result :=
  act (issuerOk iss && decide (ent.length = 64)) s (fun fz m => azRowTake 0x10 fz iss ent buf m)

/-- PASTURE_DESTROY. R570, R85 to R89: the command of opcode 0x11, from its issuer (none: the management interface). -/
def execPastureDestroy (iss : Option (Nat × Nat)) (ent : Bytes) (buf : Option Bytes) (s : State) : Result :=
  act (issuerOk iss && decide (ent.length = 64)) s (fun fz m => azRowTake 0x11 fz iss ent buf m)

/-- PASTURE_KEY_LOAD. R528, R85 to R89: the command of opcode 0x12, from its issuer (none: the management interface). -/
def execPastureKeyLoad (iss : Option (Nat × Nat)) (ent : Bytes) (buf : Option Bytes) (s : State) : Result :=
  act (issuerOk iss && decide (ent.length = 64)) s (fun fz m => azRowTake 0x12 fz iss ent buf m)

/-- PATH_LOAD. R192, R85 to R89: the command of opcode 0x20, from its issuer (none: the management interface). -/
def execPathLoad (iss : Option (Nat × Nat)) (ent : Bytes) (buf : Option Bytes) (s : State) : Result :=
  act (issuerOk iss && decide (ent.length = 64)) s (fun fz m => azRowTake 0x20 fz iss ent buf m)

/-- PASS_SET_LOAD. R186, R85 to R89: the command of opcode 0x21, from its issuer (none: the management interface). -/
def execPassSetLoad (iss : Option (Nat × Nat)) (ent : Bytes) (buf : Option Bytes) (s : State) : Result :=
  act (issuerOk iss && decide (ent.length = 64)) s (fun fz m => azRowTake 0x21 fz iss ent buf m)

/-- FLOCK_LOAD. R202, R85 to R89: the command of opcode 0x22, from its issuer (none: the management interface). -/
def execFlockLoad (iss : Option (Nat × Nat)) (ent : Bytes) (buf : Option Bytes) (s : State) : Result :=
  act (issuerOk iss && decide (ent.length = 64)) s (fun fz m => azRowTake 0x22 fz iss ent buf m)

/-- CAL_LOAD. R218, R85 to R89: the command of opcode 0x30, from its issuer (none: the management interface). -/
def execCalLoad (iss : Option (Nat × Nat)) (ent : Bytes) (buf : Option Bytes) (s : State) : Result :=
  act (issuerOk iss && decide (ent.length = 64)) s (fun fz m => azRowTake 0x30 fz iss ent buf m)

/-- CAL_SWITCH. R222, R85 to R89: the command of opcode 0x31, from its issuer (none: the management interface). -/
def execCalSwitch (iss : Option (Nat × Nat)) (ent : Bytes) (buf : Option Bytes) (s : State) : Result :=
  act (issuerOk iss && decide (ent.length = 64)) s (fun fz m => azRowTake 0x31 fz iss ent buf m)

/-- RES_CONFIRM. R213, R85 to R89: the command of opcode 0x32, from its issuer (none: the management interface). -/
def execResConfirm (iss : Option (Nat × Nat)) (ent : Bytes) (buf : Option Bytes) (s : State) : Result :=
  act (issuerOk iss && decide (ent.length = 64)) s (fun fz m => azRowTake 0x32 fz iss ent buf m)

/-- RES_WITHDRAW. R216, R85 to R89: the command of opcode 0x33, from its issuer (none: the management interface). -/
def execResWithdraw (iss : Option (Nat × Nat)) (ent : Bytes) (buf : Option Bytes) (s : State) : Result :=
  act (issuerOk iss && decide (ent.length = 64)) s (fun fz m => azRowTake 0x33 fz iss ent buf m)

/-- DRV_PROG_LOAD. R370, R85 to R89: the command of opcode 0x40, from its issuer (none: the management interface). -/
def execDrvProgLoad (iss : Option (Nat × Nat)) (ent : Bytes) (buf : Option Bytes) (s : State) : Result :=
  act (issuerOk iss && decide (ent.length = 64)) s (fun fz m => azRowTake 0x40 fz iss ent buf m)

/-- DRV_PROG_UNLOAD. R87, R85 to R89: the command of opcode 0x41, from its issuer (none: the management interface). -/
def execDrvProgUnload (iss : Option (Nat × Nat)) (ent : Bytes) (buf : Option Bytes) (s : State) : Result :=
  act (issuerOk iss && decide (ent.length = 64)) s (fun fz m => azRowTake 0x41 fz iss ent buf m)

/-- BUDGET_SET. R472, R85 to R89: the command of opcode 0x50, from its issuer (none: the management interface). -/
def execBudgetSet (iss : Option (Nat × Nat)) (ent : Bytes) (buf : Option Bytes) (s : State) : Result :=
  act (issuerOk iss && decide (ent.length = 64)) s (fun fz m => azRowTake 0x50 fz iss ent buf m)

/-- FAULT_LOG_READ. R496, R85 to R89: the command of opcode 0x60, from its issuer (none: the management interface). -/
def execFaultLogRead (iss : Option (Nat × Nat)) (ent : Bytes) (buf : Option Bytes) (s : State) : Result :=
  act (issuerOk iss && decide (ent.length = 64)) s (fun fz m => azRowTake 0x60 fz iss ent buf m)

/-- BUF_PARTITION. R23, R85 to R89: the command of opcode 0x70, from its issuer (none: the management interface). -/
def execBufPartition (iss : Option (Nat × Nat)) (ent : Bytes) (buf : Option Bytes) (s : State) : Result :=
  act (issuerOk iss && decide (ent.length = 64)) s (fun fz m => azRowTake 0x70 fz iss ent buf m)

/-- POOL_ALLOC. R88, R85 to R89: the command of opcode 0x71, from its issuer (none: the management interface). -/
def execPoolAlloc (iss : Option (Nat × Nat)) (ent : Bytes) (buf : Option Bytes) (s : State) : Result :=
  act (issuerOk iss && decide (ent.length = 64)) s (fun fz m => azRowTake 0x71 fz iss ent buf m)

/-- POOL_FREE. R88, R85 to R89: the command of opcode 0x72, from its issuer (none: the management interface). -/
def execPoolFree (iss : Option (Nat × Nat)) (ent : Bytes) (buf : Option Bytes) (s : State) : Result :=
  act (issuerOk iss && decide (ent.length = 64)) s (fun fz m => azRowTake 0x72 fz iss ent buf m)

/-- DIE_FENCE. R72, R85 to R89: the command of opcode 0x80, from its issuer (none: the management interface). -/
def execDieFence (iss : Option (Nat × Nat)) (ent : Bytes) (buf : Option Bytes) (s : State) : Result :=
  act (issuerOk iss && decide (ent.length = 64)) s (fun fz m => azRowTake 0x80 fz iss ent buf m)

/-- DIE_RESTORE. R569, R85 to R89: the command of opcode 0x81, from its issuer (none: the management interface). -/
def execDieRestore (iss : Option (Nat × Nat)) (ent : Bytes) (buf : Option Bytes) (s : State) : Result :=
  act (issuerOk iss && decide (ent.length = 64)) s (fun fz m => azRowTake 0x81 fz iss ent buf m)

/-- DIE_ACTIVATE. R70, R85 to R89: the command of opcode 0x82, from its issuer (none: the management interface). -/
def execDieActivate (iss : Option (Nat × Nat)) (ent : Bytes) (buf : Option Bytes) (s : State) : Result :=
  act (issuerOk iss && decide (ent.length = 64)) s (fun fz m => azRowTake 0x82 fz iss ent buf m)

/-- TIME_ROLE. R107, R85 to R89: the command of opcode 0x90, from its issuer (none: the management interface). -/
def execTimeRole (iss : Option (Nat × Nat)) (ent : Bytes) (buf : Option Bytes) (s : State) : Result :=
  act (issuerOk iss && decide (ent.length = 64)) s (fun fz m => azRowTake 0x90 fz iss ent buf m)

/-- TIME_OF_DAY. R109, R85 to R89: the command of opcode 0x91, from its issuer (none: the management interface). -/
def execTimeOfDay (iss : Option (Nat × Nat)) (ent : Bytes) (buf : Option Bytes) (s : State) : Result :=
  act (issuerOk iss && decide (ent.length = 64)) s (fun fz m => azRowTake 0x91 fz iss ent buf m)

/-- DIE_SLEEP. R484, R85 to R89: the command of opcode 0x51, from its issuer (none: the management interface). -/
def execDieSleep (iss : Option (Nat × Nat)) (ent : Bytes) (buf : Option Bytes) (s : State) : Result :=
  act (issuerOk iss && decide (ent.length = 64)) s (fun fz m => azRowTake 0x51 fz iss ent buf m)

/-- DIE_WAKE. R486, R85 to R89: the command of opcode 0x52, from its issuer (none: the management interface). -/
def execDieWake (iss : Option (Nat × Nat)) (ent : Bytes) (buf : Option Bytes) (s : State) : Result :=
  act (issuerOk iss && decide (ent.length = 64)) s (fun fz m => azRowTake 0x52 fz iss ent buf m)

/-- MODULE_STANDBY. R489, R85 to R89: the command of opcode 0x53, from its issuer (none: the management interface). -/
def execModuleStandby (iss : Option (Nat × Nat)) (ent : Bytes) (buf : Option Bytes) (s : State) : Result :=
  act (issuerOk iss && decide (ent.length = 64)) s (fun fz m => azRowTake 0x53 fz iss ent buf m)

/-- MODULE_RESUME. R559, R85 to R89: the command of opcode 0x54, from its issuer (none: the management interface). -/
def execModuleResume (iss : Option (Nat × Nat)) (ent : Bytes) (buf : Option Bytes) (s : State) : Result :=
  act (issuerOk iss && decide (ent.length = 64)) s (fun fz m => azRowTake 0x54 fz iss ent buf m)

/-- MODULE_SHUTDOWN. R515, R85 to R89: the command of opcode 0x55, from its issuer (none: the management interface). -/
def execModuleShutdown (iss : Option (Nat × Nat)) (ent : Bytes) (buf : Option Bytes) (s : State) : Result :=
  act (issuerOk iss && decide (ent.length = 64)) s (fun fz m => azRowTake 0x55 fz iss ent buf m)

/-- FAULT_CLEAR. R507, R85 to R89: the command of opcode 0x61, from its issuer (none: the management interface). -/
def execFaultClear (iss : Option (Nat × Nat)) (ent : Bytes) (buf : Option Bytes) (s : State) : Result :=
  act (issuerOk iss && decide (ent.length = 64)) s (fun fz m => azRowTake 0x61 fz iss ent buf m)

/-- FAULT_REACT_SET. R492, R85 to R89: the command of opcode 0x62, from its issuer (none: the management interface). -/
def execFaultReactSet (iss : Option (Nat × Nat)) (ent : Bytes) (buf : Option Bytes) (s : State) : Result :=
  act (issuerOk iss && decide (ent.length = 64)) s (fun fz m => azRowTake 0x62 fz iss ent buf m)

/-- FAULT_INJECT. R510, R85 to R89: the command of opcode 0x63, from its issuer (none: the management interface). -/
def execFaultInject (iss : Option (Nat × Nat)) (ent : Bytes) (buf : Option Bytes) (s : State) : Result :=
  act (issuerOk iss && decide (ent.length = 64)) s (fun fz m => azRowTake 0x63 fz iss ent buf m)

/-- UNIT_RESTORE. R501, R85 to R89: the command of opcode 0x83, from its issuer (none: the management interface). -/
def execUnitRestore (iss : Option (Nat × Nat)) (ent : Bytes) (buf : Option Bytes) (s : State) : Result :=
  act (issuerOk iss && decide (ent.length = 64)) s (fun fz m => azRowTake 0x83 fz iss ent buf m)

/-- SEC_COMMIT. R522, R85 to R89: the command of opcode 0xA0, from its issuer (none: the management interface). -/
def execSecCommit (iss : Option (Nat × Nat)) (ent : Bytes) (buf : Option Bytes) (s : State) : Result :=
  act (issuerOk iss && decide (ent.length = 64)) s (fun fz m => azRowTake 0xA0 fz iss ent buf m)

/-- DEBUG_NONCE. R531, R85 to R89: the command of opcode 0xA1, from its issuer (none: the management interface). -/
def execDebugNonce (iss : Option (Nat × Nat)) (ent : Bytes) (buf : Option Bytes) (s : State) : Result :=
  act (issuerOk iss && decide (ent.length = 64)) s (fun fz m => azRowTake 0xA1 fz iss ent buf m)

/-- DEBUG_UNLOCK. R531, R85 to R89: the command of opcode 0xA2, from its issuer (none: the management interface). -/
def execDebugUnlock (iss : Option (Nat × Nat)) (ent : Bytes) (buf : Option Bytes) (s : State) : Result :=
  act (issuerOk iss && decide (ent.length = 64)) s (fun fz m => azRowTake 0xA2 fz iss ent buf m)

/-- DEBUG_LOCK. R532, R85 to R89: the command of opcode 0xA3, from its issuer (none: the management interface). -/
def execDebugLock (iss : Option (Nat × Nat)) (ent : Bytes) (buf : Option Bytes) (s : State) : Result :=
  act (issuerOk iss && decide (ent.length = 64)) s (fun fz m => azRowTake 0xA3 fz iss ent buf m)

/-- LIFECYCLE_ADVANCE. R529, R85 to R89: the command of opcode 0xA4, from its issuer (none: the management interface). -/
def execLifecycleAdvance (iss : Option (Nat × Nat)) (ent : Bytes) (buf : Option Bytes) (s : State) : Result :=
  act (issuerOk iss && decide (ent.length = 64)) s (fun fz m => azRowTake 0xA4 fz iss ent buf m)

/-- OWNER_KEY_SET. R527, R85 to R89: the command of opcode 0xA5, from its issuer (none: the management interface). -/
def execOwnerKeySet (iss : Option (Nat × Nat)) (ent : Bytes) (buf : Option Bytes) (s : State) : Result :=
  act (issuerOk iss && decide (ent.length = 64)) s (fun fz m => azRowTake 0xA5 fz iss ent buf m)

/-- SHEP_CNT_READ. R546, R85 to R89: the command of opcode 0x64, from its issuer (none: the management interface). -/
def execShepCntRead (iss : Option (Nat × Nat)) (ent : Bytes) (buf : Option Bytes) (s : State) : Result :=
  act (issuerOk iss && decide (ent.length = 64)) s (fun fz m => azRowTake 0x64 fz iss ent buf m)

end Sys2Proof.Machine
end

