-- ==== Sys2Proof/Machine/ExecAzxRings.lean ====
section
/-! DEFINITION. Meanings of the commands: Azrix rings, and what ends the Shepherd's procedures (spec/03). -/
namespace Sys2Proof.Machine

/-- AZX_CMD_TAIL_WRITE. R80. -/
def execAzxCmdTailWrite (d f i : Nat) (s : State) : Result :=
  act (dieOk d && fnOk f && decide (i < 65536)) s (fun _ m => when (hostUp d m) (fun m => cmdTailWrite d f i m) m)

/-- AZX_COMMAND_TAKE. R81, R89. -/
def execAzxCommandTake (ans : HostAns) (s : State) : Result :=
  act true s (fun fz m => azTake fz ans m)

/-- AZX_ENABLE. R83. -/
def execAzxEnable (d f : Nat) (s : State) : Result :=
  act (dieOk d && fnOk f) s (fun _ m => when (hostUp d m) (fun m => azxEnable d f m) m)

/-- AZX_DISABLE. R83. -/
def execAzxDisable (d f : Nat) (s : State) : Result :=
  act (dieOk d && fnOk f) s (fun _ m => when (hostUp d m) (fun m => azxDisable d f m) m)

/-- MCTP_COMMAND_RECEIVED. R84. -/
def execMctpCommandReceived (ent : Bytes) (buf : Option Bytes) (s : State) : Result :=
  act (decide (ent.length = 64)) s (fun _ m => mctpReceived ent buf m)

/-- DIE_TEST_COMPLETE. R569. -/
def execDieTestComplete (d links : Nat) (pass : Bool) (s : State) : Result :=
  act (dieOk d && decide (links < 32)) s (fun _ m => dieTested d links pass m)

/-- RETURN_PROCEDURE. R77. -/
def execReturnProcedure (d : Nat) (s : State) : Result :=
  act (dieOk d) s (fun _ m => returnProcedure d m)

/-- RETURN_TIMEOUT. R72. -/
def execReturnTimeout (d : Nat) (s : State) : Result :=
  act (dieOk d) s (fun _ m => returnTimeout d m)

/-- TABLE_PUSH_ACK. R74. -/
def execTablePushAck (d t : Nat) (s : State) : Result :=
  act (dieOk d && decide (t < 16)) s (fun _ m => pushAck d t m)

/-- DIE_SLEEP_DRAIN_END. R484. -/
def execDieSleepDrainEnd (d : Nat) (s : State) : Result :=
  act (dieOk d) s (fun _ m => drainEnd d m)

/-- UNIT_TEST_COMPLETE. R501. -/
def execUnitTestComplete (d u : Nat) (pass : Bool) (s : State) : Result :=
  act (dieOk d && decide (u < 28)) s (fun _ m => unitTested d u pass m)

end Sys2Proof.Machine
end

