-- ==== Sys2Proof/Machine/ExecDrover.lean ====
section
/-! DEFINITION. Meanings of the commands: The Drover (spec/14, spec/15). -/
namespace Sys2Proof.Machine

/-- CHUNK_ADMIT. R375. -/
def execChunkAdmit (d p : Nat) (ans : HostAns) (s : State) : Result :=
  act (dieOk d && decide (p < 256)) s (fun _ m => when (hostUp d m) (fun m => chunkAdmit d p ans m) m)

/-- DROVER_TIME_WAIT_END. R375. -/
def execDroverTimeWaitEnd (d p chunk : Nat) (s : State) : Result :=
  act (dieOk d && decide (p < 256)) s (fun _ m => when (hostUp d m) (fun m => timeWaitEnd d p chunk m) m)

/-- COLL_PACKET_RECEIVE. R381. -/
def execCollPacketReceive (d : Nat) (s : State) : Result :=
  act (dieOk d) s (fun _ m => when (hostUp d m) (fun m => collReceive d m) m)

/-- COLL_OUTPUT_SEND. R382. -/
def execCollOutputSend (d p chunk edge : Nat) (ans : HostAns) (s : State) : Result :=
  act (dieOk d && decide (p < 256) && decide (edge < 64)) s (fun _ m => when (hostUp d m) (fun m => collOutput d p chunk edge ans m) m)

/-- CREDIT_SEND. R382. -/
def execCreditSend (d p edge : Nat) (s : State) : Result :=
  act (dieOk d && decide (p < 256) && decide (edge < 64)) s (fun _ m => when (hostUp d m) (fun m => creditSend d p edge m) m)

/-- STEP_TIMEOUT. R387. -/
def execStepTimeout (d p chunk : Nat) (s : State) : Result :=
  act (dieOk d && decide (p < 256)) s (fun _ m => when (hostUp d m) (fun m => stepTimeout d p chunk m) m)

/-- DROVER_PROGRAM_RESET. R388. -/
def execDroverProgramReset (d p : Nat) (s : State) : Result :=
  act (dieOk d && decide (p < 256)) s (fun _ m => when (hostUp d m) (fun m => progReset d p m) m)

/-- LOCAL_INPUT_READ_COMPLETE. R377. -/
def execLocalInputReadComplete (d p chunk edge : Nat) (s : State) : Result :=
  act (dieOk d && decide (p < 256) && decide (edge < 64)) s (fun _ m => when (hostUp d m) (fun m => localInput d p chunk edge m) m)

end Sys2Proof.Machine
end

