-- ==== Sys2Proof/Machine/ExecFaults.lean ====
section
/-! DEFINITION. Meanings of the commands: Energy, faults and self-test (spec/18, spec/19). -/
namespace Sys2Proof.Machine

/-- ACTION_ENTRY_APPLY. R477. -/
def execActionEntryApply (d : Nat) (s : State) : Result :=
  act (dieOk d) s (fun _ m => when (hostUp d m) (fun m => actionApply d m) m)

/-- GAIN_TRIM. R470: the energy of the span by supply telemetry, in ledger units. -/
def execGainTrim (tel : Nat) (s : State) : Result :=
  act true s (fun _ m => when m.shep.booted (gainTrim tel) m)

/-- FAULT_DETECTED. R492 to R497: source `cause` at unit `u` of die `d` (4: the Shepherd). -/
def execFaultDetected (d u cause addr detail : Nat) (fn : Option Nat) (s : State) : Result :=
  act (holderOk d && decide (u < 64) && decide (cause < 64) && decide (addr < 2 ^ 64) && decide (detail < 2 ^ 64)) s (fun _ m => faultDetected d u cause addr detail fn m)

/-- FAULT_RECORD_CLEAR. R507. -/
def execFaultRecordClear (d u : Nat) (s : State) : Result :=
  act (dieOk d && decide (u < 28)) s (fun _ m => when (hostUp d m) (fun m => (clearRec d u m).1) m)

/-- ERROR_PAIR_READBACK. R506: the levels read back. -/
def execErrorPairReadback (p n : Bool) (s : State) : Result :=
  act true s (fun _ m => when m.shep.booted (pairReadback p n) m)

/-- SLICE_COMPLETE. R514: macro `k`, which unit `u` owns. -/
def execSliceComplete (d k u : Nat) (pass : Bool) (s : State) : Result :=
  act (dieOk d && decide (k < 1920) && decide (u < 28)) s (fun _ m => when (hostUp d m) (fun m => sliceComplete d k u pass m) m)

/-- SLICE_ABORT. R513. -/
def execSliceAbort (d k : Nat) (s : State) : Result :=
  act (dieOk d && decide (k < 1920)) s (fun _ m => when (hostUp d m) (fun m => sliceAbort d k m) m)

/-- FAULT_CAUSE_END. R495. -/
def execFaultCauseEnd (d u cause : Nat) (s : State) : Result :=
  act (holderOk d && decide (u < 64) && decide (cause < 64)) s (fun _ m => faultCauseEnd d u cause m)

end Sys2Proof.Machine
end

