-- ==== Sys2Proof/Machine/ExecHost.lean ====
section
/-! DEFINITION. Meanings of the commands: The host endpoint (spec/02). -/
namespace Sys2Proof.Machine

/-- PERST_ASSERT. R565: PERST_N of a die is asserted. -/
def execPerstAssert (d : Nat) (s : State) : Result :=
  act (dieOk d) s (fun _ m => perstAssert d m)

/-- PERST_RELEASE. R565: PERST_N of a die is released. -/
def execPerstRelease (d : Nat) (s : State) : Result :=
  act (dieOk d) s (fun _ m => perstRelease d m)

/-- HOST_LINK_DOWN. R561, R43: a host link goes down: its die, and 0 for link A or the x16 link, 1 for link B. -/
def execHostLinkDown (link : Nat × Nat) (s : State) : Result :=
  act (dieOk link.1 && pfOk link.2) s (fun _ m => hostLinkDown link.1 link.2 m)

/-- FUNCTION_RUN. R47: a function that may run moves to RUNNING. -/
def execFunctionRun (d f : Nat) (s : State) : Result :=
  act (dieOk d && fnOk f) s (fun _ m => when (hostUp d m) (fun m => functionRun d f m) m)

/-- BUS_MASTER_ENABLE_CLEAR. R59. -/
def execBusMasterEnableClear (d f : Nat) (s : State) : Result :=
  act (dieOk d && fnOk f) s (fun _ m => when (hostUp d m) (fun m => bmeClear d f m) m)

/-- BUS_MASTER_ENABLE_SET. R47. -/
def execBusMasterEnableSet (d f : Nat) (s : State) : Result :=
  act (dieOk d && fnOk f) s (fun _ m => when (hostUp d m) (fun m => bmeSet d f m) m)

/-- DRAIN_COMPLETE. R47: the last read of a draining function has ended. -/
def execDrainComplete (d f : Nat) (s : State) : Result :=
  act (dieOk d && fnOk f) s (fun _ m => when (hostUp d m) (fun m => drainComplete d f m) m)

/-- D3HOT_ENTRY. R46. -/
def execD3hotEntry (d f : Nat) (s : State) : Result :=
  act (dieOk d && fnOk f) s (fun _ m => when (hostUp d m) (fun m => d3Enter d f m) m)

/-- D3HOT_EXIT. R46: the return to D0 is a function level reset. -/
def execD3hotExit (d f : Nat) (s : State) : Result :=
  act (dieOk d && fnOk f) s (fun _ m => when (hostUp d m) (fun m => d3Exit d f m) m)

/-- FLR_INITIATE. R61. -/
def execFlrInitiate (d f : Nat) (s : State) : Result :=
  act (dieOk d && fnOk f) s (fun _ m => when (hostUp d m) (fun m => flrInitiate d f m) m)

/-- FLR_SILENCE. R61, R62. -/
def execFlrSilence (d f : Nat) (s : State) : Result :=
  act (dieOk d && fnOk f) s (fun _ m => when (hostUp d m) (fun m => flrSilence d f m) m)

/-- FLR_COMPLETE. R61, R63. -/
def execFlrComplete (d f : Nat) (s : State) : Result :=
  act (dieOk d && fnOk f) s (fun _ m => when (hostUp d m) (fun m => flrComplete d f m) m)

/-- VF_ENABLE. R45. -/
def execVfEnable (d pf n : Nat) (s : State) : Result :=
  act (dieOk d && pfOk pf && decide (n ≤ 1024)) s (fun _ m => when (hostUp d m) (fun m => vfEnable d pf n m) m)

/-- VF_DISABLE. R47. -/
def execVfDisable (d pf : Nat) (s : State) : Result :=
  act (dieOk d && pfOk pf) s (fun _ m => when (hostUp d m) (fun m => vfDisable d pf m) m)

/-- BAR4_RESIZE. R49. -/
def execBar4Resize (d pf log2 : Nat) (s : State) : Result :=
  act (dieOk d && pfOk pf) s (fun _ m => when (hostUp d m) (fun m => bar4Resize d pf log2 m) m)

/-- HOST_COMPLETION_RECEIVED. R55: status 0 is success. -/
def execHostCompletionReceived (d tag status : Nat) (data : Bytes) (s : State) : Result :=
  act (dieOk d && decide (tag < 1024)) s (fun _ m => when (hostUp d m) (fun m => hostCompletion d tag status data m) m)

/-- COMPLETION_TIMEOUT. R55. -/
def execCompletionTimeout (d tag : Nat) (s : State) : Result :=
  act (dieOk d && decide (tag < 1024)) s (fun _ m => when (hostUp d m) (fun m => completionTimeout d tag m) m)

/-- TAG_QUARANTINE_EXPIRY. R62. -/
def execTagQuarantineExpiry (d tag : Nat) (s : State) : Result :=
  act (dieOk d && decide (tag < 1024)) s (fun _ m => when (hostUp d m) (fun m => quarantineExpiry d tag m) m)

/-- GENERAL_TAG_GRANT. R54. -/
def execGeneralTagGrant (d : Nat) (s : State) : Result :=
  act (dieOk d) s (fun _ m => when (hostUp d m) (fun m => grantTag d m) m)

/-- MSIX_TABLE_WRITE. R58. -/
def execMsixTableWrite (d f vec addr data : Nat) (masked : Bool) (s : State) : Result :=
  act (dieOk d && fnOk f && decide (vec < 2048) && decide (addr < 2 ^ 64) && decide (data < 2 ^ 32)) s (fun _ m => when (hostUp d m) (fun m => when (fnExists d f m && decide (vec < vecCount d f m)) (fun m => msixPending d f vec (msixWrite d f vec addr data masked m)) m) m)

/-- MSIX_PENDING_SEND. R58. -/
def execMsixPendingSend (d f vec : Nat) (s : State) : Result :=
  act (dieOk d && fnOk f && decide (vec < 2048)) s (fun _ m => when (hostUp d m) (fun m => msixPending d f vec m) m)

/-- HOST_LINK_UP. R42, R43: a released host link (die and link) reaches L0. -/
def execHostLinkUp (link : Nat × Nat) (width speed : Nat) (s : State) : Result :=
  act (dieOk link.1 && pfOk link.2) s (fun _ m => hostLinkUp link.1 link.2 width speed m)

end Sys2Proof.Machine
end

