-- ==== Sys2Proof/Machine/ExecLanes.lean ====
section
/-! DEFINITION. Meanings of the commands: Lanes and ports (spec/05). -/
namespace Sys2Proof.Machine

/-- LANE_BLOCK_SEND. R119, R122: one block period of the port's transmit lanes. -/
def execLaneBlockSend (pc : Nat) (s : State) : Result :=
  act (portNumOk pc) s (fun _ m => when (hostUp (pc / 32) m) (fun m => blockSend pc m) m)

/-- LANE_BLOCK_RECEIVE. R127 to R130: the blocks of one period, by lane. -/
def execLaneBlockReceive (pc : Nat) (blocks : List (Nat × List Nat)) (s : State) : Result :=
  act (portNumOk pc && blocks.all (fun b => decide (b.1 < 4) && decide (b.2.length = 2048))) s (fun _ m => when (hostUp (pc / 32) m) (fun m => blockReceive pc blocks m) m)

/-- QUAD_ENABLE. R572. -/
def execQuadEnable (d q : Nat) (s : State) : Result :=
  act (dieOk d && decide (q < 16)) s (fun _ m => when (hostUp d m) (fun m => quadEnable d q m) m)

/-- SIGNAL_DETECT. R135. -/
def execSignalDetect (pc : Nat) (s : State) : Result :=
  act (portNumOk pc) s (fun _ m => when (hostUp (pc / 32) m) (fun m => signalDetect pc m) m)

/-- CALIBRATION_COMPLETE. R131: what calibration found, by lane. -/
def execCalibrationComplete (pc : Nat) (found : List (Nat × Nat)) (s : State) : Result :=
  act (portNumOk pc && decide (found.length ≤ 4) && found.all (fun x => decide (x.1 < 16))) s (fun _ m => when (hostUp (pc / 32) m) (fun m => calibrationComplete pc found m) m)

/-- ALIGN_TIMEOUT. R135. -/
def execAlignTimeout (pc : Nat) (s : State) : Result :=
  act (portNumOk pc) s (fun _ m => when (hostUp (pc / 32) m) (fun m => alignTimeout pc m) m)

/-- EXCHANGE_TIMEOUT. R135. -/
def execExchangeTimeout (pc : Nat) (s : State) : Result :=
  act (portNumOk pc) s (fun _ m => when (hostUp (pc / 32) m) (fun m => exchangeTimeout pc m) m)

/-- TRAINING_MESSAGE_RECEIVE. R138, R139, R571: a message on `lane`, marked with lane number `id`. -/
def execTrainingMessageReceive (pc lane id : Nat) (msg : Bytes) (s : State) : Result :=
  act (portNumOk pc && decide (lane < 4) && decide (id < 4) && decide (msg.length = 32)) s (fun _ m => when (hostUp (pc / 32) m) (fun m => trainReceive pc lane id msg m) m)

/-- LOOPBACK_COMPLETE. R101: the loop time that the measurement found, and the mode's nominal delays and share. -/
def execLoopbackComplete (pc lp txpd rxpd : Nat) (lbd : Nat × Nat) (s : State) : Result :=
  act (portNumOk pc) s (fun _ m => when (hostUp (pc / 32) m) (fun m => loopbackComplete pc lp txpd rxpd lbd.1 lbd.2 m) m)

/-- PORT_RETRAIN. R136. -/
def execPortRetrain (pc : Nat) (s : State) : Result :=
  act (portNumOk pc) s (fun _ m => when (hostUp (pc / 32) m) (fun m => portRetrain pc m) m)

/-- RETRAIN_REQUEST_TIMEOUT. R571. -/
def execRetrainRequestTimeout (pc : Nat) (s : State) : Result :=
  act (portNumOk pc) s (fun _ m => when (hostUp (pc / 32) m) (fun m => retrainTimeout pc m) m)

/-- LANE_IDLE_QUIET. R480. -/
def execLaneIdleQuiet (pc : Nat) (s : State) : Result :=
  act (portNumOk pc) s (fun _ m => when (hostUp (pc / 32) m) (fun m => laneIdleQuiet pc m) m)

/-- LANE0_IDLE_QUIET. R480. -/
def execLane0IdleQuiet (pc : Nat) (s : State) : Result :=
  act (portNumOk pc) s (fun _ m => when (hostUp (pc / 32) m) (fun m => lane0IdleQuiet pc m) m)

/-- LANE_SLEEP_TIMER. R482: direction 0 transmits, 1 receives. -/
def execLaneSleepTimer (pc lane dir : Nat) (s : State) : Result :=
  act (portNumOk pc && decide (lane < 4) && decide (dir < 2)) s (fun _ m => when (hostUp (pc / 32) m) (fun m => laneSleep pc lane dir m) m)

/-- LANE_WAKE. R141. -/
def execLaneWake (pc : Nat) (s : State) : Result :=
  act (portNumOk pc) s (fun _ m => when (hostUp (pc / 32) m) (fun m => laneWake pc m) m)

/-- LANE_JOIN. R141. -/
def execLaneJoin (pc : Nat) (s : State) : Result :=
  act (portNumOk pc) s (fun _ m => when (hostUp (pc / 32) m) (fun m => laneJoin pc m) m)

end Sys2Proof.Machine
end

