-- ==== Sys2Proof/Machine/ExecLink.lean ====
section
/-! DEFINITION. Meanings of the commands: The link layer (spec/06). -/
namespace Sys2Proof.Machine

/-- FLIT_SEND. R157. -/
def execFlitSend (pc : Nat) (s : State) : Result :=
  act (portNumOk pc) s (fun _ m => when (hostUp (pc / 32) m) (fun m => flitSend pc m) m)

/-- FLIT_RECEIVE. R161 to R163. -/
def execFlitReceive (pc : Nat) (b : Bytes) (s : State) : Result :=
  act (portNumOk pc && decide (b.length = 256)) s (fun _ m => when (hostUp (pc / 32) m) (fun m => flitReceive pc b m) m)

/-- REPLAY_TIMEOUT. R164. -/
def execReplayTimeout (pc : Nat) (s : State) : Result :=
  act (portNumOk pc) s (fun _ m => when (hostUp (pc / 32) m) (fun m => replayTimeout pc m) m)

/-- HANDSHAKE_SEND. R169. -/
def execHandshakeSend (pc : Nat) (s : State) : Result :=
  act (portNumOk pc) s (fun _ m => when (hostUp (pc / 32) m) (fun m => handshakeSend pc m) m)

/-- LINK_ENABLE. R168. -/
def execLinkEnable (pc : Nat) (s : State) : Result :=
  act (portNumOk pc) s (fun _ m => when (hostUp (pc / 32) m) (fun m => linkEnable pc m) m)

/-- LINK_DISABLE. R171. -/
def execLinkDisable (pc : Nat) (s : State) : Result :=
  act (portNumOk pc) s (fun _ m => when (hostUp (pc / 32) m) (fun m => linkDisable pc m) m)

/-- LINK_FLUSH. R172. -/
def execLinkFlush (pc : Nat) (s : State) : Result :=
  act (portNumOk pc) s (fun _ m => when (hostUp (pc / 32) m) (fun m => linkFlush pc m) m)

end Sys2Proof.Machine
end

