-- ==== Sys2Proof/Machine/ExecLocks.lean ====
section
/-! DEFINITION. Meanings of the commands: Crook (spec/12). -/
namespace Sys2Proof.Machine

/-- LOCK_PROBE_TIMER. R339: the lock whose word is at bus address `bus`. -/
def execLockProbeTimer (d bus : Nat) (s : State) : Result :=
  act (dieOk d && decide (bus < 2 ^ 64)) s (fun _ m => when (hostUp d m) (fun m => lockProbe d bus m) m)

/-- SLOT_ACQUIRE. R336. -/
def execSlotAcquire (d k : Nat) (s : State) : Result :=
  act (dieOk d && decide (k < 64)) s (fun _ m => when (hostUp d m) (fun m => slotAcquire d k m) m)

/-- SLOT_RELEASE. R337. -/
def execSlotRelease (d k : Nat) (s : State) : Result :=
  act (dieOk d && decide (k < 64)) s (fun _ m => when (hostUp d m) (fun m => slotRelease d k m) m)

/-- SLOT_WAIT_READ. R337. -/
def execSlotWaitRead (d k : Nat) (s : State) : Result :=
  act (dieOk d && decide (k < 64)) s (fun _ m => when (hostUp d m) (fun m => slotWaitRead d k (slotOwn d k m) m) m)

/-- SLOT_WAIT_TIMEOUT. R337. -/
def execSlotWaitTimeout (d k : Nat) (s : State) : Result :=
  act (dieOk d && decide (k < 64)) s (fun _ m => when (hostUp d m) (fun m => slotWaitTimeout d k m) m)

end Sys2Proof.Machine
end

