-- ==== Sys2Proof/Machine/ExecMatching.lean ====
section
/-! DEFINITION. Meanings of the commands: Message matching (spec/13). -/
namespace Sys2Proof.Machine

/-- EAGER_COPY_COMPLETE. R351: the message of token `tok`. -/
def execEagerCopyComplete (tok : Nat) (ans : HostAns) (s : State) : Result :=
  act true s (fun _ m => eagerCopy tok ans m)

/-- RENDEZVOUS_GET_COMPLETE. R352. -/
def execRendezvousGetComplete (tok : Nat) (s : State) : Result :=
  act true s (fun _ m => rndvComplete tok m)

/-- MATCH_BIND. R358. -/
def execMatchBind (d n : Nat) (s : State) : Result :=
  act (dieOk d && decide (n < 4096)) s (fun _ m => when (hostUp d m) (fun m => matchBind d n m) m)

/-- DOMAIN_RESUME. R359. -/
def execDomainResume (d n : Nat) (s : State) : Result :=
  act (dieOk d && decide (n < 4096)) s (fun _ m => when (hostUp d m) (fun m => domainResume d n m) m)

/-- DOMAIN_DISABLE. R361. -/
def execDomainDisable (d n : Nat) (s : State) : Result :=
  act (dieOk d && decide (n < 4096)) s (fun _ m => when (hostUp d m) (fun m => domainDisable d n true m) m)

/-- OVERFLOW_RING_HEAD_WRITE. R360. -/
def execOverflowRingHeadWrite (d n head : Nat) (s : State) : Result :=
  act (dieOk d && decide (n < 4096) && decide (head < 65536)) s (fun _ m => when (hostUp d m) (fun m => ovfHead d n head m) m)

end Sys2Proof.Machine
end

