-- ==== Sys2Proof/Machine/ExecModule.lean ====
section
/-! DEFINITION. Meanings of the commands: Module reset, boot, configuration, supplies (spec/01, spec/03, spec/22). -/
namespace Sys2Proof.Machine

/-- MODULE_RESET_RELEASE. R68, R557: the three conditions of running hold; the endpoints' identities, and the management address straps. -/
def execModuleResetRelease (eids : List Nat) (strap : Nat) (s : State) : Result :=
  act (decide (eids.length = 4) && eids.all (fun e => decide (e < 2 ^ 20)) && decide (strap < 8)) s (fun fz m => resetRelease fz eids strap m)

/-- MODULE_RESET_ASSERT. R557: module reset. -/
def execModuleResetAssert (s : State) : Result :=
  act true s (fun _ m => resetAssert m)

/-- D2D_PARITY_ERROR. R26: a parity error on a lane between dies `a` and `b` (4: the Shepherd). -/
def execD2dParityError (a b lane : Nat) (s : State) : Result :=
  act (dieOk a && holderOk b && decide (a ≠ b) && decide (lane < (if b = 4 then 64 else 512))) s (fun _ m => d2dParity a b lane m)

/-- GEN_PUBLISH. R40: the Shepherd publishes the configuration. -/
def execGenPublish (s : State) : Result :=
  act true s (fun _ m => when m.shep.booted genPublish m)

/-- CORE_WATCHDOG_EXPIRY. R67: the watchdog of a control core. -/
def execCoreWatchdogExpiry (core : Nat) (s : State) : Result :=
  act (decide (core < 8)) s (fun _ m => watchdog core m)

/-- GROUP_4_SUPPLY_CHANGE. R559: the rails of group 4 that are outside tolerance (0 to 3 the worker rails of a die, 4 VDD_PCIE). -/
def execGroup4SupplyChange (mask : Nat) (s : State) : Result :=
  act (decide (mask < 32)) s (fun _ m => group4 mask m)

/-- BOOT_SELF_TEST_COMPLETE. R36, R68, R517: what the boot self-test of a die found: links trained, units that failed, macros that failed, whether the HBM3E stack is usable, and whether a loss falls on a region that R36 does not absorb. -/
def execBootSelfTestComplete (d links units : Nat) (macros : List Nat) (hbm : Bool × Bool) (s : State) : Result :=
  act (dieOk d && decide (links < 32) && decide (units < 2 ^ 28) && macros.all (fun k => decide (k < 1920))) s (fun _ m => bootTested d links units macros hbm.1 hbm.2 m)

/-- SHUTDOWN_TEST_COMPLETE. R515, R516: the shutdown self-test ends. -/
def execShutdownTestComplete (l : List TestRes) (s : State) : Result :=
  act (l.all (fun r => dieOk r.die && r.failed.all (fun k => decide (k < 1920)))) s (fun _ m => shutdownTested l m)

/-- BOARD_FLASH_WRITE. R566: a board programmer writes image slots and boot options. -/
def execBoardFlashWrite (x : FlashFile) (s : State) : Result :=
  act (x.ok) s (fun _ m => flashWrite (flashFrom x m.flash) m)

end Sys2Proof.Machine
end

