-- ==== Sys2Proof/Machine/ExecQueue.lean ====
section
/-! DEFINITION. Meanings of the commands: Send queues and their entries (spec/10 to spec/14). -/
namespace Sys2Proof.Machine

/-- SQ_DOORBELL. R271, R288. -/
def execSqDoorbell (d q tail : Nat) (s : State) : Result :=
  act (dieOk d && queueOk q && decide (tail < 65536)) s (fun _ m => when (hostUp d m) (fun m => sqDoorbell d q tail m) m)

/-- DESCRIPTOR_FETCH_COMPLETE. R289: the entry read, or that its read failed. -/
def execDescriptorFetchComplete (d q idx : Nat) (data : Option Bytes) (s : State) : Result :=
  act (dieOk d && queueOk q && decide (idx < 65536)) s (fun _ m => when (hostUp d m) (fun m => fetchDone d q idx data m) m)

/-- GROUP_TURN. R291 to R294. -/
def execGroupTurn (d g : Nat) (ans : HostAns) (s : State) : Result :=
  act (dieOk d && decide (g < 1024)) s (fun _ m => when (hostUp d m) (fun m => groupTurn d g ans m) m)

/-- NOP. R277: the next entry of queue `q`, where its opcode is 0x01, is taken. -/
def execNop (d q : Nat) (s : State) : Result :=
  act (dieOk d && queueOk q) s (fun _ m => when (hostUp d m) (fun m => takeOp 0x01 d q (fun e m => workNop e m) m) m)

/-- PUT. R278: the next entry of queue `q`, where its opcode is 0x10, is taken. -/
def execPut (d q : Nat) (ans : HostAns) (s : State) : Result :=
  act (dieOk d && queueOk q) s (fun _ m => when (hostUp d m) (fun m => takeOp 0x10 d q (fun e m => workPut e ans m) m) m)

/-- GET. R309: the next entry of queue `q`, where its opcode is 0x11, is taken. -/
def execGet (d q : Nat) (ans : HostAns) (s : State) : Result :=
  act (dieOk d && queueOk q) s (fun _ m => when (hostUp d m) (fun m => takeOp 0x11 d q (fun e m => workGet e ans m) m) m)

/-- SEND. R349: the next entry of queue `q`, where its opcode is 0x12, is taken. -/
def execSend (d q : Nat) (ans : HostAns) (s : State) : Result :=
  act (dieOk d && queueOk q) s (fun _ m => when (hostUp d m) (fun m => takeOp 0x12 d q (fun e m => workSend e ans m) m) m)

/-- ADD32. R305: the next entry of queue `q`, where its opcode is 0x20, is taken. -/
def execAdd32 (d q : Nat) (ans : HostAns) (s : State) : Result :=
  act (dieOk d && queueOk q) s (fun _ m => when (hostUp d m) (fun m => takeOp 0x20 d q (fun e m => workAtomic 0 4 e ans m) m) m)

/-- ADD64. R305: the next entry of queue `q`, where its opcode is 0x21, is taken. -/
def execAdd64 (d q : Nat) (ans : HostAns) (s : State) : Result :=
  act (dieOk d && queueOk q) s (fun _ m => when (hostUp d m) (fun m => takeOp 0x21 d q (fun e m => workAtomic 0 8 e ans m) m) m)

/-- FETCH_ADD32. R305: the next entry of queue `q`, where its opcode is 0x22, is taken. -/
def execFetchAdd32 (d q : Nat) (ans : HostAns) (s : State) : Result :=
  act (dieOk d && queueOk q) s (fun _ m => when (hostUp d m) (fun m => takeOp 0x22 d q (fun e m => workAtomic 1 4 e ans m) m) m)

/-- FETCH_ADD64. R305: the next entry of queue `q`, where its opcode is 0x23, is taken. -/
def execFetchAdd64 (d q : Nat) (ans : HostAns) (s : State) : Result :=
  act (dieOk d && queueOk q) s (fun _ m => when (hostUp d m) (fun m => takeOp 0x23 d q (fun e m => workAtomic 1 8 e ans m) m) m)

/-- CAS32. R305: the next entry of queue `q`, where its opcode is 0x24, is taken. -/
def execCas32 (d q : Nat) (ans : HostAns) (s : State) : Result :=
  act (dieOk d && queueOk q) s (fun _ m => when (hostUp d m) (fun m => takeOp 0x24 d q (fun e m => workAtomic 2 4 e ans m) m) m)

/-- CAS64. R305: the next entry of queue `q`, where its opcode is 0x25, is taken. -/
def execCas64 (d q : Nat) (ans : HostAns) (s : State) : Result :=
  act (dieOk d && queueOk q) s (fun _ m => when (hostUp d m) (fun m => takeOp 0x25 d q (fun e m => workAtomic 2 8 e ans m) m) m)

/-- CAS128. R305: the next entry of queue `q`, where its opcode is 0x26, is taken. -/
def execCas128 (d q : Nat) (ans : HostAns) (s : State) : Result :=
  act (dieOk d && queueOk q) s (fun _ m => when (hostUp d m) (fun m => takeOp 0x26 d q (fun e m => workAtomic 2 16 e ans m) m) m)

/-- LOCK_ACQUIRE. R332: the next entry of queue `q`, where its opcode is 0x30, is taken. -/
def execLockAcquire (d q : Nat) (s : State) : Result :=
  act (dieOk d && queueOk q) s (fun _ m => when (hostUp d m) (fun m => takeOp 0x30 d q (fun e m => workLock 0 e m) m) m)

/-- LOCK_TRY. R332: the next entry of queue `q`, where its opcode is 0x31, is taken. -/
def execLockTry (d q : Nat) (s : State) : Result :=
  act (dieOk d && queueOk q) s (fun _ m => when (hostUp d m) (fun m => takeOp 0x31 d q (fun e m => workLock 1 e m) m) m)

/-- LOCK_RELEASE. R332: the next entry of queue `q`, where its opcode is 0x32, is taken. -/
def execLockRelease (d q : Nat) (s : State) : Result :=
  act (dieOk d && queueOk q) s (fun _ m => when (hostUp d m) (fun m => takeOp 0x32 d q (fun e m => workLock 2 e m) m) m)

/-- RECV_POST. R353: the next entry of queue `q`, where its opcode is 0x38, is taken. -/
def execRecvPost (d q : Nat) (ans : HostAns) (s : State) : Result :=
  act (dieOk d && queueOk q) s (fun _ m => when (hostUp d m) (fun m => takeOp 0x38 d q (fun e m => workRecv e ans m) m) m)

/-- COLL_START. R373: the next entry of queue `q`, where its opcode is 0x40, is taken. -/
def execCollStart (d q : Nat) (ans : HostAns) (s : State) : Result :=
  act (dieOk d && queueOk q) s (fun _ m => when (hostUp d m) (fun m => takeOp 0x40 d q (fun e m => workColl e ans m) m) m)

/-- CONDUIT_OPEN. R246: the next entry of queue `q`, where its opcode is 0x50, is taken. -/
def execConduitOpen (d q : Nat) (s : State) : Result :=
  act (dieOk d && queueOk q) s (fun _ m => when (hostUp d m) (fun m => takeOp 0x50 d q (fun e m => workOpen e m) m) m)

/-- CONDUIT_CLOSE. R266: the next entry of queue `q`, where its opcode is 0x51, is taken. -/
def execConduitClose (d q : Nat) (s : State) : Result :=
  act (dieOk d && queueOk q) s (fun _ m => when (hostUp d m) (fun m => takeOp 0x51 d q (fun e m => workClose e m) m) m)

/-- FM_SEND. R284: the next entry of queue `q`, where its opcode is 0x60, is taken. -/
def execFmSend (d q : Nat) (s : State) : Result :=
  act (dieOk d && queueOk q) s (fun _ m => when (hostUp d m) (fun m => takeOp 0x60 d q (fun e m => workFm e m) m) m)

end Sys2Proof.Machine
end

