-- ==== Sys2Proof/Machine/ExecRegs.lean ====
section
/-! DEFINITION. Meanings of the commands: Register accesses (spec/02, R7 to R15) and counters (spec/21). -/
namespace Sys2Proof.Machine

/-- Where counter `i` is read by function `f`: on the PF's counter page, or on the VF's (R50, R541). -/
def counterOff (d f i : Nat) (m : Mod) : Nat := if isPf d f m then 0x1710800 + 8 * i else 0x4800 + 8 * i

/-- REGISTER_WRITE. R7 to R15: function `f` of die `d` writes `size` bytes at `off` of its register space. -/
def execRegisterWrite (d f off size val : Nat) (ans : HostAns) (s : State) : Result :=
  act (dieOk d && fnOk f && decide (0 < size) && decide (val < 2 ^ 64)) s (fun fz m => writeAt fz d f off size val ans m)

/-- LIVE_WRITE_APPLY. R11, R12: the counter of the die reaches its next cycle boundary, at which its pending LIVE writes take effect. -/
def execLiveWriteApply (d : Nat) (ans : HostAns) (s : State) : Result :=
  act (dieOk d) s (fun _ m => when (hostUp d m) (fun m => liveApply d ans (cycleBoundary d m)) m)

/-- LOWER_HALF_READ. R8: a 4-byte read; the lower half of a 64-bit register captures its upper half. -/
def execLowerHalfRead (d f off : Nat) (s : State) : Result :=
  act (dieOk d && fnOk f) s (fun fz m => readAt fz d f off 4 m)

/-- READ_CLEAR. R9: a read; RC fields read are cleared. -/
def execReadClear (d f off size : Nat) (s : State) : Result :=
  act (dieOk d && fnOk f && decide (0 < size)) s (fun fz m => readAt fz d f off size m)

/-- COUNTER_READ. R541: counter `i` is read on the function's counter page. -/
def execCounterRead (d f i : Nat) (s : State) : Result :=
  act (dieOk d && fnOk f && decide (i < 704)) s (fun fz m => readAt fz d f (counterOff d f i m) 8 m)

/-- COUNTER_WRAP. R537: the counter goes from 2^48 - 1 to zero. -/
def execCounterWrap (d i : Nat) (s : State) : Result :=
  act (holderOk d && decide (i < 1024)) s (fun _ m => when (clock d m).run (ctrWrap d i) m)

/-- SAMPLER_ENABLE. R550: SMP_CTRL.ENABLE takes effect. -/
def execSamplerEnable (d : Nat) (on : Bool) (s : State) : Result :=
  act (dieOk d) s (fun _ m => when (hostUp d m) (fun m => samplerEnable d on m) m)

/-- ETL_NOW_NS_READ. R116: the time is read, and its fraction captured. -/
def execEtlNowNsRead (d size : Nat) (s : State) : Result :=
  act (dieOk d && (size == 4 || size == 8)) s (fun fz m => readAt fz d 0 0x300008 size m)

end Sys2Proof.Machine
end

