-- ==== Sys2Proof/Machine/ExecRings.lean ====
section
/-! DEFINITION. Meanings of the commands: Queues and rings as objects (spec/10). -/
namespace Sys2Proof.Machine

/-- SQ_INVALIDATE. R290. -/
def execSqInvalidate (d q first n : Nat) (s : State) : Result :=
  act (dieOk d && queueOk q && decide (first < 65536) && decide (n < 65536)) s (fun _ m => when (hostUp d m) (fun m => sqInvalidate d q first n m) m)

/-- CR_ARM. R298. -/
def execCrArm (d r : Nat) (s : State) : Result :=
  act (dieOk d && queueOk r) s (fun _ m => when (hostUp d m) (fun m => crArm d r m) m)

/-- QUEUE_ENABLE. R274: kind 0 a send queue, 1 a completion ring. -/
def execQueueEnable (d kind n : Nat) (s : State) : Result :=
  act (dieOk d && kindOk kind n) s (fun _ m => when (hostUp d m) (fun m => queueEnable d kind n m) m)

/-- QUEUE_DISABLE. R274. -/
def execQueueDisable (d kind n : Nat) (s : State) : Result :=
  act (dieOk d && kindOk kind n) s (fun _ m => when (hostUp d m) (fun m => queueDisable d kind n m) m)

/-- QUEUE_RESET. R274. -/
def execQueueReset (d kind n : Nat) (s : State) : Result :=
  act (dieOk d && kindOk kind n) s (fun _ m => when (hostUp d m) (fun m => queueReset d kind n m) m)

/-- QUEUE_DRAIN_COMPLETE. R274. -/
def execQueueDrainComplete (d q : Nat) (s : State) : Result :=
  act (dieOk d && queueOk q) s (fun _ m => when (hostUp d m) (fun m => queueDrained d q m) m)

/-- EVENT_RING_ENABLE. R300. -/
def execEventRingEnable (d f : Nat) (s : State) : Result :=
  act (dieOk d && fnOk f) s (fun _ m => when (hostUp d m) (fun m => evrEnable d f true m) m)

/-- EVENT_RING_HEAD_WRITE. R300. -/
def execEventRingHeadWrite (d f i : Nat) (s : State) : Result :=
  act (dieOk d && fnOk f && decide (i < 65536)) s (fun _ m => when (hostUp d m) (fun m => evrHead d f i m) m)

end Sys2Proof.Machine
end

