-- ==== Sys2Proof/Machine/ExecRoute.lean ====
section
/-! DEFINITION. Meanings of the commands: Source routing (spec/07) and the delivery contract (spec/08). -/
namespace Sys2Proof.Machine

/-- PACKET_ROUTE. R183, R185 to R187: the packet at the head of input `src` of a crossbar, on channel `vc`. -/
def execPacketRoute (src vc : Nat) (s : State) : Result :=
  act (inputOk src && decide (vc < 4)) s (fun _ m => when (hostUp (dieOf src) m) (fun m => packetRoute src vc m) m)

/-- FLOCK_REPLICATE. R204 to R207. -/
def execFlockReplicate (src vc : Nat) (s : State) : Result :=
  act (inputOk src && decide (vc < 4)) s (fun _ m => when (hostUp (dieOf src) m) (fun m => flockReplicate src vc m) m)

/-- FLOCK_DIE_COPY. R205: die `d` takes the copy that the entry die `e` sent it. -/
def execFlockDieCopy (e d vc : Nat) (s : State) : Result :=
  act (dieOk e && dieOk d && decide (e ≠ d) && decide (vc < 4)) s (fun _ m => when (hostUp d m) (fun m => flockDieCopy e d vc m) m)

/-- PACKET_INJECT. R199, R200. -/
def execPacketInject (d cn : Nat) (ans : HostAns) (s : State) : Result :=
  act (dieOk d && conduitOk cn) s (fun _ m => when (hostUp d m) (fun m => packetInject d cn ans m) m)

/-- PATH_RECORD_FETCH. R192. -/
def execPathRecordFetch (d e : Nat) (s : State) : Result :=
  act (dieOk d && decide (e < 2 ^ 20)) s (fun _ m => when (hostUp d m) (fun m => pathFetch d e m) m)

/-- CALENDAR_SWITCH_FRAME. R222. -/
def execCalendarSwitchFrame (d : Nat) (s : State) : Result :=
  act (dieOk d) s (fun _ m => when (hostUp d m) (fun m => calSwitchFrame d m) m)

/-- TIMED_RELEASE. R228 to R232. -/
def execTimedRelease (d r : Nat) (s : State) : Result :=
  act (dieOk d && decide (r < 16384)) s (fun _ m => when (hostUp d m) (fun m => timedRelease d r m) m)

end Sys2Proof.Machine
end

