-- ==== Sys2Proof/Machine/Debug.lean ====
section
/-! DEFINITION. The test access port's instructions that reach module state (R530, R533). -/
namespace Sys2Proof.Machine

/-- What a debug read of a place returns: no field is cleared and nothing is captured. -/
def peek (fz : Fuse) (d f : Nat) (p : Place) (m : Mod) : Nat :=
  match p with
  | .reg r i hi _ => let v := regValue fz r d f i m; if hi then v >>> 32 else v
  | .msix v w => msixWord d f v w m
  | .pba w => pbaWord d f w m
  | .page q o => pageValue d q o m
  | _ => 0

/-- The units of a sleeping die read zero and ignore writes (R535). -/
def debugAsleep (t : DebugAt) (m : Mod) : Bool :=
  dieState (match t with | .reg d _ _ => d | .pool d _ => d | .sram d _ => d | .key d _ => d) m == DieSt.sleep

/-- Where an offset leads for a debug access, which reaches every register of a PF whether or not the die serves its host. -/
def debugPlace (d f off : Nat) (m : Mod) : Place :=
  match locate d f off m with
  | .none => if isPf d f m && decide (off < 0x4000000) then findReg d f off false m (blockRows off) else .none
  | p => p

/-- A debug read.  The contents of SRAM by address are open: a free value. -/
def debugRead (fz : Fuse) (t : DebugAt) (m : Mod) : Nat × Mod :=
  if debugAsleep t m then (0, m)
  else match t with
  | .reg d f off => (peek fz d f (debugPlace d f off m) m, m)
  | .pool d off => ((NMap.get 0#8 m.pool (d * 2 ^ 40 + off)).toNat, m)
  | .sram _ _ => draw 64 m
  | .key d p => (match pkey d p m with | some k => leNat k.key | none => 0, m)

/-- A debug write: of a register as the PF's own write, of a pool byte, or of a key.  SRAM is held by meaning, not by
address, so a write of it by address shows nowhere in State. -/
def debugWrite (fz : Fuse) (t : DebugAt) (v : Nat) (m : Mod) : Mod :=
  if debugAsleep t m then m
  else match t with
  | .reg d f off =>
    (match debugPlace d f off m with
     | .reg r i hi _ => if hi then regWrite fz r d f i (v % 2 ^ 32 * 2 ^ 32) (m32 * 2 ^ 32) [] m else regWrite fz r d f i v (if r.bits = 32 then m32 else m64) [] m
     | .msix e w => msixSet d f e w (v % 2 ^ 32) m
     | .page q o => pageWrite d q o (v % 2 ^ 32) m
     | _ => m)
  | .pool d off => { m with pool := NMap.set 0#8 m.pool (d * 2 ^ 40 + off) (toByte v) }
  | .sram _ _ => m
  | .key d p =>
    match pkey d p m with
    | some k => { m with keys := NMap.put m.keys (d * 65536 + p) { k with key := leBytes 32 v } }
    | none => m

/-- The names that OBSERVE may read: not the key store. -/
def observable (t : DebugAt) : Bool := match t with | .key _ _ => false | _ => true

/-- OBSERVE_ACCESS, in OBSERVE and above; otherwise it acts as BYPASS. -/
def debugObserve (fz : Fuse) (t : DebugAt) (m : Mod) : Mod :=
  if 1 ≤ m.sec.debug ∧ observable t then
    let x := debugRead fz t m
    tap 0x12 x.1 x.2
  else tap 0xFF 0 m

/-- INVASIVE_ACCESS, in INVASIVE and above; otherwise it acts as BYPASS. -/
def debugInvasive (fz : Fuse) (x : DebugOp) (m : Mod) : Mod :=
  if 2 ≤ m.sec.debug then
    match x with
    | .read t => let r := debugRead fz t m; tap 0x13 r.1 r.2
    | .write t v => tap 0x13 0 (debugWrite fz t v m)
    | .halt c => tap 0x13 0 { m with sec := { m.sec with halted := c } }
    | .step _ => tap 0x13 0 m
  else tap 0xFF 0 m

/-- SCAN_SELECT, in SCAN once zeroisation has cleared every store; otherwise it acts as BYPASS.  What a chain holds is
open: a free value. -/
def scanSelect (chain : Nat) (m : Mod) : Mod :=
  if m.sec.debug = 3 ∧ m.sec.scanOn then
    let x := draw 64 m
    tap 0x20 x.1 { x.2 with sec := { x.2.sec with scanChain := chain } }
  else tap 0xFF 0 m

/-- SAMPLE/PRELOAD: the boundary cells are sampled and preloaded.  Their order, and the levels that the board drives, are
open: a free value of 20 bits. -/
def samplePreload (cells : Nat) (m : Mod) : Mod :=
  let x := draw 20 m
  tap 0x01 x.1 { x.2 with pin := { x.2.pin with cells := cells } }

end Sys2Proof.Machine
end

