-- ==== Sys2Proof/Machine/ExecSecurity.lean ====
section
/-! DEFINITION. Meanings of the commands: Security and debug (spec/20). -/
namespace Sys2Proof.Machine

/-- The SPDM responder is reached: the firmware runs, and the host link of the transport is up (R524). -/
def spdmServed (via : Nat) (m : Mod) : Bool :=
  m.shep.booted && !m.flt.stopped && (match spdmLink via with
    | some (d, p) => hostUp d m && rdB F.HIF_STATUS_LINK_UP d p m
    | none => true)

/-- GET_VERSION. R524: on a transport (`spdmLink`). -/
def execGetVersion (via : Nat) (s : State) : Result :=
  act (viaOk via) s (fun _ m => when (spdmServed via m) (fun m => spdmVersion via m) m)

/-- GET_CAPABILITIES. R524. -/
def execGetCapabilities (via : Nat) (req : Bytes) (s : State) : Result :=
  act (viaOk via) s (fun _ m => when (spdmServed via m) (fun m => spdmCaps via req m) m)

/-- NEGOTIATE_ALGORITHMS. R524. -/
def execNegotiateAlgorithms (via : Nat) (req : Bytes) (s : State) : Result :=
  act (viaOk via) s (fun _ m => when (spdmServed via m) (fun m => spdmAlgs via req m) m)

/-- GET_DIGESTS. R524. -/
def execGetDigests (via : Nat) (s : State) : Result :=
  act (viaOk via) s (fun _ m => when (spdmServed via m) (fun m => spdmDigests via m) m)

/-- GET_CERTIFICATE. R523. -/
def execGetCertificate (via slot off len : Nat) (s : State) : Result :=
  act (viaOk via) s (fun _ m => when (spdmServed via m) (fun m => spdmCert via slot off len m) m)

/-- CHALLENGE. R524. -/
def execChallenge (via : Nat) (req : Bytes) (s : State) : Result :=
  act (viaOk via) s (fun _ m => when (spdmServed via m) (fun m => spdmChallenge via req m) m)

/-- GET_MEASUREMENTS. R525. -/
def execGetMeasurements (via index : Nat) (s : State) : Result :=
  act (viaOk via) s (fun fz m => when (spdmServed via m) (fun m => spdmMeasure fz via index m) m)

/-- KEY_EXCHANGE. R524. -/
def execKeyExchange (via : Nat) (req : Bytes) (s : State) : Result :=
  act (viaOk via) s (fun _ m => when (spdmServed via m) (fun m => spdmKeyExchange via req m) m)

/-- FINISH. R524. -/
def execFinish (via id : Nat) (req : Bytes) (s : State) : Result :=
  act (viaOk via) s (fun _ m => when (spdmServed via m) (fun m => spdmFinish via id req m) m)

/-- KEY_UPDATE. R524. -/
def execKeyUpdate (via id : Nat) (s : State) : Result :=
  act (viaOk via) s (fun _ m => when (spdmServed via m) (fun m => spdmInSession via id 0x69 (updSession id (fun s => { s with updates := s.updates + 1 })) m) m)

/-- HEARTBEAT. R524. -/
def execHeartbeat (via id : Nat) (s : State) : Result :=
  act (viaOk via) s (fun _ m => when (spdmServed via m) (fun m => spdmInSession via id 0x68 (fun m => m) m) m)

/-- END_SESSION. R524. -/
def execEndSession (via id : Nat) (s : State) : Result :=
  act (viaOk via) s (fun _ m => when (spdmServed via m) (fun m => spdmInSession via id 0x6C (endSession id) m) m)

/-- SET_CERTIFICATE. R523. -/
def execSetCertificate (via slot : Nat) (chain : Bytes) (s : State) : Result :=
  act (viaOk via) s (fun _ m => when (spdmServed via m) (fun m => spdmSetCert via slot chain m) m)

/-- IDE_KM_REQUEST. R526: 0 KEY_PROG, 1 K_SET_GO, 2 K_SET_STOP, in a session of the link's mailbox. -/
def execIdeKmRequest (d stream op sess : Nat) (s : State) : Result :=
  act (dieOk d && decide (stream < 8) && decide (op < 3)) s (fun _ m => when (spdmServed (mailbox d (stream / 4)) m) (fun m => ideKm d stream op sess m) m)

/-- IDE_INTEGRITY_FAIL. R526. -/
def execIdeIntegrityFail (d stream : Nat) (s : State) : Result :=
  act (dieOk d && decide (stream < 8)) s (fun _ m => when (hostUp d m) (fun m => ideFail d stream m) m)

/-- EXTEST. R530, R567. -/
def execExtest (cells : Nat) (s : State) : Result :=
  act (decide (cells < 2 ^ 20)) s (fun _ m => extest cells m)

/-- SAMPLE_PRELOAD. R530, R567. -/
def execSamplePreload (cells : Nat) (s : State) : Result :=
  act (decide (cells < 2 ^ 20)) s (fun _ m => samplePreload cells m)

/-- IDCODE. R530. -/
def execIdcode (s : State) : Result :=
  act true s (fun _ m => tap 0x02 idcode m)

/-- DEBUG_AUTH. R531. -/
def execDebugAuth (tok owner : Bytes) (s : State) : Result :=
  act true s (fun fz m => debugAuth fz tok owner m)

/-- BYPASS. R530. -/
def execBypass (s : State) : Result :=
  act true s (fun _ m => tap 0xFF 0 m)

/-- OBSERVE_ACCESS. R530. -/
def execObserveAccess (t : DebugAt) (s : State) : Result :=
  act (t.ok) s (fun fz m => debugObserve fz t m)

/-- INVASIVE_ACCESS. R530, R533. -/
def execInvasiveAccess (x : DebugOp) (s : State) : Result :=
  act (x.ok) s (fun fz m => debugInvasive fz x m)

/-- SCAN_SELECT. R530, R534. -/
def execScanSelect (chain : Nat) (s : State) : Result :=
  act true s (fun _ m => scanSelect chain m)

end Sys2Proof.Machine
end

