-- ==== Sys2Proof/Machine/ExecTime.lean ====
section
/-! DEFINITION. Meanings of the commands: Eteel time (spec/04), with the frame boundary's ledger, planner and self-test. -/
namespace Sys2Proof.Machine

/-- The frame boundary of `d`: the ledger of the closed frame (R469), static energies, self-test slices (R511 to R514) and
per-frame limits (R128, R225) of a die; the planner (R477) at the Shepherd. -/
def frameStep (d volt : Nat) (temp : Int) (nominal : Bool) (m : Mod) : Mod :=
  if !(clock d m).run then m
  else
    let m := liveNow (reachFrame d m)
    if d = 4 then plannerStep m
    else
      let m := chargeLanes d (chargeDie d m)
      let m := sliceStart d nominal (ledgerDie d volt temp m)
      each ((List.range 32).map (fun p => 32 * d + p)) replayFrame (laneFrame d m)

/-- CYCLE_BOUNDARY. R94, R104. -/
def execCycleBoundary (d : Nat) (s : State) : Result :=
  act (holderOk d) s (fun _ m => cycleBoundary d m)

/-- FRAME_BOUNDARY. R94, R469, R477, R511 to R514: the boundary of die `d` (4: the Shepherd), with the mean voltage (mV) and temperature (1/8 °C) of the closed frame, and whether supply and clocks were nominal (R513). -/
def execFrameBoundary (d volt : Nat) (temp : Int) (nominal : Bool) (s : State) : Result :=
  act (holderOk d) s (fun _ m => frameStep d volt temp nominal m)

/-- SLOT_BOUNDARY. R217. -/
def execSlotBoundary (d : Nat) (s : State) : Result :=
  act (dieOk d) s (fun _ m => when (clock d m).run (reachSlot d) m)

/-- SERVO_INTERVAL. R110 to R113, R233. -/
def execServoInterval (d : Nat) (s : State) : Result :=
  act (holderOk d) s (fun _ m => servoInterval d m)

/-- ALARM_FIRE. R97: alarm `k` of the die (R32): 32 to 63 are the host alarms; 0 to 31 are the engines' own, whose waits end by their own commands. -/
def execAlarmFire (d k : Nat) (s : State) : Result :=
  act (dieOk d && decide (k < 64)) s (fun _ m => when (hostUp d m) (fun m => alarmFire d k m) m)

/-- TIME_MESSAGE_RECEIVE. R103: the message whose mark met the land of port `p` at `stamp` (2^-16 ns). -/
def execTimeMessageReceive (d p stamp : Nat) (b : Bytes) (s : State) : Result :=
  act (dieOk d && decide (p < 32) && decide (b.length = 24)) s (fun _ m => when (hostUp d m) (fun m => timeMsgReceive d p stamp b m) m)

/-- PPS_EDGE. R107: a rising edge at `stamp` (2^-16 ns). -/
def execPpsEdge (stamp : Nat) (s : State) : Result :=
  act true s (fun _ m => ppsEdge stamp m)

/-- PPS_TIMEOUT. R108. -/
def execPpsTimeout (s : State) : Result :=
  act true s (fun _ m => ppsTimeout m)

/-- PPS_OUT_RISE. R109. -/
def execPpsOutRise (s : State) : Result :=
  act true s (fun _ m => ppsOutRise m)

/-- PPS_OUT_FALL. R109. -/
def execPpsOutFall (s : State) : Result :=
  act true s (fun _ m => ppsOutFall m)

end Sys2Proof.Machine
end

