-- ==== Sys2Proof/Machine/ExecTranslation.lean ====
section
/-! DEFINITION. Meanings of the commands: Translation and protection (spec/16). -/
namespace Sys2Proof.Machine

/-- TRANSLATION_WALK. R427 to R432: an access of kind 0 read, 1 write, 2 atomic, and a class of R437. -/
def execTranslationWalk (d f ctx va len kind cls : Nat) (ans : HostAns) (s : State) : Result :=
  act (dieOk d && fnOk f && decide (ctx < 4096) && decide (va < 2 ^ 64) && decide (kind < 3) && decide (cls < 5)) s (fun _ m => when (hostUp d m) (fun m => translationWalk d f ctx va len kind cls ans m) m)

/-- XLT_INVALIDATE. R434. -/
def execXltInvalidate (d f : Nat) (s : State) : Result :=
  act (dieOk d && fnOk f) s (fun _ m => when (hostUp d m) (fun m => xltInvalidate d f m) m)

/-- INVALIDATE_DONE. R434. -/
def execInvalidateDone (d f : Nat) (s : State) : Result :=
  act (dieOk d && fnOk f) s (fun _ m => when (hostUp d m) (fun m => invalidateDone d f m) m)

/-- XLT_LOCK. R433. -/
def execXltLock (d f : Nat) (ans : HostAns) (s : State) : Result :=
  act (dieOk d && fnOk f) s (fun _ m => when (hostUp d m) (fun m => xltLock d f ans m) m)

/-- CONTEXT_DISABLE. R435. -/
def execContextDisable (d ctx : Nat) (s : State) : Result :=
  act (dieOk d && decide (ctx < 4096)) s (fun _ m => when (hostUp d m) (fun m => contextDisable d ctx m) m)

/-- REGION_LOCK. R444. -/
def execRegionLock (d r : Nat) (s : State) : Result :=
  act (dieOk d && decide (r < 1024)) s (fun _ m => when (hostUp d m) (fun m => regionLock d r m) m)

end Sys2Proof.Machine
end

