-- ==== Sys2Proof/Machine/ExecTransport.lean ====
section
/-! DEFINITION. Meanings of the commands: Conduits and transport (spec/09, spec/11). -/
namespace Sys2Proof.Machine

/-- TRANSPORT_PACKET_ARRIVE. R251. -/
def execTransportPacketArrive (d : Nat) (ans : HostAns) (s : State) : Result :=
  act (dieOk d) s (fun _ m => when (hostUp d m) (fun m => transportArrive d ans m) m)

/-- ACK_RECEIVE. R255. -/
def execAckReceive (d : Nat) (ans : HostAns) (s : State) : Result :=
  act (dieOk d) s (fun _ m => when (hostUp d m) (fun m => ackReceive d ans m) m)

/-- CONDUIT_FETCH_COMPLETE. R242, R252. -/
def execConduitFetchComplete (d cn : Nat) (ans : HostAns) (s : State) : Result :=
  act (dieOk d && conduitOk cn) s (fun _ m => when (hostUp d m) (fun m => fetchComplete d cn ans m) m)

/-- RETRY_TIMEOUT. R256, R261. -/
def execRetryTimeout (d cn : Nat) (ans : HostAns) (s : State) : Result :=
  act (dieOk d && conduitOk cn) s (fun _ m => when (hostUp d m) (fun m => retryTimeout d cn ans m) m)

/-- NOT_READY_RETRY. R257. -/
def execNotReadyRetry (d cn psn : Nat) (ans : HostAns) (s : State) : Result :=
  act (dieOk d && conduitOk cn && decide (psn < 2 ^ 32)) s (fun _ m => when (hostUp d m) (fun m => notReadyRetry d cn psn ans m) m)

/-- GATE_POOL_REFILL. R248. -/
def execGatePoolRefill (d f : Nat) (s : State) : Result :=
  act (dieOk d && fnOk f) s (fun _ m => when (hostUp d m) (fun m => gateRefill d f m) m)

/-- TRACKER_IDLE_TIMEOUT. R259. -/
def execTrackerIdleTimeout (d k : Nat) (s : State) : Result :=
  act (dieOk d && decide (k < 4096)) s (fun _ m => when (hostUp d m) (fun m => trkIdle d k m) m)

/-- CLOSE_SEND. R266. -/
def execCloseSend (d cn : Nat) (s : State) : Result :=
  act (dieOk d && conduitOk cn) s (fun _ m => when (hostUp d m) (fun m => closeSend d cn m) m)

/-- OLD_KEY_EXPIRY. R264. -/
def execOldKeyExpiry (d p : Nat) (s : State) : Result :=
  act (dieOk d && decide (p < 65536)) s (fun _ m => oldKeyExpiry d p m)

/-- CONDUIT_FN_ENABLE. R243. -/
def execConduitFnEnable (d f : Nat) (on : Bool) (s : State) : Result :=
  act (dieOk d && fnOk f) s (fun _ m => when (hostUp d m) (fun m => cndFnEnable d f on m) m)

/-- GET_RESPONSE_SEGMENT. R311. -/
def execGetResponseSegment (d cn : Nat) (ans : HostAns) (s : State) : Result :=
  act (dieOk d && conduitOk cn) s (fun _ m => when (hostUp d m) (fun m => getSegment d cn ans m) m)

/-- FLIT_BUFFER_GRANT. R323. -/
def execFlitBufferGrant (d cn : Nat) (s : State) : Result :=
  act (dieOk d && conduitOk cn) s (fun _ m => when (hostUp d m) (fun m => bufGrant d cn m) m)

end Sys2Proof.Machine
end

