-- ==== Sys2Proof/Machine/ExecWindows.lean ====
section
/-! DEFINITION. Meanings of the commands: Peer windows (spec/17). -/
namespace Sys2Proof.Machine

/-- BAR4_REQUEST. R455: kind 0 a write, 1 a read, 2 an AtomicOp (op 1 FetchAdd, 2 CAS, 3 Swap). -/
def execBar4Request (d pf id kind off len op : Nat) (data : Bytes) (s : State) : Result :=
  act (dieOk d && pfOk pf && decide (kind < 3)) s (fun _ m => when (hostUp d m) (fun m => bar4Request d pf id kind off len op data m) m)

/-- WINDOW_COMMIT. R452. -/
def execWindowCommit (d win : Nat) (s : State) : Result :=
  act (dieOk d && decide (win < 256)) s (fun _ m => when (hostUp d m) (fun m => windowCommit d win m) m)

/-- PEER_READ_TIMEOUT. R456. -/
def execPeerReadTimeout (d id : Nat) (s : State) : Result :=
  act (dieOk d) s (fun _ m => when (hostUp d m) (fun m => peerReadTimeout d id m) m)

/-- PWLOG_REARM. R460. -/
def execPwlogRearm (d : Nat) (s : State) : Result :=
  act (dieOk d) s (fun _ m => when (hostUp d m) (fun m => pwRearm d m) m)

/-- MIRROR_POLL. R464. -/
def execMirrorPoll (d k : Nat) (s : State) : Result :=
  act (dieOk d && decide (k < 64)) s (fun _ m => when (hostUp d m) (fun m => mirrorPoll d k m) m)

end Sys2Proof.Machine
end

