-- ==== Sys2Proof/Machine/Dispatch.lean ====
section
/-! DEFINITION. The meaning of each command: one arm per constructor, one direct call per arm. -/
namespace Sys2Proof.Machine

/-- The effect of a command on everything but the queue. -/
def exec (i : Instr) (s : State) : Host.Outcome State Fault Refusal :=
  match i with
  | .registerWrite d f off size val ans => Sys2Proof.Machine.execRegisterWrite d f off size val ans s
  | .liveWriteApply d ans => Sys2Proof.Machine.execLiveWriteApply d ans s
  | .lowerHalfRead d f off => Sys2Proof.Machine.execLowerHalfRead d f off s
  | .readClear d f off size => Sys2Proof.Machine.execReadClear d f off size s
  | .moduleResetRelease eids strap => Sys2Proof.Machine.execModuleResetRelease eids strap s
  | .moduleResetAssert => Sys2Proof.Machine.execModuleResetAssert s
  | .perstAssert d => Sys2Proof.Machine.execPerstAssert d s
  | .perstRelease d => Sys2Proof.Machine.execPerstRelease d s
  | .hostLinkDown link => Sys2Proof.Machine.execHostLinkDown link s
  | .d2dParityError a b lane => Sys2Proof.Machine.execD2dParityError a b lane s
  | .genPublish => Sys2Proof.Machine.execGenPublish s
  | .functionRun d f => Sys2Proof.Machine.execFunctionRun d f s
  | .busMasterEnableClear d f => Sys2Proof.Machine.execBusMasterEnableClear d f s
  | .busMasterEnableSet d f => Sys2Proof.Machine.execBusMasterEnableSet d f s
  | .drainComplete d f => Sys2Proof.Machine.execDrainComplete d f s
  | .d3hotEntry d f => Sys2Proof.Machine.execD3hotEntry d f s
  | .d3hotExit d f => Sys2Proof.Machine.execD3hotExit d f s
  | .flrInitiate d f => Sys2Proof.Machine.execFlrInitiate d f s
  | .flrSilence d f => Sys2Proof.Machine.execFlrSilence d f s
  | .flrComplete d f => Sys2Proof.Machine.execFlrComplete d f s
  | .vfEnable d pf n => Sys2Proof.Machine.execVfEnable d pf n s
  | .vfDisable d pf => Sys2Proof.Machine.execVfDisable d pf s
  | .bar4Resize d pf log2 => Sys2Proof.Machine.execBar4Resize d pf log2 s
  | .hostCompletionReceived d tag status data => Sys2Proof.Machine.execHostCompletionReceived d tag status data s
  | .completionTimeout d tag => Sys2Proof.Machine.execCompletionTimeout d tag s
  | .tagQuarantineExpiry d tag => Sys2Proof.Machine.execTagQuarantineExpiry d tag s
  | .generalTagGrant d => Sys2Proof.Machine.execGeneralTagGrant d s
  | .msixTableWrite d f vec addr data masked => Sys2Proof.Machine.execMsixTableWrite d f vec addr data masked s
  | .msixPendingSend d f vec => Sys2Proof.Machine.execMsixPendingSend d f vec s
  | .coreWatchdogExpiry core => Sys2Proof.Machine.execCoreWatchdogExpiry core s
  | .azxCmdTailWrite d f ix => Sys2Proof.Machine.execAzxCmdTailWrite d f ix s
  | .azxCommandTake ans => Sys2Proof.Machine.execAzxCommandTake ans s
  | .azxEnable d f => Sys2Proof.Machine.execAzxEnable d f s
  | .azxDisable d f => Sys2Proof.Machine.execAzxDisable d f s
  | .mctpCommandReceived ent buf => Sys2Proof.Machine.execMctpCommandReceived ent buf s
  | .queryState iss ent buf => Sys2Proof.Machine.execQueryState iss ent buf s
  | .pastureCreate iss ent buf => Sys2Proof.Machine.execPastureCreate iss ent buf s
  | .pastureDestroy iss ent buf => Sys2Proof.Machine.execPastureDestroy iss ent buf s
  | .pastureKeyLoad iss ent buf => Sys2Proof.Machine.execPastureKeyLoad iss ent buf s
  | .pathLoad iss ent buf => Sys2Proof.Machine.execPathLoad iss ent buf s
  | .passSetLoad iss ent buf => Sys2Proof.Machine.execPassSetLoad iss ent buf s
  | .flockLoad iss ent buf => Sys2Proof.Machine.execFlockLoad iss ent buf s
  | .calLoad iss ent buf => Sys2Proof.Machine.execCalLoad iss ent buf s
  | .calSwitch iss ent buf => Sys2Proof.Machine.execCalSwitch iss ent buf s
  | .resConfirm iss ent buf => Sys2Proof.Machine.execResConfirm iss ent buf s
  | .resWithdraw iss ent buf => Sys2Proof.Machine.execResWithdraw iss ent buf s
  | .drvProgLoad iss ent buf => Sys2Proof.Machine.execDrvProgLoad iss ent buf s
  | .drvProgUnload iss ent buf => Sys2Proof.Machine.execDrvProgUnload iss ent buf s
  | .budgetSet iss ent buf => Sys2Proof.Machine.execBudgetSet iss ent buf s
  | .faultLogRead iss ent buf => Sys2Proof.Machine.execFaultLogRead iss ent buf s
  | .bufPartition iss ent buf => Sys2Proof.Machine.execBufPartition iss ent buf s
  | .poolAlloc iss ent buf => Sys2Proof.Machine.execPoolAlloc iss ent buf s
  | .poolFree iss ent buf => Sys2Proof.Machine.execPoolFree iss ent buf s
  | .dieFence iss ent buf => Sys2Proof.Machine.execDieFence iss ent buf s
  | .dieRestore iss ent buf => Sys2Proof.Machine.execDieRestore iss ent buf s
  | .dieTestComplete d links pass => Sys2Proof.Machine.execDieTestComplete d links pass s
  | .dieActivate iss ent buf => Sys2Proof.Machine.execDieActivate iss ent buf s
  | .returnProcedure d => Sys2Proof.Machine.execReturnProcedure d s
  | .returnTimeout d => Sys2Proof.Machine.execReturnTimeout d s
  | .tablePushAck d t => Sys2Proof.Machine.execTablePushAck d t s
  | .timeRole iss ent buf => Sys2Proof.Machine.execTimeRole iss ent buf s
  | .timeOfDay iss ent buf => Sys2Proof.Machine.execTimeOfDay iss ent buf s
  | .dieSleep iss ent buf => Sys2Proof.Machine.execDieSleep iss ent buf s
  | .dieSleepDrainEnd d => Sys2Proof.Machine.execDieSleepDrainEnd d s
  | .dieWake iss ent buf => Sys2Proof.Machine.execDieWake iss ent buf s
  | .moduleStandby iss ent buf => Sys2Proof.Machine.execModuleStandby iss ent buf s
  | .moduleResume iss ent buf => Sys2Proof.Machine.execModuleResume iss ent buf s
  | .moduleShutdown iss ent buf => Sys2Proof.Machine.execModuleShutdown iss ent buf s
  | .faultClear iss ent buf => Sys2Proof.Machine.execFaultClear iss ent buf s
  | .faultReactSet iss ent buf => Sys2Proof.Machine.execFaultReactSet iss ent buf s
  | .faultInject iss ent buf => Sys2Proof.Machine.execFaultInject iss ent buf s
  | .unitRestore iss ent buf => Sys2Proof.Machine.execUnitRestore iss ent buf s
  | .secCommit iss ent buf => Sys2Proof.Machine.execSecCommit iss ent buf s
  | .debugNonce iss ent buf => Sys2Proof.Machine.execDebugNonce iss ent buf s
  | .debugUnlock iss ent buf => Sys2Proof.Machine.execDebugUnlock iss ent buf s
  | .debugLock iss ent buf => Sys2Proof.Machine.execDebugLock iss ent buf s
  | .lifecycleAdvance iss ent buf => Sys2Proof.Machine.execLifecycleAdvance iss ent buf s
  | .ownerKeySet iss ent buf => Sys2Proof.Machine.execOwnerKeySet iss ent buf s
  | .shepCntRead iss ent buf => Sys2Proof.Machine.execShepCntRead iss ent buf s
  | .cycleBoundary d => Sys2Proof.Machine.execCycleBoundary d s
  | .frameBoundary d volt temp nominal => Sys2Proof.Machine.execFrameBoundary d volt temp nominal s
  | .slotBoundary d => Sys2Proof.Machine.execSlotBoundary d s
  | .servoInterval d => Sys2Proof.Machine.execServoInterval d s
  | .alarmFire d k => Sys2Proof.Machine.execAlarmFire d k s
  | .timeMessageReceive d p stamp b => Sys2Proof.Machine.execTimeMessageReceive d p stamp b s
  | .ppsEdge stamp => Sys2Proof.Machine.execPpsEdge stamp s
  | .ppsTimeout => Sys2Proof.Machine.execPpsTimeout s
  | .ppsOutRise => Sys2Proof.Machine.execPpsOutRise s
  | .ppsOutFall => Sys2Proof.Machine.execPpsOutFall s
  | .laneBlockSend pc => Sys2Proof.Machine.execLaneBlockSend pc s
  | .laneBlockReceive pc blocks => Sys2Proof.Machine.execLaneBlockReceive pc blocks s
  | .quadEnable d q => Sys2Proof.Machine.execQuadEnable d q s
  | .signalDetect pc => Sys2Proof.Machine.execSignalDetect pc s
  | .calibrationComplete pc found => Sys2Proof.Machine.execCalibrationComplete pc found s
  | .alignTimeout pc => Sys2Proof.Machine.execAlignTimeout pc s
  | .exchangeTimeout pc => Sys2Proof.Machine.execExchangeTimeout pc s
  | .trainingMessageReceive pc lane id msg => Sys2Proof.Machine.execTrainingMessageReceive pc lane id msg s
  | .loopbackComplete pc lp txpd rxpd lbd => Sys2Proof.Machine.execLoopbackComplete pc lp txpd rxpd lbd s
  | .portRetrain pc => Sys2Proof.Machine.execPortRetrain pc s
  | .retrainRequestTimeout pc => Sys2Proof.Machine.execRetrainRequestTimeout pc s
  | .laneIdleQuiet pc => Sys2Proof.Machine.execLaneIdleQuiet pc s
  | .lane0IdleQuiet pc => Sys2Proof.Machine.execLane0IdleQuiet pc s
  | .laneSleepTimer pc lane dir => Sys2Proof.Machine.execLaneSleepTimer pc lane dir s
  | .laneWake pc => Sys2Proof.Machine.execLaneWake pc s
  | .laneJoin pc => Sys2Proof.Machine.execLaneJoin pc s
  | .flitSend pc => Sys2Proof.Machine.execFlitSend pc s
  | .flitReceive pc b => Sys2Proof.Machine.execFlitReceive pc b s
  | .replayTimeout pc => Sys2Proof.Machine.execReplayTimeout pc s
  | .handshakeSend pc => Sys2Proof.Machine.execHandshakeSend pc s
  | .linkEnable pc => Sys2Proof.Machine.execLinkEnable pc s
  | .linkDisable pc => Sys2Proof.Machine.execLinkDisable pc s
  | .linkFlush pc => Sys2Proof.Machine.execLinkFlush pc s
  | .packetRoute src vc => Sys2Proof.Machine.execPacketRoute src vc s
  | .flockReplicate src vc => Sys2Proof.Machine.execFlockReplicate src vc s
  | .flockDieCopy e d vc => Sys2Proof.Machine.execFlockDieCopy e d vc s
  | .packetInject d cn ans => Sys2Proof.Machine.execPacketInject d cn ans s
  | .pathRecordFetch d e => Sys2Proof.Machine.execPathRecordFetch d e s
  | .calendarSwitchFrame d => Sys2Proof.Machine.execCalendarSwitchFrame d s
  | .timedRelease d r => Sys2Proof.Machine.execTimedRelease d r s
  | .transportPacketArrive d ans => Sys2Proof.Machine.execTransportPacketArrive d ans s
  | .ackReceive d ans => Sys2Proof.Machine.execAckReceive d ans s
  | .conduitFetchComplete d cn ans => Sys2Proof.Machine.execConduitFetchComplete d cn ans s
  | .retryTimeout d cn ans => Sys2Proof.Machine.execRetryTimeout d cn ans s
  | .notReadyRetry d cn psn ans => Sys2Proof.Machine.execNotReadyRetry d cn psn ans s
  | .gatePoolRefill d f => Sys2Proof.Machine.execGatePoolRefill d f s
  | .trackerIdleTimeout d k => Sys2Proof.Machine.execTrackerIdleTimeout d k s
  | .closeSend d cn => Sys2Proof.Machine.execCloseSend d cn s
  | .oldKeyExpiry d p => Sys2Proof.Machine.execOldKeyExpiry d p s
  | .conduitFnEnable d f on => Sys2Proof.Machine.execConduitFnEnable d f on s
  | .sqDoorbell d q tail => Sys2Proof.Machine.execSqDoorbell d q tail s
  | .descriptorFetchComplete d q idx data => Sys2Proof.Machine.execDescriptorFetchComplete d q idx data s
  | .groupTurn d g ans => Sys2Proof.Machine.execGroupTurn d g ans s
  | .nop d q => Sys2Proof.Machine.execNop d q s
  | .put d q ans => Sys2Proof.Machine.execPut d q ans s
  | .get d q ans => Sys2Proof.Machine.execGet d q ans s
  | .send d q ans => Sys2Proof.Machine.execSend d q ans s
  | .add32 d q ans => Sys2Proof.Machine.execAdd32 d q ans s
  | .add64 d q ans => Sys2Proof.Machine.execAdd64 d q ans s
  | .fetchAdd32 d q ans => Sys2Proof.Machine.execFetchAdd32 d q ans s
  | .fetchAdd64 d q ans => Sys2Proof.Machine.execFetchAdd64 d q ans s
  | .cas32 d q ans => Sys2Proof.Machine.execCas32 d q ans s
  | .cas64 d q ans => Sys2Proof.Machine.execCas64 d q ans s
  | .cas128 d q ans => Sys2Proof.Machine.execCas128 d q ans s
  | .lockAcquire d q => Sys2Proof.Machine.execLockAcquire d q s
  | .lockTry d q => Sys2Proof.Machine.execLockTry d q s
  | .lockRelease d q => Sys2Proof.Machine.execLockRelease d q s
  | .recvPost d q ans => Sys2Proof.Machine.execRecvPost d q ans s
  | .collStart d q ans => Sys2Proof.Machine.execCollStart d q ans s
  | .conduitOpen d q => Sys2Proof.Machine.execConduitOpen d q s
  | .conduitClose d q => Sys2Proof.Machine.execConduitClose d q s
  | .fmSend d q => Sys2Proof.Machine.execFmSend d q s
  | .sqInvalidate d q first n => Sys2Proof.Machine.execSqInvalidate d q first n s
  | .crArm d r => Sys2Proof.Machine.execCrArm d r s
  | .queueEnable d kind n => Sys2Proof.Machine.execQueueEnable d kind n s
  | .queueDisable d kind n => Sys2Proof.Machine.execQueueDisable d kind n s
  | .queueReset d kind n => Sys2Proof.Machine.execQueueReset d kind n s
  | .queueDrainComplete d q => Sys2Proof.Machine.execQueueDrainComplete d q s
  | .eventRingEnable d f => Sys2Proof.Machine.execEventRingEnable d f s
  | .eventRingHeadWrite d f ix => Sys2Proof.Machine.execEventRingHeadWrite d f ix s
  | .getResponseSegment d cn ans => Sys2Proof.Machine.execGetResponseSegment d cn ans s
  | .flitBufferGrant d cn => Sys2Proof.Machine.execFlitBufferGrant d cn s
  | .lockProbeTimer d bus => Sys2Proof.Machine.execLockProbeTimer d bus s
  | .slotAcquire d k => Sys2Proof.Machine.execSlotAcquire d k s
  | .slotRelease d k => Sys2Proof.Machine.execSlotRelease d k s
  | .slotWaitRead d k => Sys2Proof.Machine.execSlotWaitRead d k s
  | .slotWaitTimeout d k => Sys2Proof.Machine.execSlotWaitTimeout d k s
  | .eagerCopyComplete tok ans => Sys2Proof.Machine.execEagerCopyComplete tok ans s
  | .rendezvousGetComplete tok => Sys2Proof.Machine.execRendezvousGetComplete tok s
  | .matchBind d n => Sys2Proof.Machine.execMatchBind d n s
  | .domainResume d n => Sys2Proof.Machine.execDomainResume d n s
  | .domainDisable d n => Sys2Proof.Machine.execDomainDisable d n s
  | .overflowRingHeadWrite d n head => Sys2Proof.Machine.execOverflowRingHeadWrite d n head s
  | .chunkAdmit d p ans => Sys2Proof.Machine.execChunkAdmit d p ans s
  | .droverTimeWaitEnd d p chunk => Sys2Proof.Machine.execDroverTimeWaitEnd d p chunk s
  | .collPacketReceive d => Sys2Proof.Machine.execCollPacketReceive d s
  | .collOutputSend d p chunk edge ans => Sys2Proof.Machine.execCollOutputSend d p chunk edge ans s
  | .creditSend d p edge => Sys2Proof.Machine.execCreditSend d p edge s
  | .stepTimeout d p chunk => Sys2Proof.Machine.execStepTimeout d p chunk s
  | .droverProgramReset d p => Sys2Proof.Machine.execDroverProgramReset d p s
  | .translationWalk d f ctx va len kind cls ans => Sys2Proof.Machine.execTranslationWalk d f ctx va len kind cls ans s
  | .xltInvalidate d f => Sys2Proof.Machine.execXltInvalidate d f s
  | .invalidateDone d f => Sys2Proof.Machine.execInvalidateDone d f s
  | .xltLock d f ans => Sys2Proof.Machine.execXltLock d f ans s
  | .contextDisable d ctx => Sys2Proof.Machine.execContextDisable d ctx s
  | .regionLock d r => Sys2Proof.Machine.execRegionLock d r s
  | .bar4Request d pf id kind off len op data => Sys2Proof.Machine.execBar4Request d pf id kind off len op data s
  | .windowCommit d win => Sys2Proof.Machine.execWindowCommit d win s
  | .peerReadTimeout d id => Sys2Proof.Machine.execPeerReadTimeout d id s
  | .pwlogRearm d => Sys2Proof.Machine.execPwlogRearm d s
  | .mirrorPoll d k => Sys2Proof.Machine.execMirrorPoll d k s
  | .actionEntryApply d => Sys2Proof.Machine.execActionEntryApply d s
  | .gainTrim tel => Sys2Proof.Machine.execGainTrim tel s
  | .faultDetected d u cause addr detail fn => Sys2Proof.Machine.execFaultDetected d u cause addr detail fn s
  | .faultRecordClear d u => Sys2Proof.Machine.execFaultRecordClear d u s
  | .errorPairReadback p n => Sys2Proof.Machine.execErrorPairReadback p n s
  | .sliceComplete d k u pass => Sys2Proof.Machine.execSliceComplete d k u pass s
  | .sliceAbort d k => Sys2Proof.Machine.execSliceAbort d k s
  | .getVersion via => Sys2Proof.Machine.execGetVersion via s
  | .getCapabilities via req => Sys2Proof.Machine.execGetCapabilities via req s
  | .negotiateAlgorithms via req => Sys2Proof.Machine.execNegotiateAlgorithms via req s
  | .getDigests via => Sys2Proof.Machine.execGetDigests via s
  | .getCertificate via slot off len => Sys2Proof.Machine.execGetCertificate via slot off len s
  | .challenge via req => Sys2Proof.Machine.execChallenge via req s
  | .getMeasurements via index => Sys2Proof.Machine.execGetMeasurements via index s
  | .keyExchange via req => Sys2Proof.Machine.execKeyExchange via req s
  | .finish via id req => Sys2Proof.Machine.execFinish via id req s
  | .keyUpdate via id => Sys2Proof.Machine.execKeyUpdate via id s
  | .heartbeat via id => Sys2Proof.Machine.execHeartbeat via id s
  | .endSession via id => Sys2Proof.Machine.execEndSession via id s
  | .setCertificate via slot chain => Sys2Proof.Machine.execSetCertificate via slot chain s
  | .ideKmRequest d stream op sess => Sys2Proof.Machine.execIdeKmRequest d stream op sess s
  | .ideIntegrityFail d stream => Sys2Proof.Machine.execIdeIntegrityFail d stream s
  | .extest cells => Sys2Proof.Machine.execExtest cells s
  | .samplePreload cells => Sys2Proof.Machine.execSamplePreload cells s
  | .idcode => Sys2Proof.Machine.execIdcode s
  | .debugAuth tok owner => Sys2Proof.Machine.execDebugAuth tok owner s
  | .bypass => Sys2Proof.Machine.execBypass s
  | .observeAccess t => Sys2Proof.Machine.execObserveAccess t s
  | .invasiveAccess x => Sys2Proof.Machine.execInvasiveAccess x s
  | .scanSelect chain => Sys2Proof.Machine.execScanSelect chain s
  | .counterRead d f ix => Sys2Proof.Machine.execCounterRead d f ix s
  | .counterWrap d ix => Sys2Proof.Machine.execCounterWrap d ix s
  | .samplerEnable d on => Sys2Proof.Machine.execSamplerEnable d on s
  | .hostLinkUp link width speed => Sys2Proof.Machine.execHostLinkUp link width speed s
  | .etlNowNsRead d size => Sys2Proof.Machine.execEtlNowNsRead d size s
  | .localInputReadComplete d p chunk edge => Sys2Proof.Machine.execLocalInputReadComplete d p chunk edge s
  | .faultCauseEnd d u cause => Sys2Proof.Machine.execFaultCauseEnd d u cause s
  | .group4SupplyChange mask => Sys2Proof.Machine.execGroup4SupplyChange mask s
  | .bootSelfTestComplete d links units macros hbm => Sys2Proof.Machine.execBootSelfTestComplete d links units macros hbm s
  | .shutdownTestComplete l => Sys2Proof.Machine.execShutdownTestComplete l s
  | .unitTestComplete d u pass => Sys2Proof.Machine.execUnitTestComplete d u pass s
  | .boardFlashWrite x => Sys2Proof.Machine.execBoardFlashWrite x s

end Sys2Proof.Machine
end

