-- ==== Sys2Proof/Safety.lean ====
section
/-! DEFINITION. The terms in which statements speak of a run: a module in which nothing is left to do, and what a command
completes with. -/
namespace Sys2Proof.Machine

/-- Nothing is left to do once a command has had its own effect: no reaction of a fault is due (R493), no news waits for
another unit, the Shepherd has no Azrix command in hand and no response held (R81, R82), readiness is not owed (R71), no module
wake is under way (R488), no die has lost its TIMED_OK condition (R113), and no packet is held (R199). -/
def Mod.calm (m : Mod) : Bool :=
  m.flt.due.isEmpty && m.todo.isEmpty && m.azx.jobs.isEmpty && m.azx.held.isEmpty && m.tly.mstate != 2
    && (!m.shep.booted || m.pin.ready || m.flt.stopped) && m.xb.held.isEmpty
    && dies.all (fun d => !rdB F.ETL_STATUS_TIMED_OK d 0 m || timedWithin d m)

/-- Conditions under which an issuer's Azrix command is taken: it stands next in a ring that may be served, or the management
interface has none in progress and the firmware runs (R69, R80, R81, R504). -/
def azStands (op : Nat) (iss : Option (Nat × Nat)) (m : Mod) : Bool :=
  match iss with
  | none => azTurn none m && !m.shep.bootFail && m.shep.booted && (!m.flt.stopped || op == 0x01 || op == 0x60)
  | some _ => azTurn iss m

/-- The command as the Shepherd holds it: its 64 bytes under the row's opcode, its buffer cut to ARG_LEN (R85, R86). -/
def azHeld (op : Nat) (iss : Option (Nat × Nat)) (ent : Bytes) (buf : Option Bytes) : AzCmd :=
  let c : AzCmd := { iss := iss, ent := leBytes 2 op ++ (padTo 64 ent).drop 2, buf := buf }
  { c with buf := c.buf.map (·.take c.argLen) }

/-- The module once a command is taken: its ring's head moves, and it is counted. -/
def azCounted (c : AzCmd) (m : Mod) : Mod :=
  count 4 (64 + c.op / 16 % 16) 1 (count 4 10 1 (azFront c.iss m))

/-- An Azrix command of opcode `op` and row `r` is taken now, passes every check of R89 and begins its effect: `j` is the
command in hand, `m` the module at that moment. -/
def AzBegins (op : Nat) (r : AzRow) (iss : Option (Nat × Nat)) (ent : Bytes) (buf : Option Bytes) (s : State) (j : Job) (m : Mod) :
    Prop :=
  let c := azHeld op iss ent buf
  let n := azCounted c s.m
  issuerOk iss = true ∧ ent.length = 64 ∧ azStands op iss s.m = true
    ∧ j = { cmd := c, t0 := now 4 n, wait := .wakeAll, mute := false, res0 := 0, res1 := 0 }
    ∧ azMalformed c (some r) = false ∧ mayIssue r.who c n = true ∧ bufferOk r c n = (true, m)
    ∧ azBlocked r j m.azx.jobs = false ∧ r.chk s.fuse c m = none ∧ c.checkOnly = false

/-- Entry `b` of opcode `code` is next in queue `q` of a served die and its completion ring is usable: it is taken as `e`, and
`m` is the module with it taken (R274, R289). -/
def Takes (code d q : Nat) (b : Bytes) (s : State) (e : Ent) (m : Mod) : Prop :=
  d < 4 ∧ q < 65536 ∧ hostUp d s.m = true ∧ nextEntry d q s.m = some b ∧ rdLE b 0 1 = code
    ∧ crUsable d q (rdLE b 2 2) s.m = true ∧ e = entryOf d q b s.m ∧ m = entryTaken d q b s.m

/-- The entry's conduit is its function's to use, and open (R287 steps 3 and 4). -/
def Ent.connected (e : Ent) (m : Mod) : Prop :=
  inRange e.die e.fn e.cn m = true ∧ inGate e.die e.fn e.cn m = false ∧ condLive e.die e.cn m = true

/-- What follows an entry's own effect: the free slots are shown and the queue reads ahead (R289). -/
def entryAfter (d q : Nat) (m : Mod) : Mod := readAhead d q (showSlots d m)

/-- No run of `k` equal levels, the first of them following `run` levels `prev` (R121). -/
def runsBelow (k : Nat) : Nat → Nat → List Nat → Prop
  | _, _, [] => True
  | prev, run, x :: r => (if x = prev then run + 1 else 1) < k ∧ runsBelow k x (if x = prev then run + 1 else 1) r

/-- Every stored field of a conduit context lies in the bits that R238 and R239 give it. -/
def Cond.fits (c : Cond) : Prop :=
  c.state < 4 ∧ c.rxLog < 32 ∧ c.fn < 2048 ∧ c.peer < 2 ^ 20 ∧ c.peerRx < 32 ∧ c.peerCn < 2 ^ 24 ∧ c.retries < 2 ^ 8
    ∧ c.pasture < 2 ^ 16 ∧ c.window < 2 ^ 16 ∧ c.txNext < 2 ^ 32 ∧ c.txUna < 2 ^ 32 ∧ c.rxNext < 2 ^ 32 ∧ c.eff < 2 ^ 16 ∧ c.lastPath < 8
    ∧ c.nrCount < 2 ^ 8 ∧ c.scores < 2 ^ 32 ∧ c.inflight < 2 ^ 32 ∧ c.acked < 2 ^ 32 ∧ c.leaves < 2 ^ 16 ∧ c.epoch < 2 ^ 16
    ∧ c.retryAt < 2 ^ 64 ∧ c.agedAt < 2 ^ 64 ∧ c.rxMap < 2 ^ 256 ∧ c.lastMap < 2 ^ 256 ∧ c.openedAt < 2 ^ 64 ∧ c.retryBase < 2 ^ 32
    ∧ c.retryLimit < 2 ^ 8 ∧ c.mapOff < 2 ^ 64 ∧ c.userCtx < 2 ^ 64 ∧ c.pktsTx < 2 ^ 64 ∧ c.pktsRx < 2 ^ 64 ∧ c.bytesTx < 2 ^ 64
    ∧ c.bytesRx < 2 ^ 64 ∧ c.retx < 2 ^ 32 ∧ c.dups < 2 ^ 32 ∧ c.nrRecv < 2 ^ 32 ∧ c.nrSent < 2 ^ 32

/-- Fuses as the hardware has them: a known lifecycle, at most 64 SVN fuses (R522, R529). -/
def Fuse.fits (f : Fuse) : Prop := f.lifecycle ≤ 3 ∧ f.fsvn ≤ 64

/-- The fuses of `b` are those of `a` or further on: no lifecycle step back, no lower SVN, no revocation undone, no owner
key or device secret replaced (R520 to R529). -/
def Fuse.notBefore (a b : Fuse) : Prop :=
  a.lifecycle ≤ b.lifecycle ∧ a.fsvn ≤ b.fsvn ∧ (a.revoked0 = true → b.revoked0 = true)
    ∧ (a.ownerKey.isSome = true → b.ownerKey = a.ownerKey) ∧ (a.secret.isSome = true → b.secret = a.secret)

/-- A finite operand of a Plainsum in units of 2^−160; zero for the others (R393, R397). -/
def plainUnits (dt b : Nat) : Int :=
  match (fmt dt).decode b with
  | .fin neg a w => (if neg then -1 else 1) * ((a * 2 ^ (w + 160).toNat : Nat) : Int)
  | _ => 0

/-- The operand is finite. -/
def isFin (dt b : Nat) : Bool :=
  match (fmt dt).decode b with
  | .fin _ _ _ => true
  | _ => false

/-- The operand is −0. -/
def isNegZero (dt b : Nat) : Bool :=
  match (fmt dt).decode b with
  | .fin true 0 _ => true
  | _ => false

/-- A SUM of native operands, taken in the order of the list: the accumulator and all that was raised. -/
def takeAll (dt : Nat) (l : List Bytes) : Accu × Tal :=
  l.foldl (fun r b => ((takeElem 2 dt false b r.1).1, r.2.add (takeElem 2 dt false b r.1).2)) (Accu.reset, Tal.zero)

end Sys2Proof.Machine
end

