-- ==== Sys2Proof/Certificates/Slice0/Obligations.lean ====
section
/-! DEFINITION. The statements for the provers.  Most say what state a command's own effect leads to; `finish` then lets
other units act on it, and `FinishInACalmModule` says when that is nothing. -/
open Sys2Proof Sys2Proof.Machine

/-- A step runs the command at the front of the queue, with the rest of the queue left (spec/95_what_each_step_holds.md).
For every command c and state s, the step of s with c put at the front of its queue is exec of c at s with the queue
that stood behind it. -/
def Obligations.TheFrontCommandIsRun : Prop :=
  ∀ (c : Instr) (s : State) (l : List Instr),
    step { s with pending := c :: l } = exec c { s with pending := l }

/-- With no command waiting, a step advances every running clock by one tick and the queue stays empty (the model's choice, log entry 2) (R93, R12).
On an empty queue a step answers the next state in which every counter that runs has advanced by one tick of 1 ns,
and what that makes due (LIVE writes at a cycle boundary passed) has been done. The spec lists no tick command; that
the empty queue idles so is DESIGN CHOICE of log entry 2. -/
def Obligations.AnIdleStepIsATick : Prop :=
  ∀ s : State, s.pending = [] →
    step s = .next (finish s (runTicks 1 s.m))

/-- Every command that names things of the module completes, leaving the queue alone; any other is refused by name (R1, R21, R44, R237, R269).
For every command and state: if the command's operands name things that exist (Instr.wf), exec answers a next state
with the same queue and no fuse operation left over; if not, exec refuses it with noSuchObject. No command ends in a
fault. -/
def Obligations.CommandsCompleteOnWhatExists : Prop :=
  ∀ (c : Instr) (s : State),
    (c.wf = true → ∃ t, exec c s = .next t ∧ t.pending = s.pending ∧ t.m.burn = [])
    ∧ (c.wf = false → exec c s = .refused .noSuchObject)

/-- Register reads and writes act on the register they reach, and a read answers its value (R7, R8, R9, R116, R541).
For a function that reaches its endpoint (link up, function exists, D0) and an aligned access that leads to a
register: a 4-byte write of a 32-bit register and an 8-byte write of a 64-bit one (REGISTER_WRITE) write that
register; a 4-byte read of the lower half of a 64-bit register (LOWER_HALF_READ) answers the low word and captures
the upper word of the same read; a 4-byte read (READ_CLEAR) answers the register's value and leaves what regRead
leaves (RC fields cleared); COUNTER_READ and ETL_NOW_NS_READ answer the whole 64-bit register in one read. -/
def Obligations.RegisterAccessesReachTheRegister : Prop :=
    (∀ d f off val ans r i (s : State), d < 4 → f < 1026 → val < 2 ^ 64 → reaches d f off s.m = true → off % 4 = 0 →
        locate d f off s.m = .reg r i false false → r.bits = 32 →
        exec (.registerWrite d f off 4 val ans) s = .next (finish s (regWrite s.fuse r d f i (val % 2 ^ 32) m32 ans s.m)))
    ∧ (∀ d f off val ans r i (s : State), d < 4 → f < 1026 → val < 2 ^ 64 → reaches d f off s.m = true → off % 8 = 0 →
        locate d f off s.m = .reg r i false false → r.bits = 64 →
        exec (.registerWrite d f off 8 val ans) s = .next (finish s (regWrite s.fuse r d f i val m64 ans s.m)))
    ∧ (∀ d f off r i ro (s : State), d < 4 → f < 1026 → reaches d f off s.m = true → off % 4 = 0 →
        locate d f off s.m = .reg r i false ro → r.bits = 64 → r.off ≠ F.CRK_SLOT_WAIT_STATUS.reg →
        exec (.lowerHalfRead d f off) s = .next (finish s
          (answerRead d f off ((regRead s.fuse r d f i m64 s.m).1 % 2 ^ 32)
            (setHalf d f { halfOf d f s.m with rReg := some (halfKey r i, (regRead s.fuse r d f i m64 s.m).1 >>> 32) }
              (regRead s.fuse r d f i m64 s.m).2))))
    ∧ (∀ d f off r i ro (s : State), d < 4 → f < 1026 → reaches d f off s.m = true → off % 4 = 0 →
        locate d f off s.m = .reg r i false ro → r.bits = 32 → r.off ≠ F.CRK_SLOT_WAIT_STATUS.reg →
        exec (.readClear d f off 4) s = .next (finish s
          (answerRead d f off (regRead s.fuse r d f i m32 s.m).1 (regRead s.fuse r d f i m32 s.m).2)))
    ∧ (∀ d f i r j ro (s : State), d < 4 → f < 1026 → i < 704 → reaches d f (counterOff d f i s.m) s.m = true →
        locate d f (counterOff d f i s.m) s.m = .reg r j false ro → r.bits = 64 → r.off ≠ F.CRK_SLOT_WAIT_STATUS.reg →
        exec (.counterRead d f i) s = .next (finish s
          (answerRead d f (counterOff d f i s.m) (regRead s.fuse r d f j m64 s.m).1 (regRead s.fuse r d f j m64 s.m).2)))
    ∧ (∀ d r j ro (s : State), d < 4 → reaches d 0 0x300008 s.m = true →
        locate d 0 0x300008 s.m = .reg r j false ro → r.bits = 64 → r.off ≠ F.CRK_SLOT_WAIT_STATUS.reg →
        exec (.etlNowNsRead d 8) s = .next (finish s
          (answerRead d 0 0x300008 (regRead s.fuse r d 0 j m64 s.m).1 (regRead s.fuse r d 0 j m64 s.m).2)))

/-- An access to a function out of reach has no effect; one of a bad size or alignment only counts BAD_SIZE; SLOT_WAIT is read by the wait (R7, R8, R337).
A register write or read of a function that does not reach its endpoint (link down, function absent or not in D0)
leaves the module as it is. One whose size is not 4 or 8 bytes, or whose offset is not a multiple of it, increments
HIF_ACC_ERR.BAD_SIZE and changes nothing else; a read is answered with all ones. A read of SLOT_WAIT, of all of it
or of its lower half, is the read of R337; of its lower half it captures an upper half of 0. -/
def Obligations.AccessesThatReachNoRegister : Prop :=
    (∀ d f off size val ans (s : State), d < 4 → f < 1026 → 0 < size → val < 2 ^ 64 → reaches d f off s.m = false →
        exec (.registerWrite d f off size val ans) s = .next (finish s s.m)
        ∧ exec (.readClear d f off size) s = .next (finish s s.m)
        ∧ exec (.lowerHalfRead d f off) s = .next (finish s s.m))
    ∧ (∀ d f off size val ans (s : State), d < 4 → f < 1026 → 0 < size → val < 2 ^ 64 → reaches d f off s.m = true →
        ((size ≠ 4 ∧ size ≠ 8) ∨ off % size ≠ 0) →
        exec (.registerWrite d f off size val ans) s = .next (finish s (bump F.HIF_ACC_ERR_BAD_SIZE d 0 s.m))
        ∧ exec (.readClear d f off size) s = .next (finish s
            (answerRead d f off (2 ^ (8 * size) - 1) (bump F.HIF_ACC_ERR_BAD_SIZE d 0 s.m))))
    ∧ (∀ d f off r i ro (s : State), d < 4 → f < 1026 → reaches d f off s.m = true → off % 4 = 0 →
        locate d f off s.m = .reg r i false ro → r.off = F.CRK_SLOT_WAIT_STATUS.reg →
        ∀ m, m = setHalf d f { halfOf d f s.m with rReg := some (halfKey r i, 0) } s.m →
        exec (.lowerHalfRead d f off) s = .next (finish s (slotWaitRead d i (f, off) m))
        ∧ exec (.readClear d f off 4) s = .next (finish s (slotWaitRead d i (f, off) m))
        ∧ (off % 8 = 0 → exec (.readClear d f off 8) s = .next (finish s (slotWaitRead d i (f, off) s.m))))

/-- A counter that wraps goes to zero and sets WRAPPED; LIVE writes take effect at a cycle boundary; the sampler restarts when enabled (R11, R12, R537, R550).
COUNTER_WRAP of a counter of a die (0 to 703) or of the Shepherd (0 to 191) whose clock runs sets the count to 0 and
its WRAPPED bit, leaving every other counter. LIVE_WRITE_APPLY on a served die lets its counter reach the next cycle
boundary and takes the pending LIVE writes of that die and no others into force. SAMPLER_ENABLE sets ENABLE; from 0,
it clears the ring indices and restarts the sampler; cleared, every followed entry is dropped. -/
def Obligations.CountersAndLiveWrites : Prop :=
    (∀ d i (s : State), (clock d s.m).run = true → ((d < 4 ∧ i < 704) ∨ (d = 4 ∧ i < 192)) →
        exec (.counterWrap d i) s = .next (finish s { s.m with
          ctr := NMap.set 0 s.m.ctr (d * 1024 + i) 0, ctrWrap := NMap.set false s.m.ctrWrap (d * 1024 + i) true }))
    ∧ (∀ d ans (s : State), d < 4 → hostUp d s.m = true →
        exec (.liveWriteApply d ans) s = .next (finish s
          (applyKeys d ((NMap.keys (cycleBoundary d s.m).live).filter (fun k => keyDie k == d)) ans (cycleBoundary d s.m))))
    ∧ (∀ d (s : State), d < 4 → hostUp d s.m = true → curB F.SMP_CTRL_ENABLE d 0 s.m = false →
        exec (.samplerEnable d true) s = .next (finish s (setSmp d Smp.reset (wr F.SMP_RING_IDX_TAIL d 0 0
          (force F.SMP_RING_IDX_HEAD d 0 0 (force F.SMP_CTRL_ENABLE d 0 1 s.m))))))
    ∧ (∀ d (s : State), d < 4 → hostUp d s.m = true →
        exec (.samplerEnable d false) s = .next (finish s
          (setSmp d { smpOf d s.m with follow := [] } (force F.SMP_CTRL_ENABLE d 0 0 s.m))))

/-- Module reset returns everything but flash, fuses and factory data; its release boots the accepted image; the flash is written only in reset (R68, R521, R529, R557, R566).
MODULE_RESET_ASSERT leaves the reset module, every die that is fused in BOOTING, with the flash, the factory
configuration, the outputs recorded, the free-value counter and the PERST_N levels kept. MODULE_RESET_RELEASE while
reset is asserted brings the supplies and clock up, gives each fused-in die its endpoint identity, starts the
Shepherd's counter and applies the fused lifecycle; then the accepted image is started, or, with none, the boot
failure is recorded and nothing is started. Without reset asserted the release does nothing. BOARD_FLASH_WRITE
replaces the image slots and boot options while reset is asserted, and does nothing otherwise. -/
def Obligations.ModuleResetAndFlash : Prop :=
    (∀ s : State, exec .moduleResetAssert s = .next (finish s { Sys2Proof.Machine.Mod.reset with
        dieSt := (dies.filter (fun d => fusedIn d s.m)).map (fun d => (d, DieSt.booting)), flash := s.m.flash, conf := s.m.conf, out := s.m.out, free := s.m.free, hif := { Hif.reset with perst := s.m.hif.perst } }))
    ∧ (∀ eids strap (s : State), eids.length = 4 → eids.all (fun e => decide (e < 2 ^ 20)) = true → strap < 8 → s.m.pin.rst = true →
        ∀ m, m = secReset s.fuse (setClock 4 { Clock.reset with run := true } { s.m with
            pin := { s.m.pin with rst := false, pwr := true, refS := true, mgmtAddr := strap }
            conf := { s.m.conf with eids := (dies.filter (fun d => fusedIn d s.m && decide (d < 4))).foldl (fun l d =>
              NMap.put l d (eids.getD d 0 % 2 ^ 20)) [] } }) →
          (bootImage s.fuse m = none → exec (.moduleResetRelease eids strap) s
            = .next (finish s { m with shep := { m.shep with bootFail := true, bootRec := bootRecord s.fuse m } }))
          ∧ (∀ slot im, bootImage s.fuse m = some (slot, im) →
              exec (.moduleResetRelease eids strap) s = .next (finish s (firmwareStart slot im m))))
    ∧ (∀ eids strap (s : State), eids.length = 4 → eids.all (fun e => decide (e < 2 ^ 20)) = true → strap < 8 → s.m.pin.rst = false →
        exec (.moduleResetRelease eids strap) s = .next (finish s s.m))
    ∧ (∀ x (s : State), x.ok = true → exec (.boardFlashWrite x) s
        = .next (finish s (if s.m.pin.rst then { s.m with flash := flashFrom x s.m.flash } else s.m)))

/-- Parity errors, watchdogs, detected faults, ended causes, cleared records and the error pair act on the fault records as described (R26, R67, R470, R492, R495, R497, R506, R507, R513).
D2D_PARITY_ERROR on a link in service takes it out of service for good and raises source 16 on unit 22 with the far
die and lane in DETAIL. CORE_WATCHDOG_EXPIRY of a running core raises source 28 on unit 32 + core. FAULT_DETECTED of
a source that its unit has raises it, where the die is not a fenced one that the Shepherd cannot hear (a supply
fault also notes the supply out of range). FAULT_CAUSE_END ends a cause of source 24 or 26. FAULT_RECORD_CLEAR
closes the open record of a unit no cause of which persists, and otherwise counts REFUSED_CLEARS. GAIN_TRIM with a
ratio outside 0.75 to 1.25 raises source 29 and leaves the gain. -/
def Obligations.FaultsOfTheModule : Prop :=
    (∀ a b lane (s : State), a < 4 → b < 5 → a ≠ b → lane < d2dLanes b → d2dUp a b s.m = true →
        exec (.d2dParityError a b lane) s
          = .next (finish s (raise a 22 16 0 (b + 256 * lane) none (d2dOut a b lane true s.m))))
    ∧ (∀ core (s : State), core < 8 → bit s.m.sec.halted core = false → s.m.shep.booted = true →
        exec (.coreWatchdogExpiry core) s = .next (finish s (raise 4 (32 + core) 28 0 core none s.m)))
    ∧ (∀ d u c addr detail fn (s : State), d < 5 → u < 64 → c < 64 → addr < 2 ^ 64 → detail < 2 ^ 64 →
        sourceKnown u c = true → unitKnown d u = true → (d < 4 → fusedIn d s.m = true) → s.m.pin.rst = false → c ≠ 26 → c ≠ 27 →
        (dieState d s.m ≠ DieSt.fenced ∨ d2dUp d 4 s.m = true) →
        exec (.faultDetected d u c addr detail fn) s = .next (finish s (raise d u c addr detail fn s.m)))
    ∧ (∀ d c addr detail fn (s : State), d < 4 → addr < 2 ^ 64 → detail < 2 ^ 64 → (c = 26 ∨ c = 27) →
        fusedIn d s.m = true → s.m.pin.rst = false → (dieState d s.m ≠ DieSt.fenced ∨ d2dUp d 4 s.m = true) →
        exec (.faultDetected d 24 c addr detail fn) s = .next (finish s (raise d 24 c addr detail fn
          { s.m with bst := { s.m.bst with supplyOut := NMap.set false s.m.bst.supplyOut d true } })))
    ∧ (∀ d u (s : State), d < 5 → u < 64 → exec (.faultCauseEnd d u 24) s = .next (finish s (causeEnd d u (2 ^ 24) s.m)))
    ∧ (∀ d u r (s : State), d < 4 → u < 28 → hostUp d s.m = true → openRec d u s.m = some r → r.pers = 0 →
        exec (.faultRecordClear d u) s = .next (finish s { s.m with flt := { s.m.flt with
          log := s.m.flt.log.map (fun x => if x.isOpen && x.die == d && x.unit == u
            then { x with isOpen := false, cleared := now d s.m } else x) } }))
    ∧ (∀ d u r (s : State), d < 4 → u < 28 → hostUp d s.m = true → openRec d u s.m = some r → r.pers ≠ 0 →
        exec (.faultRecordClear d u) s = .next (finish s (bump F.FLT_CNT_REFUSED_CLEARS d 0 s.m)))
    ∧ (∀ tel (s : State), s.m.shep.booted = true → s.m.tly.spanE ≠ 0 →
        (tel * 2 ^ 16 / s.m.tly.spanE < 49152 ∨ 81920 < tel * 2 ^ 16 / s.m.tly.spanE) →
        exec (.gainTrim tel) s = .next (finish s (raise 4 41 29 0 (tel * 2 ^ 16 / s.m.tly.spanE) none
          (count 4 97 1 { s.m with tly := { s.m.tly with spanE := 0, frames := 0 } }))))
    ∧ (∀ tel (s : State), s.m.shep.booted = true → s.m.tly.spanE ≠ 0 →
        49152 ≤ tel * 2 ^ 16 / s.m.tly.spanE → tel * 2 ^ 16 / s.m.tly.spanE ≤ 81920 →
        ∀ g : Nat, g = (max 57344 (min 73728 ((s.m.tly.gain : Int)
            + (s.m.tly.gain * ((tel * 2 ^ 16 / s.m.tly.spanE : Nat) - 65536 : Int)) / 2 ^ 18))).toNat →
        exec (.gainTrim tel) s = .next (finish s (each dies (fun d m => wr F.TLY_GAIN_GAIN d 0 g m)
          (count 4 97 1 { s.m with tly := { s.m.tly with spanE := 0, frames := 0, gain := g } }))))

/-- Ten equal readings of the error pair in a row raise PAIR_FAULT; a complementary reading ends its cause; the pair is driven as before (R506).
With the firmware running, ERROR_PAIR_READBACK of two equal levels counts one more equal reading; when that is the
tenth in a row it raises PAIR_FAULT (source 30) on unit 47 with the two levels in DETAIL. A reading of complementary
levels sets the count back to 0 and ends the cause of PAIR_FAULT. Nothing drives the pair otherwise: the levels the
Shepherd drives are unchanged before other units act. -/
def Obligations.TheErrorPairIsReadBack : Prop :=
    (∀ p (s : State), s.m.shep.booted = true → s.m.flt.pairEq + 1 ≠ 10 →
        exec (.errorPairReadback p p) s = .next (finish s { s.m with flt := { s.m.flt with pairEq := s.m.flt.pairEq + 1 } }))
    ∧ (∀ p (s : State), s.m.shep.booted = true → s.m.flt.pairEq + 1 = 10 →
        exec (.errorPairReadback p p) s = .next (finish s
          (raise 4 47 30 0 (b2n p + 2 * b2n p) none { s.m with flt := { s.m.flt with pairEq := 10 } })))
    ∧ (∀ p n (s : State), s.m.shep.booted = true → p ≠ n →
        exec (.errorPairReadback p n) s = .next (finish s (causeEnd 4 47 (2 ^ 30) { s.m with flt := { s.m.flt with pairEq := 0 } })))
    ∧ (∀ p n (m : Sys2Proof.Machine.Mod), (pairReadback p n m).pin = m.pin)

/-- A die that passes its boot test enters QUARANTINE, one that fails is UNUSABLE; supplies of group 4; shutdown (R36, R37, R40, R68, R515, R516, R559).
BOOT_SELF_TEST_COMPLETE of a BOOTING die of a module that runs records the units and macros found bad, the links
trained and those that failed; where nothing fails the whole die it enters QUARANTINE and each bad unit and failed
link raises CHECK_FAIL, otherwise it is marked UNUSABLE and the failure is raised; GEN_PUBLISH reports the
configuration at every endpoint. GROUP_4_SUPPLY_CHANGE notes the rails out of tolerance in M3.
SHUTDOWN_TEST_COMPLETE writes the pass map, enters standby and answers MODULE_SHUTDOWN. -/
def Obligations.BootAndStandbyOfTheModule : Prop :=
    (∀ d links units macros hbm hard (s : State), d < 4 → links < 32 → units < 2 ^ 28 → macros.all (fun k => decide (k < 1920)) = true →
        dieState d s.m = DieSt.booting → s.m.shep.booted = true → s.m.flt.stopped = false →
        ∀ lost bad m₀ m, lost = linksFailed d links s.m → bad = setBit units 22 (bit units 22 || !lost.isEmpty) →
          m₀ = { s.m with
            d2dFail := lost.foldl (fun l j => NMap.set false l (pairIx d j) true) s.m.d2dFail
            bst := { s.m.bst with
              badUnit := (bitList 28 bad).foldl (fun l u => NMap.set false l (d * 32 + u) true) s.m.bst.badUnit
              bad := macros.foldl (fun l k => if k < 1920 then NMap.set false l (d * 2048 + k) true else l) s.m.bst.bad } } →
          m = wr F.BST_BOOT_FAILED_AT_START d 0 (macrosBad d m₀) (linksTrained d links m₀) →
          (dieFails d links hbm hard m = none → exec (.bootSelfTestComplete d links units macros (hbm, hard)) s
            = .next (finish s (signalReady (isolateAll ((lost.drop 1).foldl (fun m j => raise d 22 3 0 j none m)
                (((List.range 28).filter (fun u => NMap.get false m.bst.badUnit (d * 32 + u))).foldl
                  (fun m u => raise d u 3 0 (if u = 22 then lost.headD 0 else 0) none m) (enterQuarantine d false m)))))))
          ∧ (∀ u c x, dieFails d links hbm hard m = some (u, c, x) → exec (.bootSelfTestComplete d links units macros (hbm, hard)) s
            = .next (finish s (signalReady (isolateAll (raise d u c 0 x none (dieUnusable d m)))))))
    ∧ (∀ s : State, s.m.shep.booted = true → exec .genPublish s = .next (finish s (each dies genAt s.m)))
    ∧ (∀ mask (s : State), mask < 32 → s.m.tly.mstate = 3 →
        exec (.group4SupplyChange mask) s = .next (finish s { s.m with pin := { s.m.pin with rail4 := mask } }))
    ∧ (∀ l (s : State), l.all (fun r => dieOk r.die && r.failed.all (fun k => decide (k < 1920))) = true →
        (s.m.azx.jobs.any (fun j => j.wait == .testAll)) = true →
        exec (.shutdownTestComplete l) s = .next (finish s (endJobs (· == .testAll) St.ok 0 3
          (enterStandby { s.m with flash := { s.m.flash with passMap := (some
            { fw := s.m.sec.fwVer, frame := now 4 s.m / 1048576, dies := dies.map (fun d => (d, passDie l d s.m)), intact := true }) } }))))

/-- PERST_N and the host links: assertion takes both links down and resets every function of the die; each link falls and trains by itself (R41, R42, R43, R561, R565).
PERST_ASSERT of a die takes its host links down (LINK_UP, L0P, width and speed 0) and begins a function level reset
of each of its physical functions, which takes their virtual functions with it; PERST_RELEASE only releases the
level. HOST_LINK_DOWN clears the link status of that link and nothing else. HOST_LINK_UP of a released link of a
served, awake die with a width of its kind and a speed of R41 sets LINK_UP, WIDTH and SPEED and clears L0P, of a
link that is not up or is up at another speed or fewer lanes; of a link up at that speed with no fewer lanes it only
shows, in L0P, whether fewer lanes run (the table has no row for L0p: the model's choice, the docstring of
hostLinkUp). Any other HOST_LINK_UP changes nothing. -/
def Obligations.HostLinksGoDownAndComeUp : Prop :=
    (∀ d (s : State), d < 4 → exec (.perstAssert d) s = .next (finish s
        (each ((liveFns d (hostLinksDown d (updHif (fun h => { h with perst := NMap.set false h.perst d true }) s.m))).filter
            (fun f => isPf d f (hostLinksDown d (updHif (fun h => { h with perst := NMap.set false h.perst d true }) s.m))))
          (fun f m => flrInitiate d f m)
          (hostLinksDown d (updHif (fun h => { h with perst := NMap.set false h.perst d true }) s.m)))))
    ∧ (∀ d m, hostLinksDown d m =
        wrB F.HIF_STATUS_LINK_UP d 1 false (wrB F.HIF_LINK_STATUS_L0P d 1 false
          (wr F.HIF_LINK_STATUS_WIDTH d 1 0 (wr F.HIF_LINK_STATUS_SPEED d 1 0
            (wrB F.HIF_STATUS_LINK_UP d 0 false (wrB F.HIF_LINK_STATUS_L0P d 0 false
              (wr F.HIF_LINK_STATUS_WIDTH d 0 0 (wr F.HIF_LINK_STATUS_SPEED d 0 0 m))))))))
    ∧ (∀ d (s : State), d < 4 → exec (.perstRelease d) s
        = .next (finish s (updHif (fun h => { h with perst := NMap.set false h.perst d false }) s.m)))
    ∧ (∀ d p (s : State), d < 4 → p < 2 → exec (.hostLinkDown (d, p)) s = .next (finish s
        (wrB F.HIF_STATUS_LINK_UP d p false (wrB F.HIF_LINK_STATUS_L0P d p false
          (wr F.HIF_LINK_STATUS_WIDTH d p 0 (wr F.HIF_LINK_STATUS_SPEED d p 0 s.m))))))
    ∧ (∀ d p w v (s : State), d < 4 → p < 2 → (dieState d s.m = DieSt.active ∨ dieState d s.m = DieSt.quarantine) →
        NMap.get false s.m.hif.released d = true → NMap.get false s.m.hif.perst d = false →
        w ∈ linkWidths d p s.m → v ∈ [4, 5, 6] →
        (rdB F.HIF_STATUS_LINK_UP d p s.m = false ∨ rd F.HIF_LINK_STATUS_SPEED d p s.m ≠ v
          ∨ rd F.HIF_LINK_STATUS_WIDTH d p s.m < w) →
        exec (.hostLinkUp (d, p) w v) s = .next (finish s (wrB F.HIF_STATUS_LINK_UP d p true
          (wrB F.HIF_LINK_STATUS_L0P d p false
            (wr F.HIF_LINK_STATUS_WIDTH d p w (wr F.HIF_LINK_STATUS_SPEED d p v s.m))))))
    ∧ (∀ d p w v (s : State), d < 4 → p < 2 → (dieState d s.m = DieSt.active ∨ dieState d s.m = DieSt.quarantine) →
        NMap.get false s.m.hif.released d = true → NMap.get false s.m.hif.perst d = false →
        w ∈ linkWidths d p s.m → v ∈ [4, 5, 6] →
        rdB F.HIF_STATUS_LINK_UP d p s.m = true → rd F.HIF_LINK_STATUS_SPEED d p s.m = v →
        w ≤ rd F.HIF_LINK_STATUS_WIDTH d p s.m →
        exec (.hostLinkUp (d, p) w v) s = .next (finish s
          (wrB F.HIF_LINK_STATUS_L0P d p (decide (w < rd F.HIF_LINK_STATUS_WIDTH d p s.m)) s.m)))
    ∧ (∀ d p w v (s : State), d < 4 → p < 2 →
        (hostUp d s.m = false ∨ dieState d s.m = DieSt.sleep ∨ NMap.get false s.m.hif.released d = false
          ∨ NMap.get false s.m.hif.perst d = true ∨ w ∉ linkWidths d p s.m ∨ v ∉ [4, 5, 6]) →
        exec (.hostLinkUp (d, p) w v) s = .next (finish s s.m))
    ∧ (∀ d p m, linkWidths d p m = if bifurcated d m then [1, 2, 4, 8] else if p = 0 then [1, 2, 4, 8, 16] else [])

/-- Each trigger of the function state table makes its move, and only there (R46, R47, R59, R60).
On a served die: FUNCTION_RUN moves a DISABLED function that exists, is in D0 and has both enables to RUNNING.
BUS_MASTER_ENABLE_CLEAR of a function the host reaches stops its requests (queues HALTED, slots and locks withdrawn,
RUNNING to DRAINING) and clears the enable. BUS_MASTER_ENABLE_SET sets it and moves HALTED to RUNNING; no queue
changes its state. DRAIN_COMPLETE of a DRAINING function with no read outstanding moves it to D3HOT, RUNNING or
HALTED. D3HOT_ENTRY stops the requests as BUS_MASTER_ENABLE_CLEAR does; D3HOT_EXIT of a function in D3hot is the
function level reset of FLR_INITIATE. A configuration write to a function that does not exist or is RESETTING
reaches nothing. -/
def Obligations.FunctionStatesChangeByTheirTriggers : Prop :=
    (∀ d f (s : State), d < 4 → f < 1026 → hostUp d s.m = true → fnState d f s.m = FnSt.disabled → fnExists d f s.m = true →
        inD3 d f s.m = false → bme d f s.m = true → rdB F.HIF_CTRL_ENABLE d 0 s.m = true →
        exec (.functionRun d f) s = .next (finish s (wr F.HIF_FN_STATE d f FnSt.running s.m)))
    ∧ (∀ d f (s : State), d < 4 → f < 1026 → hostUp d s.m = true → cfgReaches d f s.m = true → bme d f s.m = true →
        exec (.busMasterEnableClear d f) s = .next (finish s
          (updHif (fun h => { h with bme := NMap.set false h.bme (fk d f) false }) (stopRequests d f s.m))))
    ∧ (∀ d f (s : State), d < 4 → f < 1026 → hostUp d s.m = true → cfgReaches d f s.m = true → fnState d f s.m = FnSt.halted →
        exec (.busMasterEnableSet d f) s = .next (finish s (wr F.HIF_FN_STATE d f FnSt.running
          (updHif (fun h => { h with bme := NMap.set false h.bme (fk d f) true }) s.m))))
    ∧ (∀ d f (s : State), d < 4 → f < 1026 → hostUp d s.m = true → cfgReaches d f s.m = true → fnState d f s.m ≠ FnSt.halted →
        exec (.busMasterEnableSet d f) s = .next (finish s
          (updHif (fun h => { h with bme := NMap.set false h.bme (fk d f) true }) s.m)))
    ∧ (∀ d f (s : State), d < 4 → f < 1026 → hostUp d s.m = true → fnState d f s.m = FnSt.draining → drained d f s.m = true →
        exec (.drainComplete d f) s = .next (finish s (wr F.HIF_FN_STATE d f
          (if inD3 d f s.m then FnSt.d3hot else if bme d f s.m then FnSt.running else FnSt.halted) s.m)))
    ∧ (∀ d f (s : State), d < 4 → f < 1026 → hostUp d s.m = true → fnExists d f s.m = true → inD3 d f s.m = false →
        (fnState d f s.m = FnSt.disabled ∨ fnState d f s.m = FnSt.halted) →
        exec (.d3hotEntry d f) s = .next (finish s (wr F.HIF_FN_STATE d f FnSt.d3hot
          (updHif (fun h => { h with d3 := NMap.set false h.d3 (fk d f) true }) (stopRequests d f s.m)))))
    ∧ (∀ d f (s : State), d < 4 → f < 1026 → hostUp d s.m = true → fnExists d f s.m = true → inD3 d f s.m = false →
        (fnState d f s.m = FnSt.running ∨ fnState d f s.m = FnSt.draining) →
        exec (.d3hotEntry d f) s = .next (finish s
          (updHif (fun h => { h with d3 := NMap.set false h.d3 (fk d f) true }) (stopRequests d f s.m))))
    ∧ (∀ d f (s : State), d < 4 → f < 1026 → hostUp d s.m = true → inD3 d f s.m = true → fnExists d f s.m = true →
        isPf d f s.m = false → exec (.d3hotExit d f) s = .next (finish s (flrBegin d f s.m)))
    ∧ (∀ d f (s : State), d < 4 → f < 1026 → hostUp d s.m = true → inD3 d f s.m = true → isPf d f s.m = true →
        exec (.d3hotExit d f) s = .next (finish s (clearVfEn d (pfOf d f s.m)
          (each (f :: vfsOf d (pfOf d f s.m) s.m) (fun g m => flrBegin d g m) s.m))))
    ∧ (∀ d f (s : State), d < 4 → f < 1026 → (hostUp d s.m = false ∨ inD3 d f s.m = false) →
        exec (.d3hotExit d f) s = .next (finish s s.m))
    ∧ (∀ d f (s : State), d < 4 → f < 1026 → cfgReaches d f s.m = false →
        exec (.busMasterEnableSet d f) s = .next (finish s s.m) ∧ exec (.busMasterEnableClear d f) s = .next (finish s s.m))

/-- A function level reset begins, falls silent and completes for the function and, of a PF, for its VFs; VF Enable; the BAR4 size of a PF (R45, R47, R49, R61, R62, R64).
On a served die: FLR_INITIATE of an existing VF begins its reset alone; of a PF it begins the reset of the PF and of
every VF of it and clears VF Enable. FLR_SILENCE makes every resetting function of the scope that is not yet silent
silent, FLR_COMPLETE ends the reset of the silent ones. VF_ENABLE sets VF Enable with NumVFs (at most 1,024, or 512
on a bifurcated die), unless VF Enable is already 1; VF_DISABLE begins the reset of every VF and clears it. These
reach a function that is not RESETTING. BAR4_RESIZE to 2^30 to 2^40 bytes sets the size of that PF and disables
every window of that PF. -/
def Obligations.FunctionLevelResets : Prop :=
    (∀ d f (s : State), d < 4 → f < 1026 → hostUp d s.m = true → fnExists d f s.m = true → isPf d f s.m = false →
        exec (.flrInitiate d f) s = .next (finish s (flrBegin d f s.m)))
    ∧ (∀ d f (s : State), d < 4 → f < 1026 → hostUp d s.m = true → isPf d f s.m = true →
        exec (.flrInitiate d f) s = .next (finish s (clearVfEn d (pfOf d f s.m)
          (each (f :: vfsOf d (pfOf d f s.m) s.m) (fun g m => flrBegin d g m) s.m))))
    ∧ (∀ d f (s : State), d < 4 → f < 1026 → hostUp d s.m = true →
        exec (.flrSilence d f) s = .next (finish s
          (each ((resettingOf d f s.m).filter (fun g => !fnSilent d g s.m)) (fun g m => flrSilent d g m) s.m)))
    ∧ (∀ d f (s : State), d < 4 → f < 1026 → hostUp d s.m = true →
        exec (.flrComplete d f) s = .next (finish s
          (each ((resettingOf d f s.m).filter (fun g => fnSilent d g s.m)) (fun g m => flrEnd d g m) s.m)))
    ∧ (∀ d p n (s : State), d < 4 → p < 2 → n ≤ 1024 → hostUp d s.m = true → cfgReaches d (pfFn p) s.m = true →
        NMap.get false s.m.hif.vfEn (d * 2 + p) = false →
        exec (.vfEnable d p n) s = .next (finish s { s.m with hif := { s.m.hif with
          vfEn := NMap.set false s.m.hif.vfEn (d * 2 + p) true
          numVf := NMap.set 0 s.m.hif.numVf (d * 2 + p) (min n (if bifurcated d s.m then 512 else 1024)) } }))
    ∧ (∀ d p n (s : State), d < 4 → p < 2 → n ≤ 1024 → hostUp d s.m = true → cfgReaches d (pfFn p) s.m = true →
        NMap.get false s.m.hif.vfEn (d * 2 + p) = true →
        exec (.vfEnable d p n) s = .next (finish s s.m))
    ∧ (∀ d p (s : State), d < 4 → p < 2 → hostUp d s.m = true → cfgReaches d (pfFn p) s.m = true →
        exec (.vfDisable d p) s = .next (finish s
          (clearVfEn d p (each (vfsOf d p s.m) (fun g m => flrBegin d g m) s.m))))
    ∧ (∀ d p n (s : State), d < 4 → p < 2 → hostUp d s.m = true → 30 ≤ n → n ≤ 40 → cfgReaches d (pfFn p) s.m = true →
        exec (.bar4Resize d p n) s = .next (finish s
          (windowsOff d p (updHif (fun h => { h with bar4 := NMap.set 30 h.bar4 (d * 2 + p) n }) s.m))))
    ∧ (∀ d p n (s : State), d < 4 → p < 2 → (n < 30 ∨ 40 < n ∨ cfgReaches d (pfFn p) s.m = false) →
        exec (.bar4Resize d p n) s = .next (finish s s.m))

/-- A completion or timeout of a tag in use frees it and ends its read; a tag in quarantine only expires; a waiting read takes a free tag (R54, R55, R56, R62).
On a served die: HOST_COMPLETION_RECEIVED for a tag in use frees the tag and gives the data to the work that reads
(nothing, if the status is not success); for a tag in quarantine it only counts LATE_QUARANTINED, for no tag
UNEXPECTED. COMPLETION_TIMEOUT of a tag in use frees it and fails the work. TAG_QUARANTINE_EXPIRY frees a tag in
quarantine. GENERAL_TAG_GRANT issues the first waiting read that may take a tag. -/
def Obligations.HostReadTagsAreUsedOnce : Prop :=
    (∀ d t st data g (s : State), d < 4 → t < 1024 → hostUp d s.m = true → tagOf d t s.m = some g → g.quar = false →
        exec (.hostCompletionReceived d t st data) s = .next (finish s
          (workDone d g.work (if st = 0 then some data else none)
            (count d 416 data.length (energy d 17 7 ((data.length + 255) / 256)
              { s.m with hif := { s.m.hif with tags := NMap.del s.m.hif.tags (tk d t) } })))))
    ∧ (∀ d t st data g (s : State), d < 4 → t < 1024 → hostUp d s.m = true → tagOf d t s.m = some g → g.quar = true →
        exec (.hostCompletionReceived d t st data) s = .next (finish s (bump F.HIF_CPL_ERR_LATE_QUARANTINED d 0 s.m)))
    ∧ (∀ d t st data (s : State), d < 4 → t < 1024 → hostUp d s.m = true → tagOf d t s.m = none →
        exec (.hostCompletionReceived d t st data) s = .next (finish s (bump F.HIF_CPL_ERR_UNEXPECTED d 0 s.m)))
    ∧ (∀ d t g (s : State), d < 4 → t < 1024 → hostUp d s.m = true → tagOf d t s.m = some g → g.quar = false →
        exec (.completionTimeout d t) s = .next (finish s (count d 421 1 (workDone d g.work none
          { s.m with hif := { s.m.hif with tags := NMap.del s.m.hif.tags (tk d t) } }))))
    ∧ (∀ d t g (s : State), d < 4 → t < 1024 → hostUp d s.m = true → tagOf d t s.m = some g → g.quar = true →
        exec (.tagQuarantineExpiry d t) s = .next (finish s
          { s.m with hif := { s.m.hif with tags := NMap.del s.m.hif.tags (tk d t) } }))
    ∧ (∀ d q t (s : State), d < 4 → hostUp d s.m = true →
        s.m.hif.waitQ.find? (fun q => q.die == d && (tagFor q s.m).isSome) = some q → tagFor q s.m = some t →
        exec (.generalTagGrant d) s = .next (finish s
          (issueRead q t { s.m with hif := { s.m.hif with waitQ := s.m.hif.waitQ.erase q } })))

/-- An MSI-X table write stores the entry at once; a pending vector is sent once it is unmasked and bus mastering is enabled (R46, R58).
On a served die: MSIX_TABLE_WRITE of a vector the existing function has stores address, data and mask bit at once,
and the vector is then sent if it was pending and both conditions hold. MSIX_PENDING_SEND of a pending vector that
is unmasked while the function may issue requests (Bus Master Enable 1, in D0) clears the PBA bit and sends the
message; otherwise it does nothing. -/
def Obligations.MsixVectorsPendAndFire : Prop :=
    (∀ d f v a x b (s : State), d < 4 → f < 1026 → v < 2048 → a < 2 ^ 64 → x < 2 ^ 32 → hostUp d s.m = true →
        fnExists d f s.m = true → v < vecCount d f s.m →
        exec (.msixTableWrite d f v a x b) s = .next (finish s (msixPending d f v { s.m with hif := { s.m.hif with
          msix := NMap.set MsixEnt.reset s.m.hif.msix (vk d f v) { addr := a, data := x, masked := b } } })))
    ∧ (∀ d f v (s : State), d < 4 → f < 1026 → v < 2048 → hostUp d s.m = true → v < vecCount d f s.m →
        NMap.get false s.m.hif.pba (vk d f v) = true → (msixEnt d f v s.m).masked = false → canIssue d f s.m = true →
        exec (.msixPendingSend d f v) s = .next (finish s (count d 420 1 (emit (.msix d f v)
          { s.m with hif := { s.m.hif with pba := NMap.set false s.m.hif.pba (vk d f v) false } }))))
    ∧ (∀ d f v (s : State), d < 4 → f < 1026 → v < 2048 → hostUp d s.m = true →
        (NMap.get false s.m.hif.pba (vk d f v) = false ∨ (msixEnt d f v s.m).masked = true ∨ canIssue d f s.m = false) →
        exec (.msixPendingSend d f v) s = .next (finish s s.m))

/-- Azrix rings: enabling clears the indices, disabling discards, commands are taken in round robin from the rings and the management interface (R80, R81, R82, R83, R84).
AZX_ENABLE of a ring that is off sets ENABLE, clears every index, sets the phase and ends a ring error; of one that
is on it changes nothing. AZX_DISABLE clears ENABLE, drops responses held for the ring and leaves the command in
hand unanswered. AZX_CMD_TAIL_WRITE stores the tail modulo the ring size. AZX_COMMAND_TAKE takes from the source
that the round robin reaches first: of a function, with the ring readable, the head moves past one command and what
host memory holds there is performed, with its argument buffer read where the row takes one; with the ring not
readable the ring stops with RING_ERR; of the management interface, the oldest command queued is performed; with no
source nothing happens. MCTP_COMMAND_RECEIVED queues the command of the management interface for its turn. -/
def Obligations.AzrixRingsTakeCommands : Prop :=
    (∀ d f (s : State), d < 4 → f < 1026 → hostUp d s.m = true → curB F.AZX_CTRL_ENABLE d f s.m = false →
        exec (.azxEnable d f) s = .next (finish s
          (updAzx (fun a => { a with phase := NMap.set true a.phase (fk d f) true, broken := NMap.set false a.broken (fk d f) false })
            (force F.AZX_RSP_HEAD_INDEX d f 0 (force F.AZX_CMD_TAIL_INDEX d f 0 (wr F.AZX_RSP_TAIL_INDEX d f 0
              (wr F.AZX_CMD_HEAD_INDEX d f 0 (force F.AZX_CTRL_ENABLE d f 1 s.m))))))))
    ∧ (∀ d f (s : State), d < 4 → f < 1026 → hostUp d s.m = true → curB F.AZX_CTRL_ENABLE d f s.m = true →
        exec (.azxEnable d f) s = .next (finish s s.m))
    ∧ (∀ d f (s : State), d < 4 → f < 1026 → hostUp d s.m = true →
        exec (.azxDisable d f) s = .next (finish s (muteJobs (d, f)
          (updAzx (fun a => { a with held := a.held.filter (fun h => h.die != d || h.fn != f) }) (force F.AZX_CTRL_ENABLE d f 0 s.m)))))
    ∧ (∀ d f i (s : State), d < 4 → f < 1026 → i < 65536 → hostUp d s.m = true →
        exec (.azxCmdTailWrite d f i) s = .next (finish s (force F.AZX_CMD_TAIL_INDEX d f (i % cmdSize d f s.m) s.m)))
    ∧ (∀ ans n ent (s : State), nextSource (takeable s.m) s.m = some n → n ≠ 8192 →
        ∀ d f m1 m2 m3 m4, d = n / 2048 → f = n % 2048 → m1 = updAzx (fun a => { a with next := n + 1 }) s.m →
        accessBus d f (cur F.AZX_CMD_BASE_ADDR d f m1 * 64 + 64 * rd F.AZX_CMD_HEAD_INDEX d f m1) 64 0 m1 = (true, m2) →
        readPieces d f false ans [(cur F.AZX_CMD_BASE_ADDR d f m1 * 64 + 64 * rd F.AZX_CMD_HEAD_INDEX d f m1, 64)] m2 = (some ent, m3) →
        m4 = wr F.AZX_CMD_HEAD_INDEX d f ((rd F.AZX_CMD_HEAD_INDEX d f m1 + 1) % cmdSize d f m3) m3 →
        AzCmd.argLen { iss := some (d, f), ent := ent, buf := none } = 0 →
        exec (.azxCommandTake ans) s = .next (finish s (azPerform s.fuse { iss := some (d, f), ent := ent, buf := none } m4)))
    ∧ (∀ ans n ent (s : State), nextSource (takeable s.m) s.m = some n → n ≠ 8192 →
        ∀ d f m1 m2 m3 m4, d = n / 2048 → f = n % 2048 → m1 = updAzx (fun a => { a with next := n + 1 }) s.m →
        accessBus d f (cur F.AZX_CMD_BASE_ADDR d f m1 * 64 + 64 * rd F.AZX_CMD_HEAD_INDEX d f m1) 64 0 m1 = (true, m2) →
        readPieces d f false ans [(cur F.AZX_CMD_BASE_ADDR d f m1 * 64 + 64 * rd F.AZX_CMD_HEAD_INDEX d f m1, 64)] m2 = (some ent, m3) →
        m4 = wr F.AZX_CMD_HEAD_INDEX d f ((rd F.AZX_CMD_HEAD_INDEX d f m1 + 1) % cmdSize d f m3) m3 →
        ∀ r : AzRow, azRow (AzCmd.op { iss := some (d, f), ent := ent, buf := none }) m4 = some r → r.reads = true →
        AzCmd.argLen { iss := some (d, f), ent := ent, buf := none } ≠ 0 → AzCmd.argLen { iss := some (d, f), ent := ent, buf := none } ≤ 67108864 →
        ∀ b m5, readPieces d f false ans [(AzCmd.argAddr { iss := some (d, f), ent := ent, buf := none }, AzCmd.argLen { iss := some (d, f), ent := ent, buf := none })] m4 = (b, m5) →
        exec (.azxCommandTake ans) s = .next (finish s (azPerform s.fuse { iss := some (d, f), ent := ent, buf := b } m5)))
    ∧ (∀ ans n (s : State), nextSource (takeable s.m) s.m = some n → n ≠ 8192 →
        ∀ d f m1 m2, d = n / 2048 → f = n % 2048 → m1 = updAzx (fun a => { a with next := n + 1 }) s.m →
        accessBus d f (cur F.AZX_CMD_BASE_ADDR d f m1 * 64 + 64 * rd F.AZX_CMD_HEAD_INDEX d f m1) 64 0 m1 = (false, m2) →
        exec (.azxCommandTake ans) s = .next (finish s (ringErr d f m2)))
    ∧ (∀ ans c q (s : State), nextSource (takeable s.m) s.m = some 8192 → s.m.azx.mgmtQ = c :: q →
        exec (.azxCommandTake ans) s = .next (finish s (mgmtTake s.fuse c
          (updAzx (fun a => { a with mgmtQ := q }) (updAzx (fun a => { a with next := 8193 }) s.m)))))
    ∧ (∀ ans (s : State), nextSource (takeable s.m) s.m = none → exec (.azxCommandTake ans) s = .next (finish s s.m))
    ∧ (∀ ent buf (s : State), ent.length = 64 → s.m.shep.bootFail = false → s.m.shep.booted = true →
        exec (.mctpCommandReceived ent buf) s = .next (finish s
          (updAzx (fun a => { a with mgmtQ := a.mgmtQ ++ [{ iss := none, ent := padTo 64 ent, buf := buf }] }) s.m)))

/-- What ends the Shepherd's procedures: tests, acknowledged pushes, drains and the return procedure (R28, R72, R74, R77, R90, R484, R501, R569).
TABLE_PUSH_ACK of a die that a push waits for gives the die the table and marks it acknowledged. DIE_TEST_COMPLETE
with a failure marks the die UNUSABLE and answers RESTORE_FAILED. UNIT_TEST_COMPLETE with a failure marks the unit
UNUSABLE and answers state 3. DIE_SLEEP_DRAIN_END of a busy die answers DIE_NOT_READY with detail 2 and ends the
drain; of an idle one it sleeps. RETURN_PROCEDURE continues the return of a die in QUARANTINE, or of the units of an
ACTIVE die. RETURN_TIMEOUT fences a die in QUARANTINE whose own work has gone on too long, before or after a wait
for DIE_ACTIVATE, with the dies that only it joined to the others (R28), and answers RESTORE_FAILED; a DIE_WAKE, for
which R90 names no such status, is answered DIE_NOT_READY (the model's choice, the docstring of backFails). -/
def Obligations.ShepherdProceduresEnd : Prop :=
    (∀ d t j w a (s : State), d < 4 → t < 16 → t ≠ 4 →
        s.m.azx.jobs.find? (fun j => j.wait.pushes t d) = some j → j.wait = .push t w a →
        exec (.tablePushAck d t) s = .next (finish s
          (takePush j.cmd t d (swapJob j { j with wait := .push t (setBit w d false) (setBit a d true) } s.m))))
    ∧ (∀ d l (s : State), d < 4 → l < 32 → (s.m.azx.jobs.any (fun j => j.wait == .dieTest d)) = true →
        exec (.dieTestComplete d l false) s = .next (finish s
          (signalReady (endJobs (· == .dieTest d) St.restoreFailed 1 DieSt.unusable (dieUnusable d s.m)))))
    ∧ (∀ d u (s : State), d < 4 → u < 28 → (s.m.azx.jobs.any (fun j => j.wait == .unitTest d u)) = true →
        exec (.unitTestComplete d u false) s = .next (finish s (endJobs (· == .unitTest d u) St.ok 0 UnitSt.unusable
          (setUnit d u UnitSt.unusable { s.m with bst := { s.m.bst with badUnit := NMap.set false s.m.bst.badUnit (d * 32 + u) true } }))))
    ∧ (∀ d j b (s : State), d < 4 →
        s.m.azx.jobs.find? (fun j => j.wait.drains d) = some j →
        j.wait = .drain d b → dieIdle d s.m = false →
        exec (.dieSleepDrainEnd d) s = .next (finish s (endJob j St.dieNotReady 2 0 0 (setDrain d false s.m))))
    ∧ (∀ d j b (s : State), d < 4 → s.m.tly.mstate ≠ 3 → (dieSleep d b s.m).tly.mstate ≠ 3 →
        s.m.azx.jobs.find? (fun j => j.wait.drains d) = some j →
        j.wait = .drain d b → dieIdle d s.m = true →
        exec (.dieSleepDrainEnd d) s = .next (finish s (endJob j St.ok 0 DieSt.sleep 0 (setMState 2 (dieSleep d b s.m)))))
    ∧ (∀ d (s : State), d < 4 → dieState d s.m = DieSt.quarantine →
        exec (.returnProcedure d) s = .next (finish s (returnDie d s.m)))
    ∧ (∀ d (s : State), d < 4 → dieActive d s.m = true →
        exec (.returnProcedure d) s = .next (finish s (returnUnits d s.m)))
    ∧ (∀ d (s : State), d < 4 → dieState d s.m = DieSt.quarantine → (NMap.get false s.m.shep.waits d = false ∨ mayActivate d s.m = true) →
        exec (.returnTimeout d) s = .next (finish s (resumeDone (isolate (fenceDie d (backFails d 2 s.m))))))
    ∧ (∀ d n (m : Sys2Proof.Machine.Mod), backFails d n m = (m.azx.jobs.filter (fun j => j.wait.backs d || j.wait == .dieTest d)).foldl
        (fun m j => if j.cmd.op = 0x52 then endJob j St.dieNotReady 0 DieSt.fenced 0 m
          else endJob j St.restoreFailed n DieSt.fenced 0 m) m)

/-- Each Azrix command that loads a table changes the Shepherd's copy and begins its push (R74, R75, R87, R88, R186, R191, R202, R212, R216, R218, R222, R570).
When an Azrix command that loads a table (pastures, keys, paths, pass sets, flocks, calendars, reservations, Drover
programs, budget, partition) is taken and passes every check, the authoritative copy takes exactly the entries the
command carries, its generation rises and the table is pushed to the dies that use it; CAL_SWITCH of a frame that
has not begun is pushed to the ACTIVE dies. -/
def Obligations.AzrixTableCommandsLoad : Prop :=
    (∀ iss ent buf (s : State) j m, AzBegins 0x10 azPastureCreate iss ent buf s j m →
        exec (.pastureCreate iss ent buf) s = .next (finish s (j.load 7 j.cmd.die 0 (updTabs 4 (fun t => { t with past := NMap.put t.past (j.cmd.die * 65536 + j.cmd.arg 2 2) { fn := j.cmd.arg 4 2, flags := j.cmd.arg 6 1 } }) m))))
    ∧ (∀ iss ent buf (s : State) j m, AzBegins 0x11 azPastureDestroy iss ent buf s j m →
        exec (.pastureDestroy iss ent buf) s = .next (finish s (j.load 7 j.cmd.die 0 (if dies.any (fun d => pastureAt d (j.cmd.arg 2 2) (updTabs 4 (fun t => { t with past := NMap.del t.past (j.cmd.die * 65536 + j.cmd.arg 2 2) }) m))
            then updTabs 4 (fun t => { t with past := NMap.del t.past (j.cmd.die * 65536 + j.cmd.arg 2 2) }) m
            else { updTabs 4 (fun t => { t with past := NMap.del t.past (j.cmd.die * 65536 + j.cmd.arg 2 2) }) m with
              keys := NMap.del m.keys (4 * 65536 + j.cmd.arg 2 2) }))))
    ∧ (∀ iss ent buf (s : State) j m, AzBegins 0x12 azPastureKey iss ent buf s j m →
        exec (.pastureKeyLoad iss ent buf) s = .next (finish s (j.load 8 0 0 { m with keys := (NMap.put m.keys (4 * 65536 + j.cmd.arg 2 2)
            { key := (keyOpened j.cmd m).getD [], old := none,
              gen := match NMap.find m.keys (4 * 65536 + j.cmd.arg 2 2) with | some o => o.gen + 1 | none => 0 }) })))
    ∧ (∀ iss ent buf (s : State) j m, AzBegins 0x20 azPathLoad iss ent buf s j m →
        exec (.pathLoad iss ent buf) s = .next (finish s (j.load 0 0 0 (updTabs 4 (fun t => { t with path := ((List.range (8 * j.cmd.arg 4 4)).foldl (fun l i =>
            if (pathEntOf (sub j.cmd.data (16 * i) 16)).valid then NMap.put l (j.cmd.arg 0 4 * 8 + i) (pathEntOf (sub j.cmd.data (16 * i) 16))
            else NMap.del l (j.cmd.arg 0 4 * 8 + i)) t.path) }) m))))
    ∧ (∀ iss ent buf (s : State) j m, AzBegins 0x21 azPassLoad iss ent buf s j m →
        exec (.passSetLoad iss ent buf) s = .next (finish s (j.load 1 0 0 (updTabs 4 (fun t => { t with
            pass := (((bitList 16 (j.cmd.arg 0 2)).zip (List.range (bitList 16 (j.cmd.arg 0 2)).length)).foldl
              (fun x e => NMap.set 0 x e.1 (rdLE j.cmd.data (16 * e.2) 16)) t.pass) }) m))))
    ∧ (∀ iss ent buf (s : State) j m, AzBegins 0x22 azFlockLoad iss ent buf s j m →
        exec (.flockLoad iss ent buf) s = .next (finish s (j.load 2 0 0 (updTabs 4 (fun t => { t with flock := ((List.range (j.cmd.arg 4 4)).foldl (fun l i =>
            if (flockOf (sub j.cmd.data (32 * i) 32)).valid then NMap.put l (j.cmd.arg 0 2 + i) (flockOf (sub j.cmd.data (32 * i) 32))
            else NMap.del l (j.cmd.arg 0 2 + i)) t.flock) }) m))))
    ∧ (∀ iss ent buf (s : State) j m, AzBegins 0x30 azCalLoad iss ent buf s j m →
        exec (.calLoad iss ent buf) s = .next (finish s (j.load 3 0 0 (calLoad j.cmd.data (j.cmd.arg 0 2) m))))
    ∧ (∀ iss ent buf (s : State) j m, AzBegins 0x32 azResConfirm iss ent buf s j m →
        exec (.resConfirm iss ent buf) s = .next (finish s (j.load 5 0 0 (resConfirm (j.cmd.arg 0 2) (resvOf (j.cmd.ent.drop 24)) m))))
    ∧ (∀ iss ent buf (s : State) j m, AzBegins 0x33 azResWithdraw iss ent buf s j m →
        exec (.resWithdraw iss ent buf) s = .next (finish s (j.load 5 0 0 (resWithdraw (j.cmd.arg 0 2) (j.cmd.arg 2 1) m))))
    ∧ (∀ iss ent buf (s : State) j m, AzBegins 0x40 azProgLoad iss ent buf s j m →
        exec (.drvProgLoad iss ent buf) s = .next (finish s (j.load 6 j.cmd.die ((freeProg j.cmd.die m).getD 0) (updTabs 4 (fun t => { t with
            drv := NMap.put t.drv (j.cmd.die * 256 + (freeProg j.cmd.die m).getD 0) (progOf j.cmd.issuer.1 j.cmd.issuer.2 j.cmd.data) }) m))))
    ∧ (∀ iss ent buf (s : State) j m, AzBegins 0x41 azProgUnload iss ent buf s j m →
        exec (.drvProgUnload iss ent buf) s = .next (finish s (j.load 6 j.cmd.die 0 (updTabs 4 (fun t => { t with drv := NMap.del t.drv (j.cmd.die * 256 + j.cmd.arg 1 1) }) m))))
    ∧ (∀ iss ent buf (s : State) j m, AzBegins 0x50 azBudgetSet iss ent buf s j m →
        exec (.budgetSet iss ent buf) s = .next (finish s (j.load 10 0 0 ({ m with tly := { m.tly with
            budget := j.cmd.arg 0 4, headroom := j.cmd.arg 4 1
            table := if bit (j.cmd.arg 5 1) 0 then actionsOf j.cmd.data else m.tly.table } }))))
    ∧ (∀ iss ent buf (s : State) j m, AzBegins 0x70 azBufPartition iss ent buf s j m →
        exec (.bufPartition iss ent buf) s = .next (finish s (j.load 9 j.cmd.die 0 (updTabs 4 (fun t => { t with part := NMap.set 12 t.part j.cmd.die (j.cmd.arg 1 1) })
            (if bit (j.cmd.arg 2 1) 0 then { m with flash := { m.flash with part := NMap.put m.flash.part j.cmd.die (j.cmd.arg 1 1) } } else m)))))
    ∧ (∀ iss ent buf (s : State) j m, AzBegins 0x31 azCalSwitch iss ent buf s j m → frameBegun (j.cmd.arg 0 8) m = false →
        exec (.calSwitch iss ent buf) s = .next (finish s (j.await (.push 4 (usersOf 4 0 j.cmd m) 0) m)))

/-- Each Azrix command on dies, units, pool, power and time has its own effect (R71, R72, R87, R88, R107, R109, R484, R486, R489, R501, R515, R569).
When such a command is taken and passes every check: QUERY_STATE answers the configuration; DIE_SLEEP,
MODULE_STANDBY and MODULE_SHUTDOWN set the dies draining and wait; DIE_WAKE and MODULE_RESUME wake dies and wait;
POOL_ALLOC and POOL_FREE change the die's allocations; DIE_FENCE fences the die and the dies that only it joined to
the others; DIE_RESTORE, DIE_ACTIVATE and UNIT_RESTORE wait for their procedure; TIME_ROLE and TIME_OF_DAY change
what time the module publishes. -/
def Obligations.AzrixDieCommandsAct : Prop :=
    (∀ iss ent buf (s : State) j m, AzBegins 0x01 azQuery iss ent buf s j m →
        exec (.queryState iss ent buf) s = .next (finish s (answer j.cmd false j.t0 St.ok 0 (rd F.GEN_STATUS_CONFIG_SEQ 0 0 m + dieStates 0 m * 2 ^ 32)
            (m.conf.mask * 16 + rd F.GEN_CONFIG_USABLE_MASK 0 0 m + orderOf m * 65536) m)))
    ∧ (∀ iss ent buf (s : State) j m, AzBegins 0x51 azDieSleep iss ent buf s j m →
        exec (.dieSleep iss ent buf) s = .next (finish s (j.await (.drain j.cmd.die (bit (j.cmd.arg 1 1) 0)) (setDrain j.cmd.die true m))))
    ∧ (∀ iss ent buf (s : State) j m, AzBegins 0x52 azDieWake iss ent buf s j m →
        exec (.dieWake iss ent buf) s = .next (finish s (j.await (.dieBack j.cmd.die false) (dieWake j.cmd.die m))))
    ∧ (∀ iss ent buf (s : State) j m, AzBegins 0x53 (azStandby false) iss ent buf s j m →
        exec (.moduleStandby iss ent buf) s = .next (finish s (j.await (.drainAll false) (each (activeDies m) (fun d m => setDrain d true m) m))))
    ∧ (∀ iss ent buf (s : State) j m, AzBegins 0x54 azResume iss ent buf s j m →
        exec (.moduleResume iss ent buf) s = .next (finish s (j.await .wakeAll (each dies dieWake { m with flash := { m.flash with passMap := none } }))))
    ∧ (∀ iss ent buf (s : State) j m, AzBegins 0x55 (azStandby true) iss ent buf s j m →
        exec (.moduleShutdown iss ent buf) s = .next (finish s (j.await (.drainAll true) (each (activeDies m) (fun d m => setDrain d true m) m))))
    ∧ (∀ iss ent buf (s : State) j m, AzBegins 0x71 azPoolAlloc iss ent buf s j m →
        exec (.poolAlloc iss ent buf) s = .next (finish s (j.ok ((poolFit (poolOf j.cmd.die m) (poolSize (j.cmd.arg 8 8))).getD poolUnit) (setPool j.cmd.die
            ((poolOf j.cmd.die m).filter (fun x => decide (x.off < (poolFit (poolOf j.cmd.die m) (poolSize (j.cmd.arg 8 8))).getD poolUnit))
             ++ { off := (poolFit (poolOf j.cmd.die m) (poolSize (j.cmd.arg 8 8))).getD poolUnit, size := poolSize (j.cmd.arg 8 8), fn := j.cmd.issuer.2, src := j.cmd.issuer.1 }
             :: (poolOf j.cmd.die m).filter (fun x => decide ((poolFit (poolOf j.cmd.die m) (poolSize (j.cmd.arg 8 8))).getD poolUnit < x.off))) m))))
    ∧ (∀ iss ent buf (s : State) j m, AzBegins 0x72 azPoolFree iss ent buf s j m →
        exec (.poolFree iss ent buf) s = .next (finish s (j.ok 0 (setPool j.cmd.die ((poolOf j.cmd.die m).filter (fun a => a.off != j.cmd.arg 8 8)) m))))
    ∧ (∀ iss ent buf (s : State) j m, AzBegins 0x80 azDieFence iss ent buf s j m →
        exec (.dieFence iss ent buf) s = .next (finish s (j.ok (dieState j.cmd.die (isolate (fenceDie j.cmd.die m))) (isolate (fenceDie j.cmd.die m)))))
    ∧ (∀ iss ent buf (s : State) j m, AzBegins 0x81 azDieRestore iss ent buf s j m →
        exec (.dieRestore iss ent buf) s = .next (finish s (j.await (.dieTest j.cmd.die) m)))
    ∧ (∀ iss ent buf (s : State) j m, AzBegins 0x82 azDieActivate iss ent buf s j m →
        exec (.dieActivate iss ent buf) s = .next (finish s (j.await (.dieBack j.cmd.die true) (updShep (fun s => { s with go := NMap.set false s.go j.cmd.die true }) m))))
    ∧ (∀ iss ent buf (s : State) j m, AzBegins 0x83 azUnitRestore iss ent buf s j m →
        exec (.unitRestore iss ent buf) s = .next (finish s (j.await (.unitTest j.cmd.die (j.cmd.arg 1 1)) m)))
    ∧ (∀ iss ent buf (s : State) j m, AzBegins 0x90 azTimeRole iss ent buf s j m →
        exec (.timeRole iss ent buf) s = .next (finish s (j.ok 0 (publishTime { m with tm := { m.tm with
            gmOn := bit (j.cmd.arg 0 1) 0, ppsOn := bit (j.cmd.arg 0 1) 1, ppsDly := j.cmd.arg 4 4 } }))))
    ∧ (∀ iss ent buf (s : State) j m, AzBegins 0x91 azTimeOfDay iss ent buf s j m →
        exec (.timeOfDay iss ent buf) s = .next (finish s (j.ok 0 (each dies (fun d m => wr F.ETL_TOD_FRAME_FRAME d 0 (j.cmd.arg 0 8)
            (wr F.ETL_TOD_VALUE_SECONDS d 0 (j.cmd.arg 8 8 / 2 ^ 30) (wr F.ETL_TOD_VALUE_NANOS d 0 (j.cmd.arg 8 8 % 2 ^ 30) m))) m))))

/-- Each Azrix command on faults, counters and security has its own effect (R87, R492, R496, R499, R507, R510, R522, R527, R529, R531, R532, R546).
When such a command is taken and passes every check: FAULT_LOG_READ answers the records the issuer may see from a
sequence number on, as many as asked for and as the buffer has room for; FAULT_CLEAR clears an open record of a
Shepherd unit; FAULT_REACT_SET sets a reaction mask; FAULT_INJECT (only in BLANK) raises faults marked injected;
SHEP_CNT_READ answers counters; SEC_COMMIT raises the fused SVN; DEBUG_NONCE answers the nonce; DEBUG_UNLOCK
presents a token; DEBUG_LOCK returns OBSERVE to OFF; LIFECYCLE_ADVANCE and OWNER_KEY_SET blow fuses. -/
def Obligations.AzrixFaultAndSecurityCommandsAct : Prop :=
    (∀ iss ent buf (s : State) j m, AzBegins 0x60 azFaultLog iss ent buf s j m →
        exec (.faultLogRead iss ent buf) s = .next (finish s (j.okData (((m.flt.log.filter (fun r => (match j.cmd.iss with | none => true | some (d, f) => isPf d f m || r.fn == some f && r.die == d)
              && decide (j.cmd.arg 0 4 ≤ r.seq))).reverse).take (min (j.cmd.arg 4 4) (j.cmd.argLen / 64)) |>.flatMap recBytes)
            (((m.flt.log.filter (fun r => (match j.cmd.iss with | none => true | some (d, f) => isPf d f m || r.fn == some f && r.die == d)
              && decide (j.cmd.arg 0 4 ≤ r.seq))).reverse).take (min (j.cmd.arg 4 4) (j.cmd.argLen / 64))).length ((m.flt.log.map FaultRec.seq).foldl max 0) m)))
    ∧ (∀ iss ent buf (s : State) j m r, AzBegins 0x61 azFaultClear iss ent buf s j m →
        (shepRec (j.cmd.arg 0 4) m).filter (fun r => r.isOpen) = some r →
        exec (.faultClear iss ent buf) s = .next (finish s (j.ok (b2n (!(clearRec 4 r.unit m).2)) (clearRec 4 r.unit m).1)))
    ∧ (∀ iss ent buf (s : State) j m, AzBegins 0x62 azReactSet iss ent buf s j m →
        exec (.faultReactSet iss ent buf) s = .next (finish s (j.ok (reactMask j.cmd.die (j.cmd.arg 1 1) (j.cmd.arg 2 1) (severity (j.cmd.arg 2 1) 0)
            (setReact j.cmd.die (j.cmd.arg 1 1) (j.cmd.arg 2 1) (j.cmd.arg 3 1) m)) (setReact j.cmd.die (j.cmd.arg 1 1) (j.cmd.arg 2 1) (j.cmd.arg 3 1) m))))
    ∧ (∀ iss ent buf (s : State) j m n, AzBegins 0x63 azInject iss ent buf s j m → s.m.sec.lifecycle = 0 →
        n = (List.range (j.cmd.arg 3 1)).foldl (fun m _ => raiseInj true j.cmd.die (j.cmd.arg 1 1) (j.cmd.arg 2 1) 0 (j.cmd.arg 8 8) none m) m →
        exec (.faultInject iss ent buf) s = .next (finish s (if n.flt.due.contains .stop then n else j.ok 1 n)))
    ∧ (∀ iss ent buf (s : State) j m, AzBegins 0x64 azCntRead iss ent buf s j m →
        exec (.shepCntRead iss ent buf) s = .next (finish s (j.okData ((List.range (j.cmd.arg 2 2)).flatMap (fun i =>
            leBytes 8 (ctrWord 4 (j.cmd.arg 0 2 + i) m) ++ leBytes 8 (now 4 m))) (j.cmd.arg 2 2) 0 m)))
    ∧ (∀ iss ent buf (s : State) j m, AzBegins 0xA0 azSecCommit iss ent buf s j m →
        exec (.secCommit iss ent buf) s = .next (finish s (j.ok (max s.fuse.fsvn (min 64 m.sec.svn)) (secCommit (bit (j.cmd.arg 0 1) 0) m))))
    ∧ (∀ iss ent buf (s : State) j m, AzBegins 0xA1 azNonce iss ent buf s j m →
        exec (.debugNonce iss ent buf) s = .next (finish s (j.okData (nonceBytes m) 0 0 m)))
    ∧ (∀ iss ent buf (s : State) j m, AzBegins 0xA2 azUnlock iss ent buf s j m →
        exec (.debugUnlock iss ent buf) s = .next (finish s (if (presentToken s.fuse j.cmd.token j.cmd.ownerKey m).2
            then j.ok (presentToken s.fuse j.cmd.token j.cmd.ownerKey m).1.sec.debug (presentToken s.fuse j.cmd.token j.cmd.ownerKey m).1
            else j.fail St.dieNotReady 0 (presentToken s.fuse j.cmd.token j.cmd.ownerKey m).1.sec.debug (presentToken s.fuse j.cmd.token j.cmd.ownerKey m).1)))
    ∧ (∀ iss ent buf (s : State) j m, AzBegins 0xA3 azLock iss ent buf s j m →
        exec (.debugLock iss ent buf) s = .next (finish s (j.ok 0 { m with sec := { m.sec with debug := 0 } })))
    ∧ (∀ iss ent buf (s : State) j m, AzBegins 0xA4 azLifecycle iss ent buf s j m →
        exec (.lifecycleAdvance iss ent buf) s = .next (finish s (if (Sys2Proof.Machine.lifecycleAdvance s.fuse (j.cmd.arg 0 1) j.cmd.token m).2 = St.ok
            then j.ok (j.cmd.arg 0 1) (Sys2Proof.Machine.lifecycleAdvance s.fuse (j.cmd.arg 0 1) j.cmd.token m).1
            else j.fail (Sys2Proof.Machine.lifecycleAdvance s.fuse (j.cmd.arg 0 1) j.cmd.token m).2 0 0 (Sys2Proof.Machine.lifecycleAdvance s.fuse (j.cmd.arg 0 1) j.cmd.token m).1)))
    ∧ (∀ iss ent buf (s : State) j m, AzBegins 0xA5 azOwnerKey iss ent buf s j m →
        exec (.ownerKeySet iss ent buf) s = .next (finish s (j.ok 0 (Sys2Proof.Machine.ownerKeySet s.fuse (sub j.cmd.data 0 48) m).1)))

/-- Each boundary command takes the clock to its next boundary, and the work of that boundary follows (R94, R95, R104, R217, R469, R477).
CYCLE_BOUNDARY of a running counter lets time run to the next multiple of 1,024 ns, counts the cycle and, on a die
whose Shepherd link is up, records the measured offset. SLOT_BOUNDARY runs to the next multiple of 256 ns.
FRAME_BOUNDARY runs to the next multiple of 2^20 ns, and the LIVE writes that fell due take effect; the Shepherd
then plans, a die closes its ledger, takes its self-test slices and restarts its per-frame limits. SERVO_INTERVAL
runs the servo. A clock that does not run stays. Letting time run to t brings that counter to t or past it and sets
no counter back. -/
def Obligations.ClocksReachTheirBoundaries : Prop :=
    (∀ d t (m : Sys2Proof.Machine.Mod), (clock d m).run = true → -219902325 ≤ (clock d m).trim →
        t ≤ now d (runTo d t m) ∧ ∀ e, (clock e m).run = true → now e m ≤ now e (runTo d t m))
    ∧ (∀ d (s : State), d < 4 → (clock d s.m).run = true → ∀ m, m = runTo d (((clock d s.m).cyc + 1) * 1024) s.m →
        exec (.cycleBoundary d) s = .next (finish s (setClock d { clock d m with
          cyc := (clock d s.m).cyc + 1
          thetas := (clock d m).thetas ++ (if d2dUp d 4 m then [2 * ((now16 d m : Int) - (now16 4 m : Int))] else []) } m)))
    ∧ (∀ s : State, (clock 4 s.m).run = true → ∀ m, m = runTo 4 (((clock 4 s.m).cyc + 1) * 1024) s.m →
        exec (.cycleBoundary 4) s = .next (finish s (setClock 4 { clock 4 m with cyc := (clock 4 s.m).cyc + 1 } m)))
    ∧ (∀ d (s : State), d < 4 → (clock d s.m).run = true → ∀ m, m = runTo d (((clock d s.m).slot + 1) * 256) s.m →
        exec (.slotBoundary d) s = .next (finish s (setClock d { clock d m with slot := (clock d s.m).slot + 1 } m)))
    ∧ (∀ v t b (s : State), (clock 4 s.m).run = true →
        exec (.frameBoundary 4 v t b) s = .next (finish s (plannerStep (liveNow (reachFrame 4 s.m)))))
    ∧ (∀ d v t b (s : State), d < 4 → (clock d s.m).run = true →
        exec (.frameBoundary d v t b) s = .next (finish s (each ((List.range 32).map (fun p => 32 * d + p)) replayFrame
          (laneFrame d (sliceStart d b (ledgerDie d v t (chargeLanes d (chargeDie d (liveNow (reachFrame d s.m))))))))))
    ∧ (∀ s : State, (clock 4 s.m).run = true →
        exec (.servoInterval 4) s = .next (finish s (servoShepherd (reachServo 4 s.m))))
    ∧ (∀ d (s : State), d < 4 → (clock d s.m).run = true →
        exec (.servoInterval d) s = .next (finish s (servoWorker d (reachServo d s.m))))
    ∧ (∀ d v t b (s : State), d < 5 → (clock d s.m).run = false →
        exec (.cycleBoundary d) s = .next (finish s s.m) ∧ exec (.frameBoundary d v t b) s = .next (finish s s.m)
        ∧ exec (.servoInterval d) s = .next (finish s s.m))

/-- Alarms, PPS edges and time messages act on the time state as described (R97, R98, R103, R105, R107, R108, R109, R114).
ALARM_FIRE of an armed host alarm (register element 0 to 31) lets time run to CMP, or where the counter was already
past it before a backward step, to the first count past its highest (R114), unless it has reached that; with PERIOD
0 it disarms, with a PERIOD its CMP moves to the next multiple past the count; it then raises an ALARM event on the
owning PF, or counts OVERRUN if FIRED is still set. TIME_MESSAGE_RECEIVE of a message with a bad CRC counts CRC_ERR
only. One with a good CRC gives the port its peer, identity, hops, epoch and flags, and its lower counts rise.
PPS_EDGE acts on a grandmaster whose role enables PPS and which does not stand by, and on no other. PPS_TIMEOUT
drops the prediction and clears the lock. PPS_OUT_RISE raises the output at the next whole second that the counter
has not had, unless time is FREE; PPS_OUT_FALL lowers it 100 us after the second. -/
def Obligations.AlarmsPulsesAndTimeMessages : Prop :=
    (∀ d i (s : State), d < 4 → i < 32 → hostUp d s.m = true → curB F.ETL_ALARM_CTL_ARM d i s.m = true → (clock d s.m).run = true →
        ∀ t m, t = (clock d s.m).notBefore (cur F.ETL_ALARM_CMP_CMP d i s.m) → m = (if t ≤ now d s.m then s.m else runTo d t s.m) →
        cur F.ETL_ALARM_CTL_PERIOD d i m = 0 →
        ∀ n, n = count d 675 1 (force F.ETL_ALARM_CTL_ARM d i 0 m) →
        exec (.alarmFire d (i + 32)) s = .next (finish s (if rdB F.ETL_ALARM_CTL_FIRED d i n then bump F.ETL_ALARM_CTL_OVERRUN d i n
          else event d (alarmPf d (i + 32) n) 0x0001 0 (leBytes 1 (i + 32)) (wrB F.ETL_ALARM_CTL_FIRED d i true n))))
    ∧ (∀ d i p (s : State), d < 4 → i < 32 → hostUp d s.m = true → curB F.ETL_ALARM_CTL_ARM d i s.m = true → (clock d s.m).run = true →
        ∀ t m, t = (clock d s.m).notBefore (cur F.ETL_ALARM_CMP_CMP d i s.m) → m = (if t ≤ now d s.m then s.m else runTo d t s.m) →
        cur F.ETL_ALARM_CTL_PERIOD d i m = p → p ≠ 0 →
        ∀ n, n = count d 675 1 (force F.ETL_ALARM_CMP_CMP d i (cur F.ETL_ALARM_CMP_CMP d i s.m
          + ((now d m - cur F.ETL_ALARM_CMP_CMP d i s.m) / p + 1) * p) m) →
        exec (.alarmFire d (i + 32)) s = .next (finish s (if rdB F.ETL_ALARM_CTL_FIRED d i n then bump F.ETL_ALARM_CTL_OVERRUN d i n
          else event d (alarmPf d (i + 32) n) 0x0001 0 (leBytes 1 (i + 32)) (wrB F.ETL_ALARM_CTL_FIRED d i true n))))
    ∧ (∀ d p t b (s : State), d < 4 → p < 32 → b.length = 24 → hostUp d s.m = true → rdB F.LNE_QCTRL_COMPAT d (p / 2) s.m = false →
        rdLE b 22 2 ≠ crc16 (sub b 0 22) →
        exec (.timeMessageReceive d p t b) s = .next (finish s (bump F.ETL_MSG_ERR_CRC_ERR d 0 s.m)))
    ∧ (∀ d p t b (s : State), d < 4 → p < 32 → b.length = 24 → hostUp d s.m = true → rdB F.LNE_QCTRL_COMPAT d (p / 2) s.m = false →
        rdLE b 22 2 = crc16 (sub b 0 22) → ∃ x : PortTime, x.peer = some (t, rdLE b 0 10 / 2 ^ 26) ∧ x.gmId = rdLE b 14 3 % 2 ^ 20
          ∧ x.hops = rdLE b 14 3 / 2 ^ 20 ∧ x.epoch = rdLE b 18 2 ∧ x.flags = rdLE b 17 1 ∧ x.lastCyc = t / 2 ^ 26
          ∧ exec (.timeMessageReceive d p t b) s = .next (finish s (count 4 128 1 (count d 672 1 (setPortTime (0x20 * d + p) x s.m)))))
    ∧ (∀ t (s : State), s.m.tm.gmOn = true → s.m.tm.ppsOn = true → s.m.tm.standby = false →
        exec (.ppsEdge t) s = .next (finish s (publishTime (count 4 129 1 (ppsEdgeAt (t - s.m.tm.ppsDly * 65536 / 1000) s.m)))))
    ∧ (∀ t (s : State), (s.m.tm.gmOn = false ∨ s.m.tm.ppsOn = false ∨ s.m.tm.standby = true) → exec (.ppsEdge t) s = .next (finish s s.m))
    ∧ (∀ s : State, exec .ppsTimeout s = .next (finish s (publishTime
        { s.m with tm := { s.m.tm with valid := none, edge := none, ppsRun := 0, ppsLock := false } })))
    ∧ (∀ s : State, (clock 4 s.m).run = true →
        ∀ m, m = runTo 4 ((max (now 4 s.m) (clock 4 s.m).high / 1000000000 + 1) * 1000000000) s.m → m.tm.state ≠ 0 →
        exec .ppsOutRise s = .next (finish s (emit (.pps true) { m with tm := { m.tm with ppsHigh := true } })))
    ∧ (∀ s : State, (clock 4 s.m).run = false → exec .ppsOutRise s = .next (finish s s.m))
    ∧ (∀ s : State, s.m.tm.ppsHigh = true → ∀ m, m = runTo 4 (now 4 s.m / 1000000000 * 1000000000 + 100000) s.m →
        exec .ppsOutFall s = .next (finish s (emit (.pps false) { m with tm := { m.tm with ppsHigh := false } })))

/-- Each event of lane training moves a port through DETECT, CALIBRATE, ALIGN, EXCHANGE, LOOPBACK and ACTIVE, or back to DETECT (R130, R131, R135, R136, R138, R139, R571, R572).
On a served die: QUAD_ENABLE of a working quad that was off sets ENABLE and sends its DISABLED ports to DETECT.
SIGNAL_DETECT takes DETECT to CALIBRATE. CALIBRATION_COMPLETE sets each lane's peaking code and margin, resets the
lane and enters ALIGN; in ACTIVE it is the quick calibration of the receive lanes in SLEEP, which are QUIET after
it. ALIGN_TIMEOUT and EXCHANGE_TIMEOUT fail the training and leave out the lanes that missed.
TRAINING_MESSAGE_RECEIVE with a bad check value, or on a lane the port has not, changes nothing; one marked with
another lane number marks the lane wrong; READY that was not acted on yet, in EXCHANGE after this end sent READY,
enters LOOPBACK, else it is noted. LOOPBACK_COMPLETE measures and enters ACTIVE with every lane of the group in both
sets. PORT_RETRAIN of an ACTIVE port asks for a retrain, of another it does nothing; an unanswered request fails the
port. -/
def Obligations.LaneTrainingMovesThroughItsStates : Prop :=
    (∀ d q (s : State), d < 4 → q < 16 → hostUp d s.m = true → curB F.LNE_QCTRL_ENABLE d q s.m = false →
        unitUp d q (force F.LNE_QCTRL_ENABLE d q 1 s.m) = true →
        exec (.quadEnable d q) s = .next (finish s (each (quadPorts d q (force F.LNE_QCTRL_ENABLE d q 1 s.m)) (fun pc m =>
          if pst pc m = 0 then toDetect pc 0 (updLp pc (fun l => { l with out := 0 }) m) else m) (force F.LNE_QCTRL_ENABLE d q 1 s.m))))
    ∧ (∀ pc (s : State), pc < 128 → hostUp (pc / 32) s.m = true → pst pc s.m = 1 →
        exec (.signalDetect pc) s = .next (finish s (setPst pc 2 (updLp pc (fun l => { l with full := true }) s.m))))
    ∧ (∀ pc (s : State), pc < 128 → hostUp (pc / 32) s.m = true → pst pc s.m ≠ 1 → exec (.signalDetect pc) s = .next (finish s s.m))
    ∧ (∀ pc found (s : State), pc < 128 → hostUp (pc / 32) s.m = true → found.length ≤ 4 → found.all (fun x => decide (x.1 < 16)) = true → pst pc s.m = 2 →
        exec (.calibrationComplete pc found) s = .next (finish s (setPst pc 3 (each (portLanes pc s.m) (fun l m =>
          updLane pc l (fun _ => Lane.reset) (lwr F.LNE_LANE_STATUS_ALIGNED pc l 0 (lwr F.LNE_LANE_STATUS_PEAK pc l
            (if lrd F.LNE_LANE_CTRL_PEAK_FIXED pc l m = 1 then lrd F.LNE_LANE_CTRL_PEAK_SET pc l m
             else if (lport pc m).full then min 15 (found.getD l (0, 0)).1
             else max (lrd F.LNE_LANE_STATUS_PEAK pc l m - 2) (min (min 15 (lrd F.LNE_LANE_STATUS_PEAK pc l m + 2)) (found.getD l (0, 0)).1))
            (lwr F.LNE_LANE_STATUS_EYE_MARGIN pc l (min 255 (found.getD l (0, 0)).2) m)))) s.m))))
    ∧ (∀ pc found (s : State), pc < 128 → hostUp (pc / 32) s.m = true → found.length ≤ 4 → found.all (fun x => decide (x.1 < 16)) = true → pst pc s.m = 6 →
        exec (.calibrationComplete pc found) s = .next (finish s
          (each ((bitList 4 (prd F.LNE_PORT_STATUS_LANES pc s.m)).filter (fun l => lrd F.LNE_LANE_STATUS_RX_STATE pc l s.m == 2)) (fun l m =>
            setDir pc l 1 1 (calLane pc l false (found.getD l (0, 0)) m)) s.m)))
    ∧ (∀ pc (s : State), pc < 128 → hostUp (pc / 32) s.m = true → pst pc s.m = 3 →
        exec (.alignTimeout pc) s = .next (finish s (toDetect pc
          (maskOf ((portLanes pc s.m).filter (fun l => lrd F.LNE_LANE_STATUS_ALIGNED pc l s.m != 1))) (pbump F.LNE_PORT_CNT_TRAIN_FAIL pc s.m))))
    ∧ (∀ pc (s : State), pc < 128 → hostUp (pc / 32) s.m = true → pst pc s.m = 4 →
        exec (.exchangeTimeout pc) s = .next (finish s (toDetect pc
          (maskOf ((portLanes pc s.m).filter (fun l => !bit (lport pc s.m).heard l))) (pbump F.LNE_PORT_CNT_TRAIN_FAIL pc s.m))))
    ∧ (∀ pc ln id b (s : State), pc < 128 → hostUp (pc / 32) s.m = true → ln < 4 → id < 4 → b.length = 32 →
        (rdLE b 30 2 ≠ crc16 (sub b 0 30) ∨ (portLanes pc s.m).contains ln = false) →
        exec (.trainingMessageReceive pc ln id b) s = .next (finish s s.m))
    ∧ (∀ pc ln id b (s : State), pc < 128 → hostUp (pc / 32) s.m = true → ln < 4 → id < 4 → b.length = 32 → rdLE b 30 2 = crc16 (sub b 0 30) →
        (portLanes pc s.m).contains ln = true → id ≠ ln →
        exec (.trainingMessageReceive pc ln id b) s
          = .next (finish s (updLp pc (fun l => { l with wrong := setBit l.wrong ln true }) s.m)))
    ∧ (∀ pc ln b (s : State) m, pc < 128 → hostUp (pc / 32) s.m = true → ln < 4 → b.length = 32 → rdLE b 30 2 = crc16 (sub b 0 30) → (portLanes pc s.m).contains ln = true →
        m = updLp pc (fun l => { l with last := some (4, rdLE b 8 2, rdLE b 10 1) })
          (updLp pc (fun l => { l with heard := setBit l.heard ln true }) s.m) →
        bit (rdLE b 1 1) 0 = compat pc s.m → (lport pc s.m).last ≠ some (4, rdLE b 8 2, rdLE b 10 1) → pst pc s.m = 4 → rdLE b 0 1 = 4 →
        exec (.trainingMessageReceive pc ln ln b) s
          = .next (finish s (if (lport pc m).tx = 4 then setPst pc 5 m else updLp pc (fun l => { l with ready := true }) m)))
    ∧ (∀ pc a b c e h (s : State) x g y m, pc < 128 → hostUp (pc / 32) s.m = true → pst pc s.m = 5 →
        x = loopbackMeasure (pc / 32) (pc % 32) a b c e h s.m → g = prd F.LNE_PORT_STATUS_LANES pc x →
        y = pwr F.LNE_PORT_STATUS_RX_SET pc g (pwr F.LNE_PORT_STATUS_TX_SET pc g
          (each (bitList 4 g) (fun l m => setDir pc l 1 0 (setDir pc l 0 0 m)) x)) →
        m = linkPortUp pc (setPst pc 6 (updLp pc (fun l => { l with
          tx := 0, last := none, peer := none, ready := false, req := false, agreed := none, leave := false, restart := true, rxOn := false
          idleAt := now (pc / 32) y }) y)) →
        exec (.loopbackComplete pc a b c (e, h)) s = .next (finish s (if widthBad pc m then contractDown pc 0x43 m else m)))
    ∧ (∀ pc (s : State), pc < 128 → hostUp (pc / 32) s.m = true → pst pc s.m = 6 →
        exec (.portRetrain pc) s = .next (finish s (startRetrain pc (updLp pc (fun l => { l with out := 0 })
          (force F.LNE_PORT_CTRL_RETRAIN (pc / 32) (pc % 32) 1 s.m)))))
    ∧ (∀ pc (s : State), pc < 128 → hostUp (pc / 32) s.m = true → pst pc s.m = 6 → (lport pc s.m).req = true →
        exec (.retrainRequestTimeout pc) s = .next (finish s (toDetect pc 0 (pbump F.LNE_PORT_CNT_TRAIN_FAIL pc s.m))))
    ∧ (∀ pc (s : State), pc < 128 → hostUp (pc / 32) s.m = true → pst pc s.m ≠ 6 → exec (.portRetrain pc) s = .next (finish s s.m)
        ∧ exec (.retrainRequestTimeout pc) s = .next (finish s s.m))

/-- Block periods of a port in each of its states, and how idle lanes rest and wake (R119, R129, R134, R135, R139, R141, R142, R480, R481, R482).
On a served die: LANE_BLOCK_SEND of a DISABLED port sends nothing; in DETECT it sends the pattern on every lane;
while training it sends TRAIN blocks on every lane; in ACTIVE it sends TRAIN blocks while there is a message of
training to send, and the data blocks otherwise; after the ANSWER it leaves for the calibration. LANE_BLOCK_RECEIVE
in ALIGN decodes the blocks and enters EXCHANGE once every needed lane is good. LANE_IDLE_QUIET of a direction idle
for QUIET_IDLE_NS marks every lane but logical lane 0 to leave; LANE0_IDLE_QUIET after four times that lets lane 0
leave too. LANE_SLEEP_TIMER takes a QUIET lane direction to SLEEP, and a receiver loses its alignment. LANE_WAKE of
a backlog above WAKE_FLITS starts every resting lane, or of a set wholly at rest with a flit waiting or a restart to
ask for, lane 0: each sends the 0 and 3 pattern, and a quad in SLEEP is taken back; LANE_JOIN lets the waking lanes
join. -/
def Obligations.LanesSendReceiveRestAndWake : Prop :=
    (∀ pc (s : State), pc < 128 → hostUp (pc / 32) s.m = true → pst pc s.m = 0 → exec (.laneBlockSend pc) s = .next (finish s s.m))
    ∧ (∀ pc (s : State), pc < 128 → hostUp (pc / 32) s.m = true → pst pc s.m = 1 → exec (.laneBlockSend pc) s
        = .next (finish s (each (portLanes pc s.m) (fun l m => emit (.block (pc / 32) (pc % 32) l pattern) m) s.m)))
    ∧ (∀ pc (s : State), pc < 128 → hostUp (pc / 32) s.m = true → (pst pc s.m = 2 ∨ pst pc s.m = 3 ∨ pst pc s.m = 4 ∨ pst pc s.m = 5) →
        exec (.laneBlockSend pc) s = .next (finish s (sendTrainBlocks pc s.m)))
    ∧ (∀ pc (s : State), pc < 128 → hostUp (pc / 32) s.m = true → pst pc s.m = 6 → (lport pc s.m).leave = false → (lport pc s.m).tx = 0 →
        exec (.laneBlockSend pc) s = .next (finish s (sendData4 pc s.m)))
    ∧ (∀ pc (s : State), pc < 128 → hostUp (pc / 32) s.m = true → pst pc s.m = 6 → (lport pc s.m).leave = true →
        exec (.laneBlockSend pc) s = .next (finish s (sendTrainBlocks pc (enterRetrain pc s.m))))
    ∧ (∀ pc (s : State), pc < 128 → hostUp (pc / 32) s.m = true → pst pc s.m = 6 → (lport pc s.m).leave = false → (lport pc s.m).tx ≠ 0 →
        exec (.laneBlockSend pc) s = .next (finish s (if (lport pc s.m).tx = 3
          then updLp pc (fun l => { l with leave := true }) (sendTrainBlocks pc s.m) else sendTrainBlocks pc s.m)))
    ∧ (∀ pc bs (s : State), pc < 128 → hostUp (pc / 32) s.m = true → bs.all (fun b => decide (b.1 < 4) && decide (b.2.length = 2048)) = true → pst pc s.m = 3 →
        exec (.laneBlockReceive pc bs) s = .next (finish s (if goodLanes pc (decodeAll pc (portLanes pc s.m) bs s.m).2 = 0
          then (decodeAll pc (portLanes pc s.m) bs s.m).2 else enterExchange pc (decodeAll pc (portLanes pc s.m) bs s.m).2)))
    ∧ (∀ pc (s : State), pc < 128 → hostUp (pc / 32) s.m = true → mayRest pc s.m = true → idleFor pc (quietIdle (pc / 32) s.m) s.m = true →
        exec (.laneIdleQuiet pc) s = .next (finish s (updLp pc (fun l => { l with leaving := (Nat.lor l.leaving
          (Nat.land (prd F.LNE_PORT_STATUS_TX_SET pc s.m) (Nat.xor 15 (lane0 pc s.m)))) }) s.m)))
    ∧ (∀ pc (s : State), pc < 128 → hostUp (pc / 32) s.m = true → mayRest pc s.m = true → lane0Held pc s.m = false → idleFor pc (4 * quietIdle (pc / 32) s.m) s.m = true →
        prd F.LNE_PORT_STATUS_TX_SET pc s.m = lane0 pc s.m → (lport pc s.m).waking = [] → (lport pc s.m).restart = false →
        exec (.lane0IdleQuiet pc) s = .next (finish s
          (restState (sendData4 pc (updLp pc (fun l => { l with leaving := lane0 pc s.m }) s.m)))))
    ∧ (∀ pc l dir (s : State), pc < 128 → hostUp (pc / 32) s.m = true → l < 4 → dir < 2 → pst pc s.m = 6 → lrd (dirFld dir) pc l s.m = 1 →
        NMap.find (lport pc s.m).waking l = none →
        exec (.laneSleepTimer pc l dir) s = .next (finish s (quadSleep (pc / 32) (pc % 32 / 2) (setDir pc l dir 2
          (if dir = 1 then updLane pc l (fun _ => Lane.reset) (lwr F.LNE_LANE_STATUS_ALIGNED pc l 0 s.m) else s.m)))))
    ∧ (∀ pc lanes (s : State) m new, pc < 128 → hostUp (pc / 32) s.m = true → pst pc s.m = 6 →
        lanes = (if (List.range 4).any (fun vc => decide (cur F.TLY_WAKE_WAKE_FLITS (pc / 32) 0 s.m < backlog pc vc s.m))
          then bitList 4 (Nat.land (prd F.LNE_PORT_STATUS_LANES pc s.m) (Nat.xor 15 (prd F.LNE_PORT_STATUS_TX_SET pc s.m)))
          else if prd F.LNE_PORT_STATUS_TX_SET pc s.m = 0 ∧ (waiting pc s.m = true ∨ (lport pc s.m).resync = true) then bitList 4 (lane0 pc s.m) else []) →
        m = (if unitState (pc / 32) (pc % 32 / 2) s.m = UnitSt.sleep
          then setUnit (pc / 32) (pc % 32 / 2) UnitSt.active (unitQuarantine (pc / 32) (pc % 32 / 2) s.m) else s.m) →
        new = lanes.filter (fun i => (NMap.find (lport pc m).waking i).isNone) →
        exec (.laneWake pc) s = .next (finish s (if lanes = [] then s.m else
          restState (updLp pc (fun l => { l with waking := new.foldl (fun k i => NMap.put k i 1) l.waking })
            (each new (fun l m => emit (.block (pc / 32) (pc % 32) l pattern) m) m)))))
    ∧ (∀ pc (s : State), pc < 128 → hostUp (pc / 32) s.m = true → pst pc s.m = 6 → (lport pc s.m).waking ≠ [] →
        exec (.laneJoin pc) s = .next (finish s
          (sendData4 pc (updLp pc (fun l => { l with waking := l.waking.map (fun e => (e.1, 2)) }) s.m))))

/-- The link layer: what a flit time sends, what an arriving flit does, and the handshake, enable, disable and flush (R157, R161, R164, R165, R168, R169, R171, R172).
On a served die: FLIT_SEND of a port that is not ACTIVE sends nothing; otherwise it sends, in this order, a flit of
a replay, a due NAK, a CONTROL flit, a data flit while fewer than 1,024 are held, or a NULL flit, and notes the
stall of a channel where no data flit is sent. FLIT_RECEIVE while the link is OFF or DOWN is ignored; with a bad CRC
it is the failure of a flit; else the acknowledgement and the credits are taken, and a NULL flit does no more; a
CONTROL flit is a NAK, which begins a replay while UP, or a handshake message; DATA is not taken in MISMATCH, out of
sequence it is counted and may ask for a NAK, and in sequence it goes to the frame check. REPLAY_TIMEOUT with flits
held and the receive set not empty counts the expiry and begins a replay; at the limit the link is STUCK.
HANDSHAKE_SEND queues the own message in HANDSHAKE. LINK_ENABLE leads from OFF to HANDSHAKE (or DOWN while the port
is not ACTIVE); LINK_DISABLE leads to OFF; LINK_FLUSH in UP sets FLUSH_IGNORED only. -/
def Obligations.LinksSendAndReceiveFlits : Prop :=
    (∀ pc (s : State), pc < 128 → hostUp (pc / 32) s.m = true → rd F.LNE_PORT_STATUS_STATE (pc / 32) (pc % 32) s.m ≠ 6 →
        exec (.flitSend pc) s = .next (finish s s.m))
    ∧ (∀ pc i f (s : State), pc < 128 → hostUp (pc / 32) s.m = true → rd F.LNE_PORT_STATUS_STATE (pc / 32) (pc % 32) s.m = 6 → linkUp pc s.m = true →
        (link pc s.m).rpos = some i → (link pc s.m).replay[i]? = some f →
        exec (.flitSend pc) s = .next (finish s (resend pc i f (noteStall pc s.m))))
    ∧ (∀ pc (s : State), pc < 128 → hostUp (pc / 32) s.m = true → rd F.LNE_PORT_STATUS_STATE (pc / 32) (pc % 32) s.m = 6 → (linkUp pc s.m = false ∨ (link pc s.m).rpos = none) →
        2 ≤ linkState pc s.m → (link pc s.m).nakDue = true →
        exec (.flitSend pc) s = .next (finish s (bump F.LNK_CNT0_NAK_SENT (pc / 32) (pc % 32)
          (sendControl pc 3 (updLink pc (fun k => { k with nakDue := false }) (noteStall pc s.m))))))
    ∧ (∀ pc t r (s : State), pc < 128 → hostUp (pc / 32) s.m = true → rd F.LNE_PORT_STATUS_STATE (pc / 32) (pc % 32) s.m = 6 →
        (linkUp pc s.m = false ∨ (link pc s.m).rpos = none) →
        (linkState pc s.m < 2 ∨ (link pc s.m).nakDue = false) → (link pc s.m).ctl = t :: r →
        exec (.flitSend pc) s = .next (finish s (sendControl pc t (updLink pc (fun k => { k with ctl := r }) (noteStall pc s.m)))))
    ∧ (∀ pc f (s : State), pc < 128 → hostUp (pc / 32) s.m = true → rd F.LNE_PORT_STATUS_STATE (pc / 32) (pc % 32) s.m = 6 → linkUp pc s.m = true →
        (link pc s.m).rpos = none → (link pc s.m).nakDue = false → (link pc s.m).ctl = [] → (link pc s.m).held < 1024 →
        pickData pc s.m = some f → exec (.flitSend pc) s = .next (finish s (sendData pc f s.m)))
    ∧ (∀ pc (s : State), pc < 128 → hostUp (pc / 32) s.m = true → rd F.LNE_PORT_STATUS_STATE (pc / 32) (pc % 32) s.m = 6 →
        (linkUp pc s.m = false ∨ (link pc s.m).rpos = none) → (linkState pc s.m < 2 ∨ (link pc s.m).nakDue = false) → (link pc s.m).ctl = [] →
        (linkUp pc s.m = false ∨ 1024 ≤ (link pc s.m).held ∨ pickData pc s.m = none) →
        exec (.flitSend pc) s = .next (finish s (sendNull pc (noteStall pc s.m))))
    ∧ (∀ pc b (s : State), pc < 128 → hostUp (pc / 32) s.m = true → b.length = 256 → linkState pc s.m < 2 → exec (.flitReceive pc b) s = .next (finish s s.m))
    ∧ (∀ pc b (s : State), pc < 128 → hostUp (pc / 32) s.m = true → b.length = 256 → 2 ≤ linkState pc s.m → rdLE b 248 8 ≠ crc64 (sub b 0 248) →
        exec (.flitReceive pc b) s = .next (finish s (flitBad pc s.m)))
    ∧ (∀ pc b (s : State) m, pc < 128 → hostUp (pc / 32) s.m = true → b.length = 256 → 2 ≤ linkState pc s.m → rdLE b 248 8 = crc64 (sub b 0 248) →
        m = updLink pc (fun k => { k with total := upd4 k.total (bits (rdLE b 0 8) 26 2) (fun _ => bits (rdLE b 0 8) 28 12) })
          (takeAck pc (bits (rdLE b 0 8) 12 12) s.m) →
        (bits (rdLE b 0 8) 40 2 = 1 ∨ bits (rdLE b 0 8) 40 2 = 3) →
        exec (.flitReceive pc b) s = .next (finish s m))
    ∧ (∀ pc b (s : State) m, pc < 128 → hostUp (pc / 32) s.m = true → b.length = 256 → 2 ≤ linkState pc s.m → rdLE b 248 8 = crc64 (sub b 0 248) →
        m = updLink pc (fun k => { k with total := upd4 k.total (bits (rdLE b 0 8) 26 2) (fun _ => bits (rdLE b 0 8) 28 12) })
          (takeAck pc (bits (rdLE b 0 8) 12 12) s.m) →
        bits (rdLE b 0 8) 40 2 = 2 →
        (rdLE (sub b 8 240) 0 1 = 3 → exec (.flitReceive pc b) s = .next (finish s
          (if linkUp pc s.m && (link pc s.m).ackValid (bits (rdLE b 0 8) 12 12)
            then beginReplay pc (bump F.LNK_CNT0_REPLAYS (pc / 32) (pc % 32) m) else m)))
        ∧ ((rdLE (sub b 8 240) 0 1 = 1 ∨ rdLE (sub b 8 240) 0 1 = 2) → exec (.flitReceive pc b) s
          = .next (finish s (linkMsgReceive pc (sub b 8 240) m)))
        ∧ ((rdLE (sub b 8 240) 0 1 = 0 ∨ 3 < rdLE (sub b 8 240) 0 1) → exec (.flitReceive pc b) s = .next (finish s m)))
    ∧ (∀ pc b (s : State) m, pc < 128 → hostUp (pc / 32) s.m = true → b.length = 256 → 2 ≤ linkState pc s.m → rdLE b 248 8 = crc64 (sub b 0 248) →
        m = updLink pc (fun k => { k with total := upd4 k.total (bits (rdLE b 0 8) 26 2) (fun _ => bits (rdLE b 0 8) 28 12) })
          (takeAck pc (bits (rdLE b 0 8) 12 12) s.m) →
        bits (rdLE b 0 8) 40 2 = 0 → linkState pc m = 4 → exec (.flitReceive pc b) s = .next (finish s m))
    ∧ (∀ pc b (s : State) m, pc < 128 → hostUp (pc / 32) s.m = true → b.length = 256 → 2 ≤ linkState pc s.m → rdLE b 248 8 = crc64 (sub b 0 248) →
        m = updLink pc (fun k => { k with total := upd4 k.total (bits (rdLE b 0 8) 26 2) (fun _ => bits (rdLE b 0 8) 28 12) })
          (takeAck pc (bits (rdLE b 0 8) 12 12) s.m) →
        bits (rdLE b 0 8) 40 2 = 0 → linkState pc m ≠ 4 → bits (rdLE b 0 8) 0 12 ≠ (link pc m).nrx →
        exec (.flitReceive pc b) s = .next (finish s
          (if 1 ≤ (bits (rdLE b 0 8) 0 12 + 4096 - (link pc m).nrx) % 4096 ∧ (bits (rdLE b 0 8) 0 12 + 4096 - (link pc m).nrx) % 4096 ≤ 2047
            then askNak pc (bump F.LNK_CNT0_OUT_OF_SEQ (pc / 32) (pc % 32) m) else bump F.LNK_CNT0_OUT_OF_SEQ (pc / 32) (pc % 32) m)))
    ∧ (∀ pc b (s : State) m, pc < 128 → hostUp (pc / 32) s.m = true → b.length = 256 → 2 ≤ linkState pc s.m → rdLE b 248 8 = crc64 (sub b 0 248) →
        m = updLink pc (fun k => { k with total := upd4 k.total (bits (rdLE b 0 8) 26 2) (fun _ => bits (rdLE b 0 8) 28 12) })
          (takeAck pc (bits (rdLE b 0 8) 12 12) s.m) →
        bits (rdLE b 0 8) 40 2 = 0 → linkState pc m ≠ 4 → bits (rdLE b 0 8) 0 12 = (link pc m).nrx →
        exec (.flitReceive pc b) s = .next (finish s (frameCheck pc (bits (rdLE b 0 8) 24 2) (bits (rdLE b 0 8) 45 8)
          (bit (rdLE b 0 8) 42) (bit (rdLE b 0 8) 43) (bit (rdLE b 0 8) 44) (sub b 8 240)
          (wrB F.LNK_PORT_STATUS_FRESH (pc / 32) (pc % 32) false (count (pc / 32) (12 * (pc % 32) + 3) 1
            (updLink pc (fun k => { k with nrx := ((link pc m).nrx + 1) % 4096, nakOff := false }) m))))))
    ∧ (∀ pc (s : State), pc < 128 → hostUp (pc / 32) s.m = true → linkUp pc s.m = true → (link pc s.m).held ≠ 0 → rd F.LNE_PORT_STATUS_RX_SET (pc / 32) (pc % 32) s.m ≠ 0 →
        ∀ m, m = beginReplay pc (bump F.LNK_CNT1_REPLAY_TIMEOUTS (pc / 32) (pc % 32)
          (updLink pc (fun k => { k with expiries := k.expiries + 1 }) s.m)) →
        exec (.replayTimeout pc) s = .next (finish s
          (if max 1 (cur F.LNK_PORT_CTRL_REPLAY_LIMIT (pc / 32) (pc % 32) m) ≤ (link pc s.m).expiries + 1
              ∧ rdB F.LNK_PORT_STATUS_STUCK (pc / 32) (pc % 32) m = false then
            linkEvent (pc / 32) (pc % 32) 3 (wrB F.LNK_PORT_STATUS_STUCK (pc / 32) (pc % 32) true m) else m)))
    ∧ (∀ pc (s : State), pc < 128 → hostUp (pc / 32) s.m = true → linkState pc s.m = 2 → exec (.handshakeSend pc) s = .next (finish s (queueMsg pc (ownMsg pc s.m) s.m)))
    ∧ (∀ pc (s : State), pc < 128 → hostUp (pc / 32) s.m = true → linkState pc (force F.LNK_PORT_CTRL_ENABLE (pc / 32) (pc % 32) 1 s.m) = 0 →
        exec (.linkEnable pc) s = .next (finish s (setLink pc
          (if rd F.LNE_PORT_STATUS_STATE (pc / 32) (pc % 32) (force F.LNK_PORT_CTRL_ENABLE (pc / 32) (pc % 32) 1 s.m) = 6 then 2 else 1)
          (force F.LNK_PORT_CTRL_ENABLE (pc / 32) (pc % 32) 1 s.m))))
    ∧ (∀ pc (s : State), pc < 128 → hostUp (pc / 32) s.m = true → exec (.linkDisable pc) s
        = .next (finish s (linkTo pc 0 (force F.LNK_PORT_CTRL_ENABLE (pc / 32) (pc % 32) 0 s.m))))
    ∧ (∀ pc (s : State), pc < 128 → hostUp (pc / 32) s.m = true → linkUp pc s.m = true →
        exec (.linkFlush pc) s = .next (finish s (wrB F.LNK_PORT_STATUS_FLUSH_IGNORED (pc / 32) (pc % 32) true s.m)))
    ∧ (∀ pc (s : State) m, pc < 128 → hostUp (pc / 32) s.m = true → linkUp pc s.m = false →
        m = wrB F.LNK_PORT_STATUS_STUCK (pc / 32) (pc % 32) false (wrB F.LNK_PORT_STATUS_FRESH (pc / 32) (pc % 32) true (showHeld pc
          (wr F.LNK_PEER_VALID (pc / 32) (pc % 32) 0 (wr F.LNK_PEER_EID (pc / 32) (pc % 32) 0 (wr F.LNK_PEER_PORT_CODE (pc / 32) (pc % 32) 0
            (updXb (fun y => { y with inq := disown pc y.inq, outq := disown pc y.outq })
              (updLink pc (fun _ => { Link.reset with
                  crVc := (link pc s.m).crVc, cut := (link pc s.m).cut, slot := (link pc s.m).slot, slotN := (link pc s.m).slotN
                  replays := (link pc s.m).replays, excess := (link pc s.m).excess })
                (bumpBy F.LNK_CNT2_FLUSHED_FLITS (pc / 32) (pc % 32) (link pc s.m).replay.length s.m))))))) ) →
        exec (.linkFlush pc) s = .next (finish s (if linkState pc m = 4 then setLink pc 2 m else m)))

/-- A waiting packet is discarded and counted, or switched to the exit its route names; a flock packet to every member (R181, R183, R185, R189, R204, R205, R207, R210).
On a served die: PACKET_ROUTE of a waiting packet that is no flock packet and does not come over a die-to-die link
discards it where R183 finds an error (counted by its cause and in event counter 395) or its exit is down
(DOWN_DISCARD); otherwise it is switched to the exit, with the hop counted in its head flit, unless a TIM packet has
no slot there, which discards it. With nothing waiting, for a flock packet, or with the crossbar slice out of
service (the model's choice, the docstring of sliceOn), nothing happens. FLOCK_REPLICATE copies a flock packet to
the entry's live members on the die and once to each die with members behind a working link, telling the source of
the others; a bad length or hop pointer is a ROUTE_ERR; with no entry it is a FLOCK_MISS. FLOCK_DIE_COPY copies to
the die's own members. -/
def Obligations.PacketsAreRoutedByTheirFirstFlit : Prop :=
    (∀ x vc (s : State), x < 152 → vc < 4 → hostUp (dieOf x) s.m = true → NMap.get [] s.m.xb.inq (x * 4 + vc) = [] →
        exec (.packetRoute x vc) s = .next (finish s s.m) ∧ exec (.flockReplicate x vc) s = .next (finish s s.m))
    ∧ (∀ x vc f l e (s : State), x < 136 → vc < 4 → hostUp (dieOf x) s.m = true → sliceOn (dieOf x) s.m = true →
        NMap.get [] s.m.xb.inq (x * 4 + vc) = f :: l →
        Hdr.flock f.data = false → routeDecide x vc f.data s.m = .err e →
        exec (.packetRoute x vc) s = .next (finish s (switchPacket x vc [] (fun _ b _ => b) (count (dieOf x) 395 1 (bump e (dieOf x) 0 s.m)))))
    ∧ (∀ x vc f l pc (s : State), x < 136 → vc < 4 → hostUp (dieOf x) s.m = true → sliceOn (dieOf x) s.m = true →
        NMap.get [] s.m.xb.inq (x * 4 + vc) = f :: l →
        Hdr.flock f.data = false → routeDecide x vc f.data s.m = .down pc →
        exec (.packetRoute x vc) s = .next (finish s (switchPacket x vc [] (fun _ b _ => b)
          (count (dieOf x) 395 1 (bump F.LNK_CNT2_DOWN_DISCARD (pc / 32) (pc % 32) s.m)))))
    ∧ (∀ x vc f l y (s : State), x < 136 → vc < 4 → hostUp (dieOf x) s.m = true → sliceOn (dieOf x) s.m = true →
        NMap.get [] s.m.xb.inq (x * 4 + vc) = f :: l →
        Hdr.flock f.data = false → routeDecide x vc f.data s.m = .go y none → slotOk vc (Hdr.res f.data) y s.m = true →
        exec (.packetRoute x vc) s = .next (finish s (switchPacket x vc [y] (markHead none (flitCount (Hdr.length f.data)) vc) s.m)))
    ∧ (∀ x vc f l y z (s : State), x < 136 → vc < 4 → hostUp (dieOf x) s.m = true → sliceOn (dieOf x) s.m = true →
        NMap.get [] s.m.xb.inq (x * 4 + vc) = f :: l →
        Hdr.flock f.data = false → routeDecide x vc f.data s.m = .go y z → slotOk vc (Hdr.res f.data) y s.m = false →
        exec (.packetRoute x vc) s = .next (finish s (switchPacket x vc [] (fun _ b _ => b) (noSlot (Hdr.res f.data) y s.m))))
    ∧ (∀ x vc f l (s : State), x < 136 → vc < 4 → hostUp (dieOf x) s.m = true → NMap.get [] s.m.xb.inq (x * 4 + vc) = f :: l →
        (Hdr.flock f.data = true ∨ sliceOn (dieOf x) s.m = false) → exec (.packetRoute x vc) s = .next (finish s s.m))
    ∧ (∀ x vc f l y pc (s : State), x < 136 → vc < 4 → hostUp (dieOf x) s.m = true → sliceOn (dieOf x) s.m = true →
        NMap.get [] s.m.xb.inq (x * 4 + vc) = f :: l →
        Hdr.flock f.data = false → routeDecide x vc f.data s.m = .go y (some pc) → slotOk vc (Hdr.res f.data) y s.m = true →
        exec (.packetRoute x vc) s = .next (finish s (switchPacket x vc [y] (markHead (some pc) (flitCount (Hdr.length f.data)) vc)
          (passTake (dieOf x) (Hdr.code f.data (Hdr.hopPtr f.data) - 0x80) pc s.m))))
    ∧ (∀ x vc f l (s : State), x < 136 → vc < 4 → hostUp (dieOf x) s.m = true → sliceOn (dieOf x) s.m = true →
        NMap.get [] s.m.xb.inq (x * 4 + vc) = f :: l →
        Hdr.flock f.data = true → lengthOk vc (Hdr.length f.data) = true → Hdr.hopPtr f.data < 8 → flockEntry (dieOf x) f.data s.m = none →
        exec (.flockReplicate x vc) s = .next (finish s (switchPacket x vc [] (fun _ b _ => b)
          (count (dieOf x) 395 1 (bump F.RTE_ERR_CNT1_FLOCK_MISS (dieOf x) 0 s.m)))))
    ∧ (∀ x vc f l e all own far (s : State), x < 136 → vc < 4 → hostUp (dieOf x) s.m = true → sliceOn (dieOf x) s.m = true →
        NMap.get [] s.m.xb.inq (x * 4 + vc) = f :: l →
        Hdr.flock f.data = true → lengthOk vc (Hdr.length f.data) = true → Hdr.hopPtr f.data < 8 → flockEntry (dieOf x) f.data s.m = some e →
        all = (members e).filter (fun y => y != x || decide (128 ≤ y)) →
        own = liveMembers (dieOf x) vc (Hdr.res f.data) e (all.filter (fun y => dieOf y == dieOf x)) s.m →
        far = (dies.filter (fun d => d != dieOf x && all.any (fun y => dieOf y == d))).foldl
          (fun (acc : List Nat × Sys2Proof.Machine.Mod) d =>
            if (crossOf x (32 * d) acc.2).isSome && dieUp d acc.2 then (acc.1 ++ [136 + 4 * dieOf x + d], acc.2)
            else (acc.1, (all.filter (fun y => dieOf y == d)).foldl (fun m y =>
              prune (dieOf x) ((pruneReason (dieOf x) y m).getD 4) y e m) acc.2)) ([], own.2) →
        exec (.flockReplicate x vc) s = .next (finish s (switchPacket x vc (own.1 ++ far.1)
          (fun y b m => if y < 136 then markHead none (flitCount (Hdr.length b)) vc y b m else b)
          (count (dieOf x) 393 (own.1 ++ far.1).length far.2))))
    ∧ (∀ x vc f l (s : State), x < 136 → vc < 4 → hostUp (dieOf x) s.m = true → sliceOn (dieOf x) s.m = true →
        NMap.get [] s.m.xb.inq (x * 4 + vc) = f :: l →
        Hdr.flock f.data = true → (lengthOk vc (Hdr.length f.data) = false ∨ 8 ≤ Hdr.hopPtr f.data) →
        exec (.flockReplicate x vc) s = .next (finish s (switchPacket x vc [] (fun _ b _ => b)
          (count (dieOf x) 395 1 (bump F.RTE_ERR_CNT0_ROUTE_ERR (dieOf x) 0 s.m)))))
    ∧ (∀ e d vc f l en (s : State), e < 4 → d < 4 → e ≠ d → vc < 4 → hostUp d s.m = true → sliceOn d s.m = true →
        NMap.get [] s.m.xb.inq ((136 + 4 * e + d) * 4 + vc) = f :: l → flockEntry d f.data s.m = some en →
        exec (.flockDieCopy e d vc) s = .next (finish s (switchPacket (136 + 4 * e + d) vc
          (liveMembers d vc (Hdr.res f.data) en ((members en).filter (fun x => dieOf x == d)) s.m).1
          (fun x b m => markHead none (flitCount (Hdr.length b)) vc x b m)
          (count d 393 (liveMembers d vc (Hdr.res f.data) en ((members en).filter (fun x => dieOf x == d)) s.m).1.length
            (liveMembers d vc (Hdr.res f.data) en ((members en).filter (fun x => dieOf x == d)) s.m).2))))
    ∧ (∀ e d vc f l (s : State), e < 4 → d < 4 → e ≠ d → vc < 4 → hostUp d s.m = true → sliceOn d s.m = true →
        NMap.get [] s.m.xb.inq ((136 + 4 * e + d) * 4 + vc) = f :: l → flockEntry d f.data s.m = none →
        exec (.flockDieCopy e d vc) s = .next (finish s (switchPacket (136 + 4 * e + d) vc [] (fun _ b _ => b)
          (bump F.RTE_ERR_CNT1_FLOCK_MISS d 0 s.m))))

/-- The conduit's next packet is injected, a path record is cached, a calendar switches, and a timed post is released at its time (R24, R192, R197, R199, R200, R222, R228, R229, R231, R232, R293).
On a served die: PACKET_INJECT for a conduit whose next ready message is not of a queue injects its packet; of a
queue it does so only while the queue serves that message and its group has the deficit and tokens; with nothing
ready but work waiting, the context fetch begins. PATH_RECORD_FETCH on a working die uses the record of an endpoint,
which is then cached: read from context memory first where it was not, the one used longest ago leaving a full
cache. CALENDAR_SWITCH_FRAME with no push outstanding switches the die's calendars and the switch waits for it no
longer. TIMED_RELEASE lets time run to the release and sends the post's packets, or ends it LATE_READ where the
payload was not read in time. -/
def Obligations.PacketsAreInjectedAndReleasedInTime : Prop :=
    (∀ d cn ans g (s : State), d < 4 → cn < 2 ^ 24 → hostUp d s.m = true →
        (Machine.cond d cn s.m).msgs.find? (fun g => packetReady d cn g s.m) = some g → (∀ q i t c x y z, g.owner ≠ .queue q i t c x y z) →
        exec (.packetInject d cn ans) s = .next (finish s (injectPacket d cn g.id ans none s.m).2))
    ∧ (∀ d cn ans g q i t c x y z m (s : State), d < 4 → cn < 2 ^ 24 → hostUp d s.m = true →
        (Machine.cond d cn s.m).msgs.find? (fun g => packetReady d cn g s.m) = some g → g.owner = .queue q i t c x y z →
        m = accrue d (cur F.WQU_QCFG_Q_GROUP d (qix 0 q) s.m) s.m → (sq d q m).inj = some (cn, g.id) →
        nextLen d cn g m + grpOverhead d (cur F.WQU_QCFG_Q_GROUP d (qix 0 q) s.m) m
          ≤ (grp d (cur F.WQU_QCFG_Q_GROUP d (qix 0 q) s.m) m).deficit →
        grpShaped d (cur F.WQU_QCFG_Q_GROUP d (qix 0 q) s.m) m = false →
        exec (.packetInject d cn ans) s = .next (finish s (injEnd d q (serve d (cur F.WQU_QCFG_Q_GROUP d (qix 0 q) s.m) q ans m).2)))
    ∧ (∀ d cn ans (s : State), d < 4 → cn < 2 ^ 24 → hostUp d s.m = true →
        (Machine.cond d cn s.m).msgs.find? (fun g => packetReady d cn g s.m) = none → (Machine.cond d cn s.m).msgs.any (fun g => !g.all) = true →
        exec (.packetInject d cn ans) s = .next (finish s (startFetch d cn s.m)))
    ∧ (∀ d e (s : State), d < 4 → e < 2 ^ 20 → hostUp d s.m = true → dieUp d s.m = true → pathCached d e s.m = false →
        exec (.pathRecordFetch d e) s = .next (finish s (energy d 23 10 2 (count d 608 2 (pathTouch d e
          (match pathVictim d s.m with
           | some k => updXb (fun y => { y with cache := NMap.del y.cache k }) s.m
           | none => s.m))))))
    ∧ (∀ d e (s : State), d < 4 → e < 2 ^ 20 → hostUp d s.m = true → dieUp d s.m = true → pathCached d e s.m = true →
        exec (.pathRecordFetch d e) s = .next (finish s (pathTouch d e s.m)))
    ∧ (∀ d e m, pathCached d e (pathTouch d e m) = true)
    ∧ (∀ d (s : State), d < 4 → hostUp d s.m = true → s.m.azx.jobs.find? (fun j => j.wait.switching) = none →
        exec (.calendarSwitchFrame d) s = .next (finish s
          (updWaits (Wait.switched d) (calendarSwitch d s.m))))
    ∧ (∀ d r p e (s : State), d < 4 → r < 16384 → hostUp d s.m = true → (resRun d r s.m).posts.find? (fun p => !p.released) = some p →
        resEnt d r s.m = some e → p.payload = none →
        exec (.timedRelease d r) s = .next (finish s (postEnd d r p St.hostAbort TDet.lateRead 0
          (if now d s.m < p.release then runTo d p.release s.m else s.m))))
    ∧ (∀ d r p e pay m (s : State), d < 4 → r < 16384 → hostUp d s.m = true → (resRun d r s.m).posts.find? (fun p => !p.released) = some p →
        resEnt d r s.m = some e → p.payload = some pay → m = (if now d s.m < p.release then runTo d p.release s.m else s.m) →
        exec (.timedRelease d r) s = .next (finish s (each (List.range (timedPkts p.len))
          (fun i m => timedPacket d r e { p with released := true, seq := (resRun d r s.m).seq } pay i m)
          (updRun d r (fun x => { x with
            seq := ((resRun d r s.m).seq + timedPkts p.len) % 2 ^ 32
            posts := x.posts.map (fun q => if q.id = p.id ∧ !q.released then { p with released := true, seq := (resRun d r s.m).seq } else q) }) m))))

/-- Arrivals, acknowledgements, context fetches, retries and GET responses go to the conduit they concern (R242, R251, R252, R255, R256, R257, R259, R261, R262, R266, R311).
On a served die: TRANSPORT_PACKET_ARRIVE resumes a packet held for its context at step 7, or checks the next packet
delivered to the die from step 1. ACK_RECEIVE takes the next delivered packet where it is an acknowledgement and
does nothing otherwise. CONDUIT_FETCH_COMPLETE makes the conduit resident and resumes its held packets in arrival
order. RETRY_TIMEOUT lets time run to the timer, counts a retry and sends every open packet again whose last sending
is at least RTO old; at the limit it then closes the conduit with RETRY_EXCEEDED, or an open multicast conduit
completes PARTIAL what has not all its acknowledgements. NOT_READY_RETRY sends the refused packet again at its time.
GET_RESPONSE_SEGMENT injects the next segment of the oldest response. TRACKER_IDLE_TIMEOUT frees the tracker. -/
def Obligations.ArrivingPacketsReachTheirConduit : Prop :=
    (∀ d ans cn b l (s : State), d < 4 → hostUp d s.m = true → NMap.get [] s.m.trn.resume d = (cn, b) :: l →
        exec (.transportPacketArrive d ans) s = .next (finish s (step7 d cn b ans (updTrn (fun t => { t with
          resume := if l.isEmpty then NMap.del t.resume d else NMap.put t.resume d l }) s.m))))
    ∧ (∀ d ans b l (s : State), d < 4 → hostUp d s.m = true → NMap.get [] s.m.trn.resume d = [] → NMap.get [] s.m.xb.tq d = b :: l →
        exec (.transportPacketArrive d ans) s = .next (finish s (arrive d b ans
          (updXb (fun y => { y with tq := if l.isEmpty then NMap.del y.tq d else NMap.put y.tq d l }) s.m))))
    ∧ (∀ d ans b l (s : State), d < 4 → hostUp d s.m = true → NMap.get [] s.m.xb.tq d = b :: l → (Th.of b).op = Op.ack →
        exec (.ackReceive d ans) s = .next (finish s (arrive d b ans
          (updXb (fun y => { y with tq := if l.isEmpty then NMap.del y.tq d else NMap.put y.tq d l }) s.m))))
    ∧ (∀ d ans b l (s : State), d < 4 → hostUp d s.m = true → NMap.get [] s.m.xb.tq d = b :: l → (Th.of b).op ≠ Op.ack →
        exec (.ackReceive d ans) s = .next (finish s s.m))
    ∧ (∀ d cn ans m (s : State), d < 4 → cn < 2 ^ 24 → hostUp d s.m = true → makeResident d cn ans s.m = some m →
        exec (.conduitFetchComplete d cn ans) s = .next (finish s (((pen d m).filter (fun e => e.1 == cn)).foldl (fun m e =>
          if (pen d m).contains e then step7 d cn e.2 ans (setPen d ((pen d m).erase e) m) else m) m)))
    ∧ (∀ d cn ans m n (s : State), d < 4 → cn < 2 ^ 24 → hostUp d s.m = true → (Machine.cond d cn s.m).recs ≠ [] → (Machine.cond d cn s.m).state ≠ CSt.closed →
        m = updCond d cn (fun c => { c with retries := min 255 (c.retries + 1) })
          (if now d s.m < (Machine.cond d cn s.m).retryAt then runTo d (Machine.cond d cn s.m).retryAt s.m else s.m) →
        n = ((Machine.cond d cn s.m).recs.filter (fun r => decide (r.time + rto (Machine.cond d cn s.m) ≤ now d m))).foldl
            (fun m r => resendRec d cn ans r m) m →
        ((Machine.cond d cn s.m).retries + 1 < (Machine.cond d cn s.m).retryLimit →
          exec (.retryTimeout d cn ans) s = .next (finish s (showRetry d cn n)))
        ∧ ((Machine.cond d cn s.m).retryLimit ≤ (Machine.cond d cn s.m).retries + 1 →
            ((Machine.cond d cn s.m).mcast = false ∨ (Machine.cond d cn s.m).fromGate = true ∨ (Machine.cond d cn s.m).state = CSt.closing) →
            exec (.retryTimeout d cn ans) s = .next (finish s (closeCond d cn 3 St.retryExceeded 0 n)))
        ∧ ((Machine.cond d cn s.m).retryLimit ≤ (Machine.cond d cn s.m).retries + 1 → (Machine.cond d cn s.m).mcast = true →
            (Machine.cond d cn s.m).fromGate = false → (Machine.cond d cn s.m).state = CSt.open_ →
            exec (.retryTimeout d cn ans) s = .next (finish s (mcastPartial d cn n))))
    ∧ (∀ d cn psn ans r t (s : State), d < 4 → cn < 2 ^ 24 → psn < 2 ^ 32 → hostUp d s.m = true →
        (Machine.cond d cn s.m).recs.find? (fun r => r.psn == psn) = some r → r.again = some t →
        exec (.notReadyRetry d cn psn ans) s = .next (finish s
          (showRetry d cn (resendRec d cn ans r (if now d s.m < t then runTo d t s.m else s.m)))))
    ∧ (∀ d cn ans g (s : State), d < 4 → cn < 2 ^ 24 → hostUp d s.m = true →
        (Machine.cond d cn s.m).msgs.find? (fun g => g.op == Op.getRsp && !g.all) = some g →
        exec (.getResponseSegment d cn ans) s = .next (finish s (injectPacket d cn g.id ans
          ((fnStop d (Machine.cond d cn s.m).fn s.m).map (fun dt => (St.remoteAccess, dt))) s.m).2))
    ∧ (∀ d k t (s : State), d < 4 → k < 4096 → hostUp d s.m = true → NMap.find s.m.trn.trk (d * 4096 + k) = some t →
        exec (.trackerIdleTimeout d k) s = .next (finish s (trkFree d k
          (if now d s.m < t.last + 1000 * max 1 (cur F.CND_TIMING_TRK_IDLE_US d 0 s.m)
            then runTo d (t.last + 1000 * max 1 (cur F.CND_TIMING_TRK_IDLE_US d 0 s.m)) s.m else s.m))))

/-- Conduits are enabled and disabled by function, closed in order, and share flit buffers and the gate pool (R243, R245, R248, R264, R266, R323).
On a served die: CONDUIT_FN_ENABLE sets the function's ENABLE, or on a range conflict leaves it 0 and sets
RANGE_CONFLICT; disabling closes every conduit of the function by a new EPOCH. CLOSE_SEND of a CLOSING conduit whose
packets all have a result sends CLOSE under the next PSN and opens its record, where the throttle of its path lets a
packet start; of any other it sends nothing. FLIT_BUFFER_GRANT gives a waiting conduit one free buffer, or the
reserve's where it holds none. GATE_POOL_REFILL fills a pool below half its target. OLD_KEY_EXPIRY drops the
replaced key of a pasture. -/
def Obligations.ConduitsOpenCloseAndTakeBuffers : Prop :=
    (∀ d f (s : State), d < 4 → f < 1026 → hostUp d s.m = true → cndOn d f s.m = false → rangeConflict d f s.m = false →
        exec (.conduitFnEnable d f true) s = .next (finish s (force F.CND_FN_CTL_ENABLE d f 1 s.m)))
    ∧ (∀ d f (s : State), d < 4 → f < 1026 → hostUp d s.m = true → cndOn d f s.m = false → rangeConflict d f s.m = true →
        exec (.conduitFnEnable d f true) s = .next (finish s
          (wrB F.CND_STATUS_RANGE_CONFLICT d 0 true (force F.CND_FN_CTL_ENABLE d f 0 s.m))))
    ∧ (∀ d f (s : State), d < 4 → f < 1026 → hostUp d s.m = true → cndOn d f s.m = true →
        exec (.conduitFnEnable d f false) s = .next (finish s (closeFn d f St.conduitClosed (force F.CND_FN_CTL_ENABLE d f 0 s.m))))
    ∧ (∀ d cn ch th r (s : State), d < 4 → cn < 2 ^ 24 → hostUp d s.m = true → condState d cn s.m = CSt.closing →
        (Machine.cond d cn s.m).closeSent = false → (Machine.cond d cn s.m).recs = [] → (Machine.cond d cn s.m).msgs.any (fun g => !g.all) = false →
        (Machine.cond d cn s.m).resident = true →
        ch = (if (Machine.cond d cn s.m).mcast = true ∧ (Machine.cond d cn s.m).fromGate = false then (none, s.m)
          else choosePath d cn none (pathFetch d (Machine.cond d cn s.m).peer s.m)) →
        th = mayLaunch d cn Op.close ch.1 1 ch.2 →
        r = { psn := (Machine.cond d cn s.m).txNext, msg := 2 ^ 40, op := Op.close, off := 0, len := 0, path := ch.1, round := 0
              time := now d s.m, acks := 0, again := none } →
        (th.1 = true → exec (.closeSend d cn) s = .next (finish s (showRetry d cn
          (launch d cn 0 r (msgTh cn (Machine.cond d cn s.m) { Msg.blank with id := 0 } r) []
            (updCond d cn (fun c => { c with txNext := (c.txNext + 1) % 2 ^ 32, recs := [r], closeSent := true, pktsTx := (c.pktsTx + 1) % 2 ^ 64 })
              (count d 448 1 th.2))))))
        ∧ (th.1 = false → exec (.closeSend d cn) s = .next (finish s th.2)))
    ∧ (∀ d cn (s : State), d < 4 → cn < 2 ^ 24 → hostUp d s.m = true →
        (condState d cn s.m ≠ CSt.closing ∨ (Machine.cond d cn s.m).closeSent = true ∨ (Machine.cond d cn s.m).recs ≠ []
          ∨ (Machine.cond d cn s.m).msgs.any (fun g => !g.all) = true) →
        exec (.closeSend d cn) s = .next (finish s s.m))
    ∧ (∀ d cn (s : State), d < 4 → cn < 2 ^ 24 → hostUp d s.m = true → (Machine.cond d cn s.m).bufWait = true → 0 < bufFree d s.m →
        exec (.flitBufferGrant d cn) s = .next (finish s
          (showBufs d (updCond d cn (fun c => { c with bufs := c.bufs + 1, bufWait := false }) s.m))))
    ∧ (∀ d cn (s : State), d < 4 → cn < 2 ^ 24 → hostUp d s.m = true → (Machine.cond d cn s.m).bufWait = true → bufFree d s.m = 0 →
        (Machine.cond d cn s.m).bufs = 0 → reserveUsed d s.m < reserveSize d s.m →
        exec (.flitBufferGrant d cn) s = .next (finish s
          (showBufs d (updCond d cn (fun c => { c with bufs := 1, fromReserve := true, bufWait := false }) s.m))))
    ∧ (∀ d f (s : State), d < 4 → f < 1026 → hostUp d s.m = true → cndOn d f s.m = true →
        2 * (gatePool d f s.m).length < min 256 (cur F.CND_FN_GATE_GATE_TARGET d f s.m) →
        exec (.gatePoolRefill d f) s = .next (finish s (setGate d f (gatePool d f s.m ++
          ((((List.range (min (min (fnGate d f s.m) (fnCount d f s.m))
                (min 256 (cur F.CND_FN_GATE_GATE_TARGET d f s.m) + (gatePool d f s.m).length + (condsOf d s.m).length))).map
              (fun i => fnBase d f s.m + fnCount d f s.m - min (fnGate d f s.m) (fnCount d f s.m) + i)).filter
            (fun cn => condState d cn s.m == CSt.closed && !(gatePool d f s.m).contains cn)).take
          (min 256 (cur F.CND_FN_GATE_GATE_TARGET d f s.m) - (gatePool d f s.m).length))) s.m)))
    ∧ (∀ d p k (s : State), d < 4 → p < 65536 → pkey d p s.m = some k →
        exec (.oldKeyExpiry d p) s = .next (finish s { s.m with keys := NMap.put s.m.keys (d * 65536 + p) { k with old := none } }))

/-- A work command takes the queue's next entry where it has its opcode; a bad completion ring halts the queue; otherwise nothing (R274, R277, R287, R289).
For every work row on a served die: with no entry that may be taken (queue not ACTIVE, an entry injecting, no slot,
FENCE unmet) or an entry of another opcode, nothing happens. An entry whose CRING is not an ACTIVE ring of the
queue's function is not taken and the queue halts with BAD_CRING. Otherwise the entry is taken, SQ_FETCH moves past
it, its slot is freed, and what its opcode does is done to it; then the queue reads ahead. -/
def Obligations.QueuesTakeTheirNextEntry : Prop :=
    (∀ d q ans (s : State), ∀ r ∈ ([(0x01, .nop d q), (0x10, .put d q ans), (0x11, .get d q ans), (0x12, .send d q ans), (0x20, .add32 d q ans), (0x21, .add64 d q ans), (0x22, .fetchAdd32 d q ans), (0x23, .fetchAdd64 d q ans), (0x24, .cas32 d q ans), (0x25, .cas64 d q ans), (0x26, .cas128 d q ans), (0x30, .lockAcquire d q), (0x31, .lockTry d q), (0x32, .lockRelease d q), (0x38, .recvPost d q ans), (0x40, .collStart d q ans), (0x50, .conduitOpen d q), (0x51, .conduitClose d q), (0x60, .fmSend d q)] : List (Nat × Instr)), d < 4 → q < 65536 → hostUp d s.m = true →
        (∀ b, nextEntry d q s.m = some b → rdLE b 0 1 ≠ r.1) → exec r.2 s = .next (finish s s.m))
    ∧ (∀ d q ans b (s : State), ∀ r ∈ ([(0x01, .nop d q), (0x10, .put d q ans), (0x11, .get d q ans), (0x12, .send d q ans), (0x20, .add32 d q ans), (0x21, .add64 d q ans), (0x22, .fetchAdd32 d q ans), (0x23, .fetchAdd64 d q ans), (0x24, .cas32 d q ans), (0x25, .cas64 d q ans), (0x26, .cas128 d q ans), (0x30, .lockAcquire d q), (0x31, .lockTry d q), (0x32, .lockRelease d q), (0x38, .recvPost d q ans), (0x40, .collStart d q ans), (0x50, .conduitOpen d q), (0x51, .conduitClose d q), (0x60, .fmSend d q)] : List (Nat × Instr)), d < 4 → q < 65536 → hostUp d s.m = true →
        nextEntry d q s.m = some b → rdLE b 0 1 = r.1 → crUsable d q (rdLE b 2 2) s.m = false →
        exec r.2 s = .next (finish s (haltQueue d q 4 s.m)))
    ∧ (∀ d q ans b (s : State) e m, ∀ r ∈ ([(0x01, .nop d q), (0x10, .put d q ans), (0x11, .get d q ans), (0x12, .send d q ans), (0x20, .add32 d q ans), (0x21, .add64 d q ans), (0x22, .fetchAdd32 d q ans), (0x23, .fetchAdd64 d q ans), (0x24, .cas32 d q ans), (0x25, .cas64 d q ans), (0x26, .cas128 d q ans), (0x30, .lockAcquire d q), (0x31, .lockTry d q), (0x32, .lockRelease d q), (0x38, .recvPost d q ans), (0x40, .collStart d q ans), (0x50, .conduitOpen d q), (0x51, .conduitClose d q), (0x60, .fmSend d q)] : List (Nat × Instr)), Takes r.1 d q b s e m →
        exec r.2 s = .next (finish s (entryAfter d q (workOf e ans m))))

/-- A well-formed atomic or lock entry starts its request message on its conduit; a malformed one completes MALFORMED (R279, R280, R287, R305, R315, R332).
ADD32, ADD64, FETCH_ADD32, FETCH_ADD64, CAS32, CAS64 and CAS128: a taken entry that passes R287 starts an ATOMIC
message of its operation, operand size, target and operands on its conduit, after the check of its RESULT_ADDR where
that is not zero; one that fails step 1 completes MALFORMED with its detail and starts nothing. LOCK_ACQUIRE,
LOCK_TRY and LOCK_RELEASE start a LOCK_REQ of their kind. -/
def Obligations.AtomicAndLockEntriesStartTheirRequest : Prop :=
    (∀ d q ans b (s : State) e m, Takes 0x20 d q b s e m → e.badAtomic 0 4 = none → e.connected m → e.resultAddr = 0 →
        exec (.add32 d q ans) s = .next (finish s (entryAfter d q (e.start (e.atomicMsg 0 4) m))))
    ∧ (∀ d q ans b (s : State) e m, Takes 0x21 d q b s e m → e.badAtomic 0 8 = none → e.connected m → e.resultAddr = 0 →
        exec (.add64 d q ans) s = .next (finish s (entryAfter d q (e.start (e.atomicMsg 0 8) m))))
    ∧ (∀ d q ans b (s : State) e m, Takes 0x22 d q b s e m → e.badAtomic 1 4 = none → e.connected m → e.resultAddr = 0 →
        exec (.fetchAdd32 d q ans) s = .next (finish s (entryAfter d q (e.start (e.atomicMsg 1 4) m))))
    ∧ (∀ d q ans b (s : State) e m, Takes 0x23 d q b s e m → e.badAtomic 1 8 = none → e.connected m → e.resultAddr = 0 →
        exec (.fetchAdd64 d q ans) s = .next (finish s (entryAfter d q (e.start (e.atomicMsg 1 8) m))))
    ∧ (∀ d q ans b (s : State) e m, Takes 0x24 d q b s e m → e.badAtomic 2 4 = none → e.connected m → e.resultAddr = 0 →
        exec (.cas32 d q ans) s = .next (finish s (entryAfter d q (e.start (e.atomicMsg 2 4) m))))
    ∧ (∀ d q ans b (s : State) e m, Takes 0x25 d q b s e m → e.badAtomic 2 8 = none → e.connected m → e.resultAddr = 0 →
        exec (.cas64 d q ans) s = .next (finish s (entryAfter d q (e.start (e.atomicMsg 2 8) m))))
    ∧ (∀ d q ans b (s : State) e m, Takes 0x26 d q b s e m → e.badAtomic 2 16 = none → e.connected m → e.resultAddr = 0 →
        exec (.cas128 d q ans) s = .next (finish s (entryAfter d q (e.start (e.atomicMsg 2 16) m))))
    ∧ (∀ d q ans b (s : State) e m z se m2, ∀ r ∈ ([(0x22, 1, 4, .fetchAdd32 d q ans), (0x23, 1, 8, .fetchAdd64 d q ans), (0x24, 2, 4, .cas32 d q ans), (0x25, 2, 8, .cas64 d q ans), (0x26, 2, 16, .cas128 d q ans)] : List (Nat × Nat × Nat × Instr)), Takes r.1 d q b s e m →
        e.badAtomic r.2.1 r.2.2.1 = none → e.connected m → e.resultAddr ≠ 0 →
        checkBuf e.die e.fn e.xctx 1 Cls5.local_ ans [(e.resultAddr, r.2.2.1)] false m = (.ok z, se, m2) →
        exec r.2.2.2 s = .next (finish s (entryAfter d q (e.start (e.atomicMsg r.2.1 r.2.2.1) m2))))
    ∧ (∀ d q ans b (s : State) e m dt, ∀ r ∈ ([(0x20, 0, 4, .add32 d q ans), (0x21, 0, 8, .add64 d q ans), (0x22, 1, 4, .fetchAdd32 d q ans), (0x23, 1, 8, .fetchAdd64 d q ans), (0x24, 2, 4, .cas32 d q ans), (0x25, 2, 8, .cas64 d q ans), (0x26, 2, 16, .cas128 d q ans)] : List (Nat × Nat × Nat × Instr)), Takes r.1 d q b s e m →
        e.badAtomic r.2.1 r.2.2.1 = some dt → exec r.2.2.2 s = .next (finish s (entryAfter d q (e.malformed dt m))))
    ∧ (∀ d q b (s : State) e m, Takes 0x30 d q b s e m → e.badLock = none → e.connected m →
        exec (.lockAcquire d q) s = .next (finish s (entryAfter d q (e.start (e.lockMsg 0) m))))
    ∧ (∀ d q b (s : State) e m, Takes 0x31 d q b s e m → e.badLock = none → e.connected m →
        exec (.lockTry d q) s = .next (finish s (entryAfter d q (e.start (e.lockMsg 1) m))))
    ∧ (∀ d q b (s : State) e m, Takes 0x32 d q b s e m → e.badLock = none → e.connected m →
        exec (.lockRelease d q) s = .next (finish s (entryAfter d q (e.start (e.lockMsg 2) m))))

/-- PUT, GET and SEND start the message of their entry; SEND goes by rendezvous above the eager limit; a timed PUT is accepted (R227, R229, R278, R287, R309, R349).
A taken PUT, GET or SEND entry that passes R287 with its buffer translated: PUT (untimed) starts a PUT message of
its length, remote address and header, sprayed where the conduit allows and the message is long enough; GET starts a
GET_REQ that waits for its response; SEND up to the eager limit starts an EAGER message, above it an RTS that waits;
a timed PUT admitted under R227 is accepted with its payload, and one not admitted completes ADMISSION with the
detail; an entry that fails step 1 completes MALFORMED. -/
def Obligations.DataEntriesStartTheirMessage : Prop :=
    (∀ d q ans b (s : State) e m l m1 z se m2, Takes 0x10 d q b s e m → e.bad278 60 = none → e.connected m →
        e.fragments 16 e.len 36 ans m = (.inl l, m1) → checkBuf e.die e.fn e.xctx 0 Cls5.local_ ans l false m1 = (.ok z, se, m2) →
        e.timed = false →
        exec (.put d q ans) s = .next (finish s (entryAfter d q (e.start { Msg.blank with
          op := Op.put, len := e.len, addr := e.remote, buf := l
          ask := b2n ((Machine.cond e.die e.cn m2).spray && !(Machine.cond e.die e.cn m2).mcast && decide (cur F.CND_TIMING_SPRAY_MIN_KIB e.die 0 m2 * 1024 ≤ e.len))
          hdr := rmaHdr e.remote (e.aux % 4096) (b2n e.remoteCpl + 2 * b2n e.imm) (rdLE e.b 40 8) } m2))))
    ∧ (∀ d q ans b (s : State) e m l m1 z m2 y r, Takes 0x10 d q b s e m → e.bad278 60 = none → e.connected m →
        e.fragments 16 e.len 36 ans m = (.inl l, m1) → checkBuf e.die e.fn e.xctx 0 Cls5.local_ ans l false m1 = (.ok z, false, m2) →
        e.timed = true → admitPost e.die e.fn e.res e.cn e.len (rdLE e.b 48 8) m2 = .inr y →
        r = readBuf e.die e.fn e.xctx Cls5.local_ ans l m2 →
        exec (.put d q ans) s = .next (finish s (entryAfter d q (count e.die 517 1 (accept e.die e.fn e.res e.cn e.len (rdLE e.b 48 8) e.owner y
          (match r.1 with | .ok p => some p | .bad _ _ _ => none) r.2)))))
    ∧ (∀ d q ans b (s : State) e m l m1 z m2 dt, Takes 0x10 d q b s e m → e.bad278 60 = none → e.connected m →
        e.fragments 16 e.len 36 ans m = (.inl l, m1) → checkBuf e.die e.fn e.xctx 0 Cls5.local_ ans l false m1 = (.ok z, false, m2) →
        e.timed = true → admitPost e.die e.fn e.res e.cn e.len (rdLE e.b 48 8) m2 = .inl dt →
        exec (.put d q ans) s = .next (finish s (entryAfter d q (e.done 0x08 dt 0 (noteRefused e.die m2)))))
    ∧ (∀ d q ans b (s : State) e m l m1 z se m2, Takes 0x11 d q b s e m → e.bad278 4 = none → e.connected m →
        e.fragments 16 e.len 36 ans m = (.inl l, m1) → checkBuf e.die e.fn e.xctx 1 Cls5.local_ ans l false m1 = (.ok z, se, m2) →
        exec (.get d q ans) s = .next (finish s (entryAfter d q (e.start { Msg.blank with
          op := Op.getReq, len := e.len, addr := e.remote, buf := l, wait := if e.len = 0 then 0 else 1
          hdr := rmaHdr e.remote (e.aux % 4096) 0 0 } m2))))
    ∧ (∀ d q ans b (s : State) e m l m1 z se m2, Takes 0x12 d q b s e m → e.bad278 4 = none → e.connected m →
        e.len ≤ eagerLimit e.die m →
        e.fragments 16 e.len 36 ans m = (.inl l, m1) → checkBuf e.die e.fn e.xctx 0 Cls5.local_ ans l false m1 = (.ok z, se, m2) →
        exec (.send d q ans) s = .next (finish s (entryAfter d q (e.start { Msg.blank with
          op := Op.eager, len := e.len, addr := 0, buf := l, hdr := mtHdr e.remote (e.aux % 4096) 0 0 0 } m2))))
    ∧ (∀ d q ans b (s : State) e m z se m2, Takes 0x12 d q b s e m → e.bad278 4 = none → e.connected m →
        eagerLimit e.die m < e.len → e.indirect = false →
        checkBuf e.die e.fn e.xctx 0 Cls5.local_ ans [(rdLE e.b 16 8, e.len)] false m = (.ok z, se, m2) →
        exec (.send d q ans) s = .next (finish s (entryAfter d q (e.start { Msg.blank with
          op := Op.rts, len := e.len, addr := 0, buf := [(rdLE e.b 16 8, e.len)], wait := 4
          hdr := mtHdr e.remote (e.aux % 4096) e.xctx 0 (rdLE e.b 16 8) } m2))))
    ∧ (∀ d q ans b (s : State) e m dt, Takes 0x10 d q b s e m → e.bad278 60 = some dt →
        exec (.put d q ans) s = .next (finish s (entryAfter d q (e.malformed dt m))))

/-- NOP completes, RECV_POST posts, COLL_START starts an instance, CONDUIT_OPEN and CONDUIT_CLOSE act, FM_SEND sends its packet (R240, R241, R246, R266, R277, R281, R282, R283, R284, R353, R373).
Of taken entries that pass R287: NOP completes OK; RECV_POST gives its receive to the matching unit, and completes
with the failure where that refuses; COLL_START that passes its checks starts its instance; CONDUIT_OPEN sets the
context to OPENING with its arguments, with an empty extended map, written in host memory where its function spills
it, and completes OK, with a refused argument BAD_ARGUMENT, with a conduit outside its range ACCESS_DENIED;
CONDUIT_CLOSE completes OK and starts the close; FM_SEND of a PF sends its packet on VC 3 and completes OK, of a VF
it is ACCESS_DENIED. -/
def Obligations.OtherEntriesHaveTheirEffect : Prop :=
    (∀ d q b (s : State) e m, Takes 0x01 d q b s e m → e.badCommon 0 1 = none → zeroAt e.b 16 48 = true →
        exec (.nop d q) s = .next (finish s (entryAfter d q (e.done St.ok 0 0 m))))
    ∧ (∀ d q ans b (s : State) e m l m1 z se m2 m3, Takes 0x38 d q b s e m → e.badRecv = none →
        e.fragments 16 (rdLE e.b 44 4) 48 ans m = (.inl l, m1) → checkBuf e.die e.fn e.xctx 1 Cls5.local_ ans l false m1 = (.ok z, se, m2) →
        Sys2Proof.Machine.recvPost e.die (e.aux % 4096) e.fn (e.recv l (now e.die m2)) m2 = (none, m3) →
        exec (.recvPost d q ans) s = .next (finish s (entryAfter d q m3)))
    ∧ (∀ d q ans b (s : State) e m l m1 z se m2 f m3, Takes 0x38 d q b s e m → e.badRecv = none →
        e.fragments 16 (rdLE e.b 44 4) 48 ans m = (.inl l, m1) → checkBuf e.die e.fn e.xctx 1 Cls5.local_ ans l false m1 = (.ok z, se, m2) →
        Sys2Proof.Machine.recvPost e.die (e.aux % 4096) e.fn (e.recv l (now e.die m2)) m2 = (some f, m3) →
        exec (.recvPost d q ans) s = .next (finish s (entryAfter d q (e.done f.1 f.2 0 m3))))
    ∧ (∀ d q ans b (s : State) e m p m2, Takes 0x40 d q b s e m → e.badColl m = none → e.coll.prog < 256 →
        e.collCheck ans (collBufs e.die e.coll m) m = (none, m2) → collStartCheck e.die e.fn e.coll m2 = .inr p →
        exec (.collStart d q ans) s = .next (finish s (entryAfter d q (Sys2Proof.Machine.collStart e.die e.coll p e.owner m2))))
    ∧ (∀ d q b (s : State) e m, Takes 0x50 d q b s e m → e.badOpen = none → e.openDenied m = false → e.openBad m = false →
        exec (.conduitOpen d q) s = .next (finish s (entryAfter d q
          (e.done St.ok 0 0 (saveCond e.die e.cn (extClear e.die (e.openCond m)
            (setCond e.die e.cn (e.openCond m) (energy e.die 23 10 4 m))))))))
    ∧ (∀ d q b (s : State) e m, Takes 0x50 d q b s e m → e.badOpen = none → e.openDenied m = false → e.openBad m = true →
        exec (.conduitOpen d q) s = .next (finish s (entryAfter d q (e.malformed 7 m))))
    ∧ (∀ d q b (s : State) e m, Takes 0x50 d q b s e m → e.badOpen = none → e.openDenied m = true →
        exec (.conduitOpen d q) s = .next (finish s (entryAfter d q (e.done St.accessDenied 0 0 m))))
    ∧ (∀ d q b (s : State) e m, Takes 0x51 d q b s e m → e.badCommon 0 1 = none → zeroAt e.b 16 48 = true → e.connected m →
        exec (.conduitClose d q) s = .next (finish s (entryAfter d q (startClose e.die e.cn (e.done St.ok 0 0 m)))))
    ∧ (∀ d q b (s : State) e m, Takes 0x60 d q b s e m → e.badCommon 0 65536 = none → e.cn < 2 ^ 20 → 0 < rdLE e.b 14 1 → rdLE e.b 14 1 ≤ 8 →
        rdLE e.b 15 1 ≤ 40 → isPf e.die e.fn m = true →
        exec (.fmSend d q) s = .next (finish s (entryAfter d q (e.done St.ok 0 0 (startPacket e.die false 3
          (mkHdr ((List.range 8).map (fun i => rdLE e.b (16 + i) 1)) (rdLE e.b 14 1) false false 0 e.cn (eidOf e.die m) 0 3
            (24 + rdLE e.b 15 1) 0 ++ sub e.b 24 (rdLE e.b 15 1)) m)))))
    ∧ (∀ d q b (s : State) e m, Takes 0x60 d q b s e m → e.badCommon 0 65536 = none → e.cn < 2 ^ 20 → 0 < rdLE e.b 14 1 → rdLE e.b 14 1 ≤ 8 →
        rdLE e.b 15 1 ≤ 40 → isPf e.die e.fn m = false →
        exec (.fmSend d q) s = .next (finish s (entryAfter d q (e.done St.accessDenied 0 0 m))))

/-- Doorbells, descriptor reads, invalidations, arming, and the enabling, draining and resetting of queues, rings and event rings (R271, R274, R275, R288, R289, R290, R298, R300).
On a served die. SQ_DOORBELL of an ACTIVE queue: a tail inside the queue is set and read ahead; one outside halts
the queue (BAD_DOORBELL); of a queue not ACTIVE it is counted UNDECODED. DESCRIPTOR_FETCH_COMPLETE puts the 64 bytes
in the slot, or halts the queue with FETCH_ERROR. SQ_INVALIDATE of an ACTIVE queue drops the named slots and reads
again, with the invalidation in progress for 1 us (the model's choice, the docstring of sqInvalidate); while one is
in progress, or of a queue not ACTIVE, it is counted UNDECODED. CR_ARM signals at once where the producer index
differs from CR_HEAD, else arms. QUEUE_ENABLE of a DISABLED queue or ring makes it ACTIVE with indices 0.
QUEUE_DISABLE of an ACTIVE queue makes it DRAINING; of a ring it is a reset, unless the ring is OVERFLOWED.
QUEUE_RESET makes either DISABLED. QUEUE_DRAIN_COMPLETE of a DRAINING queue with no entry open makes it DISABLED
without slots. EVENT_RING_ENABLE starts an event ring at index 0, EVENT_RING_HEAD_WRITE moves its head and allows a
signal again. -/
def Obligations.QueuesAndRingsChangeState : Prop :=
    (∀ d q t (s : State), d < 4 → q < 65536 → t < sqSize d q s.m → hostUp d s.m = true → fnState d (qOwner d q s.m) s.m ≠ FnSt.resetting →
        bellsOff d s.m = false → dieState d s.m ≠ DieSt.sleep → qState d 0 q s.m = QSt.active → t < 65536 →
        t ≠ sqTail d q s.m →
        exec (.sqDoorbell d q t) s = .next (finish s (readAhead d q (wr F.WQU_QSTATE_TAIL d (qix 0 q) t
          (updSq d q (fun k => { k with bells := k.bells ++ [(t, now d s.m)] }) (count d 512 1 s.m))))))
    ∧ (∀ d q t (s : State), d < 4 → q < 65536 → sqSize d q s.m ≤ t → hostUp d s.m = true → fnState d (qOwner d q s.m) s.m ≠ FnSt.resetting →
        bellsOff d s.m = false → dieState d s.m ≠ DieSt.sleep → qState d 0 q s.m = QSt.active → t < 65536 →
        exec (.sqDoorbell d q t) s = .next (finish s (haltQueue d q 2 (count d 512 1 s.m))))
    ∧ (∀ d q t (s : State), d < 4 → q < 65536 → hostUp d s.m = true → fnState d (qOwner d q s.m) s.m ≠ FnSt.resetting →
        bellsOff d s.m = false → qState d 0 q s.m ≠ QSt.active → t < 65536 →
        exec (.sqDoorbell d q t) s = .next (finish s (bump F.HIF_ACC_ERR_UNDECODED d 0 s.m)))
    ∧ (∀ d q i b (s : State), d < 4 → q < 65536 → i < 65536 → hostUp d s.m = true → (qState d 0 q s.m = QSt.active ∨ qState d 0 q s.m = QSt.draining) →
        exec (.descriptorFetchComplete d q i (some b)) s
          = .next (finish s (showSlots d (updSq d q (fun k => { k with slots := NMap.put k.slots i (padTo 64 b) }) s.m))))
    ∧ (∀ d q i (s : State), d < 4 → q < 65536 → i < 65536 → hostUp d s.m = true → 
        exec (.descriptorFetchComplete d q i none) s = .next (finish s (haltQueue d q 3 s.m)))
    ∧ (∀ d q a n (s : State), d < 4 → q < 65536 → a < 65536 → n < 65536 → hostUp d s.m = true → qState d 0 q s.m = QSt.active → invalBusy d q s.m = false →
        exec (.sqInvalidate d q a n) s = .next (finish s (readAhead d q
          (dropSlots d q (fun i => decide ((i + sqSize d q s.m - a % sqSize d q s.m) % sqSize d q s.m < max 1 (min 64 n)))
            (updSq d q (fun k => { k with inval := a % 65536 + n * 65536, busyTo := now d s.m + 1000 }) s.m)))))
    ∧ (∀ d q a n (s : State), d < 4 → q < 65536 → a < 65536 → n < 65536 → hostUp d s.m = true → (qState d 0 q s.m ≠ QSt.active ∨ invalBusy d q s.m = true) →
        exec (.sqInvalidate d q a n) s = .next (finish s (bump F.HIF_ACC_ERR_UNDECODED d 0 s.m)))
    ∧ (∀ d r (s : State), d < 4 → r < 65536 → hostUp d s.m = true → 
        rd F.WQU_QSTATE_FETCH d (qix 1 r) s.m ≠ rd F.WQU_QSTATE_TAIL d (qix 1 r) s.m →
        exec (.crArm d r) s = .next (finish s (msix d (qOwner d r s.m) (cur F.WQU_QCFG_R_VECTOR d (qix 1 r) s.m) s.m)))
    ∧ (∀ d r (s : State), d < 4 → r < 65536 → hostUp d s.m = true → 
        rd F.WQU_QSTATE_FETCH d (qix 1 r) s.m = rd F.WQU_QSTATE_TAIL d (qix 1 r) s.m →
        exec (.crArm d r) s = .next (finish s (updCring d r (fun k => { k with arm := true }) s.m)))
    ∧ (∀ d n (s : State), d < 4 → n < 65536 → hostUp d s.m = true → qState d 0 n s.m = QSt.disabled →
        exec (.queueEnable d 0 n) s = .next (finish s (wr F.WQU_QSTATE_TAIL d (qix 0 n) 0 (wr F.WQU_QSTATE_FETCH d (qix 0 n) 0
          (wr F.WQU_QSTATE_TAKEN_OPEN d (qix 0 n) 0 (wr F.WQU_QSTATE_CAUSE d (qix 0 n) 0 (setQState d 0 n QSt.active s.m)))))))
    ∧ (∀ d n (s : State), d < 4 → n < 65536 → hostUp d s.m = true → qState d 1 n s.m = QSt.disabled →
        exec (.queueEnable d 1 n) s = .next (finish s (updCring d n (fun _ => Cring.reset) (wr F.WQU_QSTATE_TAIL d (qix 1 n) 0
          (wr F.WQU_QSTATE_FETCH d (qix 1 n) 0 (wr F.WQU_QSTATE_TAKEN_OPEN d (qix 1 n) 0
            (wr F.WQU_QSTATE_CAUSE d (qix 1 n) 0 (setQState d 1 n QSt.active s.m))))))))
    ∧ (∀ d n (s : State), d < 4 → n < 65536 → hostUp d s.m = true → qState d 0 n s.m = QSt.active →
        exec (.queueDisable d 0 n) s = .next (finish s (setQState d 0 n QSt.draining s.m)))
    ∧ (∀ d n (s : State), d < 4 → n < 65536 → hostUp d s.m = true → qState d 1 n s.m ≠ QSt.overflowed →
        exec (.queueDisable d 1 n) s = exec (.queueReset d 1 n) s)
    ∧ (∀ d n (s : State), d < 4 → n < 65536 → hostUp d s.m = true → qState d 1 n s.m = QSt.overflowed → exec (.queueDisable d 1 n) s = .next (finish s s.m))
    ∧ (∀ d n (s : State), d < 4 → n < 65536 → hostUp d s.m = true → 
        exec (.queueReset d 1 n) s = .next (finish s (updCring d n (fun _ => Cring.reset)
          (wr F.WQU_QSTATE_TAKEN_OPEN d (qix 1 n) 0 (wr F.WQU_QSTATE_CAUSE d (qix 1 n) 0 (setQState d 1 n QSt.disabled s.m))))))
    ∧ (∀ d k n (s : State), d < 4 → k < 2 → n < 65536 → hostUp d s.m = true → qState d k n s.m ≠ QSt.disabled → exec (.queueEnable d k n) s = .next (finish s s.m))
    ∧ (∀ d n (s : State), d < 4 → n < 65536 → hostUp d s.m = true → 
        exec (.queueReset d 0 n) s = .next (finish s (updSq d n (fun k => { Sq.reset with gen := k.gen + 1 })
          (dropSlots d n (fun _ => true) (sampleFlush d n
            (wr F.WQU_QSTATE_TAKEN_OPEN d (qix 0 n) 0 (wr F.WQU_QSTATE_CAUSE d (qix 0 n) 0 (setQState d 0 n QSt.disabled s.m))))))))
    ∧ (∀ d q (s : State), d < 4 → q < 65536 → hostUp d s.m = true → qState d 0 q s.m = QSt.draining → sqOpen d q s.m = 0 →
        exec (.queueDrainComplete d q) s = .next (finish s (dropSlots d q (fun _ => true) (setQState d 0 q QSt.disabled s.m))))
    ∧ (∀ d q (s : State), d < 4 → q < 65536 → hostUp d s.m = true → (qState d 0 q s.m ≠ QSt.draining ∨ sqOpen d q s.m ≠ 0) →
        exec (.queueDrainComplete d q) s = .next (finish s s.m))
    ∧ (∀ d f (s : State), d < 4 → f < 1026 → hostUp d s.m = true → 
        exec (.eventRingEnable d f) s = .next (finish s (setEvr d f Evr.reset (wr F.WQU_EVR_STATUS_TAIL d f 0
          (force F.WQU_EVR_HEAD_INDEX d f 0 (force F.WQU_EVR_CFG_ENABLE d f 1 s.m))))))
    ∧ (∀ d f i (s : State), d < 4 → f < 1026 → i < 65536 → hostUp d s.m = true → 
        exec (.eventRingHeadWrite d f i) s = .next (finish s (setEvr d f { evrOf d f s.m with sig := false, lost := false }
          (force F.WQU_EVR_HEAD_INDEX d f i s.m))))

/-- A probe of a lock's holder, and the commands of a wait slot: acquire, release, read and timeout (R331, R332, R333, R334, R336, R337, R338, R339).
On a served die. LOCK_PROBE_TIMER of a lock with a holder and waiters sends a LOCK_PROBE to the holder; of a word
with no lock, or one without waiters, nothing happens. SLOT_ACQUIRE of an enabled slot whose conduit is usable sends
a LOCK_REQ of kind 0 with the slot's address, priority and tag, and the slot waits; on a conduit outside the
function's range its outcome is ACCESS_DENIED, on a closed one CONDUIT_CLOSED; of a slot not enabled nothing
happens. SLOT_RELEASE sends a LOCK_REQ of kind 2. SLOT_WAIT_READ of a slot that does not wait returns the outcome;
of one that waits it stalls, and a second read then returns WOULD_BLOCK. SLOT_WAIT_TIMEOUT answers the stalled read
WOULD_BLOCK with detail 2; without one nothing happens. -/
def Obligations.LocksAndWaitSlotsServeTheirOwners : Prop :=
    (∀ d b k h (s : State), d < 4 → b < 2 ^ 64 → hostUp d s.m = true → lockAt d b s.m = some k → k.waiters ≠ [] → k.holder = some h →
        exec (.lockProbeTimer d b) s = .next (finish s (putLock d { k with probed := now d s.m }
          (lockSend d h.cn Op.lockProbe (lockHdr k.va k.xctx 0 0 h.tag 0) s.m))))
    ∧ (∀ d b (s : State), d < 4 → b < 2 ^ 64 → hostUp d s.m = true → (∀ k, lockAt d b s.m = some k → k.waiters = []) →
        exec (.lockProbeTimer d b) s = .next (finish s s.m))
    ∧ (∀ d k f cn tag addr xc (s : State), d < 4 → k < 64 → hostUp d s.m = true → curB F.CRK_SLOT_CFG_ENABLE d k s.m = true → f = cur F.CRK_SLOT_CFG_FN d k s.m →
        cn = cur F.CRK_SLOT_REQ_CONDUIT d k s.m → tag = cur F.CRK_SLOT_REQ_OWNER_TAG d k s.m →
        addr = cur F.CRK_SLOT_LOCK_ADDR d k s.m * 8 → xc = cur F.CRK_SLOT_CMD_RXCTX d k s.m →
        inRange d f cn s.m = true → inGate d f cn s.m = false → condLive d cn s.m = true →
        ∀ m, m = (addMsg d cn { Msg.blank with
          op := Op.lockReq, owner := .slot k false, wait := 3
          hdr := lockHdr addr xc 0 (cur F.CRK_SLOT_REQ_PRIORITY d k s.m) tag 0 } s.m).2 →
        exec (.slotAcquire d k) s = .next (finish s (slotOutcome d k 0 0 false true
          (setSlot d k { slot d k m with cn := cn, tag := tag, addr := addr, xctx := xc, busy := true, out := none } m))))
    ∧ (∀ d k (s : State), d < 4 → k < 64 → hostUp d s.m = true → curB F.CRK_SLOT_CFG_ENABLE d k s.m = true →
        (inRange d (cur F.CRK_SLOT_CFG_FN d k s.m) (cur F.CRK_SLOT_REQ_CONDUIT d k s.m) s.m = false
          ∨ inGate d (cur F.CRK_SLOT_CFG_FN d k s.m) (cur F.CRK_SLOT_REQ_CONDUIT d k s.m) s.m = true) →
        exec (.slotAcquire d k) s = .next (finish s (slotOutcome d k St.accessDenied 0 false false s.m)))
    ∧ (∀ d k (s : State), d < 4 → k < 64 → hostUp d s.m = true → curB F.CRK_SLOT_CFG_ENABLE d k s.m = false →
        exec (.slotAcquire d k) s = .next (finish s s.m) ∧ exec (.slotRelease d k) s = .next (finish s s.m))
    ∧ (∀ d k f cn (s : State), d < 4 → k < 64 → hostUp d s.m = true → curB F.CRK_SLOT_CFG_ENABLE d k s.m = true → f = cur F.CRK_SLOT_CFG_FN d k s.m →
        cn = cur F.CRK_SLOT_REQ_CONDUIT d k s.m →
        inRange d f cn s.m = true → inGate d f cn s.m = false → condLive d cn s.m = true →
        exec (.slotRelease d k) s = .next (finish s (addMsg d cn { Msg.blank with
          op := Op.lockReq, owner := .slot k true, wait := 0
          hdr := (lockHdr (cur F.CRK_SLOT_LOCK_ADDR d k s.m * 8) (cur F.CRK_SLOT_CMD_RXCTX d k s.m) 2
            (cur F.CRK_SLOT_REQ_PRIORITY d k s.m) (cur F.CRK_SLOT_REQ_OWNER_TAG d k s.m) 0) } s.m).2))
    ∧ (∀ d k (s : State), d < 4 → k < 64 → hostUp d s.m = true → curB F.CRK_SLOT_CFG_ENABLE d k s.m = true →
        inRange d (cur F.CRK_SLOT_CFG_FN d k s.m) (cur F.CRK_SLOT_REQ_CONDUIT d k s.m) s.m = true →
        inGate d (cur F.CRK_SLOT_CFG_FN d k s.m) (cur F.CRK_SLOT_REQ_CONDUIT d k s.m) s.m = false →
        condLive d (cur F.CRK_SLOT_REQ_CONDUIT d k s.m) s.m = false →
        exec (.slotAcquire d k) s = .next (finish s (slotOutcome d k St.conduitClosed 0 false false s.m))
        ∧ exec (.slotRelease d k) s = .next (finish s (slotOutcome d k St.conduitClosed 0 false false s.m)))
    ∧ (∀ d k (s : State), d < 4 → k < 64 → hostUp d s.m = true → (slot d k s.m).busy = false →
        exec (.slotWaitRead d k) s = .next (finish s (slotReply d (slotOwn d k s.m) (slotNow d k s.m) s.m)))
    ∧ (∀ d k (s : State), d < 4 → k < 64 → hostUp d s.m = true → (slot d k s.m).busy = true → (slot d k s.m).stall = none →
        exec (.slotWaitRead d k) s = .next (finish s (setSlot d k { slot d k s.m with stall := some (slotOwn d k s.m) } s.m)))
    ∧ (∀ d k r (s : State), d < 4 → k < 64 → hostUp d s.m = true → (slot d k s.m).busy = true → (slot d k s.m).stall = some r →
        exec (.slotWaitRead d k) s = .next (finish s (slotReply d (slotOwn d k s.m) (slotValue St.wouldBlock 0 false true) s.m)))
    ∧ (∀ d k r (s : State), d < 4 → k < 64 → hostUp d s.m = true → (slot d k s.m).stall = some r →
        exec (.slotWaitTimeout d k) s = .next (finish s
          (slotReply d r (slotValue St.wouldBlock 2 false true) (setSlot d k { slot d k s.m with stall := none } s.m))))
    ∧ (∀ d k (s : State), d < 4 → k < 64 → hostUp d s.m = true → (slot d k s.m).stall = none →
        exec (.slotWaitTimeout d k) s = .next (finish s s.m))

/-- What a lock request does at the target: granted when free, queued or blocked when held, and passed on by a release (R331, R332, R333, R338).
LockTake of a request whose owner neither holds nor waits: with no holder the lock is granted to it; a TRY of a held
lock is answered WOULD_BLOCK with detail 1; an ACQUIRE of a held lock with waiter space joins the end of the
waiters. A release by the holder grants to the next waiter, frees the lock where nobody waits, and keeps the entry
where an abandonment is still to be reported. The next waiter has the highest priority and, among those, is the
earliest, with PRIO_EN set; with PRIO_EN clear it is the earliest. -/
def Obligations.ALockIsHandedToTheNextOwner : Prop :=
    (∀ d k fresh try_ w m, ownsLock k w.cn w.tag = false → (fresh = true → (locks d m).length < 65536) → k.holder = none →
        lockTake d k fresh try_ w m = (St.ok, 0, putLock d (grantTo d k w m).1 (grantTo d k w m).2))
    ∧ (∀ d k fresh w h m, ownsLock k w.cn w.tag = false → (fresh = true → (locks d m).length < 65536) → k.holder = some h →
        lockTake d k fresh true w m = (St.ok, 0, lockAnswer d k w St.wouldBlock 1 (lockWord k) m))
    ∧ (∀ d k fresh w h m, ownsLock k w.cn w.tag = false → (fresh = true → (locks d m).length < 65536) → k.holder = some h →
        rd F.CRK_TABLE_WAITERS d 0 m < 262144 →
        ∃ k' m', lockTake d k fresh false w m = (St.ok, 0, putLock d k' m') ∧ k'.waiters = k.waiters ++ [w] ∧ k'.holder = some h)
    ∧ (∀ d k w m, k.holder = some w → ∀ y, nextWaiter d k.waiters m = some y →
        lockRelease d k w.cn w.tag m = (St.ok, 0, putLock d (grantTo d { k with waiters := k.waiters.erase y, holder := none } y m).1
          (grantTo d { k with waiters := k.waiters.erase y, holder := none } y m).2))
    ∧ (∀ d k w m, k.holder = some w → k.waiters = [] → k.aband = false →
        lockRelease d k w.cn w.tag m = (St.ok, 0, dropLock d { k with holder := none } (writeWord d { k with holder := none } m)))
    ∧ (∀ d l m w, curB F.CRK_CTRL_PRIO_EN d 0 m = true → nextWaiter d l m = some w →
        w ∈ l ∧ (∀ y ∈ l, y.prio ≤ w.prio) ∧ ∃ a b, l = a ++ w :: b ∧ ∀ y ∈ a, y.prio < w.prio)
    ∧ (∀ d l m, curB F.CRK_CTRL_PRIO_EN d 0 m = true → l ≠ [] → (nextWaiter d l m).isSome = true)
    ∧ (∀ d l m, curB F.CRK_CTRL_PRIO_EN d 0 m = false → nextWaiter d l m = l.head?)

/-- Copying an eager message, ending a rendezvous, binding, and the commands of a domain and its overflow ring (R351, R352, R354, R358, R359, R360, R361).
EAGER_COPY_COMPLETE of a matched message with stored bytes writes them to the receive's buffer, frees the store
space and completes the receive if the message is whole; of any other token nothing happens. RENDEZVOUS_GET_COMPLETE
of a message whose GET has ended sends SEND_FIN with the status and length where the conduit is open, and completes
the receive. On a served die: MATCH_BIND of a message in the domain's ring with no bind pending binds it to the
given buffer, otherwise sets BIND_ERR. DOMAIN_RESUME of a domain not in OVERFLOW does nothing. DOMAIN_DISABLE
flushes the posted receives, completes messages in progress DOMAIN_CLOSED, frees the rest and clears ENABLE.
OVERFLOW_RING_HEAD_WRITE moves the head and lets waiting messages follow. -/
def Obligations.MatchingCommandsAct : Prop :=
    (∀ tok ans x r d f (s : State), mmsg tok s.m = some x → x.recv = some r → x.copying = true → d = x.cn / 2 ^ 24 →
        f = (Machine.cond d (x.cn % 2 ^ 24) s.m).fn →
        exec (.eagerCopyComplete tok ans) s = .next (finish s (recvCheck tok
          (updMmsg tok (fun x => { x with copying := false, stored := [], space := 0 }) (x.stored.foldl (fun m e => eagerPiece tok d f r ans e.1 e.2 m) s.m)))))
    ∧ (∀ tok ans (s : State), (∀ x, mmsg tok s.m = some x → x.recv = none ∨ x.copying = false) →
        exec (.eagerCopyComplete tok ans) s = .next (finish s s.m))
    ∧ (∀ tok x d cn (s : State), mmsg tok s.m = some x → x.place = 5 → d = x.cn / 2 ^ 24 → cn = x.cn % 2 ^ 24 → condState d cn s.m ≠ CSt.closed →
        exec (.rendezvousGetComplete tok) s = .next (finish s (recvDone tok (addMsg d cn { Msg.blank with
          op := Op.fin
          hdr := ((mtHdr 0 0 0 x.msg 0).take 16 ++ leBytes 1 (x.err.getD (St.ok, 0)).1 ++ leBytes 1 (x.err.getD (St.ok, 0)).2 ++ zeros 2
            ++ leBytes 4 x.placed) } s.m).2)))
    ∧ (∀ tok x (s : State), mmsg tok s.m = some x → x.place = 5 → condState (x.cn / 2 ^ 24) (x.cn % 2 ^ 24) s.m = CSt.closed →
        exec (.rendezvousGetComplete tok) s = .next (finish s (recvDone tok s.m)))
    ∧ (∀ d n tok x (s : State), d < 4 → n < 4096 → hostUp d s.m = true → tok = cur F.MTC_BIND_TAG_TOKEN d n s.m → mmsg tok s.m = some x → x.cn / 2 ^ 24 = d →
        x.dom = n → x.place = 2 → (dom d n s.m).bind = none →
        exec (.matchBind d n) s = .next (finish s (bindTo tok
          { bits := 0, ignore := 0, source := 0, any := true, len := cur F.MTC_BIND_ARG_LENGTH d n s.m
            buf := [(cur F.MTC_BIND_BUF_ADDR d n s.m, cur F.MTC_BIND_ARG_LENGTH d n s.m)], indirect := false
            xctx := cur F.MTC_BIND_ARG_XCTX d n s.m, cring := cur F.MTC_BIND_ARG_CRING d n s.m, tag := cur F.MTC_BIND_TAG_USER_TAG d n s.m
            idx := tok % 65536, q := noQueue, gen := 0, time := now d s.m }
          (wrB F.MTC_BIND_CMD_PENDING d n true (updDom d n (fun y => { y with bind := some tok }) s.m)))))
    ∧ (∀ d n (s : State), d < 4 → n < 4096 → hostUp d s.m = true → mmsg (cur F.MTC_BIND_TAG_TOKEN d n s.m) s.m = none →
        exec (.matchBind d n) s = .next (finish s (wrB F.MTC_BIND_CMD_BIND_ERR d n true s.m)))
    ∧ (∀ d n (s : State), d < 4 → n < 4096 → hostUp d s.m = true → domState d n s.m ≠ 2 → exec (.domainResume d n) s = .next (finish s s.m))
    ∧ (∀ d n (s : State) m1 m, d < 4 → n < 4096 → hostUp d s.m = true → m1 = (dom d n s.m).posted.foldl (fun m r => recvCpl d r St.flushed 0 0 0 0 0 m) s.m →
        m = ((m1.trn.mmsg.filter (fun e => e.2.cn / 2 ^ 24 == d && e.2.dom == n)).map Prod.fst).foldl (fun m t => domainMsgEnd true t m) m1 →
        exec (.domainDisable d n) s = .next (finish s (wrB F.MTC_BIND_CMD_PENDING d n false (wr F.MTC_DSTATUS_STATE d n 0
          (setDom d n Dom.reset (force F.MTC_DCTL_ENABLE d n 0 m))))))
    ∧ (∀ d n h (s : State), d < 4 → n < 4096 → h < 65536 → hostUp d s.m = true → 
        exec (.overflowRingHeadWrite d n h) s = .next (finish s (ovfDrain d n (dom d n (force F.MTC_OVF_IDX_HEAD d n h s.m)).waits.length
          (force F.MTC_OVF_IDX_HEAD d n h s.m))))

/-- A message matches a posted receive exactly when the bits agree outside the ignore mask and the source is the one named or any (R344).
For every receive and every message with match bits B from source E, as numbers of 64 bits: the receive matches the
message if and only if (M XOR B) AND NOT I is 0 (no bit of the 64 where the receive's and the sender's bits differ
outside the receive's ignore mask) and ANY_SOURCE is 1 or S = E. The message has neither a mask nor a wildcard:
nothing else of it enters. -/
def Obligations.AReceiveMatchesByItsBitsAndSource : Prop :=
  ∀ (r : Recv) (B E : Nat), r.bits < 2 ^ 64 → r.ignore < 2 ^ 64 → B < 2 ^ 64 →
      (r.matches B E = true ↔
        (BitVec.ofNat 64 r.bits ^^^ BitVec.ofNat 64 B) &&& ~~~ BitVec.ofNat 64 r.ignore = 0#64 ∧ (r.any = true ∨ r.source = E))

/-- A RESUME of a domain in OVERFLOW returns it to NORMAL with an event while HEAD equals TAIL, and is refused otherwise (R359).
On a served die, DOMAIN_RESUME (a write of 1 to MTC_DCTL.RESUME) of a domain in OVERFLOW: while HEAD equals TAIL the
domain is NORMAL afterwards and a MATCH_OVERFLOW event with detail RESUMED (4) is raised; otherwise RESUME_REFUSED
is set and the domain stays in OVERFLOW. -/
def Obligations.ADomainResumesOnlyWithAnEmptyRing : Prop :=
    (∀ d n (s : State), d < 4 → n < 4096 → hostUp d s.m = true → domState d n s.m = 2 → rd F.MTC_OVF_IDX_TAIL d n s.m = cur F.MTC_OVF_IDX_HEAD d n s.m →
        exec (.domainResume d n) s = .next (finish s (mtEvent d n 4 0 (wr F.MTC_DSTATUS_STATE d n 1 s.m)))
          ∧ domState d n (wr F.MTC_DSTATUS_STATE d n 1 s.m) = 1)
    ∧ (∀ d n (s : State), d < 4 → n < 4096 → hostUp d s.m = true → domState d n s.m = 2 → rd F.MTC_OVF_IDX_TAIL d n s.m ≠ cur F.MTC_OVF_IDX_HEAD d n s.m →
        exec (.domainResume d n) s = .next (finish s (wrB F.MTC_DSTATUS_RESUME_REFUSED d n true s.m))
          ∧ domState d n (wrB F.MTC_DSTATUS_RESUME_REFUSED d n true s.m) = 2)
    ∧ (∀ d n fl m, mtEvent d n 4 fl m = event d (domFn d n m) 0x0070 4 (leBytes 2 n ++ zeros 2 ++ leBytes 4 fl) m)

/-- Admission of a chunk, its waits, inputs, outputs, credits and timeouts, and the reset of a program (R375, R376, R377, R381, R382, R384, R387, R388, R479).
On a served die, of a program with a current instance. CHUNK_ADMIT with a chunk left, room in the window and the
tags of its inputs admits the next chunk after the Drover gap: it comes to its first step and its HOST inputs are
read, or with no step it retires. DROVER_TIME_WAIT_END of a waiting chunk lets time run to the awaited time and
starts its step. LOCAL_INPUT_READ_COMPLETE delivers the edge's bytes from context memory. COLL_OUTPUT_SEND of a
formed result on an edge with credit sends the packet at its release, where the contract of a timed step still
holds, or writes it to the memory of a HOST or LOCAL edge. CREDIT_SEND tells the sender the lowest chunk not
retired, of the instance before first, at most once in 256 ns. STEP_TIMEOUT of a step that may be partial forms its
result from what has come; of one that may not it fails the instance with LINK_LOST, of a timed one with DEADLINE.
DROVER_PROGRAM_RESET ends the instances and makes the program idle. COLL_PACKET_RECEIVE takes the next delivered
packet to the checks of R381. With nothing to act on nothing happens. -/
def Obligations.TheDroverMovesItsChunks : Prop :=
    (∀ d p P x ans c ss k l y (s : State), d < 4 → p < 256 → hostUp d s.m = true → prog d p s.m = some P → (drun d p s.m).cur = some x → c = x.next → c < x.total P →
        (x.chunks.filter (fun e => e.2.phase != 3)).length < P.window → ss = stepsOf P c P.steps.length 0 → inputTags d P ss s.m = true →
        ss = k :: l → P.step? k = some y →
        exec (.chunkAdmit d p ans) s = .next (finish s (chunkGo d p c (hostInputs d p c P x ss ans
          (enterStep d p c x k y (updInst d p false (fun y => { y with next := c + 1 }) (ensureChunk d p false c (admitGap d P ss s.m))))))))
    ∧ (∀ d p P x ans c (s : State), d < 4 → p < 256 → hostUp d s.m = true → prog d p s.m = some P → (drun d p s.m).cur = some x → c = x.next → c < x.total P →
        (x.chunks.filter (fun e => e.2.phase != 3)).length < P.window → stepsOf P c P.steps.length 0 = [] → inputTags d P [] s.m = true →
        exec (.chunkAdmit d p ans) s = .next (finish s (showProg d p (retire d p c
          (updInst d p false (fun y => { y with next := c + 1 }) (ensureChunk d p false c (admitGap d P [] s.m)))))))
    ∧ (∀ d p P x ans (s : State), d < 4 → p < 256 → hostUp d s.m = true → prog d p s.m = some P → (drun d p s.m).cur = some x → (x.total P ≤ x.next ∨ P.window ≤ (x.chunks.filter (fun e => e.2.phase != 3)).length
          ∨ inputTags d P (stepsOf P x.next P.steps.length 0) s.m = false) →
        exec (.chunkAdmit d p ans) s = .next (finish s s.m))
    ∧ (∀ d p c x ck (s : State), d < 4 → p < 256 → hostUp d s.m = true → (drun d p s.m).cur = some x → NMap.find x.chunks c = some ck → ck.phase = 0 →
        exec (.droverTimeWaitEnd d p c) s = .next (finish s (chunkGo d p c (updChunk d p false c
          (fun q => { q with phase := 1, alarm := false, time := now d (if now d s.m < ck.time then runTo d ck.time s.m else s.m) })
          (if now d s.m < ck.time then runTo d ck.time s.m else s.m)))))
    ∧ (∀ d p P x c e k j y ck es n (s : State), d < 4 → p < 256 → hostUp d s.m = true → prog d p s.m = some P → (drun d p s.m).cur = some x → e < 64 → P.edge? e = some k → stepIn P e = some j → P.step? j = some y →
        NMap.find x.chunks c = some ck → k.kind = 4 → bit ck.got e = false → ck.phase ≠ 3 → es = elemSize y.op y.dt →
        n = elems P x c * es →
        exec (.localInputReadComplete d p c e) s = .next (finish s (chunkGo d p c (deliverEdge d p false P c e false 0 (elems P x c)
          (poolRead d (k.off + c * P.chunk * es) n s.m) 0 0 (energy d 23 10 ((n + 63) / 64) s.m)))))
    ∧ (∀ d p P x c e k ans st ck m (s : State), d < 4 → p < 256 → hostUp d s.m = true → prog d p s.m = some P → (drun d p s.m).cur = some x → e < 64 → NMap.find x.chunks c = some ck → P.edge? e = some k → P.step? ck.step = some st →
        ck.phase = 2 → bit ck.left e = true → creditOk P x e c = true → k.kind ≤ 2 →
        m = (if st.timed = true ∧ now d s.m < ck.release then runTo d ck.release s.m else s.m) →
        stepVoid d P st m = none → exec (.collOutputSend d p c e ans) s = .next (finish s (outSent d p c e (count d 578 1
          (collSend d P k true st.timed (if st.timed then st.res else 0) (if st.timed then 2 else 0) (outBody P x st k c ck) m)))))
    ∧ (∀ d p P x c e k ans st ck m status detail (s : State), d < 4 → p < 256 → hostUp d s.m = true → prog d p s.m = some P → (drun d p s.m).cur = some x → e < 64 → NMap.find x.chunks c = some ck → P.edge? e = some k → P.step? ck.step = some st →
        ck.phase = 2 → bit ck.left e = true → creditOk P x e c = true → k.kind ≤ 2 →
        m = (if st.timed = true ∧ now d s.m < ck.release then runTo d ck.release s.m else s.m) →
        stepVoid d P st m = some (status, detail) →
        exec (.collOutputSend d p c e ans) s = .next (finish s (timedFail d p P.fn st.res status detail m)))
    ∧ (∀ d p P x c e k ans st ck h b z m (s : State), d < 4 → p < 256 → hostUp d s.m = true → prog d p s.m = some P → (drun d p s.m).cur = some x → e < 64 → NMap.find x.chunks c = some ck → P.edge? e = some k → P.step? ck.step = some st →
        ck.phase = 2 → bit ck.left e = true → creditOk P x e c = true → k.kind = 3 → st.op ≠ 0 →
        h = hostPart P x x.outOwn x.outAddr (elemSize st.op st.dt) c → h.2.1 ≠ 0 →
        b = sub ck.result ((h.1 - c * P.chunk) * elemSize st.op st.dt) (h.2.1 * elemSize st.op st.dt) →
        writeVa d P.fn x.xctx h.2.2 Cls5.drover b ans s.m = (.ok z, m) →
        exec (.collOutputSend d p c e ans) s = .next (finish s (outSent d p c e
          (updInst d p false (fun y => { y with written := y.written + b.length }) m))))
    ∧ (∀ d p P x c e k ans st ck (s : State), d < 4 → p < 256 → hostUp d s.m = true → prog d p s.m = some P → (drun d p s.m).cur = some x → e < 64 → NMap.find x.chunks c = some ck → P.edge? e = some k → P.step? ck.step = some st →
        ck.phase = 2 → bit ck.left e = true → creditOk P x e c = true → k.kind = 4 → st.op ≠ 0 →
        exec (.collOutputSend d p c e ans) s = .next (finish s (outSent d p c e
          (poolWrite d (k.off + c * P.chunk * elemSize st.op st.dt) ck.result (energy d 23 10 ((ck.result.length + 63) / 64) s.m)))))
    ∧ (∀ d p P x c e ans ck (s : State), d < 4 → p < 256 → hostUp d s.m = true → prog d p s.m = some P → (drun d p s.m).cur = some x → e < 64 → NMap.find x.chunks c = some ck → creditOk P x e c = false →
        exec (.collOutputSend d p c e ans) s = .next (finish s s.m))
    ∧ (∀ d p P x e k j t m old (s : State), d < 4 → p < 256 → hostUp d s.m = true → prog d p s.m = some P → creditOwner (drun d p s.m) e = some (old, x) →
        e < 64 → P.edge? e = some k → stepIn P e = some j → k.kind ≤ 1 →
        t = NMap.get 0 (drun d p s.m).creditAt e →
        m = count d 579 1 (collSend d P k false false 0 1 (collHdr 2 0 P.collId k.peer x.num x.low x.n x.base 0 0 0)
          (if 0 < t ∧ now d s.m < t - 1 + 256 then runTo d (t - 1 + 256) s.m else s.m)) →
        exec (.creditSend d p e) s = .next (finish s (updDrun d p (fun r => { r with
          old := if old then r.old.map (fun y => { y with credited := NMap.put y.credited e x.low }) else r.old
          cur := if old then r.cur else r.cur.map (fun y => { y with credited := NMap.put y.credited e x.low })
          creditAt := NMap.put r.creditAt e (now d m + 1) }) m)))
    ∧ (∀ d p P e (s : State), d < 4 → p < 256 → hostUp d s.m = true → prog d p s.m = some P → e < 64 → creditOwner (drun d p s.m) e = none →
        exec (.creditSend d p e) s = .next (finish s s.m))
    ∧ (∀ d p P x c st ck t m (s : State), d < 4 → p < 256 → hostUp d s.m = true → prog d p s.m = some P → (drun d p s.m).cur = some x → NMap.find x.chunks c = some ck → P.step? ck.step = some st → ck.phase = 1 → st.partOk = true →
        t = ck.time + (if st.timeout = 0 then P.timeout else st.timeout) * 1000 → m = (if now d s.m < t then runTo d t s.m else s.m) →
        exec (.stepTimeout d p c) s = .next (finish s (chunkGo d p c (formNow d p c P x ck.step st ck
          (updInst d p false (fun y => { y with missing := max y.missing (awaited ck st).length, partialDone := true })
            (updChunk d p false c (fun q => { q with closed := setBit q.closed ck.step true }) m))))))
    ∧ (∀ d p P x c st ck t m (s : State), d < 4 → p < 256 → hostUp d s.m = true → prog d p s.m = some P → (drun d p s.m).cur = some x → NMap.find x.chunks c = some ck → P.step? ck.step = some st → ck.phase = 1 → st.partOk = false →
        st.timed = false → t = ck.time + (if st.timeout = 0 then P.timeout else st.timeout) * 1000 →
        m = (if now d s.m < t then runTo d t s.m else s.m) →
        exec (.stepTimeout d p c) s = .next (finish s (instFail d p St.linkLost
          (if (awaited ck st).any (fun e => match P.edge? e with | some k => inputDown k m | none => false) then 0x51 else 0x52) m)))
    ∧ (∀ d p P x c st ck t m (s : State), d < 4 → p < 256 → hostUp d s.m = true → prog d p s.m = some P → (drun d p s.m).cur = some x → NMap.find x.chunks c = some ck → P.step? ck.step = some st → ck.phase = 1 → st.partOk = false →
        st.timed = true → t = ck.time + (if st.timeout = 0 then P.timeout else st.timeout) * 1000 →
        m = (if now d s.m < t then runTo d t s.m else s.m) →
        exec (.stepTimeout d p c) s = .next (finish s (timedFail d p P.fn st.res St.deadline 0x15 m)))
    ∧ (∀ d p (s : State), d < 4 → p < 256 → hostUp d s.m = true → (prog d p s.m).isSome = true →
        exec (.droverProgramReset d p) s = .next (finish s (updDrun d p
          (fun r => { r with state := 1, next := cur F.DRV_PCMD_INSTANCE d p (instFail d p St.hostAbort 0x54 s.m) })
          (force F.DRV_PCMD_RESET d p 0 (instFail d p St.hostAbort 0x54 s.m)))))
    ∧ (∀ d p (s : State), d < 4 → p < 256 → hostUp d s.m = true → prog d p s.m = none → exec (.droverProgramReset d p) s = .next (finish s s.m))
    ∧ (∀ d b r (s : State), d < 4 → hostUp d s.m = true → NMap.get [] s.m.xb.dq d = b :: r → unitState d 21 s.m ≠ UnitSt.fenced →
        unitState d 21 s.m ≠ UnitSt.unusable → dieUp d s.m = true →
        exec (.collPacketReceive d) s = .next (finish s (collIn d b (updXb (fun y => { y with dq := NMap.set [] y.dq d r }) s.m))))
    ∧ (∀ d (s : State), d < 4 → hostUp d s.m = true → NMap.get [] s.m.xb.dq d = [] →
        exec (.collPacketReceive d) s = .next (finish s s.m))

/-- An access is translated and checked, cached translations are dropped or locked, contexts disabled and regions locked (R427, R430, R432, R433, R434, R435, R437, R438, R439, R444, R446).
On a served die. TRANSLATION_WALK of a nonempty access in a context that is not enabled or not the function's logs a
fault of cause 9; of an address wider than the context's levels cause 5; of one page held in the look-aside buffer
with the kind permitted and no mark to write it makes that entry the most recently used, and records a violation
where a region forbids a byte; of one page not held there whose walk ends in a leaf it enters the leaf and the
passed entries, with the same check. XLT_INVALIDATE with no invalidation under way, of a context the function may
name, drops the scope's entries and sets BUSY; with one under way or of another's context it is counted UNDECODED.
INVALIDATE_DONE clears BUSY, and DRAINING of the function's contexts. XLT_LOCK of one page locks its entry.
CONTEXT_DISABLE clears ENABLE, drops the context's entries and sets DRAINING. REGION_LOCK sets LOCK. -/
def Obligations.TranslationCommandsAct : Prop :=
    (∀ d f c va len kind cls ans (s : State), d < 4 → f < 1026 → c < 4096 → va < 2 ^ 64 → kind < 3 → cls < 5 → hostUp d s.m = true →
        0 < len → ctxOk d f c s.m = false →
        exec (.translationWalk d f c va len kind cls ans) s = .next (finish s (logFault d f c va kind cls 9 0 s.m)))
    ∧ (∀ d f c va len kind cls ans (s : State), d < 4 → f < 1026 → c < 4096 → va < 2 ^ 64 → kind < 3 → cls < 5 → hostUp d s.m = true →
        0 < len → ctxOk d f c s.m = true → 2 ^ vaWidth (ctxLevels d c s.m) ≤ va →
        exec (.translationWalk d f c va len kind cls ans) s = .next (finish s (logFault d f c va kind cls 5 0 s.m)))
    ∧ (∀ d f c va len kind cls ans (s : State) t m, d < 4 → f < 1026 → c < 4096 → va < 2 ^ 64 → kind < 3 → cls < 5 → hostUp d s.m = true →
        0 < len → va % 4096 + len ≤ 4096 → ctxOk d f c s.m = true → va < 2 ^ vaWidth (ctxLevels d c s.m) →
        (xlt d s.m).tlb.find? (fun t => t.maps c va) = some t → entDenies t.leaf kind = none →
        (curB F.XLT_CTX_CFG_AD_EN d c s.m = false ∨ kind = 0 ∨ bit t.leaf 7 = true) →
        m = setXlt d { xlt d s.m with tlb := t :: (xlt d s.m).tlb.erase t } (count d 544 1 s.m) →
        exec (.translationWalk d f c va len kind cls ans) s = .next (finish s
          (match firstBad d (regions d m) f cls kind (t.oa + va % 2 ^ t.size) len m with
            | some b => violation d f cls kind va len b m
            | none => m)))
    ∧ (∀ d f c va len kind cls ans (s : State) b se t passed m1 m, d < 4 → f < 1026 → c < 4096 → va < 2 ^ 64 → kind < 3 → cls < 5 → hostUp d s.m = true →
        0 < len → va % 4096 + len ≤ 4096 → ctxOk d f c s.m = true → va < 2 ^ vaWidth (ctxLevels d c s.m) →
        (xlt d s.m).tlb.find? (fun t => t.maps c va) = none →
        walkMark d f c va kind (inbound cls) (regions d s.m) 8 ans (bump F.XLT_CNT_WALKS d 0 (count d 545 1 (count d 544 1 s.m)))
          = (.ok b se, some (t, passed), m1) →
        m = setXlt d { xlt d m1 with tlb := tlbAdd t (xlt d m1).tlb, walk := walkAdd passed (xlt d m1).walk } m1 →
        exec (.translationWalk d f c va len kind cls ans) s = .next (finish s
          (match firstBad d (regions d m) f cls kind b len m with
            | some x => violation d f cls kind va len x m
            | none => m)))
    ∧ (∀ d f c sc (s : State), d < 4 → f < 1026 → hostUp d s.m = true → rdB F.XLT_INV_CMD_BUSY d f s.m = false → c = cur F.XLT_INV_CMD_CTX d f s.m →
        sc = cur F.XLT_INV_CMD_SCOPE d f s.m → (sc = 1 ∨ sc = 2 → ctxForeign d f c s.m = false) →
        exec (.xltInvalidate d f) s = .next (finish s (dropXlt d f sc c (cur F.XLT_INV_ADDR_VA d f s.m)
          (max 1 (cur F.XLT_INV_CMD_PAGES d f s.m)) (wrB F.XLT_INV_CMD_BUSY d f true s.m))))
    ∧ (∀ d f (s : State), d < 4 → f < 1026 → hostUp d s.m = true → (rdB F.XLT_INV_CMD_BUSY d f s.m = true
          ∨ ((cur F.XLT_INV_CMD_SCOPE d f s.m = 1 ∨ cur F.XLT_INV_CMD_SCOPE d f s.m = 2) ∧ ctxForeign d f (cur F.XLT_INV_CMD_CTX d f s.m) s.m = true)) →
        exec (.xltInvalidate d f) s = .next (finish s (bump F.HIF_ACC_ERR_UNDECODED d 0 s.m)))
    ∧ (∀ d f (s : State), d < 4 → f < 1026 → hostUp d s.m = true → (rdB F.XLT_INV_CMD_BUSY d f s.m = true ∨ drainingOf d f s.m ≠ []) →
        exec (.invalidateDone d f) s = .next (finish s (count d 548 1 (wrB F.XLT_INV_CMD_BUSY d f false
          (each (drainingOf d f s.m) (fun c m => wrB F.XLT_CTX_CFG_DRAINING d c false m) s.m)))))
    ∧ (∀ d f (s : State), d < 4 → f < 1026 → hostUp d s.m = true → rdB F.XLT_INV_CMD_BUSY d f s.m = false → drainingOf d f s.m = [] →
        exec (.invalidateDone d f) s = .next (finish s s.m))
    ∧ (∀ d f ans c va b se m t (s : State), d < 4 → f < 1026 → hostUp d s.m = true → c = cur F.XLT_LOCK_CMD_CTX d f s.m → va = cur F.XLT_LOCK_ADDR_VA d f s.m * 4096 →
        ctxForeign d f c s.m = false → cur F.XLT_LOCK_CMD_PAGES d f s.m ≤ 1 → Sys2Proof.Machine.translate d f c va 0 false ans s.m = (.ok b se, m) →
        (xlt d m).tlb.find? (fun t => t.maps c va) = some t → t.locked = false → ((xlt d m).tlb.filter TlbEnt.locked).length < 512 →
        exec (.xltLock d f ans) s
          = .next (finish s (setXlt d { xlt d m with tlb := { t with locked := true } :: (xlt d m).tlb.erase t } m)))
    ∧ (∀ d c (s : State), d < 4 → c < 4096 → hostUp d s.m = true → 
        exec (.contextDisable d c) s
          = .next (finish s (wrB F.XLT_CTX_CFG_DRAINING d c true (dropXlt d 0 1 c 0 0 (force F.XLT_CTX_CFG_ENABLE d c 0 s.m)))))
    ∧ (∀ d r (s : State), d < 4 → r < 1024 → hostUp d s.m = true → exec (.regionLock d r) s = .next (finish s (force F.ACP_RCTL_LOCK d r 1 s.m)))

/-- A walk that ends in a leaf has passed every check: present, no reserved bit, the kind permitted, a page size of its level, aligned (R425, R426, R427).
Whatever the tables and the walk caches hold: where the walk from a level ends in a leaf entry, the entry is present
and marked a leaf, has no reserved bit set, permits the kind of access, stands at a level where a leaf may stand,
its address is a multiple of its page, and its slot lies in no page that the regions mark as having side effects. -/
def Obligations.AWalkEndsOnlyInALawfulLeaf : Prop :=
  ∀ d c va kind inb rs ans n table acc m e slot lv p m', walkGo d c va kind inb rs ans n table acc m = (.leaf e slot lv p, m') →
      bit e 0 = true ∧ bit e 1 = true ∧ entReserved e = false ∧ entDenies e kind = none ∧ 1 ≤ lv ∧ lv ≤ 3 ∧ lv ≤ n ∧ seHit rs slot 8 = false
        ∧ ∃ sz, leafSize lv (bit e 8) = some sz ∧ entOA e % 2 ^ sz = 0

/-- An access that is granted touches no 64-byte granule whose permission forbids its master class and kind (R437, R440, R448).
Whatever the tables, regions and caches hold: where an access of a class and kind is granted, then in each of its
bus pieces the permission in force at the first byte that the piece has in each 64-byte granule it touches permits
that class and kind; where it is not granted, it gives no bus pieces at all. -/
def Obligations.AGrantedAccessIsPermitted : Prop :=
  ∀ d f c va len kind cls ans m ps se m', access d f c va len kind cls ans m = (.ok ps se, m') →
      ∀ a n, (a, n) ∈ ps → ∀ g, a / 64 ≤ g → g < (a + n + 63) / 64 → permits (permOf d (regions d m') f (max a (g * 64)) m') cls kind = true

/-- BAR4 requests become messages or are answered, windows are committed, reads time out, and mirrors are sent (R451, R452, R455, R456, R457, R458, R460, R462, R464).
On a served die. BAR4_REQUEST that no active window holds is counted UNDECODED, and a read or AtomicOp of it returns
all ones; an AtomicOp in a window without an exclusive mode gets Completer Abort; one whose window's conduit is open
starts its message at once where nothing before it is waited for, else waits. WINDOW_COMMIT copies an enabled shadow
set that passes the checks to the active set and counts it; one that fails sets COMMIT_ERR and the cause; one not
enabled disables the window. PEER_READ_TIMEOUT of a waiting read answers Completer Abort. PWLOG_REARM lets the log
signal again. MIRROR_POLL of an enabled mirror whose value changed, or was unchanged for 64 polls, sends it with the
next sequence number; otherwise it counts the poll; of one not enabled nothing happens. -/
def Obligations.PeerWindowsForwardTheirRequests : Prop :=
    (∀ d pf id k off len op b n (s : State), d < 4 → pf < 2 → k < 3 → hostUp d s.m = true → n = (if k = 1 then len else if k = 2 ∧ op = 2 then b.length / 2 else b.length) →
        decodeBar4 d pf off n s.m = none →
        exec (.bar4Request d pf id k off len op b) s = .next (finish s (if k = 0 then bump F.HIF_ACC_ERR_UNDECODED d 0 s.m
          else bar4Reply d id 0 (List.replicate n 0xFF#8) (bump F.HIF_ACC_ERR_UNDECODED d 0 s.m))))
    ∧ (∀ d pf id off len op b n w x (s : State), d < 4 → pf < 2 → hostUp d s.m = true → n = (if op = 2 then b.length / 2 else b.length) →
        decodeBar4 d pf off n s.m = some (w, x) → (x.swap = 0 ∨ (off % 2 ^ x.swap = 0 ∧ n % 2 ^ x.swap = 0)) → x.xmode = 0 →
        exec (.bar4Request d pf id 2 off len op b) s = .next (finish s (bar4Reply d id 4 [] s.m)))
    ∧ (∀ d pf id k off len op b n w x cn (s : State) q m, d < 4 → pf < 2 → k < 3 → hostUp d s.m = true → 
        n = (if k = 1 then len else if k = 2 ∧ op = 2 then b.length / 2 else b.length) →
        decodeBar4 d pf off n s.m = some (w, x) → (x.swap = 0 ∨ (off % 2 ^ x.swap = 0 ∧ n % 2 ^ x.swap = 0)) → (k = 2 → x.xmode ≠ 0) →
        unicastOf d (pfFn pf) x.eid x.pasture s.m = some cn → condLive d cn s.m = true →
        q = { die := d, win := w, id := id, kind := k, off := off, len := n, op := op, data := b, set := x, sent := false, time := 0 } →
        m = wr F.PWN_WIN_STATUS_INFLIGHT d w (rd F.PWN_WIN_STATUS_INFLIGHT d w s.m + 1) (updTrn (fun t => { t with bar4 := t.bar4 ++ [q] }) s.m) →
        exec (.bar4Request d pf id k off len op b) s = .next (finish s (bar4Try q m)))
    ∧ (∀ q m, bar4Waits q m = true → bar4Try q m = m)
    ∧ (∀ q cn m, bar4Waits q m = false → (q.kind = 0 ∨ q.set.strict = false ∨ NMap.get false m.trn.strict (q.die * 256 + q.win) = false) →
        unicastOf q.die (pfFn (winPf q.die q.win m)) q.set.eid q.set.pasture m = some cn →
        bar4Try q m = updTrn (fun t => { t with bar4 := t.bar4.map (fun x => if x.die = q.die ∧ x.id = q.id
            then { x with sent := true, time := now q.die (addMsg q.die cn (bar4Msg q) m).2 } else x) }) (addMsg q.die cn (bar4Msg q) m).2)
    ∧ (∀ d w (s : State), d < 4 → w < 256 → hostUp d s.m = true → curB F.PWN_WIN_MODE_ENABLE d w s.m = true → commitBad d w (shadowSet d w s.m) s.m = none →
        exec (.windowCommit d w) s = .next (finish s (bumpWrap F.PWN_WIN_STATUS_COMMITS d w (wrB F.PWN_WIN_STATUS_ACTIVE d w true
          (updTrn (fun t => { t with win := NMap.upd t.win (d * 256 + w) (some (shadowSet d w s.m)) }) s.m)))))
    ∧ (∀ d w e (s : State), d < 4 → w < 256 → hostUp d s.m = true → curB F.PWN_WIN_MODE_ENABLE d w s.m = true → commitBad d w (shadowSet d w s.m) s.m = some e →
        exec (.windowCommit d w) s
          = .next (finish s (wr F.PWN_WIN_CMD_ERR_CAUSE d w e (wrB F.PWN_WIN_CMD_COMMIT_ERR d w true s.m))))
    ∧ (∀ d w (s : State), d < 4 → w < 256 → hostUp d s.m = true → curB F.PWN_WIN_MODE_ENABLE d w s.m = false →
        exec (.windowCommit d w) s = .next (finish s (bumpWrap F.PWN_WIN_STATUS_COMMITS d w (wrB F.PWN_WIN_STATUS_ACTIVE d w false
          (updTrn (fun t => { t with win := NMap.upd t.win (d * 256 + w) none }) s.m)))))
    ∧ (∀ d id q (s : State), d < 4 → hostUp d s.m = true → s.m.trn.bar4.find? (fun b => b.die == d && b.id == id && b.kind != 0) = some q →
        exec (.peerReadTimeout d id) s = .next (finish s (bar4Next d (bar4Reply d id 4 [] (bar4End q s.m)))))
    ∧ (∀ d id (s : State), d < 4 → hostUp d s.m = true → s.m.trn.bar4.find? (fun b => b.die == d && b.id == id && b.kind != 0) = none →
        exec (.peerReadTimeout d id) s = .next (finish s s.m))
    ∧ (∀ d (s : State), d < 4 → hostUp d s.m = true → exec (.pwlogRearm d) s
          = .next (finish s (updTrn (fun t => { t with pwSig := NMap.set false t.pwSig d false }) s.m)))
    ∧ (∀ d k (s : State), d < 4 → k < 64 → hostUp d s.m = true → curB F.PWN_MIR_CTL_ENABLE d k s.m = false → exec (.mirrorPoll d k) s = .next (finish s s.m))
    ∧ (∀ d k r (s : State), d < 4 → k < 64 → hostUp d s.m = true → curB F.PWN_MIR_CTL_ENABLE d k s.m = true → r = NMap.get Mirror.reset s.m.trn.mir (d * 64 + k) →
        cur F.PWN_MIR_OUT_VALUE d k s.m = r.last → r.polls + 1 < 64 →
        exec (.mirrorPoll d k) s = .next (finish s
          (updTrn (fun t => { t with mir := NMap.set Mirror.reset t.mir (d * 64 + k) { r with polls := r.polls + 1 } }) s.m)))
    ∧ (∀ d k r v cn (s : State) m, d < 4 → k < 64 → hostUp d s.m = true → curB F.PWN_MIR_CTL_ENABLE d k s.m = true → r = NMap.get Mirror.reset s.m.trn.mir (d * 64 + k) →
        v = cur F.PWN_MIR_OUT_VALUE d k s.m → (v ≠ r.last ∨ 63 ≤ r.polls) →
        unicastOf d 0 (cur F.PWN_MIR_CFG_EID d k s.m) (cur F.PWN_MIR_CFG_PASTURE d k s.m) s.m = some cn →
        m = (addMsg d cn { Msg.blank with
              op := Op.put, len := 8, addr := 0
              hdr := (rmaHdr (2 ^ 63 + cur F.PWN_MIR_CFG_PEER_MIR d k s.m) 0 0 0)
              held := some (leBytes 4 v ++ leBytes 2 (cur F.PWN_MIR_CTL_PERIOD_US d k s.m) ++ leBytes 2 ((r.seq + 1) % 65536)) } s.m).2 →
        exec (.mirrorPoll d k) s = .next (finish s (updTrn (fun t => { t with mir := (NMap.set Mirror.reset t.mir (d * 64 + k)
          { last := v, polls := 0, seq := (r.seq + 1) % 65536, got := r.got, sentOnce := true }) }) m)))

/-- A die takes the energy action pushed to it; a self-test slice ends, repairs its macro with a spare, or is taken again (R477, R511, R513, R514, R515).
On a served die. ACTION_ENTRY_APPLY of a pushed entry takes it and shows its quiet time, Drover gap and injection
scale; with none pushed nothing happens. SLICE_COMPLETE with a pass of a macro of the pass under way counts it done;
with a failure it also uses a spare, counts and shows the failure, and raises the memory fault of its unit, and the
fault of no spares where the last is used; of another macro nothing happens. SLICE_ABORT puts the macro behind the
others and counts it. -/
def Obligations.EnergyActionsAndTestSlicesEnd : Prop :=
    (∀ d l (s : State), d < 4 → hostUp d s.m = true → NMap.find s.m.tly.due d = some l →
        exec (.actionEntryApply d) s = .next (finish s (wr F.TLY_ACTION_QUIET_IDLE_NS d 0 (actionOf l s.m).quiet
          (wr F.TLY_ACTION_DROVER_GAP_NS d 0 (actionOf l s.m).gap (wr F.TLY_ACTION_INJ_SCALE d 0 (actionOf l s.m).inj
            { s.m with tly := { s.m.tly with due := NMap.del s.m.tly.due d } })))))
    ∧ (∀ d (s : State), d < 4 → hostUp d s.m = true → NMap.find s.m.tly.due d = none → exec (.actionEntryApply d) s = .next (finish s s.m))
    ∧ (∀ d k u (s : State), d < 4 → k < 1920 → u < 28 → hostUp d s.m = true → (slicesOf d s.m).contains k = true →
        exec (.sliceComplete d k u true) s = .next (finish s (passEnd d (bump F.BST_CNT_SLICES_DONE d 0 (count d 677 1
          (setSlices d ((slicesOf d s.m).erase k) (againOf d s.m) (NMap.get 0 s.m.bst.pos d) s.m))))))
    ∧ (∀ d k u (s : State) m left n r, d < 4 → k < 1920 → u < 28 → hostUp d s.m = true → (slicesOf d s.m).contains k = true →
        m = bump F.BST_CNT_SLICES_DONE d 0 (count d 677 1
          (setSlices d ((slicesOf d s.m).erase k) (againOf d s.m) (NMap.get 0 s.m.bst.pos d) s.m)) →
        left = rd F.BST_SPARES_SPARES_LEFT d 0 m - 1 →
        n = wr F.BST_SPARES_SPARES_LEFT d 0 left (bump F.BST_SPARES_REPAIRED d 0 (bump F.BST_CNT_FAILED d 0
          { m with bst := { m.bst with spared := NMap.set false m.bst.spared (d * 2048 + k) true } })) →
        r = raise d u 5 0 k none (wr F.BST_LAST_FAIL_MACRO d 0 k (wr F.BST_LAST_FAIL_FRAME d 0 (now d n / 1048576) n)) →
        exec (.sliceComplete d k u false) s
          = .next (finish s (passEnd d (if left = 0 then raise d 26 6 0 0 none (wrB F.BST_STATUS_NO_SPARE d 0 true r) else r))))
    ∧ (∀ d k u p (s : State), d < 4 → k < 1920 → u < 28 → hostUp d s.m = true → (slicesOf d s.m).contains k = false →
        exec (.sliceComplete d k u p) s = .next (finish s s.m) ∧ exec (.sliceAbort d k) s = .next (finish s s.m))
    ∧ (∀ d k (s : State), d < 4 → k < 1920 → hostUp d s.m = true → (slicesOf d s.m).contains k = true →
        exec (.sliceAbort d k) s = .next (finish s (bump F.BST_CNT_ABORTED d 0
          (setSlices d ((slicesOf d s.m).erase k) (againOf d s.m ++ [k]) (NMap.get 0 s.m.bst.pos d) s.m))))

/-- SPDM requests are answered in the order of negotiation, and otherwise with the error UnexpectedRequest (R523, R524, R525).
Where the responder is reached: GET_VERSION answers version 1.3 and starts negotiation; GET_CAPABILITIES and
NEGOTIATE_ALGORITHMS are answered each in its turn and with UnexpectedRequest out of it; after both, GET_DIGESTS,
GET_CERTIFICATE, CHALLENGE, GET_MEASUREMENTS and SET_CERTIFICATE are answered, and before with UnexpectedRequest;
KEY_EXCHANGE begins a session while fewer than 8 are held and is answered SessionLimitExceeded otherwise; CHALLENGE
and KEY_EXCHANGE are signed with the device identity key and answered Unspecified while the module holds none;
SET_CERTIFICATE writes slots 1 to 7 in PROVISIONED or FIELD and is refused otherwise. Response codes are the model's
reading of the SPDM standard (PRESUMED, log entry 16). -/
def Obligations.SpdmRequestsAreAnsweredInOrder : Prop :=
    (∀ v (s : State), v < 17 → spdmServed v s.m = true → exec (.getVersion v) s = .next (finish s (setNegot v 1 (spdmAnswer 0x04 [0x00#8, 0x13#8] s.m))))
    ∧ (∀ v q (s : State), v < 17 → spdmServed v s.m = true → negot v s.m = 1 → exec (.getCapabilities v q) s
          = .next (finish s (setNegot v 2 (spdmAnswer 0x61 (Config.spdmBody 0xE1 q s.m.free) s.m))))
    ∧ (∀ v q (s : State), v < 17 → spdmServed v s.m = true → negot v s.m = 2 → exec (.negotiateAlgorithms v q) s
          = .next (finish s (setNegot v 3 (spdmAnswer 0x63 (Config.spdmBody 0xE3 q s.m.free) s.m))))
    ∧ (∀ v q (s : State), v < 17 → spdmServed v s.m = true → (negot v s.m ≠ 1 → exec (.getCapabilities v q) s = .next (finish s (spdmError 4 s.m)))
          ∧ (negot v s.m ≠ 2 → exec (.negotiateAlgorithms v q) s = .next (finish s (spdmError 4 s.m))))
    ∧ (∀ v (s : State), v < 17 → spdmServed v s.m = true → negot v s.m = 3 → exec (.getDigests v) s
          = .next (finish s (spdmAnswer 0x01 ((s.m.flash.certs.map (fun e => leBytes 1 e.1 ++ Config.sha384 e.2)).flatten) s.m)))
    ∧ (∀ v slot off len (s : State), v < 17 → spdmServed v s.m = true → negot v s.m = 3 → exec (.getCertificate v slot off len) s
          = .next (finish s (spdmAnswer 0x02 (((cert slot s.m).drop off).take len) s.m)))
    ∧ (∀ v q (s : State), v < 17 → spdmServed v s.m = true → negot v s.m = 3 → s.m.sec.idKey = true → exec (.challenge v q) s
          = .next (finish s (spdmAnswer 0x03 (Config.spdmBody 0x83 q s.m.free) { s.m with free := s.m.free + 1 })))
    ∧ (∀ v i (s : State), v < 17 → spdmServed v s.m = true → negot v s.m = 3 → exec (.getMeasurements v i) s
          = .next (finish s (spdmAnswer 0x60 (measured s.fuse i s.m) s.m)))
    ∧ (∀ v q (s : State), v < 17 → spdmServed v s.m = true → negot v s.m = 3 → s.m.sec.sessions.length < 8 → s.m.sec.idKey = true → exec (.keyExchange v q) s
          = .next (finish s (spdmAnswer 0x64 (leBytes 4 s.m.sec.nextSess ++ Config.spdmBody 0xE4 q s.m.free) { s.m with
              free := s.m.free + 1
              sec := { s.m.sec with
                sessions := s.m.sec.sessions ++ [{ id := s.m.sec.nextSess, via := v, draw := s.m.free, est := false, updates := 0 }]
                nextSess := s.m.sec.nextSess + 1 } })))
    ∧ (∀ v q (s : State), v < 17 → spdmServed v s.m = true → negot v s.m = 3 → 8 ≤ s.m.sec.sessions.length → exec (.keyExchange v q) s = .next (finish s (spdmError 0x0A s.m)))
    ∧ (∀ v q (s : State), v < 17 → spdmServed v s.m = true → negot v s.m = 3 → s.m.sec.idKey = false → exec (.challenge v q) s = .next (finish s (spdmError 5 s.m))
          ∧ (s.m.sec.sessions.length < 8 → exec (.keyExchange v q) s = .next (finish s (spdmError 5 s.m))))
    ∧ (∀ v slot chain (s : State), v < 17 → spdmServed v s.m = true → negot v s.m = 3 → 1 ≤ slot → slot ≤ 7 → (s.m.sec.lifecycle = 1 ∨ s.m.sec.lifecycle = 2) →
        exec (.setCertificate v slot chain) s = .next (finish s (spdmAnswer 0x6E (leBytes 1 slot)
          { s.m with flash := { s.m.flash with certs := NMap.set [] s.m.flash.certs slot chain } })))
    ∧ (∀ v slot chain (s : State), v < 17 → spdmServed v s.m = true → negot v s.m = 3 → (slot = 0 ∨ 7 < slot ∨ s.m.sec.lifecycle = 0 ∨ s.m.sec.lifecycle = 3) →
        exec (.setCertificate v slot chain) s = .next (finish s (spdmError 1 s.m)))
    ∧ (∀ v i q off len slot chain (s : State), v < 17 → spdmServed v s.m = true → negot v s.m ≠ 3 → ∀ c ∈ ([.getDigests v, .getCertificate v slot off len, .challenge v q,
          .getMeasurements v i, .keyExchange v q, .setCertificate v slot chain] : List Instr), ∃ m, exec c s = .next (finish s (spdmError 4 m)) ∧
            { m with free := s.m.free } = s.m)

/-- Requests of an SPDM session, the keys of host-link IDE, and an IDE integrity failure (R524, R526).
Where the responder is reached: FINISH of a session held on the transport establishes it where its verification data
is right, and otherwise ends it with DecryptError; KEY_UPDATE, HEARTBEAT and END_SESSION of an established session
are answered, and the first counts an update, the last ends the session; of a session that does not exist or is not
established they are refused. IDE_KM_REQUEST in an established session of the link's mailbox programs a key, starts
a stream that has a key (and is only answered for one that has none), or stops it; on a served die
IDE_INTEGRITY_FAIL makes the stream Insecure and counts it at the link's PF. Response codes are the model's reading
of the SPDM standard (PRESUMED, log entry 16). -/
def Obligations.SessionsAndLinkEncryptionAct : Prop :=
    (∀ v id q x (s : State), v < 17 → spdmServed v s.m = true → session v id s.m = some x →
        exec (.finish v id q) s = .next (Sys2Proof.Machine.finish s (if Config.finishOk x.draw q
          then spdmAnswer 0x65 [] (updSession id (fun y => { y with est := true }) s.m) else spdmError 6 (endSession id s.m))))
    ∧ (∀ v id x (s : State), v < 17 → spdmServed v s.m = true → session v id s.m = some x → x.est = true → exec (.keyUpdate v id) s
          = .next (Sys2Proof.Machine.finish s (spdmAnswer 0x69 [] (updSession id (fun y => { y with updates := y.updates + 1 }) s.m))))
    ∧ (∀ v id x (s : State), v < 17 → spdmServed v s.m = true → session v id s.m = some x → x.est = true → exec (.heartbeat v id) s = .next (Sys2Proof.Machine.finish s (spdmAnswer 0x68 [] s.m)))
    ∧ (∀ v id x (s : State), v < 17 → spdmServed v s.m = true → session v id s.m = some x → x.est = true → exec (.endSession v id) s
          = .next (Sys2Proof.Machine.finish s (spdmAnswer 0x6C [] (Sys2Proof.Machine.endSession id s.m))))
    ∧ (∀ v id (s : State), v < 17 → spdmServed v s.m = true → (∀ x, session v id s.m = some x → x.est = false) → ∀ c ∈ ([.keyUpdate v id, .heartbeat v id, .endSession v id] : List Instr),
        exec c s = .next (Sys2Proof.Machine.finish s (spdmError 2 s.m)))
    ∧ (∀ d i id x (s : State), d < 4 → spdmServed (mailbox d (i / 4)) s.m = true → session (mailbox d (i / 4)) id s.m = some x → x.est = true → i < 8 →
        exec (.ideKmRequest d i 0 id) s = .next (Sys2Proof.Machine.finish s (spdmAnswer 0x7E (leBytes 1 0 ++ leBytes 1 (i % 4))
          { s.m with free := s.m.free + 1, sec := { s.m.sec with ideKey := NMap.put s.m.sec.ideKey (d * 8 + i) s.m.free } })))
    ∧ (∀ d i id x (s : State), d < 4 → spdmServed (mailbox d (i / 4)) s.m = true → session (mailbox d (i / 4)) id s.m = some x → x.est = true → i < 8 →
        (NMap.find s.m.sec.ideKey (d * 8 + i)).isSome = true →
        exec (.ideKmRequest d i 1 id) s = .next (Sys2Proof.Machine.finish s (spdmAnswer 0x7E (leBytes 1 1 ++ leBytes 1 (i % 4))
          { s.m with sec := { s.m.sec with ide := NMap.set false s.m.sec.ide (d * 8 + i) true } })))
    ∧ (∀ d i id x (s : State), d < 4 → spdmServed (mailbox d (i / 4)) s.m = true → session (mailbox d (i / 4)) id s.m = some x → x.est = true → i < 8 →
        NMap.find s.m.sec.ideKey (d * 8 + i) = none →
        exec (.ideKmRequest d i 1 id) s = .next (Sys2Proof.Machine.finish s (spdmAnswer 0x7E (leBytes 1 1 ++ leBytes 1 (i % 4)) s.m)))
    ∧ (∀ d i id x (s : State), d < 4 → spdmServed (mailbox d (i / 4)) s.m = true → session (mailbox d (i / 4)) id s.m = some x → x.est = true → i < 8 →
        exec (.ideKmRequest d i 2 id) s = .next (Sys2Proof.Machine.finish s (spdmAnswer 0x7E (leBytes 1 2 ++ leBytes 1 (i % 4))
          { s.m with sec := { s.m.sec with
            ide := NMap.set false s.m.sec.ide (d * 8 + i) false, ideKey := NMap.del s.m.sec.ideKey (d * 8 + i) } })))
    ∧ (∀ d i (s : State), d < 4 → i < 8 → hostUp d s.m = true → exec (.ideIntegrityFail d i) s = .next (Sys2Proof.Machine.finish s (bump F.SEC_IDE_INTEGRITY_FAIL d (i / 4)
          { s.m with sec := { s.m.sec with ide := NMap.set false s.m.sec.ide (d * 8 + i) false } })))

/-- The test access port: boundary scan, identity, tokens, and accesses that the debug mode must allow, else BYPASS (R530, R531, R532, R533, R534).
EXTEST drives the cells and captures the board's levels (a free value) only under module reset and is BYPASS
otherwise; SAMPLE_PRELOAD samples (a free value) and preloads; IDCODE and BYPASS shift out their values; DEBUG_AUTH
presents a token, and a refused one draws a new nonce and counts a failure up to 8. OBSERVE_ACCESS reads in OBSERVE
and above except a pasture key; INVASIVE_ACCESS reads and writes in INVASIVE and above, and halts and steps cores;
SCAN_SELECT selects in SCAN after zeroisation; each is BYPASS otherwise. (What a scan chain holds is a free value of
the model, log entry 17.) -/
def Obligations.TheTestPortObeysTheDebugMode : Prop :=
    (∀ c (s : State), c < 2 ^ 20 → exec (.extest c) s = .next (finish s (if s.m.pin.rst = true
          then tap 0x00 (draw 20 s.m).1 { (draw 20 s.m).2 with pin := { (draw 20 s.m).2.pin with cells := c } } else tap 0xFF 0 s.m)))
    ∧ (∀ c (s : State), c < 2 ^ 20 → exec (.samplePreload c) s
          = .next (finish s (tap 0x01 (draw 20 s.m).1 { (draw 20 s.m).2 with pin := { (draw 20 s.m).2.pin with cells := c } })))
    ∧ (∀ s : State, exec .idcode s = .next (finish s (tap 0x02 Sys2Proof.Machine.idcode s.m)) ∧ exec .bypass s = .next (finish s (tap 0xFF 0 s.m)))
    ∧ (∀ t o (s : State), exec (.debugAuth t o) s
          = .next (finish s (tap 0x10 (b2n (presentToken s.fuse t o s.m).2) (presentToken s.fuse t o s.m).1)))
    ∧ (∀ fz t o m, (presentToken fz t o m).2 = false →
        (presentToken fz t o m).1 = newNonce { m with sec := { m.sec with fails := min 8 (m.sec.fails + 1) } })
    ∧ (∀ fz t o m, (presentToken fz t o m).2 = true → m.sec.fails < 8 ∧ 1 ≤ rdLE t 1 1 ∧ rdLE t 1 1 ≤ 3 ∧ m.sec.debug ≤ rdLE t 1 1
        ∧ mayEnter m.sec.lifecycle (rdLE t 1 1) (if blankToken t m then 2 else rdLE t 2 1) m.tly.mstate = true
        ∧ (presentToken fz t o m).1 = newNonce (enterMode (rdLE t 1 1) m))
    ∧ (∀ t (s : State), t.ok = true → 1 ≤ s.m.sec.debug → observable t = true → exec (.observeAccess t) s
          = .next (finish s (tap 0x12 (debugRead s.fuse t s.m).1 (debugRead s.fuse t s.m).2)))
    ∧ (∀ t (s : State), t.ok = true → (s.m.sec.debug = 0 ∨ observable t = false) → exec (.observeAccess t) s = .next (finish s (tap 0xFF 0 s.m)))
    ∧ (∀ t v (s : State), 2 ≤ s.m.sec.debug → t.ok = true → v < 2 ^ 256 →
        exec (.invasiveAccess (.read t)) s = .next (finish s (tap 0x13 (debugRead s.fuse t s.m).1 (debugRead s.fuse t s.m).2))
        ∧ exec (.invasiveAccess (.write t v)) s = .next (finish s (tap 0x13 0 (debugWrite s.fuse t v s.m))))
    ∧ (∀ c k (s : State), 2 ≤ s.m.sec.debug → c < 256 → k < 8 →
        exec (.invasiveAccess (.halt c)) s = .next (finish s (tap 0x13 0 { s.m with sec := { s.m.sec with halted := c } }))
        ∧ exec (.invasiveAccess (.step k)) s = .next (finish s (tap 0x13 0 s.m)))
    ∧ (∀ x (s : State), x.ok = true → s.m.sec.debug < 2 → exec (.invasiveAccess x) s = .next (finish s (tap 0xFF 0 s.m)))
    ∧ (∀ c (s : State), s.m.sec.debug = 3 → s.m.sec.scanOn = true → exec (.scanSelect c) s = .next (finish s
          (tap 0x20 (draw 64 s.m).1 { (draw 64 s.m).2 with sec := { (draw 64 s.m).2.sec with scanChain := c } })))
    ∧ (∀ c (s : State), (s.m.sec.debug ≠ 3 ∨ s.m.sec.scanOn = false) → exec (.scanSelect c) s = .next (finish s (tap 0xFF 0 s.m)))

/-- A group's turn: tokens accrue, the deficit grows by the quantum where the group is eligible, and queues are served until it is spent (R291, R292, R293, R294).
On a served die GROUP_TURN first brings the group's tokens to the present, ends injections that are complete, and
sets going what keeps a queue from being ready (its next descriptor, its conduit, a send record). A group with
nothing ready, or without the tokens for it, is passed over. An eligible one gains its quantum of deficit and runs
the turn's loop: with no queue left to serve and no round to begin the deficit is dropped; a queue whose next packet
the deficit, or the tokens of a shaped group, do not cover ends the turn with the deficit kept; otherwise that queue
is served and the loop goes on. -/
def Obligations.AGroupTurnServesItsQueues : Prop :=
    (∀ d g ans (s : State) m, d < 4 → g < 1024 → hostUp d s.m = true → m = (grpQueues d g (accrue d g s.m)).foldl (fun m q => prepare d q (injEnd d q m)) (accrue d g s.m) →
        eligible d g m = false → exec (.groupTurn d g ans) s = .next (finish s m))
    ∧ (∀ d g ans (s : State) m, d < 4 → g < 1024 → hostUp d s.m = true → m = (grpQueues d g (accrue d g s.m)).foldl (fun m q => prepare d q (injEnd d q m)) (accrue d g s.m) →
        eligible d g m = true →
        exec (.groupTurn d g ans) s = .next (finish s (turnLoop d g ans 4096 [] false
          (updGrp d g (fun k => { k with deficit := k.deficit + grpQuantum d g m }) m))))
    ∧ (∀ d g ans n skip fresh m0 m, m = (grpQueues d g m0).foldl (fun m q => injEnd d q m) m0 → pickQueue d g skip m = none →
        (fresh = true ∨ (grpQueues d g m).any (fun q => !skip.contains q && (injMsg d q m).isNone && qReady d q m) = false) →
        turnLoop d g ans (n + 1) skip fresh m0 = updGrp d g (fun k => { k with deficit := 0 }) m)
    ∧ (∀ d g ans n skip fresh m0 m q, m = (grpQueues d g m0).foldl (fun m q => injEnd d q m) m0 → pickQueue d g skip m = some q →
        ((grp d g m).deficit < qCounted d g q m ∨ (grpShaped d g m = true ∧ (grp d g m).tokens < qCounted d g q m * 65536)) →
        turnLoop d g ans (n + 1) skip fresh m0 = m)
    ∧ (∀ d g ans n skip fresh m0 m q, m = (grpQueues d g m0).foldl (fun m q => injEnd d q m) m0 → pickQueue d g skip m = some q →
        qCounted d g q m ≤ (grp d g m).deficit → (grpShaped d g m = false ∨ qCounted d g q m * 65536 ≤ (grp d g m).tokens) →
        turnLoop d g ans (n + 1) skip fresh m0
          = turnLoop d g ans n (if (serve d g q ans m).1 then skip else q :: skip) false (serve d g q ans m).2)

/-- Where nothing else is left to do, a command's own effect is its whole effect: nothing else of the module changes (R493, R74, R75, R71).
finish, with which the other statements say what state a command leads to, lets other units act on the command's own
effect. Where that effect m is calm (no fault reaction due, no news for another unit, no Azrix command in hand or
response held, no module wake under way, readiness signalled or not owed) the state answered is s with exactly m as
its module, no fuse operation left over, the fuse operations of m blown, and the queue as it was. -/
def Obligations.FinishInACalmModule : Prop :=
  ∀ (s : State) (m : Sys2Proof.Machine.Mod), m.calm = true →
    finish s m = { s with m := { m with burn := [] }, fuse := s.fuse.burn m.burn }

/-- What a write of a whole field does by its access type and class; a field outside the mask or not of the writer is left alone (R9, R11, R13, R14).
For a field of any register, written whole by a function that may write it: RO and RC ignore the write; W1C clears
the bits written 1; W1S takes the bits written 1 where it is not busy (busy, the write is counted UNDECODED; RETRAIN
of a port that is not ACTIVE stays 0); RW reads back the value written. A LIVE field of an enabled or disabled block
reads back the new value while the old one stays in force until it is applied (at once where the block is disabled,
at the cycle boundary where it is enabled); a GUARDED field of an enabled block is refused and WRITE_REFUSED set, of
a disabled one stored. A field that the mask does not touch, or a VF's write of a PF field, changes nothing. -/
def Obligations.FieldsAreWrittenByTheirAccessType : Prop :=
    (∀ fz r en d f i val mask m (G : Fld), bits mask G.lo G.w = 0 → fieldWrite fz r en d f i val mask m G = m)
    ∧ (∀ fz r en d f i val mask m (G : Fld), isPf d f m = false → G.among pfFields = true → fieldWrite fz r en d f i val mask m G = m)
    ∧ (∀ fz r en d f i val mask m (G : Fld), (G.acc = .RO ∨ G.acc = .RC) → fieldWrite fz r en d f i val mask m G = m)
    ∧ (∀ fz r en d f i val mask m (G : Fld), bits mask G.lo G.w ≠ 0 → (isPf d f m = true ∨ G.among pfFields = false) → G.acc = .W1C →
        G.reg ≠ F.CNT_CTR_WRAPPED.reg →
        rd G d i (fieldWrite fz r en d f i val mask m G) % 2 ^ G.w
          = Nat.land (rd G d i m) (Nat.xor (Nat.land (bits val G.lo G.w) (bits mask G.lo G.w)) (2 ^ G.w - 1)) % 2 ^ G.w
        ∨ Nat.land (bits val G.lo G.w) (bits mask G.lo G.w) = 0 ∧ fieldWrite fz r en d f i val mask m G = m)
    ∧ (∀ fz r en d f i val mask m (G : Fld), bits mask G.lo G.w ≠ 0 → (isPf d f m = true ∨ G.among pfFields = false) → G.acc = .W1S →
        (G.among [F.LNE_PORT_CTRL_RETRAIN] = false ∨ pst (32 * d + i) m = 6) →
        Nat.land (bits val G.lo G.w) (bits mask G.lo G.w) ≠ 0 → goBusy G d i m = false →
        fieldWrite fz r en d f i val mask m G = pendLive G d i (Nat.land (bits val G.lo G.w) (bits mask G.lo G.w)) m)
    ∧ (∀ fz r en d f i val mask m (G : Fld), bits mask G.lo G.w ≠ 0 → (isPf d f m = true ∨ G.among pfFields = false) → G.acc = .W1S →
        (G.among [F.LNE_PORT_CTRL_RETRAIN] = true → pst (32 * d + i) m ≠ 6 → fieldWrite fz r en d f i val mask m G = m)
        ∧ (Nat.land (bits val G.lo G.w) (bits mask G.lo G.w) ≠ 0 → G.among [F.LNE_PORT_CTRL_RETRAIN] = false → goBusy G d i m = true →
          fieldWrite fz r en d f i val mask m G = undecoded d m))
    ∧ (∀ fz r d f i val mask m (G : Fld), bits mask G.lo G.w ≠ 0 → (isPf d f m = true ∨ G.among pfFields = false) → G.acc = .RW → G.cls = .GUARDED →
        fieldWrite fz r true d f i val mask m G = noteWriteRefused r d f i m)
    ∧ (∀ fz r en d f i val mask m (G : Fld), bits mask G.lo G.w = 2 ^ G.w - 1 → 0 < G.w → (isPf d f m = true ∨ G.among pfFields = false) →
        G.acc = .RW → (en = false ∨ G.cls ≠ .GUARDED) → G.reg ≠ F.FLT_REACT_REACT.reg →
        rd G d i (fieldWrite fz r en d f i val mask m G) = bits val G.lo G.w)
    ∧ (∀ fz r en d f i val mask m (G : Fld), bits mask G.lo G.w ≠ 0 → (isPf d f m = true ∨ G.among pfFields = false) →
        G.acc = .RW → G.cls = .LIVE → cur G d i (fieldWrite fz r en d f i val mask m G) = cur G d i m)

/-- No step moves a fuse backward: lifecycle and SVN never fall, no revocation is undone, no owner key or device secret is replaced (R520, R522, R527, R529).
For every state and whatever command waits at the front: the fuses after a step are those before it or further on
(no lifecycle step back, no lower SVN count, key 0 once revoked stays revoked, an owner key or device secret once
fused stays the same), and where the lifecycle was a known one and the SVN count at most 64 they still are. -/
def Obligations.FusesOnlyMoveForward : Prop :=
  ∀ s t : State, step s = .next t → s.fuse.notBefore t.fuse ∧ (s.fuse.fits → t.fuse.fits)

/-- After reset nothing waits, every register field reads its reset value and is in force, debug is OFF and the fuses fit (R68, R520, R529, R532, R557, R9).
State.reset: the queue is empty; every field of every register reads its reset value (the spec's, or where the spec
gives none the model's choice of log entry 1) and that value is in force; no LIVE write waits; every counter is 0
and none has wrapped; no fault is recorded; debug mode is OFF and no session is held; the pool lists nothing; the
fuses meet the invariant of FusesOnlyMoveForward; the module is calm. -/
def Obligations.ResetLeavesTheModuleInReset : Prop :=
    (State.reset.pending = [])
    ∧ (∀ (G : Fld) d i, rd G d i State.reset.m = G.reset i ∧ cur G d i State.reset.m = G.reset i)
    ∧ (∀ i, NMap.get 0 State.reset.m.ctr i = 0 ∧ NMap.get false State.reset.m.ctrWrap i = false)
    ∧ (State.reset.m.flt.log = [] ∧ State.reset.m.live = [] ∧ State.reset.m.pool = [] ∧ NMap.wf 0#8 State.reset.m.pool = true)
    ∧ (State.reset.m.sec.debug = 0 ∧ State.reset.m.sec.sessions = [] ∧ State.reset.m.keys = [])
    ∧ (State.reset.fuse.fits ∧ State.reset.m.calm = true)

/-- A transport header, a conduit context and a number written as bytes are read back as they were, every field at every value (R5, R238, R239, R241, R244).
For every number below 256^n, its n little-endian bytes hold it. For every transport header whose fields fit their
bytes, and any 24 bytes before and any bytes after it, the header read from the packet is the header written. For
every conduit context whose fields fit the bits of R238 and R239, its image has 256 bytes, and what is read back
from it has every stored field of that context; what the engine keeps beside the image stays as it was. No bit of an
image is dropped. -/
def Obligations.HeadersAndContextsAreReadBack : Prop :=
    (∀ n v, v < 256 ^ n → (leBytes n v).length = n ∧ leNat (leBytes n v) = v)
    ∧ (∀ (h r : Bytes) (t : Th), h.length = 24 → t.op < 2 ^ 8 → t.flags < 2 ^ 8 → t.round < 2 ^ 8 → t.dcn < 2 ^ 24 → t.scn < 2 ^ 24 → t.psn < 2 ^ 32 →
        t.msg < 2 ^ 32 → t.off < 2 ^ 32 → t.len < 2 ^ 32 → t.trk < 2 ^ 16 → t.deadline < 2 ^ 64 →
        t.bytes.length = 40 ∧ Th.of (h ++ t.bytes ++ r) = t)
    ∧ (∀ c0 c : Cond, c.fits → c.bytes.length = 256 ∧
        Cond.ofBytes c0 c.bytes = { c with
          resident := c0.resident, used := c0.used, fetching := c0.fetching, halved := c0.halved, ackedCe := c0.ackedCe, nextMsg := c0.nextMsg, msgs := c0.msgs, recs := c0.recs
          rx := c0.rx, nrDetail := c0.nrDetail, bufs := c0.bufs, fromReserve := c0.fromReserve, bufWait := c0.bufWait, closeSent := c0.closeSent })

/-- A floating-point sum of up to 2^31 operands other than binary64 is the same in every order, exact, and never exhausts (R393, R397, R398, R399, R400).
For binary32, binary16, bfloat16, E4M3 and E5M2: up to 2^31 native operands of SUM, of any bit patterns, leave the
same accumulator and the same counts whatever the order in which they are taken, and the accumulator's range is
never left. Where all are finite and not all are −0, the accumulator holds exactly their mathematical sum and
nothing is raised. -/
def Obligations.SumsDoNotDependOnOrder : Prop :=
    (∀ dt (l l' : List Bytes), 1 ≤ dt → dt ≤ 5 → l.length ≤ 2 ^ 31 → l.Perm l' → takeAll dt l = takeAll dt l' ∧ (takeAll dt l).2.exh = 0)
    ∧ (∀ dt (l : List Bytes), 1 ≤ dt → dt ≤ 5 → l.length ≤ 2 ^ 31 →
        (∀ b ∈ l, isFin dt (rdLE b 0 (dtSize dt)) = true) → (∃ b ∈ l, isNegZero dt (rdLE b 0 (dtSize dt)) = false) →
        takeAll dt l = ({ Accu.reset with
          fin := true, any := true, v := (l.map (fun b => plainUnits dt (rdLE b 0 (dtSize dt)))).sum }, Tal.zero))

/-- A binary64 sum of up to 2^23 operands leaves the same bins in every order, and never exhausts (R399, R401, R402, R403, R404, R405).
Up to 2^23 native binary64 operands of SUM, of any bit patterns, leave the same accumulator (flags, top and the
three bins) and the same counts whatever the order in which they are taken, though a larger operand raises the top
and drops low bins on its way; and no bin leaves its 64-bit range. -/
def Obligations.BinnedSumsDoNotDependOnOrder : Prop :=
  ∀ l l' : List Bytes, l.length ≤ 2 ^ 23 → l.Perm l' → takeAll 0 l = takeAll 0 l' ∧ (takeAll 0 l).2.exh = 0

/-- A vector is cut into ⌈N / CHUNK⌉ chunks, one where it is empty; which elements each holds and which steps it takes (R374, R368).
For a program of CHUNK elements a chunk and an instance of N elements: the number of chunks is 1 for N = 0, else the
k with (k − 1) × CHUNK < N ≤ k × CHUNK. Chunk c of them holds the elements from c × CHUNK up to the lesser of (c +
1) × CHUNK and N. It takes a step exactly when its first element lies in the step's range, which a count of 0
extends to the end (for the one chunk of an empty vector the model reads it as no bound: its choice, log entry 55);
a step it takes stands in its list before those after it, any other is passed straight to NEXT. -/
def Obligations.AVectorIsCutIntoChunks : Prop :=
    (∀ (P : DProg) (x : Inst), 0 < P.chunk → (x.n = 0 → x.total P = 1)
        ∧ (0 < x.n → (x.total P - 1) * P.chunk < x.n ∧ x.n ≤ x.total P * P.chunk ∧ 0 < x.total P))
    ∧ (∀ (P : DProg) (x : Inst) c, 0 < P.chunk → c < x.total P →
        c * P.chunk + elems P x c = min ((c + 1) * P.chunk) x.n ∧ (0 < x.n → 0 < elems P x c))
    ∧ (∀ (P : DProg) (t : DStep) c, takes P t c = true
        ↔ t.elemOff ≤ c * P.chunk ∧ (t.elemCount = 0 ∨ c * P.chunk < t.elemOff + t.elemCount))
    ∧ (∀ (P : DProg) (t : DStep) c n k, P.step? k = some t → t.next ≠ 0xFF →
        stepsOf P c (n + 1) k = if takes P t c = true then k :: stepsOf P c n t.next else stepsOf P c n t.next)
    ∧ (∀ (P : DProg) (t : DStep) c n k, P.step? k = some t → t.next = 0xFF → stepsOf P c (n + 1) k = if takes P t c = true then [k] else [])

/-- The stochastic-rounding draw is the given function of seed, instance and k; AND, OR and XOR act bit by bit and set no flag (R413, R417).
The draw of element k is the 32-bit value that R413's function of the program's SEED, the instance number and k
gives, in 64-bit arithmetic; the element at place i of a chunk whose first element is k0 is rounded with the draw of
k0 + i. An operand of AND, OR or XOR taken by an accumulator without one is its value; of one with one, each bit of
the value becomes the operation of the two bits; nothing else of the accumulator changes, nothing is raised, and the
result's bytes are the value. -/
def Obligations.TheDrawAndTheBitOperations : Prop :=
    (∀ seed inst k, rduDraw seed inst k =
        (let x : BitVec 64 := BitVec.ofNat 64 seed ^^^ (BitVec.ofNat 64 inst <<< 32) ^^^ BitVec.ofNat 64 k
         let x := x ^^^ (x >>> 33)
         let x := x * 0x9E6C63D0676A9A99#64
         let x := x ^^^ (x >>> 29)
         let x := x * 0xD35A2D97A1B83F55#64
         let x := x ^^^ (x >>> 32)
         (x.extractLsb' 32 32).toNat))
    ∧ (∀ op dt mode sat part seed inst k0 a l, (formChunk op dt mode sat part seed inst k0 (a :: l)).1
        = (formElem op dt mode sat part (rduDraw seed inst k0) a).1 ++ (formChunk op dt mode sat part seed inst (k0 + 1) l).1)
    ∧ (∀ op dt part b (a : Accu), (op = 5 ∨ op = 6 ∨ op = 7) → a.any = false →
        takeElem op dt part b a = ({ a with v := (rdLE b 0 (dtSize dt) : Nat), any := true }, Tal.zero))
    ∧ (∀ op dt part b (a : Accu) (y : Nat), (op = 5 ∨ op = 6 ∨ op = 7) → a.any = true → a.v = (y : Int) →
        ∃ z : Nat, takeElem op dt part b a = ({ a with v := (z : Int) }, Tal.zero)
          ∧ ∀ i, z.testBit i = (if op = 5 then y.testBit i && (rdLE b 0 (dtSize dt)).testBit i
            else if op = 6 then y.testBit i || (rdLE b 0 (dtSize dt)).testBit i else y.testBit i ^^ (rdLE b 0 (dtSize dt)).testBit i))
    ∧ (∀ op dt mode sat part draw (a : Accu), (op = 5 ∨ op = 6 ∨ op = 7) →
        formElem op dt mode sat part draw a = (leBytes (dtSize dt) a.v.toNat, Tal.zero))

/-- Bytes written to a die's working pool are read back, every other byte and all else stays, and the pool keeps its canonical form (R377, R379).
Writing bytes at an offset of a die's working pool, within the 2^40 bytes a die has in the model's numbering: the
same bytes are read back there; every byte of the pool outside them, of this die and of the others, is as before;
nothing else of the module changes; and the list of the pool's bytes keeps its canonical form (addresses rising,
none equal to the 0 that an unlisted byte reads as: the model's choice, log entry 34). -/
def Obligations.ThePoolHoldsWhatIsWritten : Prop :=
    (∀ d off b m, poolRead d off b.length (poolWrite d off b m) = b)
    ∧ (∀ d off b m k, (k < d * 2 ^ 40 + off ∨ d * 2 ^ 40 + off + b.length ≤ k) →
        NMap.get 0#8 (poolWrite d off b m).pool k = NMap.get 0#8 m.pool k)
    ∧ (∀ d off b e o n m, d ≠ e → off + b.length ≤ 2 ^ 40 → o + n ≤ 2 ^ 40 → poolRead e o n (poolWrite d off b m) = poolRead e o n m)
    ∧ (∀ d off b m, poolWrite d off b m = { m with pool := (poolWrite d off b m).pool })
    ∧ (∀ d off b m, NMap.wf 0#8 m.pool = true → NMap.wf 0#8 (poolWrite d off b m).pool = true)

/-- Stuffing, scrambling, symbols and control bits are each undone by the receiver, and no field holds 32 equal symbols (R117, R121, R122, R123, R125, R127).
For any data levels of which D fit in the positions left: the field sent has one level for each position, all of the
four levels, no run of 32 equal ones, and destuffing it with the same D gives back exactly the first D data levels.
Scrambling twice from one state gives the symbols back. The bytes read from the symbols of bytes are those bytes,
the number read from the symbols of a number is that number, and the level of a symbol read back is the symbol. The
control bits of a block are read back field by field. -/
def Obligations.TheLaneCodeIsUndone : Prop :=
    (∀ n prev run d (data : List Nat), prev < 4 → 1 ≤ run → run ≤ 31 → (∀ x ∈ data, x < 4) → d ≤ stuffFit n prev run data →
        (stuffTx n prev run d data).length = n ∧ (∀ x ∈ stuffTx n prev run d data, x < 4)
          ∧ runsBelow 32 prev run (stuffTx n prev run d data)
          ∧ destuff prev run d (stuffTx n prev run d data) = some (data.take d))
    ∧ (∀ s (l : List Nat), scramble s (scramble s l) = l ∧ (scramble s l).length = l.length
        ∧ ((∀ x ∈ l, x < 4) → ∀ x ∈ scramble s l, x < 4))
    ∧ (∀ b : Bytes, symBytes (byteSyms b) = some b ∧ (byteSyms b).length = 4 * b.length ∧ (∀ x ∈ byteSyms b, x < 4))
    ∧ (∀ n v, (symsOf n v).length = n ∧ symsNat (symsOf n v) = v % 4 ^ n)
    ∧ (∀ x, x < 4 → gray x < 4 ∧ gray (gray x) = x)
    ∧ (∀ c : Ctl, c.lane < 4 → c.status < 8 → c.stuff < 64 → c.time < 256 → ctlBits c < 2 ^ 24 ∧ ctlOf (ctlBits c) = c)
end

