-- ==== Sys2Proof/Laws/NMap.lean ====
section
/-! SUPPORT. Laws of the sparse tables: a read after a write, and the canonical form. -/
namespace Sys2Proof.Machine

@[simp] theorem NMap.find_nil {α : Type} (k : Nat) : NMap.find ([] : NMap α) k = none := rfl

@[simp] theorem NMap.find_put_same {α : Type} (m : NMap α) (k : Nat) (v : α) : NMap.find (NMap.put m k v) k = some v := by
  induction m with
  | nil => simp [NMap.put, NMap.find]
  | cons e m ih =>
    obtain ⟨j, w⟩ := e
    simp only [NMap.put]
    split
    · simp [NMap.find]
    · split
      · simp [NMap.find]
      · simp [NMap.find, *]

theorem NMap.find_put_ne {α : Type} (m : NMap α) {k k' : Nat} (v : α) (h : k' ≠ k) :
    NMap.find (NMap.put m k v) k' = NMap.find m k' := by
  induction m with
  | nil => simp [NMap.put, NMap.find, Ne.symm h]
  | cons e m ih =>
    obtain ⟨j, w⟩ := e
    simp only [NMap.put]
    split
    · simp [NMap.find, Ne.symm h]
    · split
      · rename_i hj; subst hj; simp [NMap.find, Ne.symm h]
      · simp [NMap.find, ih]

@[simp] theorem NMap.find_del_same {α : Type} (m : NMap α) (k : Nat) : NMap.find (NMap.del m k) k = none := by
  induction m with
  | nil => rfl
  | cons e m ih =>
    obtain ⟨j, w⟩ := e
    simp only [NMap.del]
    split
    · exact ih
    · simp [NMap.find, *]

theorem NMap.find_del_ne {α : Type} (m : NMap α) {k k' : Nat} (h : k' ≠ k) : NMap.find (NMap.del m k) k' = NMap.find m k' := by
  induction m with
  | nil => rfl
  | cons e m ih =>
    obtain ⟨j, w⟩ := e
    simp only [NMap.del]
    split
    · rename_i hj; subst hj; simp [NMap.find, Ne.symm h, ih]
    · simp [NMap.find, ih]

/-- A read of what was just written. -/
@[simp] theorem NMap.get_set_same {α : Type} [DecidableEq α] (d : α) (m : NMap α) (k : Nat) (v : α) :
    NMap.get d (NMap.set d m k v) k = v := by
  unfold NMap.get NMap.set
  split <;> simp_all

/-- A write leaves every other entry. -/
theorem NMap.get_set_ne {α : Type} [DecidableEq α] (d e : α) (m : NMap α) {k k' : Nat} (v : α) (h : k' ≠ k) :
    NMap.get e (NMap.set d m k v) k' = NMap.get e m k' := by
  unfold NMap.get NMap.set
  split
  · rw [NMap.find_del_ne m h]
  · rw [NMap.find_put_ne m v h]

theorem NMap.find_set_ne {α : Type} [DecidableEq α] (d : α) (m : NMap α) {k k' : Nat} (v : α) (h : k' ≠ k) :
    NMap.find (NMap.set d m k v) k' = NMap.find m k' := by
  unfold NMap.set
  split
  · rw [NMap.find_del_ne m h]
  · rw [NMap.find_put_ne m v h]

@[simp] theorem NMap.get_put_same {α : Type} (d : α) (m : NMap α) (k : Nat) (v : α) : NMap.get d (NMap.put m k v) k = v := by
  simp [NMap.get]

/-! ## The canonical form -/

theorem NMap.sorted_cons {α : Type} (j : Nat) (w : α) (m : NMap α) :
    NMap.sorted ((j, w) :: m) = true ↔ (∀ e ∈ m, j < e.1) ∧ NMap.sorted m = true := by
  induction m generalizing j w with
  | nil => simp [NMap.sorted]
  | cons e m ih =>
    obtain ⟨k, x⟩ := e
    simp only [NMap.sorted, Bool.and_eq_true, decide_eq_true_eq, ih, List.mem_cons, forall_eq_or_imp]
    constructor
    · rintro ⟨h, h2, h3⟩
      exact ⟨⟨h, fun e he => Nat.lt_trans h (h2 e he)⟩, h2, h3⟩
    · rintro ⟨⟨h, -⟩, h2, h3⟩
      exact ⟨h, h2, h3⟩

theorem NMap.mem_put {α : Type} (m : NMap α) (k : Nat) (v : α) (e : Nat × α) (h : e ∈ NMap.put m k v) : e = (k, v) ∨ e ∈ m := by
  induction m with
  | nil => simp_all [NMap.put]
  | cons x m ih =>
    obtain ⟨j, w⟩ := x
    simp only [NMap.put] at h
    split at h
    · simpa using h
    · split at h
      · simp only [List.mem_cons] at h ⊢; tauto
      · simp only [List.mem_cons] at h ⊢
        rcases h with h | h
        · exact .inr (.inl h)
        · rcases ih h with h | h
          · exact .inl h
          · exact .inr (.inr h)

theorem NMap.mem_del {α : Type} (m : NMap α) (k : Nat) (e : Nat × α) (h : e ∈ NMap.del m k) : e ∈ m := by
  induction m with
  | nil => simp [NMap.del] at h
  | cons x m ih =>
    obtain ⟨j, w⟩ := x
    simp only [NMap.del] at h
    split at h
    · exact .tail _ (ih h)
    · rcases List.mem_cons.1 h with h | h
      · exact h ▸ .head _
      · exact .tail _ (ih h)

theorem NMap.sorted_put {α : Type} (m : NMap α) (k : Nat) (v : α) (h : NMap.sorted m = true) : NMap.sorted (NMap.put m k v) = true := by
  induction m with
  | nil => rfl
  | cons x m ih =>
    obtain ⟨j, w⟩ := x
    obtain ⟨h1, h2⟩ := (NMap.sorted_cons j w m).1 h
    simp only [NMap.put]
    split
    · rename_i hk
      exact (NMap.sorted_cons k v _).2 ⟨fun e he => by
        rcases List.mem_cons.1 he with rfl | he
        · exact hk
        · exact Nat.lt_trans hk (h1 e he), h⟩
    · split
      · rename_i hj; subst hj
        exact (NMap.sorted_cons _ v m).2 ⟨h1, h2⟩
      · refine (NMap.sorted_cons j w _).2 ⟨fun e he => ?_, ih h2⟩
        rcases NMap.mem_put m k v e he with rfl | he
        · show j < k; omega
        · exact h1 e he

theorem NMap.sorted_del {α : Type} (m : NMap α) (k : Nat) (h : NMap.sorted m = true) : NMap.sorted (NMap.del m k) = true := by
  induction m with
  | nil => rfl
  | cons x m ih =>
    obtain ⟨j, w⟩ := x
    obtain ⟨h1, h2⟩ := (NMap.sorted_cons j w m).1 h
    simp only [NMap.del]
    split
    · exact ih h2
    · exact (NMap.sorted_cons j w _).2 ⟨fun e he => h1 e (NMap.mem_del m k e he), ih h2⟩

/-- A write keeps the canonical form. -/
theorem NMap.wf_set {α : Type} [DecidableEq α] (d : α) (m : NMap α) (k : Nat) (v : α) (h : NMap.wf d m = true) :
    NMap.wf d (NMap.set d m k v) = true := by
  simp only [NMap.wf, Bool.and_eq_true, List.all_eq_true, decide_eq_true_eq] at h ⊢
  unfold NMap.set
  split
  · exact ⟨NMap.sorted_del m k h.1, fun e he => h.2 e (NMap.mem_del m k e he)⟩
  · rename_i hv
    refine ⟨NMap.sorted_put m k v h.1, fun e he => ?_⟩
    rcases NMap.mem_put m k v e he with rfl | he
    · exact hv
    · exact h.2 e he

/-- Dropping entries keeps the canonical form. -/
theorem NMap.wf_keep {α : Type} [DecidableEq α] (d : α) (p : Nat → Bool) (m : NMap α) (h : NMap.wf d m = true) :
    NMap.wf d (NMap.keep p m) = true := by
  induction m with
  | nil => rfl
  | cons x m ih =>
    obtain ⟨j, w⟩ := x
    simp only [NMap.wf, Bool.and_eq_true, List.all_eq_true, decide_eq_true_eq] at h ih ⊢
    obtain ⟨h1, h2⟩ := (NMap.sorted_cons j w m).1 h.1
    have ih' := ih ⟨h2, fun e he => h.2 e (.tail _ he)⟩
    by_cases hp : p j
    · simp only [NMap.keep, List.filter_cons, hp, if_true]
      refine ⟨(NMap.sorted_cons j w _).2 ⟨fun e he => h1 e (List.mem_of_mem_filter he), ih'.1⟩, fun e he => ?_⟩
      rcases List.mem_cons.1 he with rfl | he
      · exact h.2 _ (.head _)
      · exact ih'.2 e he
    · simp only [NMap.keep, List.filter_cons, hp]
      exact ih'

end Sys2Proof.Machine
end

