-- ==== Sys2Proof/Laws/Reg.lean ====
section
/-! SUPPORT. Laws of register fields (R9, R11): a read after a write, other fields, the value in force. -/
namespace Sys2Proof.Machine

/-- A field read after its own write is the value at the field's width. -/
@[simp] theorem rd_wr_same (F : Fld) (d i v : Nat) (m : Mod) : rd F d i (wr F d i v m) = v % 2 ^ F.w := by
  simp [rd, wr]

/-- A field whose key differs is unchanged. -/
theorem rd_wr_ne {F G : Fld} {d i d' i' v : Nat} {m : Mod} (h : G.key d' i' ≠ F.key d i) : rd G d' i' (wr F d i v m) = rd G d' i' m := by
  simp [rd, wr, NMap.get_set_ne _ _ _ _ h]

/-- Keys of different fields, dies or elements differ, within the ranges the keys are made for. -/
theorem key_ne {F G : Fld} {d d' i i' : Nat} (hd : d < 8) (hd' : d' < 8) (hi : i < 2 ^ 24) (hi' : i' < 2 ^ 24)
    (h : G.reg * 64 + G.lo ≠ F.reg * 64 + F.lo ∨ d' ≠ d ∨ i' ≠ i) : G.key d' i' ≠ F.key d i := by
  unfold Fld.key; omega

@[simp] theorem rd_force_same (F : Fld) (d i v : Nat) (m : Mod) : rd F d i (force F d i v m) = v % 2 ^ F.w := by
  simp [rd, force, wr]

theorem rd_force_ne {F G : Fld} {d i d' i' v : Nat} {m : Mod} (h : G.key d' i' ≠ F.key d i) : rd G d' i' (force F d i v m) = rd G d' i' m := by
  simp [rd, force, wr, NMap.get_set_ne _ _ _ _ h]

/-- A forced value is in force. -/
@[simp] theorem cur_force_same (F : Fld) (d i v : Nat) (m : Mod) : cur F d i (force F d i v m) = v % 2 ^ F.w := by
  simp [cur, force, rd, wr]

theorem cur_wr_ne {F G : Fld} {d i d' i' v : Nat} {m : Mod} (h : G.key d' i' ≠ F.key d i) : cur G d' i' (wr F d i v m) = cur G d' i' m := by
  simp [cur, rd, wr, NMap.get_set_ne _ _ _ _ h]

theorem cur_force_ne {F G : Fld} {d i d' i' v : Nat} {m : Mod} (h : G.key d' i' ≠ F.key d i) : cur G d' i' (force F d i v m) = cur G d' i' m := by
  simp [cur, rd, force, wr, NMap.get_set_ne _ _ _ _ h, NMap.find_del_ne _ h]

/-- A wrB is a write of 0 or 1. -/
@[simp] theorem rdB_wrB_same (F : Fld) (d i : Nat) (b : Bool) (m : Mod) (hw : 0 < F.w) : rdB F d i (wrB F d i b m) = b := by
  have h1 : 1 % 2 ^ F.w = 1 := Nat.mod_eq_of_lt (Nat.one_lt_two_pow (by omega))
  cases b <;> simp [rdB, wrB, b2n, h1]

/-- Another field after the same write. -/
theorem rdB_wrB_ne {F G : Fld} {d i d' i' : Nat} {b : Bool} {m : Mod} (h : G.key d' i' ≠ F.key d i) : rdB G d' i' (wrB F d i b m) = rdB G d' i' m := by
  simp [rdB, wrB, rd_wr_ne h]

end Sys2Proof.Machine
end

