-- ==== Sys2Proof/Laws/State.lean ====
section
/-! SUPPORT. What the module's small updates leave alone: one lemma for each update and each part of the state that it does
not touch. -/
namespace Sys2Proof.Machine

/-! `wr`. -/
@[simp] theorem wr_live (F : Fld) (d i v : Nat) (m : Mod) : (wr F d i v m).live = m.live := rfl
@[simp] theorem wr_ctr (F : Fld) (d i v : Nat) (m : Mod) : (wr F d i v m).ctr = m.ctr := rfl
@[simp] theorem wr_ctrWrap (F : Fld) (d i v : Nat) (m : Mod) : (wr F d i v m).ctrWrap = m.ctrWrap := rfl
@[simp] theorem wr_ctrEpoch (F : Fld) (d i v : Nat) (m : Mod) : (wr F d i v m).ctrEpoch = m.ctrEpoch := rfl
@[simp] theorem wr_d2d (F : Fld) (d i v : Nat) (m : Mod) : (wr F d i v m).d2d = m.d2d := rfl
@[simp] theorem wr_d2dFail (F : Fld) (d i v : Nat) (m : Mod) : (wr F d i v m).d2dFail = m.d2dFail := rfl
@[simp] theorem wr_dieSt (F : Fld) (d i v : Nat) (m : Mod) : (wr F d i v m).dieSt = m.dieSt := rfl
@[simp] theorem wr_hif (F : Fld) (d i v : Nat) (m : Mod) : (wr F d i v m).hif = m.hif := rfl
@[simp] theorem wr_clk (F : Fld) (d i v : Nat) (m : Mod) : (wr F d i v m).clk = m.clk := rfl
@[simp] theorem wr_tm (F : Fld) (d i v : Nat) (m : Mod) : (wr F d i v m).tm = m.tm := rfl
@[simp] theorem wr_flt (F : Fld) (d i v : Nat) (m : Mod) : (wr F d i v m).flt = m.flt := rfl
@[simp] theorem wr_bst (F : Fld) (d i v : Nat) (m : Mod) : (wr F d i v m).bst = m.bst := rfl
@[simp] theorem wr_flash (F : Fld) (d i v : Nat) (m : Mod) : (wr F d i v m).flash = m.flash := rfl
@[simp] theorem wr_conf (F : Fld) (d i v : Nat) (m : Mod) : (wr F d i v m).conf = m.conf := rfl
@[simp] theorem wr_sec (F : Fld) (d i v : Nat) (m : Mod) : (wr F d i v m).sec = m.sec := rfl
@[simp] theorem wr_keys (F : Fld) (d i v : Nat) (m : Mod) : (wr F d i v m).keys = m.keys := rfl
@[simp] theorem wr_tly (F : Fld) (d i v : Nat) (m : Mod) : (wr F d i v m).tly = m.tly := rfl
@[simp] theorem wr_pin (F : Fld) (d i v : Nat) (m : Mod) : (wr F d i v m).pin = m.pin := rfl
@[simp] theorem wr_lp (F : Fld) (d i v : Nat) (m : Mod) : (wr F d i v m).lp = m.lp := rfl
@[simp] theorem wr_lane (F : Fld) (d i v : Nat) (m : Mod) : (wr F d i v m).lane = m.lane := rfl
@[simp] theorem wr_lnk (F : Fld) (d i v : Nat) (m : Mod) : (wr F d i v m).lnk = m.lnk := rfl
@[simp] theorem wr_xb (F : Fld) (d i v : Nat) (m : Mod) : (wr F d i v m).xb = m.xb := rfl
@[simp] theorem wr_tabs (F : Fld) (d i v : Nat) (m : Mod) : (wr F d i v m).tabs = m.tabs := rfl
@[simp] theorem wr_evr (F : Fld) (d i v : Nat) (m : Mod) : (wr F d i v m).evr = m.evr := rfl
@[simp] theorem wr_xlt (F : Fld) (d i v : Nat) (m : Mod) : (wr F d i v m).xlt = m.xlt := rfl
@[simp] theorem wr_trn (F : Fld) (d i v : Nat) (m : Mod) : (wr F d i v m).trn = m.trn := rfl
@[simp] theorem wr_drv (F : Fld) (d i v : Nat) (m : Mod) : (wr F d i v m).drv = m.drv := rfl
@[simp] theorem wr_pools (F : Fld) (d i v : Nat) (m : Mod) : (wr F d i v m).pools = m.pools := rfl
@[simp] theorem wr_pool (F : Fld) (d i v : Nat) (m : Mod) : (wr F d i v m).pool = m.pool := rfl
@[simp] theorem wr_smp (F : Fld) (d i v : Nat) (m : Mod) : (wr F d i v m).smp = m.smp := rfl
@[simp] theorem wr_azx (F : Fld) (d i v : Nat) (m : Mod) : (wr F d i v m).azx = m.azx := rfl
@[simp] theorem wr_shep (F : Fld) (d i v : Nat) (m : Mod) : (wr F d i v m).shep = m.shep := rfl
@[simp] theorem wr_todo (F : Fld) (d i v : Nat) (m : Mod) : (wr F d i v m).todo = m.todo := rfl
@[simp] theorem wr_out (F : Fld) (d i v : Nat) (m : Mod) : (wr F d i v m).out = m.out := rfl
@[simp] theorem wr_free (F : Fld) (d i v : Nat) (m : Mod) : (wr F d i v m).free = m.free := rfl
@[simp] theorem wr_burn (F : Fld) (d i v : Nat) (m : Mod) : (wr F d i v m).burn = m.burn := rfl

/-! `wrB`. -/
@[simp] theorem wrB_live (F : Fld) (d i : Nat) (b : Bool) (m : Mod) : (wrB F d i b m).live = m.live := rfl
@[simp] theorem wrB_ctr (F : Fld) (d i : Nat) (b : Bool) (m : Mod) : (wrB F d i b m).ctr = m.ctr := rfl
@[simp] theorem wrB_ctrWrap (F : Fld) (d i : Nat) (b : Bool) (m : Mod) : (wrB F d i b m).ctrWrap = m.ctrWrap := rfl
@[simp] theorem wrB_ctrEpoch (F : Fld) (d i : Nat) (b : Bool) (m : Mod) : (wrB F d i b m).ctrEpoch = m.ctrEpoch := rfl
@[simp] theorem wrB_d2d (F : Fld) (d i : Nat) (b : Bool) (m : Mod) : (wrB F d i b m).d2d = m.d2d := rfl
@[simp] theorem wrB_d2dFail (F : Fld) (d i : Nat) (b : Bool) (m : Mod) : (wrB F d i b m).d2dFail = m.d2dFail := rfl
@[simp] theorem wrB_dieSt (F : Fld) (d i : Nat) (b : Bool) (m : Mod) : (wrB F d i b m).dieSt = m.dieSt := rfl
@[simp] theorem wrB_hif (F : Fld) (d i : Nat) (b : Bool) (m : Mod) : (wrB F d i b m).hif = m.hif := rfl
@[simp] theorem wrB_clk (F : Fld) (d i : Nat) (b : Bool) (m : Mod) : (wrB F d i b m).clk = m.clk := rfl
@[simp] theorem wrB_tm (F : Fld) (d i : Nat) (b : Bool) (m : Mod) : (wrB F d i b m).tm = m.tm := rfl
@[simp] theorem wrB_flt (F : Fld) (d i : Nat) (b : Bool) (m : Mod) : (wrB F d i b m).flt = m.flt := rfl
@[simp] theorem wrB_bst (F : Fld) (d i : Nat) (b : Bool) (m : Mod) : (wrB F d i b m).bst = m.bst := rfl
@[simp] theorem wrB_flash (F : Fld) (d i : Nat) (b : Bool) (m : Mod) : (wrB F d i b m).flash = m.flash := rfl
@[simp] theorem wrB_conf (F : Fld) (d i : Nat) (b : Bool) (m : Mod) : (wrB F d i b m).conf = m.conf := rfl
@[simp] theorem wrB_sec (F : Fld) (d i : Nat) (b : Bool) (m : Mod) : (wrB F d i b m).sec = m.sec := rfl
@[simp] theorem wrB_keys (F : Fld) (d i : Nat) (b : Bool) (m : Mod) : (wrB F d i b m).keys = m.keys := rfl
@[simp] theorem wrB_tly (F : Fld) (d i : Nat) (b : Bool) (m : Mod) : (wrB F d i b m).tly = m.tly := rfl
@[simp] theorem wrB_pin (F : Fld) (d i : Nat) (b : Bool) (m : Mod) : (wrB F d i b m).pin = m.pin := rfl
@[simp] theorem wrB_lp (F : Fld) (d i : Nat) (b : Bool) (m : Mod) : (wrB F d i b m).lp = m.lp := rfl
@[simp] theorem wrB_lane (F : Fld) (d i : Nat) (b : Bool) (m : Mod) : (wrB F d i b m).lane = m.lane := rfl
@[simp] theorem wrB_lnk (F : Fld) (d i : Nat) (b : Bool) (m : Mod) : (wrB F d i b m).lnk = m.lnk := rfl
@[simp] theorem wrB_xb (F : Fld) (d i : Nat) (b : Bool) (m : Mod) : (wrB F d i b m).xb = m.xb := rfl
@[simp] theorem wrB_tabs (F : Fld) (d i : Nat) (b : Bool) (m : Mod) : (wrB F d i b m).tabs = m.tabs := rfl
@[simp] theorem wrB_evr (F : Fld) (d i : Nat) (b : Bool) (m : Mod) : (wrB F d i b m).evr = m.evr := rfl
@[simp] theorem wrB_xlt (F : Fld) (d i : Nat) (b : Bool) (m : Mod) : (wrB F d i b m).xlt = m.xlt := rfl
@[simp] theorem wrB_trn (F : Fld) (d i : Nat) (b : Bool) (m : Mod) : (wrB F d i b m).trn = m.trn := rfl
@[simp] theorem wrB_drv (F : Fld) (d i : Nat) (b : Bool) (m : Mod) : (wrB F d i b m).drv = m.drv := rfl
@[simp] theorem wrB_pools (F : Fld) (d i : Nat) (b : Bool) (m : Mod) : (wrB F d i b m).pools = m.pools := rfl
@[simp] theorem wrB_pool (F : Fld) (d i : Nat) (b : Bool) (m : Mod) : (wrB F d i b m).pool = m.pool := rfl
@[simp] theorem wrB_smp (F : Fld) (d i : Nat) (b : Bool) (m : Mod) : (wrB F d i b m).smp = m.smp := rfl
@[simp] theorem wrB_azx (F : Fld) (d i : Nat) (b : Bool) (m : Mod) : (wrB F d i b m).azx = m.azx := rfl
@[simp] theorem wrB_shep (F : Fld) (d i : Nat) (b : Bool) (m : Mod) : (wrB F d i b m).shep = m.shep := rfl
@[simp] theorem wrB_todo (F : Fld) (d i : Nat) (b : Bool) (m : Mod) : (wrB F d i b m).todo = m.todo := rfl
@[simp] theorem wrB_out (F : Fld) (d i : Nat) (b : Bool) (m : Mod) : (wrB F d i b m).out = m.out := rfl
@[simp] theorem wrB_free (F : Fld) (d i : Nat) (b : Bool) (m : Mod) : (wrB F d i b m).free = m.free := rfl
@[simp] theorem wrB_burn (F : Fld) (d i : Nat) (b : Bool) (m : Mod) : (wrB F d i b m).burn = m.burn := rfl

/-! `bump`. -/
@[simp] theorem bump_live (F : Fld) (d i : Nat) (m : Mod) : (bump F d i m).live = m.live := rfl
@[simp] theorem bump_ctr (F : Fld) (d i : Nat) (m : Mod) : (bump F d i m).ctr = m.ctr := rfl
@[simp] theorem bump_ctrWrap (F : Fld) (d i : Nat) (m : Mod) : (bump F d i m).ctrWrap = m.ctrWrap := rfl
@[simp] theorem bump_ctrEpoch (F : Fld) (d i : Nat) (m : Mod) : (bump F d i m).ctrEpoch = m.ctrEpoch := rfl
@[simp] theorem bump_d2d (F : Fld) (d i : Nat) (m : Mod) : (bump F d i m).d2d = m.d2d := rfl
@[simp] theorem bump_d2dFail (F : Fld) (d i : Nat) (m : Mod) : (bump F d i m).d2dFail = m.d2dFail := rfl
@[simp] theorem bump_dieSt (F : Fld) (d i : Nat) (m : Mod) : (bump F d i m).dieSt = m.dieSt := rfl
@[simp] theorem bump_hif (F : Fld) (d i : Nat) (m : Mod) : (bump F d i m).hif = m.hif := rfl
@[simp] theorem bump_clk (F : Fld) (d i : Nat) (m : Mod) : (bump F d i m).clk = m.clk := rfl
@[simp] theorem bump_tm (F : Fld) (d i : Nat) (m : Mod) : (bump F d i m).tm = m.tm := rfl
@[simp] theorem bump_flt (F : Fld) (d i : Nat) (m : Mod) : (bump F d i m).flt = m.flt := rfl
@[simp] theorem bump_bst (F : Fld) (d i : Nat) (m : Mod) : (bump F d i m).bst = m.bst := rfl
@[simp] theorem bump_flash (F : Fld) (d i : Nat) (m : Mod) : (bump F d i m).flash = m.flash := rfl
@[simp] theorem bump_conf (F : Fld) (d i : Nat) (m : Mod) : (bump F d i m).conf = m.conf := rfl
@[simp] theorem bump_sec (F : Fld) (d i : Nat) (m : Mod) : (bump F d i m).sec = m.sec := rfl
@[simp] theorem bump_keys (F : Fld) (d i : Nat) (m : Mod) : (bump F d i m).keys = m.keys := rfl
@[simp] theorem bump_tly (F : Fld) (d i : Nat) (m : Mod) : (bump F d i m).tly = m.tly := rfl
@[simp] theorem bump_pin (F : Fld) (d i : Nat) (m : Mod) : (bump F d i m).pin = m.pin := rfl
@[simp] theorem bump_lp (F : Fld) (d i : Nat) (m : Mod) : (bump F d i m).lp = m.lp := rfl
@[simp] theorem bump_lane (F : Fld) (d i : Nat) (m : Mod) : (bump F d i m).lane = m.lane := rfl
@[simp] theorem bump_lnk (F : Fld) (d i : Nat) (m : Mod) : (bump F d i m).lnk = m.lnk := rfl
@[simp] theorem bump_xb (F : Fld) (d i : Nat) (m : Mod) : (bump F d i m).xb = m.xb := rfl
@[simp] theorem bump_tabs (F : Fld) (d i : Nat) (m : Mod) : (bump F d i m).tabs = m.tabs := rfl
@[simp] theorem bump_evr (F : Fld) (d i : Nat) (m : Mod) : (bump F d i m).evr = m.evr := rfl
@[simp] theorem bump_xlt (F : Fld) (d i : Nat) (m : Mod) : (bump F d i m).xlt = m.xlt := rfl
@[simp] theorem bump_trn (F : Fld) (d i : Nat) (m : Mod) : (bump F d i m).trn = m.trn := rfl
@[simp] theorem bump_drv (F : Fld) (d i : Nat) (m : Mod) : (bump F d i m).drv = m.drv := rfl
@[simp] theorem bump_pools (F : Fld) (d i : Nat) (m : Mod) : (bump F d i m).pools = m.pools := rfl
@[simp] theorem bump_pool (F : Fld) (d i : Nat) (m : Mod) : (bump F d i m).pool = m.pool := rfl
@[simp] theorem bump_smp (F : Fld) (d i : Nat) (m : Mod) : (bump F d i m).smp = m.smp := rfl
@[simp] theorem bump_azx (F : Fld) (d i : Nat) (m : Mod) : (bump F d i m).azx = m.azx := rfl
@[simp] theorem bump_shep (F : Fld) (d i : Nat) (m : Mod) : (bump F d i m).shep = m.shep := rfl
@[simp] theorem bump_todo (F : Fld) (d i : Nat) (m : Mod) : (bump F d i m).todo = m.todo := rfl
@[simp] theorem bump_out (F : Fld) (d i : Nat) (m : Mod) : (bump F d i m).out = m.out := rfl
@[simp] theorem bump_free (F : Fld) (d i : Nat) (m : Mod) : (bump F d i m).free = m.free := rfl
@[simp] theorem bump_burn (F : Fld) (d i : Nat) (m : Mod) : (bump F d i m).burn = m.burn := rfl

/-! `bumpBy`. -/
@[simp] theorem bumpBy_live (F : Fld) (d i n : Nat) (m : Mod) : (bumpBy F d i n m).live = m.live := rfl
@[simp] theorem bumpBy_ctr (F : Fld) (d i n : Nat) (m : Mod) : (bumpBy F d i n m).ctr = m.ctr := rfl
@[simp] theorem bumpBy_ctrWrap (F : Fld) (d i n : Nat) (m : Mod) : (bumpBy F d i n m).ctrWrap = m.ctrWrap := rfl
@[simp] theorem bumpBy_ctrEpoch (F : Fld) (d i n : Nat) (m : Mod) : (bumpBy F d i n m).ctrEpoch = m.ctrEpoch := rfl
@[simp] theorem bumpBy_d2d (F : Fld) (d i n : Nat) (m : Mod) : (bumpBy F d i n m).d2d = m.d2d := rfl
@[simp] theorem bumpBy_d2dFail (F : Fld) (d i n : Nat) (m : Mod) : (bumpBy F d i n m).d2dFail = m.d2dFail := rfl
@[simp] theorem bumpBy_dieSt (F : Fld) (d i n : Nat) (m : Mod) : (bumpBy F d i n m).dieSt = m.dieSt := rfl
@[simp] theorem bumpBy_hif (F : Fld) (d i n : Nat) (m : Mod) : (bumpBy F d i n m).hif = m.hif := rfl
@[simp] theorem bumpBy_clk (F : Fld) (d i n : Nat) (m : Mod) : (bumpBy F d i n m).clk = m.clk := rfl
@[simp] theorem bumpBy_tm (F : Fld) (d i n : Nat) (m : Mod) : (bumpBy F d i n m).tm = m.tm := rfl
@[simp] theorem bumpBy_flt (F : Fld) (d i n : Nat) (m : Mod) : (bumpBy F d i n m).flt = m.flt := rfl
@[simp] theorem bumpBy_bst (F : Fld) (d i n : Nat) (m : Mod) : (bumpBy F d i n m).bst = m.bst := rfl
@[simp] theorem bumpBy_flash (F : Fld) (d i n : Nat) (m : Mod) : (bumpBy F d i n m).flash = m.flash := rfl
@[simp] theorem bumpBy_conf (F : Fld) (d i n : Nat) (m : Mod) : (bumpBy F d i n m).conf = m.conf := rfl
@[simp] theorem bumpBy_sec (F : Fld) (d i n : Nat) (m : Mod) : (bumpBy F d i n m).sec = m.sec := rfl
@[simp] theorem bumpBy_keys (F : Fld) (d i n : Nat) (m : Mod) : (bumpBy F d i n m).keys = m.keys := rfl
@[simp] theorem bumpBy_tly (F : Fld) (d i n : Nat) (m : Mod) : (bumpBy F d i n m).tly = m.tly := rfl
@[simp] theorem bumpBy_pin (F : Fld) (d i n : Nat) (m : Mod) : (bumpBy F d i n m).pin = m.pin := rfl
@[simp] theorem bumpBy_lp (F : Fld) (d i n : Nat) (m : Mod) : (bumpBy F d i n m).lp = m.lp := rfl
@[simp] theorem bumpBy_lane (F : Fld) (d i n : Nat) (m : Mod) : (bumpBy F d i n m).lane = m.lane := rfl
@[simp] theorem bumpBy_lnk (F : Fld) (d i n : Nat) (m : Mod) : (bumpBy F d i n m).lnk = m.lnk := rfl
@[simp] theorem bumpBy_xb (F : Fld) (d i n : Nat) (m : Mod) : (bumpBy F d i n m).xb = m.xb := rfl
@[simp] theorem bumpBy_tabs (F : Fld) (d i n : Nat) (m : Mod) : (bumpBy F d i n m).tabs = m.tabs := rfl
@[simp] theorem bumpBy_evr (F : Fld) (d i n : Nat) (m : Mod) : (bumpBy F d i n m).evr = m.evr := rfl
@[simp] theorem bumpBy_xlt (F : Fld) (d i n : Nat) (m : Mod) : (bumpBy F d i n m).xlt = m.xlt := rfl
@[simp] theorem bumpBy_trn (F : Fld) (d i n : Nat) (m : Mod) : (bumpBy F d i n m).trn = m.trn := rfl
@[simp] theorem bumpBy_drv (F : Fld) (d i n : Nat) (m : Mod) : (bumpBy F d i n m).drv = m.drv := rfl
@[simp] theorem bumpBy_pools (F : Fld) (d i n : Nat) (m : Mod) : (bumpBy F d i n m).pools = m.pools := rfl
@[simp] theorem bumpBy_pool (F : Fld) (d i n : Nat) (m : Mod) : (bumpBy F d i n m).pool = m.pool := rfl
@[simp] theorem bumpBy_smp (F : Fld) (d i n : Nat) (m : Mod) : (bumpBy F d i n m).smp = m.smp := rfl
@[simp] theorem bumpBy_azx (F : Fld) (d i n : Nat) (m : Mod) : (bumpBy F d i n m).azx = m.azx := rfl
@[simp] theorem bumpBy_shep (F : Fld) (d i n : Nat) (m : Mod) : (bumpBy F d i n m).shep = m.shep := rfl
@[simp] theorem bumpBy_todo (F : Fld) (d i n : Nat) (m : Mod) : (bumpBy F d i n m).todo = m.todo := rfl
@[simp] theorem bumpBy_out (F : Fld) (d i n : Nat) (m : Mod) : (bumpBy F d i n m).out = m.out := rfl
@[simp] theorem bumpBy_free (F : Fld) (d i n : Nat) (m : Mod) : (bumpBy F d i n m).free = m.free := rfl
@[simp] theorem bumpBy_burn (F : Fld) (d i n : Nat) (m : Mod) : (bumpBy F d i n m).burn = m.burn := rfl

/-! `bumpWrap`. -/
@[simp] theorem bumpWrap_live (F : Fld) (d i : Nat) (m : Mod) : (bumpWrap F d i m).live = m.live := rfl
@[simp] theorem bumpWrap_ctr (F : Fld) (d i : Nat) (m : Mod) : (bumpWrap F d i m).ctr = m.ctr := rfl
@[simp] theorem bumpWrap_ctrWrap (F : Fld) (d i : Nat) (m : Mod) : (bumpWrap F d i m).ctrWrap = m.ctrWrap := rfl
@[simp] theorem bumpWrap_ctrEpoch (F : Fld) (d i : Nat) (m : Mod) : (bumpWrap F d i m).ctrEpoch = m.ctrEpoch := rfl
@[simp] theorem bumpWrap_d2d (F : Fld) (d i : Nat) (m : Mod) : (bumpWrap F d i m).d2d = m.d2d := rfl
@[simp] theorem bumpWrap_d2dFail (F : Fld) (d i : Nat) (m : Mod) : (bumpWrap F d i m).d2dFail = m.d2dFail := rfl
@[simp] theorem bumpWrap_dieSt (F : Fld) (d i : Nat) (m : Mod) : (bumpWrap F d i m).dieSt = m.dieSt := rfl
@[simp] theorem bumpWrap_hif (F : Fld) (d i : Nat) (m : Mod) : (bumpWrap F d i m).hif = m.hif := rfl
@[simp] theorem bumpWrap_clk (F : Fld) (d i : Nat) (m : Mod) : (bumpWrap F d i m).clk = m.clk := rfl
@[simp] theorem bumpWrap_tm (F : Fld) (d i : Nat) (m : Mod) : (bumpWrap F d i m).tm = m.tm := rfl
@[simp] theorem bumpWrap_flt (F : Fld) (d i : Nat) (m : Mod) : (bumpWrap F d i m).flt = m.flt := rfl
@[simp] theorem bumpWrap_bst (F : Fld) (d i : Nat) (m : Mod) : (bumpWrap F d i m).bst = m.bst := rfl
@[simp] theorem bumpWrap_flash (F : Fld) (d i : Nat) (m : Mod) : (bumpWrap F d i m).flash = m.flash := rfl
@[simp] theorem bumpWrap_conf (F : Fld) (d i : Nat) (m : Mod) : (bumpWrap F d i m).conf = m.conf := rfl
@[simp] theorem bumpWrap_sec (F : Fld) (d i : Nat) (m : Mod) : (bumpWrap F d i m).sec = m.sec := rfl
@[simp] theorem bumpWrap_keys (F : Fld) (d i : Nat) (m : Mod) : (bumpWrap F d i m).keys = m.keys := rfl
@[simp] theorem bumpWrap_tly (F : Fld) (d i : Nat) (m : Mod) : (bumpWrap F d i m).tly = m.tly := rfl
@[simp] theorem bumpWrap_pin (F : Fld) (d i : Nat) (m : Mod) : (bumpWrap F d i m).pin = m.pin := rfl
@[simp] theorem bumpWrap_lp (F : Fld) (d i : Nat) (m : Mod) : (bumpWrap F d i m).lp = m.lp := rfl
@[simp] theorem bumpWrap_lane (F : Fld) (d i : Nat) (m : Mod) : (bumpWrap F d i m).lane = m.lane := rfl
@[simp] theorem bumpWrap_lnk (F : Fld) (d i : Nat) (m : Mod) : (bumpWrap F d i m).lnk = m.lnk := rfl
@[simp] theorem bumpWrap_xb (F : Fld) (d i : Nat) (m : Mod) : (bumpWrap F d i m).xb = m.xb := rfl
@[simp] theorem bumpWrap_tabs (F : Fld) (d i : Nat) (m : Mod) : (bumpWrap F d i m).tabs = m.tabs := rfl
@[simp] theorem bumpWrap_evr (F : Fld) (d i : Nat) (m : Mod) : (bumpWrap F d i m).evr = m.evr := rfl
@[simp] theorem bumpWrap_xlt (F : Fld) (d i : Nat) (m : Mod) : (bumpWrap F d i m).xlt = m.xlt := rfl
@[simp] theorem bumpWrap_trn (F : Fld) (d i : Nat) (m : Mod) : (bumpWrap F d i m).trn = m.trn := rfl
@[simp] theorem bumpWrap_drv (F : Fld) (d i : Nat) (m : Mod) : (bumpWrap F d i m).drv = m.drv := rfl
@[simp] theorem bumpWrap_pools (F : Fld) (d i : Nat) (m : Mod) : (bumpWrap F d i m).pools = m.pools := rfl
@[simp] theorem bumpWrap_pool (F : Fld) (d i : Nat) (m : Mod) : (bumpWrap F d i m).pool = m.pool := rfl
@[simp] theorem bumpWrap_smp (F : Fld) (d i : Nat) (m : Mod) : (bumpWrap F d i m).smp = m.smp := rfl
@[simp] theorem bumpWrap_azx (F : Fld) (d i : Nat) (m : Mod) : (bumpWrap F d i m).azx = m.azx := rfl
@[simp] theorem bumpWrap_shep (F : Fld) (d i : Nat) (m : Mod) : (bumpWrap F d i m).shep = m.shep := rfl
@[simp] theorem bumpWrap_todo (F : Fld) (d i : Nat) (m : Mod) : (bumpWrap F d i m).todo = m.todo := rfl
@[simp] theorem bumpWrap_out (F : Fld) (d i : Nat) (m : Mod) : (bumpWrap F d i m).out = m.out := rfl
@[simp] theorem bumpWrap_free (F : Fld) (d i : Nat) (m : Mod) : (bumpWrap F d i m).free = m.free := rfl
@[simp] theorem bumpWrap_burn (F : Fld) (d i : Nat) (m : Mod) : (bumpWrap F d i m).burn = m.burn := rfl

/-! `force`. -/
@[simp] theorem force_ctr (F : Fld) (d i v : Nat) (m : Mod) : (force F d i v m).ctr = m.ctr := rfl
@[simp] theorem force_ctrWrap (F : Fld) (d i v : Nat) (m : Mod) : (force F d i v m).ctrWrap = m.ctrWrap := rfl
@[simp] theorem force_ctrEpoch (F : Fld) (d i v : Nat) (m : Mod) : (force F d i v m).ctrEpoch = m.ctrEpoch := rfl
@[simp] theorem force_d2d (F : Fld) (d i v : Nat) (m : Mod) : (force F d i v m).d2d = m.d2d := rfl
@[simp] theorem force_d2dFail (F : Fld) (d i v : Nat) (m : Mod) : (force F d i v m).d2dFail = m.d2dFail := rfl
@[simp] theorem force_dieSt (F : Fld) (d i v : Nat) (m : Mod) : (force F d i v m).dieSt = m.dieSt := rfl
@[simp] theorem force_hif (F : Fld) (d i v : Nat) (m : Mod) : (force F d i v m).hif = m.hif := rfl
@[simp] theorem force_clk (F : Fld) (d i v : Nat) (m : Mod) : (force F d i v m).clk = m.clk := rfl
@[simp] theorem force_tm (F : Fld) (d i v : Nat) (m : Mod) : (force F d i v m).tm = m.tm := rfl
@[simp] theorem force_flt (F : Fld) (d i v : Nat) (m : Mod) : (force F d i v m).flt = m.flt := rfl
@[simp] theorem force_bst (F : Fld) (d i v : Nat) (m : Mod) : (force F d i v m).bst = m.bst := rfl
@[simp] theorem force_flash (F : Fld) (d i v : Nat) (m : Mod) : (force F d i v m).flash = m.flash := rfl
@[simp] theorem force_conf (F : Fld) (d i v : Nat) (m : Mod) : (force F d i v m).conf = m.conf := rfl
@[simp] theorem force_sec (F : Fld) (d i v : Nat) (m : Mod) : (force F d i v m).sec = m.sec := rfl
@[simp] theorem force_keys (F : Fld) (d i v : Nat) (m : Mod) : (force F d i v m).keys = m.keys := rfl
@[simp] theorem force_tly (F : Fld) (d i v : Nat) (m : Mod) : (force F d i v m).tly = m.tly := rfl
@[simp] theorem force_pin (F : Fld) (d i v : Nat) (m : Mod) : (force F d i v m).pin = m.pin := rfl
@[simp] theorem force_lp (F : Fld) (d i v : Nat) (m : Mod) : (force F d i v m).lp = m.lp := rfl
@[simp] theorem force_lane (F : Fld) (d i v : Nat) (m : Mod) : (force F d i v m).lane = m.lane := rfl
@[simp] theorem force_lnk (F : Fld) (d i v : Nat) (m : Mod) : (force F d i v m).lnk = m.lnk := rfl
@[simp] theorem force_xb (F : Fld) (d i v : Nat) (m : Mod) : (force F d i v m).xb = m.xb := rfl
@[simp] theorem force_tabs (F : Fld) (d i v : Nat) (m : Mod) : (force F d i v m).tabs = m.tabs := rfl
@[simp] theorem force_evr (F : Fld) (d i v : Nat) (m : Mod) : (force F d i v m).evr = m.evr := rfl
@[simp] theorem force_xlt (F : Fld) (d i v : Nat) (m : Mod) : (force F d i v m).xlt = m.xlt := rfl
@[simp] theorem force_trn (F : Fld) (d i v : Nat) (m : Mod) : (force F d i v m).trn = m.trn := rfl
@[simp] theorem force_drv (F : Fld) (d i v : Nat) (m : Mod) : (force F d i v m).drv = m.drv := rfl
@[simp] theorem force_pools (F : Fld) (d i v : Nat) (m : Mod) : (force F d i v m).pools = m.pools := rfl
@[simp] theorem force_pool (F : Fld) (d i v : Nat) (m : Mod) : (force F d i v m).pool = m.pool := rfl
@[simp] theorem force_smp (F : Fld) (d i v : Nat) (m : Mod) : (force F d i v m).smp = m.smp := rfl
@[simp] theorem force_azx (F : Fld) (d i v : Nat) (m : Mod) : (force F d i v m).azx = m.azx := rfl
@[simp] theorem force_shep (F : Fld) (d i v : Nat) (m : Mod) : (force F d i v m).shep = m.shep := rfl
@[simp] theorem force_todo (F : Fld) (d i v : Nat) (m : Mod) : (force F d i v m).todo = m.todo := rfl
@[simp] theorem force_out (F : Fld) (d i v : Nat) (m : Mod) : (force F d i v m).out = m.out := rfl
@[simp] theorem force_free (F : Fld) (d i v : Nat) (m : Mod) : (force F d i v m).free = m.free := rfl
@[simp] theorem force_burn (F : Fld) (d i v : Nat) (m : Mod) : (force F d i v m).burn = m.burn := rfl

/-! `count`. -/
@[simp] theorem count_regs (d i n : Nat) (m : Mod) : (count d i n m).regs = m.regs := rfl
@[simp] theorem count_live (d i n : Nat) (m : Mod) : (count d i n m).live = m.live := rfl
@[simp] theorem count_ctrEpoch (d i n : Nat) (m : Mod) : (count d i n m).ctrEpoch = m.ctrEpoch := rfl
@[simp] theorem count_d2d (d i n : Nat) (m : Mod) : (count d i n m).d2d = m.d2d := rfl
@[simp] theorem count_d2dFail (d i n : Nat) (m : Mod) : (count d i n m).d2dFail = m.d2dFail := rfl
@[simp] theorem count_dieSt (d i n : Nat) (m : Mod) : (count d i n m).dieSt = m.dieSt := rfl
@[simp] theorem count_hif (d i n : Nat) (m : Mod) : (count d i n m).hif = m.hif := rfl
@[simp] theorem count_clk (d i n : Nat) (m : Mod) : (count d i n m).clk = m.clk := rfl
@[simp] theorem count_tm (d i n : Nat) (m : Mod) : (count d i n m).tm = m.tm := rfl
@[simp] theorem count_flt (d i n : Nat) (m : Mod) : (count d i n m).flt = m.flt := rfl
@[simp] theorem count_bst (d i n : Nat) (m : Mod) : (count d i n m).bst = m.bst := rfl
@[simp] theorem count_flash (d i n : Nat) (m : Mod) : (count d i n m).flash = m.flash := rfl
@[simp] theorem count_conf (d i n : Nat) (m : Mod) : (count d i n m).conf = m.conf := rfl
@[simp] theorem count_sec (d i n : Nat) (m : Mod) : (count d i n m).sec = m.sec := rfl
@[simp] theorem count_keys (d i n : Nat) (m : Mod) : (count d i n m).keys = m.keys := rfl
@[simp] theorem count_tly (d i n : Nat) (m : Mod) : (count d i n m).tly = m.tly := rfl
@[simp] theorem count_pin (d i n : Nat) (m : Mod) : (count d i n m).pin = m.pin := rfl
@[simp] theorem count_lp (d i n : Nat) (m : Mod) : (count d i n m).lp = m.lp := rfl
@[simp] theorem count_lane (d i n : Nat) (m : Mod) : (count d i n m).lane = m.lane := rfl
@[simp] theorem count_lnk (d i n : Nat) (m : Mod) : (count d i n m).lnk = m.lnk := rfl
@[simp] theorem count_xb (d i n : Nat) (m : Mod) : (count d i n m).xb = m.xb := rfl
@[simp] theorem count_tabs (d i n : Nat) (m : Mod) : (count d i n m).tabs = m.tabs := rfl
@[simp] theorem count_evr (d i n : Nat) (m : Mod) : (count d i n m).evr = m.evr := rfl
@[simp] theorem count_xlt (d i n : Nat) (m : Mod) : (count d i n m).xlt = m.xlt := rfl
@[simp] theorem count_trn (d i n : Nat) (m : Mod) : (count d i n m).trn = m.trn := rfl
@[simp] theorem count_drv (d i n : Nat) (m : Mod) : (count d i n m).drv = m.drv := rfl
@[simp] theorem count_pools (d i n : Nat) (m : Mod) : (count d i n m).pools = m.pools := rfl
@[simp] theorem count_pool (d i n : Nat) (m : Mod) : (count d i n m).pool = m.pool := rfl
@[simp] theorem count_smp (d i n : Nat) (m : Mod) : (count d i n m).smp = m.smp := rfl
@[simp] theorem count_azx (d i n : Nat) (m : Mod) : (count d i n m).azx = m.azx := rfl
@[simp] theorem count_shep (d i n : Nat) (m : Mod) : (count d i n m).shep = m.shep := rfl
@[simp] theorem count_todo (d i n : Nat) (m : Mod) : (count d i n m).todo = m.todo := rfl
@[simp] theorem count_out (d i n : Nat) (m : Mod) : (count d i n m).out = m.out := rfl
@[simp] theorem count_free (d i n : Nat) (m : Mod) : (count d i n m).free = m.free := rfl
@[simp] theorem count_burn (d i n : Nat) (m : Mod) : (count d i n m).burn = m.burn := rfl

/-! `setFn`. -/
@[simp] theorem setFn_live (d f st : Nat) (m : Mod) : (setFn d f st m).live = m.live := rfl
@[simp] theorem setFn_ctr (d f st : Nat) (m : Mod) : (setFn d f st m).ctr = m.ctr := rfl
@[simp] theorem setFn_ctrWrap (d f st : Nat) (m : Mod) : (setFn d f st m).ctrWrap = m.ctrWrap := rfl
@[simp] theorem setFn_ctrEpoch (d f st : Nat) (m : Mod) : (setFn d f st m).ctrEpoch = m.ctrEpoch := rfl
@[simp] theorem setFn_d2d (d f st : Nat) (m : Mod) : (setFn d f st m).d2d = m.d2d := rfl
@[simp] theorem setFn_d2dFail (d f st : Nat) (m : Mod) : (setFn d f st m).d2dFail = m.d2dFail := rfl
@[simp] theorem setFn_dieSt (d f st : Nat) (m : Mod) : (setFn d f st m).dieSt = m.dieSt := rfl
@[simp] theorem setFn_hif (d f st : Nat) (m : Mod) : (setFn d f st m).hif = m.hif := rfl
@[simp] theorem setFn_clk (d f st : Nat) (m : Mod) : (setFn d f st m).clk = m.clk := rfl
@[simp] theorem setFn_tm (d f st : Nat) (m : Mod) : (setFn d f st m).tm = m.tm := rfl
@[simp] theorem setFn_flt (d f st : Nat) (m : Mod) : (setFn d f st m).flt = m.flt := rfl
@[simp] theorem setFn_bst (d f st : Nat) (m : Mod) : (setFn d f st m).bst = m.bst := rfl
@[simp] theorem setFn_flash (d f st : Nat) (m : Mod) : (setFn d f st m).flash = m.flash := rfl
@[simp] theorem setFn_conf (d f st : Nat) (m : Mod) : (setFn d f st m).conf = m.conf := rfl
@[simp] theorem setFn_sec (d f st : Nat) (m : Mod) : (setFn d f st m).sec = m.sec := rfl
@[simp] theorem setFn_keys (d f st : Nat) (m : Mod) : (setFn d f st m).keys = m.keys := rfl
@[simp] theorem setFn_tly (d f st : Nat) (m : Mod) : (setFn d f st m).tly = m.tly := rfl
@[simp] theorem setFn_pin (d f st : Nat) (m : Mod) : (setFn d f st m).pin = m.pin := rfl
@[simp] theorem setFn_lp (d f st : Nat) (m : Mod) : (setFn d f st m).lp = m.lp := rfl
@[simp] theorem setFn_lane (d f st : Nat) (m : Mod) : (setFn d f st m).lane = m.lane := rfl
@[simp] theorem setFn_lnk (d f st : Nat) (m : Mod) : (setFn d f st m).lnk = m.lnk := rfl
@[simp] theorem setFn_xb (d f st : Nat) (m : Mod) : (setFn d f st m).xb = m.xb := rfl
@[simp] theorem setFn_tabs (d f st : Nat) (m : Mod) : (setFn d f st m).tabs = m.tabs := rfl
@[simp] theorem setFn_evr (d f st : Nat) (m : Mod) : (setFn d f st m).evr = m.evr := rfl
@[simp] theorem setFn_xlt (d f st : Nat) (m : Mod) : (setFn d f st m).xlt = m.xlt := rfl
@[simp] theorem setFn_trn (d f st : Nat) (m : Mod) : (setFn d f st m).trn = m.trn := rfl
@[simp] theorem setFn_drv (d f st : Nat) (m : Mod) : (setFn d f st m).drv = m.drv := rfl
@[simp] theorem setFn_pools (d f st : Nat) (m : Mod) : (setFn d f st m).pools = m.pools := rfl
@[simp] theorem setFn_pool (d f st : Nat) (m : Mod) : (setFn d f st m).pool = m.pool := rfl
@[simp] theorem setFn_smp (d f st : Nat) (m : Mod) : (setFn d f st m).smp = m.smp := rfl
@[simp] theorem setFn_azx (d f st : Nat) (m : Mod) : (setFn d f st m).azx = m.azx := rfl
@[simp] theorem setFn_shep (d f st : Nat) (m : Mod) : (setFn d f st m).shep = m.shep := rfl
@[simp] theorem setFn_todo (d f st : Nat) (m : Mod) : (setFn d f st m).todo = m.todo := rfl
@[simp] theorem setFn_out (d f st : Nat) (m : Mod) : (setFn d f st m).out = m.out := rfl
@[simp] theorem setFn_free (d f st : Nat) (m : Mod) : (setFn d f st m).free = m.free := rfl
@[simp] theorem setFn_burn (d f st : Nat) (m : Mod) : (setFn d f st m).burn = m.burn := rfl

/-! `setQState`. -/
@[simp] theorem setQState_live (d k n st : Nat) (m : Mod) : (setQState d k n st m).live = m.live := rfl
@[simp] theorem setQState_ctr (d k n st : Nat) (m : Mod) : (setQState d k n st m).ctr = m.ctr := rfl
@[simp] theorem setQState_ctrWrap (d k n st : Nat) (m : Mod) : (setQState d k n st m).ctrWrap = m.ctrWrap := rfl
@[simp] theorem setQState_ctrEpoch (d k n st : Nat) (m : Mod) : (setQState d k n st m).ctrEpoch = m.ctrEpoch := rfl
@[simp] theorem setQState_d2d (d k n st : Nat) (m : Mod) : (setQState d k n st m).d2d = m.d2d := rfl
@[simp] theorem setQState_d2dFail (d k n st : Nat) (m : Mod) : (setQState d k n st m).d2dFail = m.d2dFail := rfl
@[simp] theorem setQState_dieSt (d k n st : Nat) (m : Mod) : (setQState d k n st m).dieSt = m.dieSt := rfl
@[simp] theorem setQState_hif (d k n st : Nat) (m : Mod) : (setQState d k n st m).hif = m.hif := rfl
@[simp] theorem setQState_clk (d k n st : Nat) (m : Mod) : (setQState d k n st m).clk = m.clk := rfl
@[simp] theorem setQState_tm (d k n st : Nat) (m : Mod) : (setQState d k n st m).tm = m.tm := rfl
@[simp] theorem setQState_flt (d k n st : Nat) (m : Mod) : (setQState d k n st m).flt = m.flt := rfl
@[simp] theorem setQState_bst (d k n st : Nat) (m : Mod) : (setQState d k n st m).bst = m.bst := rfl
@[simp] theorem setQState_flash (d k n st : Nat) (m : Mod) : (setQState d k n st m).flash = m.flash := rfl
@[simp] theorem setQState_conf (d k n st : Nat) (m : Mod) : (setQState d k n st m).conf = m.conf := rfl
@[simp] theorem setQState_sec (d k n st : Nat) (m : Mod) : (setQState d k n st m).sec = m.sec := rfl
@[simp] theorem setQState_keys (d k n st : Nat) (m : Mod) : (setQState d k n st m).keys = m.keys := rfl
@[simp] theorem setQState_tly (d k n st : Nat) (m : Mod) : (setQState d k n st m).tly = m.tly := rfl
@[simp] theorem setQState_pin (d k n st : Nat) (m : Mod) : (setQState d k n st m).pin = m.pin := rfl
@[simp] theorem setQState_lp (d k n st : Nat) (m : Mod) : (setQState d k n st m).lp = m.lp := rfl
@[simp] theorem setQState_lane (d k n st : Nat) (m : Mod) : (setQState d k n st m).lane = m.lane := rfl
@[simp] theorem setQState_lnk (d k n st : Nat) (m : Mod) : (setQState d k n st m).lnk = m.lnk := rfl
@[simp] theorem setQState_xb (d k n st : Nat) (m : Mod) : (setQState d k n st m).xb = m.xb := rfl
@[simp] theorem setQState_tabs (d k n st : Nat) (m : Mod) : (setQState d k n st m).tabs = m.tabs := rfl
@[simp] theorem setQState_evr (d k n st : Nat) (m : Mod) : (setQState d k n st m).evr = m.evr := rfl
@[simp] theorem setQState_xlt (d k n st : Nat) (m : Mod) : (setQState d k n st m).xlt = m.xlt := rfl
@[simp] theorem setQState_trn (d k n st : Nat) (m : Mod) : (setQState d k n st m).trn = m.trn := rfl
@[simp] theorem setQState_drv (d k n st : Nat) (m : Mod) : (setQState d k n st m).drv = m.drv := rfl
@[simp] theorem setQState_pools (d k n st : Nat) (m : Mod) : (setQState d k n st m).pools = m.pools := rfl
@[simp] theorem setQState_pool (d k n st : Nat) (m : Mod) : (setQState d k n st m).pool = m.pool := rfl
@[simp] theorem setQState_smp (d k n st : Nat) (m : Mod) : (setQState d k n st m).smp = m.smp := rfl
@[simp] theorem setQState_azx (d k n st : Nat) (m : Mod) : (setQState d k n st m).azx = m.azx := rfl
@[simp] theorem setQState_shep (d k n st : Nat) (m : Mod) : (setQState d k n st m).shep = m.shep := rfl
@[simp] theorem setQState_todo (d k n st : Nat) (m : Mod) : (setQState d k n st m).todo = m.todo := rfl
@[simp] theorem setQState_out (d k n st : Nat) (m : Mod) : (setQState d k n st m).out = m.out := rfl
@[simp] theorem setQState_free (d k n st : Nat) (m : Mod) : (setQState d k n st m).free = m.free := rfl
@[simp] theorem setQState_burn (d k n st : Nat) (m : Mod) : (setQState d k n st m).burn = m.burn := rfl

/-! `setUnit`. -/
@[simp] theorem setUnit_live (d u st : Nat) (m : Mod) : (setUnit d u st m).live = m.live := rfl
@[simp] theorem setUnit_ctr (d u st : Nat) (m : Mod) : (setUnit d u st m).ctr = m.ctr := rfl
@[simp] theorem setUnit_ctrWrap (d u st : Nat) (m : Mod) : (setUnit d u st m).ctrWrap = m.ctrWrap := rfl
@[simp] theorem setUnit_ctrEpoch (d u st : Nat) (m : Mod) : (setUnit d u st m).ctrEpoch = m.ctrEpoch := rfl
@[simp] theorem setUnit_d2d (d u st : Nat) (m : Mod) : (setUnit d u st m).d2d = m.d2d := rfl
@[simp] theorem setUnit_d2dFail (d u st : Nat) (m : Mod) : (setUnit d u st m).d2dFail = m.d2dFail := rfl
@[simp] theorem setUnit_dieSt (d u st : Nat) (m : Mod) : (setUnit d u st m).dieSt = m.dieSt := rfl
@[simp] theorem setUnit_hif (d u st : Nat) (m : Mod) : (setUnit d u st m).hif = m.hif := rfl
@[simp] theorem setUnit_clk (d u st : Nat) (m : Mod) : (setUnit d u st m).clk = m.clk := rfl
@[simp] theorem setUnit_tm (d u st : Nat) (m : Mod) : (setUnit d u st m).tm = m.tm := rfl
@[simp] theorem setUnit_flt (d u st : Nat) (m : Mod) : (setUnit d u st m).flt = m.flt := rfl
@[simp] theorem setUnit_bst (d u st : Nat) (m : Mod) : (setUnit d u st m).bst = m.bst := rfl
@[simp] theorem setUnit_flash (d u st : Nat) (m : Mod) : (setUnit d u st m).flash = m.flash := rfl
@[simp] theorem setUnit_conf (d u st : Nat) (m : Mod) : (setUnit d u st m).conf = m.conf := rfl
@[simp] theorem setUnit_sec (d u st : Nat) (m : Mod) : (setUnit d u st m).sec = m.sec := rfl
@[simp] theorem setUnit_keys (d u st : Nat) (m : Mod) : (setUnit d u st m).keys = m.keys := rfl
@[simp] theorem setUnit_tly (d u st : Nat) (m : Mod) : (setUnit d u st m).tly = m.tly := rfl
@[simp] theorem setUnit_pin (d u st : Nat) (m : Mod) : (setUnit d u st m).pin = m.pin := rfl
@[simp] theorem setUnit_lp (d u st : Nat) (m : Mod) : (setUnit d u st m).lp = m.lp := rfl
@[simp] theorem setUnit_lane (d u st : Nat) (m : Mod) : (setUnit d u st m).lane = m.lane := rfl
@[simp] theorem setUnit_lnk (d u st : Nat) (m : Mod) : (setUnit d u st m).lnk = m.lnk := rfl
@[simp] theorem setUnit_xb (d u st : Nat) (m : Mod) : (setUnit d u st m).xb = m.xb := rfl
@[simp] theorem setUnit_tabs (d u st : Nat) (m : Mod) : (setUnit d u st m).tabs = m.tabs := rfl
@[simp] theorem setUnit_evr (d u st : Nat) (m : Mod) : (setUnit d u st m).evr = m.evr := rfl
@[simp] theorem setUnit_xlt (d u st : Nat) (m : Mod) : (setUnit d u st m).xlt = m.xlt := rfl
@[simp] theorem setUnit_trn (d u st : Nat) (m : Mod) : (setUnit d u st m).trn = m.trn := rfl
@[simp] theorem setUnit_drv (d u st : Nat) (m : Mod) : (setUnit d u st m).drv = m.drv := rfl
@[simp] theorem setUnit_pools (d u st : Nat) (m : Mod) : (setUnit d u st m).pools = m.pools := rfl
@[simp] theorem setUnit_pool (d u st : Nat) (m : Mod) : (setUnit d u st m).pool = m.pool := rfl
@[simp] theorem setUnit_smp (d u st : Nat) (m : Mod) : (setUnit d u st m).smp = m.smp := rfl
@[simp] theorem setUnit_azx (d u st : Nat) (m : Mod) : (setUnit d u st m).azx = m.azx := rfl
@[simp] theorem setUnit_shep (d u st : Nat) (m : Mod) : (setUnit d u st m).shep = m.shep := rfl
@[simp] theorem setUnit_todo (d u st : Nat) (m : Mod) : (setUnit d u st m).todo = m.todo := rfl
@[simp] theorem setUnit_out (d u st : Nat) (m : Mod) : (setUnit d u st m).out = m.out := rfl
@[simp] theorem setUnit_free (d u st : Nat) (m : Mod) : (setUnit d u st m).free = m.free := rfl
@[simp] theorem setUnit_burn (d u st : Nat) (m : Mod) : (setUnit d u st m).burn = m.burn := rfl

/-! `emit`. -/
@[simp] theorem emit_regs (o : Out) (m : Mod) : (emit o m).regs = m.regs := rfl
@[simp] theorem emit_live (o : Out) (m : Mod) : (emit o m).live = m.live := rfl
@[simp] theorem emit_ctr (o : Out) (m : Mod) : (emit o m).ctr = m.ctr := rfl
@[simp] theorem emit_ctrWrap (o : Out) (m : Mod) : (emit o m).ctrWrap = m.ctrWrap := rfl
@[simp] theorem emit_ctrEpoch (o : Out) (m : Mod) : (emit o m).ctrEpoch = m.ctrEpoch := rfl
@[simp] theorem emit_d2d (o : Out) (m : Mod) : (emit o m).d2d = m.d2d := rfl
@[simp] theorem emit_d2dFail (o : Out) (m : Mod) : (emit o m).d2dFail = m.d2dFail := rfl
@[simp] theorem emit_dieSt (o : Out) (m : Mod) : (emit o m).dieSt = m.dieSt := rfl
@[simp] theorem emit_hif (o : Out) (m : Mod) : (emit o m).hif = m.hif := rfl
@[simp] theorem emit_clk (o : Out) (m : Mod) : (emit o m).clk = m.clk := rfl
@[simp] theorem emit_tm (o : Out) (m : Mod) : (emit o m).tm = m.tm := rfl
@[simp] theorem emit_flt (o : Out) (m : Mod) : (emit o m).flt = m.flt := rfl
@[simp] theorem emit_bst (o : Out) (m : Mod) : (emit o m).bst = m.bst := rfl
@[simp] theorem emit_flash (o : Out) (m : Mod) : (emit o m).flash = m.flash := rfl
@[simp] theorem emit_conf (o : Out) (m : Mod) : (emit o m).conf = m.conf := rfl
@[simp] theorem emit_sec (o : Out) (m : Mod) : (emit o m).sec = m.sec := rfl
@[simp] theorem emit_keys (o : Out) (m : Mod) : (emit o m).keys = m.keys := rfl
@[simp] theorem emit_tly (o : Out) (m : Mod) : (emit o m).tly = m.tly := rfl
@[simp] theorem emit_pin (o : Out) (m : Mod) : (emit o m).pin = m.pin := rfl
@[simp] theorem emit_lp (o : Out) (m : Mod) : (emit o m).lp = m.lp := rfl
@[simp] theorem emit_lane (o : Out) (m : Mod) : (emit o m).lane = m.lane := rfl
@[simp] theorem emit_lnk (o : Out) (m : Mod) : (emit o m).lnk = m.lnk := rfl
@[simp] theorem emit_xb (o : Out) (m : Mod) : (emit o m).xb = m.xb := rfl
@[simp] theorem emit_tabs (o : Out) (m : Mod) : (emit o m).tabs = m.tabs := rfl
@[simp] theorem emit_evr (o : Out) (m : Mod) : (emit o m).evr = m.evr := rfl
@[simp] theorem emit_xlt (o : Out) (m : Mod) : (emit o m).xlt = m.xlt := rfl
@[simp] theorem emit_trn (o : Out) (m : Mod) : (emit o m).trn = m.trn := rfl
@[simp] theorem emit_drv (o : Out) (m : Mod) : (emit o m).drv = m.drv := rfl
@[simp] theorem emit_pools (o : Out) (m : Mod) : (emit o m).pools = m.pools := rfl
@[simp] theorem emit_pool (o : Out) (m : Mod) : (emit o m).pool = m.pool := rfl
@[simp] theorem emit_smp (o : Out) (m : Mod) : (emit o m).smp = m.smp := rfl
@[simp] theorem emit_azx (o : Out) (m : Mod) : (emit o m).azx = m.azx := rfl
@[simp] theorem emit_shep (o : Out) (m : Mod) : (emit o m).shep = m.shep := rfl
@[simp] theorem emit_todo (o : Out) (m : Mod) : (emit o m).todo = m.todo := rfl
@[simp] theorem emit_free (o : Out) (m : Mod) : (emit o m).free = m.free := rfl
@[simp] theorem emit_burn (o : Out) (m : Mod) : (emit o m).burn = m.burn := rfl

/-! `later`. -/
@[simp] theorem later_regs (x : Todo) (m : Mod) : (later x m).regs = m.regs := rfl
@[simp] theorem later_live (x : Todo) (m : Mod) : (later x m).live = m.live := rfl
@[simp] theorem later_ctr (x : Todo) (m : Mod) : (later x m).ctr = m.ctr := rfl
@[simp] theorem later_ctrWrap (x : Todo) (m : Mod) : (later x m).ctrWrap = m.ctrWrap := rfl
@[simp] theorem later_ctrEpoch (x : Todo) (m : Mod) : (later x m).ctrEpoch = m.ctrEpoch := rfl
@[simp] theorem later_d2d (x : Todo) (m : Mod) : (later x m).d2d = m.d2d := rfl
@[simp] theorem later_d2dFail (x : Todo) (m : Mod) : (later x m).d2dFail = m.d2dFail := rfl
@[simp] theorem later_dieSt (x : Todo) (m : Mod) : (later x m).dieSt = m.dieSt := rfl
@[simp] theorem later_hif (x : Todo) (m : Mod) : (later x m).hif = m.hif := rfl
@[simp] theorem later_clk (x : Todo) (m : Mod) : (later x m).clk = m.clk := rfl
@[simp] theorem later_tm (x : Todo) (m : Mod) : (later x m).tm = m.tm := rfl
@[simp] theorem later_flt (x : Todo) (m : Mod) : (later x m).flt = m.flt := rfl
@[simp] theorem later_bst (x : Todo) (m : Mod) : (later x m).bst = m.bst := rfl
@[simp] theorem later_flash (x : Todo) (m : Mod) : (later x m).flash = m.flash := rfl
@[simp] theorem later_conf (x : Todo) (m : Mod) : (later x m).conf = m.conf := rfl
@[simp] theorem later_sec (x : Todo) (m : Mod) : (later x m).sec = m.sec := rfl
@[simp] theorem later_keys (x : Todo) (m : Mod) : (later x m).keys = m.keys := rfl
@[simp] theorem later_tly (x : Todo) (m : Mod) : (later x m).tly = m.tly := rfl
@[simp] theorem later_pin (x : Todo) (m : Mod) : (later x m).pin = m.pin := rfl
@[simp] theorem later_lp (x : Todo) (m : Mod) : (later x m).lp = m.lp := rfl
@[simp] theorem later_lane (x : Todo) (m : Mod) : (later x m).lane = m.lane := rfl
@[simp] theorem later_lnk (x : Todo) (m : Mod) : (later x m).lnk = m.lnk := rfl
@[simp] theorem later_xb (x : Todo) (m : Mod) : (later x m).xb = m.xb := rfl
@[simp] theorem later_tabs (x : Todo) (m : Mod) : (later x m).tabs = m.tabs := rfl
@[simp] theorem later_evr (x : Todo) (m : Mod) : (later x m).evr = m.evr := rfl
@[simp] theorem later_xlt (x : Todo) (m : Mod) : (later x m).xlt = m.xlt := rfl
@[simp] theorem later_trn (x : Todo) (m : Mod) : (later x m).trn = m.trn := rfl
@[simp] theorem later_drv (x : Todo) (m : Mod) : (later x m).drv = m.drv := rfl
@[simp] theorem later_pools (x : Todo) (m : Mod) : (later x m).pools = m.pools := rfl
@[simp] theorem later_pool (x : Todo) (m : Mod) : (later x m).pool = m.pool := rfl
@[simp] theorem later_smp (x : Todo) (m : Mod) : (later x m).smp = m.smp := rfl
@[simp] theorem later_azx (x : Todo) (m : Mod) : (later x m).azx = m.azx := rfl
@[simp] theorem later_shep (x : Todo) (m : Mod) : (later x m).shep = m.shep := rfl
@[simp] theorem later_out (x : Todo) (m : Mod) : (later x m).out = m.out := rfl
@[simp] theorem later_free (x : Todo) (m : Mod) : (later x m).free = m.free := rfl
@[simp] theorem later_burn (x : Todo) (m : Mod) : (later x m).burn = m.burn := rfl

/-! `setClock`. -/
@[simp] theorem setClock_regs (d : Nat) (c : Clock) (m : Mod) : (setClock d c m).regs = m.regs := rfl
@[simp] theorem setClock_live (d : Nat) (c : Clock) (m : Mod) : (setClock d c m).live = m.live := rfl
@[simp] theorem setClock_ctr (d : Nat) (c : Clock) (m : Mod) : (setClock d c m).ctr = m.ctr := rfl
@[simp] theorem setClock_ctrWrap (d : Nat) (c : Clock) (m : Mod) : (setClock d c m).ctrWrap = m.ctrWrap := rfl
@[simp] theorem setClock_ctrEpoch (d : Nat) (c : Clock) (m : Mod) : (setClock d c m).ctrEpoch = m.ctrEpoch := rfl
@[simp] theorem setClock_d2d (d : Nat) (c : Clock) (m : Mod) : (setClock d c m).d2d = m.d2d := rfl
@[simp] theorem setClock_d2dFail (d : Nat) (c : Clock) (m : Mod) : (setClock d c m).d2dFail = m.d2dFail := rfl
@[simp] theorem setClock_dieSt (d : Nat) (c : Clock) (m : Mod) : (setClock d c m).dieSt = m.dieSt := rfl
@[simp] theorem setClock_hif (d : Nat) (c : Clock) (m : Mod) : (setClock d c m).hif = m.hif := rfl
@[simp] theorem setClock_tm (d : Nat) (c : Clock) (m : Mod) : (setClock d c m).tm = m.tm := rfl
@[simp] theorem setClock_flt (d : Nat) (c : Clock) (m : Mod) : (setClock d c m).flt = m.flt := rfl
@[simp] theorem setClock_bst (d : Nat) (c : Clock) (m : Mod) : (setClock d c m).bst = m.bst := rfl
@[simp] theorem setClock_flash (d : Nat) (c : Clock) (m : Mod) : (setClock d c m).flash = m.flash := rfl
@[simp] theorem setClock_conf (d : Nat) (c : Clock) (m : Mod) : (setClock d c m).conf = m.conf := rfl
@[simp] theorem setClock_sec (d : Nat) (c : Clock) (m : Mod) : (setClock d c m).sec = m.sec := rfl
@[simp] theorem setClock_keys (d : Nat) (c : Clock) (m : Mod) : (setClock d c m).keys = m.keys := rfl
@[simp] theorem setClock_tly (d : Nat) (c : Clock) (m : Mod) : (setClock d c m).tly = m.tly := rfl
@[simp] theorem setClock_pin (d : Nat) (c : Clock) (m : Mod) : (setClock d c m).pin = m.pin := rfl
@[simp] theorem setClock_lp (d : Nat) (c : Clock) (m : Mod) : (setClock d c m).lp = m.lp := rfl
@[simp] theorem setClock_lane (d : Nat) (c : Clock) (m : Mod) : (setClock d c m).lane = m.lane := rfl
@[simp] theorem setClock_lnk (d : Nat) (c : Clock) (m : Mod) : (setClock d c m).lnk = m.lnk := rfl
@[simp] theorem setClock_xb (d : Nat) (c : Clock) (m : Mod) : (setClock d c m).xb = m.xb := rfl
@[simp] theorem setClock_tabs (d : Nat) (c : Clock) (m : Mod) : (setClock d c m).tabs = m.tabs := rfl
@[simp] theorem setClock_evr (d : Nat) (c : Clock) (m : Mod) : (setClock d c m).evr = m.evr := rfl
@[simp] theorem setClock_xlt (d : Nat) (c : Clock) (m : Mod) : (setClock d c m).xlt = m.xlt := rfl
@[simp] theorem setClock_trn (d : Nat) (c : Clock) (m : Mod) : (setClock d c m).trn = m.trn := rfl
@[simp] theorem setClock_drv (d : Nat) (c : Clock) (m : Mod) : (setClock d c m).drv = m.drv := rfl
@[simp] theorem setClock_pools (d : Nat) (c : Clock) (m : Mod) : (setClock d c m).pools = m.pools := rfl
@[simp] theorem setClock_pool (d : Nat) (c : Clock) (m : Mod) : (setClock d c m).pool = m.pool := rfl
@[simp] theorem setClock_smp (d : Nat) (c : Clock) (m : Mod) : (setClock d c m).smp = m.smp := rfl
@[simp] theorem setClock_azx (d : Nat) (c : Clock) (m : Mod) : (setClock d c m).azx = m.azx := rfl
@[simp] theorem setClock_shep (d : Nat) (c : Clock) (m : Mod) : (setClock d c m).shep = m.shep := rfl
@[simp] theorem setClock_todo (d : Nat) (c : Clock) (m : Mod) : (setClock d c m).todo = m.todo := rfl
@[simp] theorem setClock_out (d : Nat) (c : Clock) (m : Mod) : (setClock d c m).out = m.out := rfl
@[simp] theorem setClock_free (d : Nat) (c : Clock) (m : Mod) : (setClock d c m).free = m.free := rfl
@[simp] theorem setClock_burn (d : Nat) (c : Clock) (m : Mod) : (setClock d c m).burn = m.burn := rfl

/-! `updTrn`. -/
@[simp] theorem updTrn_regs (f : Trn → Trn) (m : Mod) : (updTrn f m).regs = m.regs := rfl
@[simp] theorem updTrn_live (f : Trn → Trn) (m : Mod) : (updTrn f m).live = m.live := rfl
@[simp] theorem updTrn_ctr (f : Trn → Trn) (m : Mod) : (updTrn f m).ctr = m.ctr := rfl
@[simp] theorem updTrn_ctrWrap (f : Trn → Trn) (m : Mod) : (updTrn f m).ctrWrap = m.ctrWrap := rfl
@[simp] theorem updTrn_ctrEpoch (f : Trn → Trn) (m : Mod) : (updTrn f m).ctrEpoch = m.ctrEpoch := rfl
@[simp] theorem updTrn_d2d (f : Trn → Trn) (m : Mod) : (updTrn f m).d2d = m.d2d := rfl
@[simp] theorem updTrn_d2dFail (f : Trn → Trn) (m : Mod) : (updTrn f m).d2dFail = m.d2dFail := rfl
@[simp] theorem updTrn_dieSt (f : Trn → Trn) (m : Mod) : (updTrn f m).dieSt = m.dieSt := rfl
@[simp] theorem updTrn_hif (f : Trn → Trn) (m : Mod) : (updTrn f m).hif = m.hif := rfl
@[simp] theorem updTrn_clk (f : Trn → Trn) (m : Mod) : (updTrn f m).clk = m.clk := rfl
@[simp] theorem updTrn_tm (f : Trn → Trn) (m : Mod) : (updTrn f m).tm = m.tm := rfl
@[simp] theorem updTrn_flt (f : Trn → Trn) (m : Mod) : (updTrn f m).flt = m.flt := rfl
@[simp] theorem updTrn_bst (f : Trn → Trn) (m : Mod) : (updTrn f m).bst = m.bst := rfl
@[simp] theorem updTrn_flash (f : Trn → Trn) (m : Mod) : (updTrn f m).flash = m.flash := rfl
@[simp] theorem updTrn_conf (f : Trn → Trn) (m : Mod) : (updTrn f m).conf = m.conf := rfl
@[simp] theorem updTrn_sec (f : Trn → Trn) (m : Mod) : (updTrn f m).sec = m.sec := rfl
@[simp] theorem updTrn_keys (f : Trn → Trn) (m : Mod) : (updTrn f m).keys = m.keys := rfl
@[simp] theorem updTrn_tly (f : Trn → Trn) (m : Mod) : (updTrn f m).tly = m.tly := rfl
@[simp] theorem updTrn_pin (f : Trn → Trn) (m : Mod) : (updTrn f m).pin = m.pin := rfl
@[simp] theorem updTrn_lp (f : Trn → Trn) (m : Mod) : (updTrn f m).lp = m.lp := rfl
@[simp] theorem updTrn_lane (f : Trn → Trn) (m : Mod) : (updTrn f m).lane = m.lane := rfl
@[simp] theorem updTrn_lnk (f : Trn → Trn) (m : Mod) : (updTrn f m).lnk = m.lnk := rfl
@[simp] theorem updTrn_xb (f : Trn → Trn) (m : Mod) : (updTrn f m).xb = m.xb := rfl
@[simp] theorem updTrn_tabs (f : Trn → Trn) (m : Mod) : (updTrn f m).tabs = m.tabs := rfl
@[simp] theorem updTrn_evr (f : Trn → Trn) (m : Mod) : (updTrn f m).evr = m.evr := rfl
@[simp] theorem updTrn_xlt (f : Trn → Trn) (m : Mod) : (updTrn f m).xlt = m.xlt := rfl
@[simp] theorem updTrn_drv (f : Trn → Trn) (m : Mod) : (updTrn f m).drv = m.drv := rfl
@[simp] theorem updTrn_pools (f : Trn → Trn) (m : Mod) : (updTrn f m).pools = m.pools := rfl
@[simp] theorem updTrn_pool (f : Trn → Trn) (m : Mod) : (updTrn f m).pool = m.pool := rfl
@[simp] theorem updTrn_smp (f : Trn → Trn) (m : Mod) : (updTrn f m).smp = m.smp := rfl
@[simp] theorem updTrn_azx (f : Trn → Trn) (m : Mod) : (updTrn f m).azx = m.azx := rfl
@[simp] theorem updTrn_shep (f : Trn → Trn) (m : Mod) : (updTrn f m).shep = m.shep := rfl
@[simp] theorem updTrn_todo (f : Trn → Trn) (m : Mod) : (updTrn f m).todo = m.todo := rfl
@[simp] theorem updTrn_out (f : Trn → Trn) (m : Mod) : (updTrn f m).out = m.out := rfl
@[simp] theorem updTrn_free (f : Trn → Trn) (m : Mod) : (updTrn f m).free = m.free := rfl
@[simp] theorem updTrn_burn (f : Trn → Trn) (m : Mod) : (updTrn f m).burn = m.burn := rfl

/-! `updSq`. -/
@[simp] theorem updSq_regs (d q : Nat) (f : Sq → Sq) (m : Mod) : (updSq d q f m).regs = m.regs := rfl
@[simp] theorem updSq_live (d q : Nat) (f : Sq → Sq) (m : Mod) : (updSq d q f m).live = m.live := rfl
@[simp] theorem updSq_ctr (d q : Nat) (f : Sq → Sq) (m : Mod) : (updSq d q f m).ctr = m.ctr := rfl
@[simp] theorem updSq_ctrWrap (d q : Nat) (f : Sq → Sq) (m : Mod) : (updSq d q f m).ctrWrap = m.ctrWrap := rfl
@[simp] theorem updSq_ctrEpoch (d q : Nat) (f : Sq → Sq) (m : Mod) : (updSq d q f m).ctrEpoch = m.ctrEpoch := rfl
@[simp] theorem updSq_d2d (d q : Nat) (f : Sq → Sq) (m : Mod) : (updSq d q f m).d2d = m.d2d := rfl
@[simp] theorem updSq_d2dFail (d q : Nat) (f : Sq → Sq) (m : Mod) : (updSq d q f m).d2dFail = m.d2dFail := rfl
@[simp] theorem updSq_dieSt (d q : Nat) (f : Sq → Sq) (m : Mod) : (updSq d q f m).dieSt = m.dieSt := rfl
@[simp] theorem updSq_hif (d q : Nat) (f : Sq → Sq) (m : Mod) : (updSq d q f m).hif = m.hif := rfl
@[simp] theorem updSq_clk (d q : Nat) (f : Sq → Sq) (m : Mod) : (updSq d q f m).clk = m.clk := rfl
@[simp] theorem updSq_tm (d q : Nat) (f : Sq → Sq) (m : Mod) : (updSq d q f m).tm = m.tm := rfl
@[simp] theorem updSq_flt (d q : Nat) (f : Sq → Sq) (m : Mod) : (updSq d q f m).flt = m.flt := rfl
@[simp] theorem updSq_bst (d q : Nat) (f : Sq → Sq) (m : Mod) : (updSq d q f m).bst = m.bst := rfl
@[simp] theorem updSq_flash (d q : Nat) (f : Sq → Sq) (m : Mod) : (updSq d q f m).flash = m.flash := rfl
@[simp] theorem updSq_conf (d q : Nat) (f : Sq → Sq) (m : Mod) : (updSq d q f m).conf = m.conf := rfl
@[simp] theorem updSq_sec (d q : Nat) (f : Sq → Sq) (m : Mod) : (updSq d q f m).sec = m.sec := rfl
@[simp] theorem updSq_keys (d q : Nat) (f : Sq → Sq) (m : Mod) : (updSq d q f m).keys = m.keys := rfl
@[simp] theorem updSq_tly (d q : Nat) (f : Sq → Sq) (m : Mod) : (updSq d q f m).tly = m.tly := rfl
@[simp] theorem updSq_pin (d q : Nat) (f : Sq → Sq) (m : Mod) : (updSq d q f m).pin = m.pin := rfl
@[simp] theorem updSq_lp (d q : Nat) (f : Sq → Sq) (m : Mod) : (updSq d q f m).lp = m.lp := rfl
@[simp] theorem updSq_lane (d q : Nat) (f : Sq → Sq) (m : Mod) : (updSq d q f m).lane = m.lane := rfl
@[simp] theorem updSq_lnk (d q : Nat) (f : Sq → Sq) (m : Mod) : (updSq d q f m).lnk = m.lnk := rfl
@[simp] theorem updSq_xb (d q : Nat) (f : Sq → Sq) (m : Mod) : (updSq d q f m).xb = m.xb := rfl
@[simp] theorem updSq_tabs (d q : Nat) (f : Sq → Sq) (m : Mod) : (updSq d q f m).tabs = m.tabs := rfl
@[simp] theorem updSq_evr (d q : Nat) (f : Sq → Sq) (m : Mod) : (updSq d q f m).evr = m.evr := rfl
@[simp] theorem updSq_xlt (d q : Nat) (f : Sq → Sq) (m : Mod) : (updSq d q f m).xlt = m.xlt := rfl
@[simp] theorem updSq_drv (d q : Nat) (f : Sq → Sq) (m : Mod) : (updSq d q f m).drv = m.drv := rfl
@[simp] theorem updSq_pools (d q : Nat) (f : Sq → Sq) (m : Mod) : (updSq d q f m).pools = m.pools := rfl
@[simp] theorem updSq_pool (d q : Nat) (f : Sq → Sq) (m : Mod) : (updSq d q f m).pool = m.pool := rfl
@[simp] theorem updSq_smp (d q : Nat) (f : Sq → Sq) (m : Mod) : (updSq d q f m).smp = m.smp := rfl
@[simp] theorem updSq_azx (d q : Nat) (f : Sq → Sq) (m : Mod) : (updSq d q f m).azx = m.azx := rfl
@[simp] theorem updSq_shep (d q : Nat) (f : Sq → Sq) (m : Mod) : (updSq d q f m).shep = m.shep := rfl
@[simp] theorem updSq_todo (d q : Nat) (f : Sq → Sq) (m : Mod) : (updSq d q f m).todo = m.todo := rfl
@[simp] theorem updSq_out (d q : Nat) (f : Sq → Sq) (m : Mod) : (updSq d q f m).out = m.out := rfl
@[simp] theorem updSq_free (d q : Nat) (f : Sq → Sq) (m : Mod) : (updSq d q f m).free = m.free := rfl
@[simp] theorem updSq_burn (d q : Nat) (f : Sq → Sq) (m : Mod) : (updSq d q f m).burn = m.burn := rfl

/-! `updCring`. -/
@[simp] theorem updCring_regs (d r : Nat) (f : Cring → Cring) (m : Mod) : (updCring d r f m).regs = m.regs := rfl
@[simp] theorem updCring_live (d r : Nat) (f : Cring → Cring) (m : Mod) : (updCring d r f m).live = m.live := rfl
@[simp] theorem updCring_ctr (d r : Nat) (f : Cring → Cring) (m : Mod) : (updCring d r f m).ctr = m.ctr := rfl
@[simp] theorem updCring_ctrWrap (d r : Nat) (f : Cring → Cring) (m : Mod) : (updCring d r f m).ctrWrap = m.ctrWrap := rfl
@[simp] theorem updCring_ctrEpoch (d r : Nat) (f : Cring → Cring) (m : Mod) : (updCring d r f m).ctrEpoch = m.ctrEpoch := rfl
@[simp] theorem updCring_d2d (d r : Nat) (f : Cring → Cring) (m : Mod) : (updCring d r f m).d2d = m.d2d := rfl
@[simp] theorem updCring_d2dFail (d r : Nat) (f : Cring → Cring) (m : Mod) : (updCring d r f m).d2dFail = m.d2dFail := rfl
@[simp] theorem updCring_dieSt (d r : Nat) (f : Cring → Cring) (m : Mod) : (updCring d r f m).dieSt = m.dieSt := rfl
@[simp] theorem updCring_hif (d r : Nat) (f : Cring → Cring) (m : Mod) : (updCring d r f m).hif = m.hif := rfl
@[simp] theorem updCring_clk (d r : Nat) (f : Cring → Cring) (m : Mod) : (updCring d r f m).clk = m.clk := rfl
@[simp] theorem updCring_tm (d r : Nat) (f : Cring → Cring) (m : Mod) : (updCring d r f m).tm = m.tm := rfl
@[simp] theorem updCring_flt (d r : Nat) (f : Cring → Cring) (m : Mod) : (updCring d r f m).flt = m.flt := rfl
@[simp] theorem updCring_bst (d r : Nat) (f : Cring → Cring) (m : Mod) : (updCring d r f m).bst = m.bst := rfl
@[simp] theorem updCring_flash (d r : Nat) (f : Cring → Cring) (m : Mod) : (updCring d r f m).flash = m.flash := rfl
@[simp] theorem updCring_conf (d r : Nat) (f : Cring → Cring) (m : Mod) : (updCring d r f m).conf = m.conf := rfl
@[simp] theorem updCring_sec (d r : Nat) (f : Cring → Cring) (m : Mod) : (updCring d r f m).sec = m.sec := rfl
@[simp] theorem updCring_keys (d r : Nat) (f : Cring → Cring) (m : Mod) : (updCring d r f m).keys = m.keys := rfl
@[simp] theorem updCring_tly (d r : Nat) (f : Cring → Cring) (m : Mod) : (updCring d r f m).tly = m.tly := rfl
@[simp] theorem updCring_pin (d r : Nat) (f : Cring → Cring) (m : Mod) : (updCring d r f m).pin = m.pin := rfl
@[simp] theorem updCring_lp (d r : Nat) (f : Cring → Cring) (m : Mod) : (updCring d r f m).lp = m.lp := rfl
@[simp] theorem updCring_lane (d r : Nat) (f : Cring → Cring) (m : Mod) : (updCring d r f m).lane = m.lane := rfl
@[simp] theorem updCring_lnk (d r : Nat) (f : Cring → Cring) (m : Mod) : (updCring d r f m).lnk = m.lnk := rfl
@[simp] theorem updCring_xb (d r : Nat) (f : Cring → Cring) (m : Mod) : (updCring d r f m).xb = m.xb := rfl
@[simp] theorem updCring_tabs (d r : Nat) (f : Cring → Cring) (m : Mod) : (updCring d r f m).tabs = m.tabs := rfl
@[simp] theorem updCring_evr (d r : Nat) (f : Cring → Cring) (m : Mod) : (updCring d r f m).evr = m.evr := rfl
@[simp] theorem updCring_xlt (d r : Nat) (f : Cring → Cring) (m : Mod) : (updCring d r f m).xlt = m.xlt := rfl
@[simp] theorem updCring_drv (d r : Nat) (f : Cring → Cring) (m : Mod) : (updCring d r f m).drv = m.drv := rfl
@[simp] theorem updCring_pools (d r : Nat) (f : Cring → Cring) (m : Mod) : (updCring d r f m).pools = m.pools := rfl
@[simp] theorem updCring_pool (d r : Nat) (f : Cring → Cring) (m : Mod) : (updCring d r f m).pool = m.pool := rfl
@[simp] theorem updCring_smp (d r : Nat) (f : Cring → Cring) (m : Mod) : (updCring d r f m).smp = m.smp := rfl
@[simp] theorem updCring_azx (d r : Nat) (f : Cring → Cring) (m : Mod) : (updCring d r f m).azx = m.azx := rfl
@[simp] theorem updCring_shep (d r : Nat) (f : Cring → Cring) (m : Mod) : (updCring d r f m).shep = m.shep := rfl
@[simp] theorem updCring_todo (d r : Nat) (f : Cring → Cring) (m : Mod) : (updCring d r f m).todo = m.todo := rfl
@[simp] theorem updCring_out (d r : Nat) (f : Cring → Cring) (m : Mod) : (updCring d r f m).out = m.out := rfl
@[simp] theorem updCring_free (d r : Nat) (f : Cring → Cring) (m : Mod) : (updCring d r f m).free = m.free := rfl
@[simp] theorem updCring_burn (d r : Nat) (f : Cring → Cring) (m : Mod) : (updCring d r f m).burn = m.burn := rfl

/-! `updXb`. -/
@[simp] theorem updXb_regs (f : Xbar → Xbar) (m : Mod) : (updXb f m).regs = m.regs := rfl
@[simp] theorem updXb_live (f : Xbar → Xbar) (m : Mod) : (updXb f m).live = m.live := rfl
@[simp] theorem updXb_ctr (f : Xbar → Xbar) (m : Mod) : (updXb f m).ctr = m.ctr := rfl
@[simp] theorem updXb_ctrWrap (f : Xbar → Xbar) (m : Mod) : (updXb f m).ctrWrap = m.ctrWrap := rfl
@[simp] theorem updXb_ctrEpoch (f : Xbar → Xbar) (m : Mod) : (updXb f m).ctrEpoch = m.ctrEpoch := rfl
@[simp] theorem updXb_d2d (f : Xbar → Xbar) (m : Mod) : (updXb f m).d2d = m.d2d := rfl
@[simp] theorem updXb_d2dFail (f : Xbar → Xbar) (m : Mod) : (updXb f m).d2dFail = m.d2dFail := rfl
@[simp] theorem updXb_dieSt (f : Xbar → Xbar) (m : Mod) : (updXb f m).dieSt = m.dieSt := rfl
@[simp] theorem updXb_hif (f : Xbar → Xbar) (m : Mod) : (updXb f m).hif = m.hif := rfl
@[simp] theorem updXb_clk (f : Xbar → Xbar) (m : Mod) : (updXb f m).clk = m.clk := rfl
@[simp] theorem updXb_tm (f : Xbar → Xbar) (m : Mod) : (updXb f m).tm = m.tm := rfl
@[simp] theorem updXb_flt (f : Xbar → Xbar) (m : Mod) : (updXb f m).flt = m.flt := rfl
@[simp] theorem updXb_bst (f : Xbar → Xbar) (m : Mod) : (updXb f m).bst = m.bst := rfl
@[simp] theorem updXb_flash (f : Xbar → Xbar) (m : Mod) : (updXb f m).flash = m.flash := rfl
@[simp] theorem updXb_conf (f : Xbar → Xbar) (m : Mod) : (updXb f m).conf = m.conf := rfl
@[simp] theorem updXb_sec (f : Xbar → Xbar) (m : Mod) : (updXb f m).sec = m.sec := rfl
@[simp] theorem updXb_keys (f : Xbar → Xbar) (m : Mod) : (updXb f m).keys = m.keys := rfl
@[simp] theorem updXb_tly (f : Xbar → Xbar) (m : Mod) : (updXb f m).tly = m.tly := rfl
@[simp] theorem updXb_pin (f : Xbar → Xbar) (m : Mod) : (updXb f m).pin = m.pin := rfl
@[simp] theorem updXb_lp (f : Xbar → Xbar) (m : Mod) : (updXb f m).lp = m.lp := rfl
@[simp] theorem updXb_lane (f : Xbar → Xbar) (m : Mod) : (updXb f m).lane = m.lane := rfl
@[simp] theorem updXb_lnk (f : Xbar → Xbar) (m : Mod) : (updXb f m).lnk = m.lnk := rfl
@[simp] theorem updXb_tabs (f : Xbar → Xbar) (m : Mod) : (updXb f m).tabs = m.tabs := rfl
@[simp] theorem updXb_evr (f : Xbar → Xbar) (m : Mod) : (updXb f m).evr = m.evr := rfl
@[simp] theorem updXb_xlt (f : Xbar → Xbar) (m : Mod) : (updXb f m).xlt = m.xlt := rfl
@[simp] theorem updXb_trn (f : Xbar → Xbar) (m : Mod) : (updXb f m).trn = m.trn := rfl
@[simp] theorem updXb_drv (f : Xbar → Xbar) (m : Mod) : (updXb f m).drv = m.drv := rfl
@[simp] theorem updXb_pools (f : Xbar → Xbar) (m : Mod) : (updXb f m).pools = m.pools := rfl
@[simp] theorem updXb_pool (f : Xbar → Xbar) (m : Mod) : (updXb f m).pool = m.pool := rfl
@[simp] theorem updXb_smp (f : Xbar → Xbar) (m : Mod) : (updXb f m).smp = m.smp := rfl
@[simp] theorem updXb_azx (f : Xbar → Xbar) (m : Mod) : (updXb f m).azx = m.azx := rfl
@[simp] theorem updXb_shep (f : Xbar → Xbar) (m : Mod) : (updXb f m).shep = m.shep := rfl
@[simp] theorem updXb_todo (f : Xbar → Xbar) (m : Mod) : (updXb f m).todo = m.todo := rfl
@[simp] theorem updXb_out (f : Xbar → Xbar) (m : Mod) : (updXb f m).out = m.out := rfl
@[simp] theorem updXb_free (f : Xbar → Xbar) (m : Mod) : (updXb f m).free = m.free := rfl
@[simp] theorem updXb_burn (f : Xbar → Xbar) (m : Mod) : (updXb f m).burn = m.burn := rfl

/-! `updLink`. -/
@[simp] theorem updLink_regs (pc : Nat) (f : Link → Link) (m : Mod) : (updLink pc f m).regs = m.regs := rfl
@[simp] theorem updLink_live (pc : Nat) (f : Link → Link) (m : Mod) : (updLink pc f m).live = m.live := rfl
@[simp] theorem updLink_ctr (pc : Nat) (f : Link → Link) (m : Mod) : (updLink pc f m).ctr = m.ctr := rfl
@[simp] theorem updLink_ctrWrap (pc : Nat) (f : Link → Link) (m : Mod) : (updLink pc f m).ctrWrap = m.ctrWrap := rfl
@[simp] theorem updLink_ctrEpoch (pc : Nat) (f : Link → Link) (m : Mod) : (updLink pc f m).ctrEpoch = m.ctrEpoch := rfl
@[simp] theorem updLink_d2d (pc : Nat) (f : Link → Link) (m : Mod) : (updLink pc f m).d2d = m.d2d := rfl
@[simp] theorem updLink_d2dFail (pc : Nat) (f : Link → Link) (m : Mod) : (updLink pc f m).d2dFail = m.d2dFail := rfl
@[simp] theorem updLink_dieSt (pc : Nat) (f : Link → Link) (m : Mod) : (updLink pc f m).dieSt = m.dieSt := rfl
@[simp] theorem updLink_hif (pc : Nat) (f : Link → Link) (m : Mod) : (updLink pc f m).hif = m.hif := rfl
@[simp] theorem updLink_clk (pc : Nat) (f : Link → Link) (m : Mod) : (updLink pc f m).clk = m.clk := rfl
@[simp] theorem updLink_tm (pc : Nat) (f : Link → Link) (m : Mod) : (updLink pc f m).tm = m.tm := rfl
@[simp] theorem updLink_flt (pc : Nat) (f : Link → Link) (m : Mod) : (updLink pc f m).flt = m.flt := rfl
@[simp] theorem updLink_bst (pc : Nat) (f : Link → Link) (m : Mod) : (updLink pc f m).bst = m.bst := rfl
@[simp] theorem updLink_flash (pc : Nat) (f : Link → Link) (m : Mod) : (updLink pc f m).flash = m.flash := rfl
@[simp] theorem updLink_conf (pc : Nat) (f : Link → Link) (m : Mod) : (updLink pc f m).conf = m.conf := rfl
@[simp] theorem updLink_sec (pc : Nat) (f : Link → Link) (m : Mod) : (updLink pc f m).sec = m.sec := rfl
@[simp] theorem updLink_keys (pc : Nat) (f : Link → Link) (m : Mod) : (updLink pc f m).keys = m.keys := rfl
@[simp] theorem updLink_tly (pc : Nat) (f : Link → Link) (m : Mod) : (updLink pc f m).tly = m.tly := rfl
@[simp] theorem updLink_pin (pc : Nat) (f : Link → Link) (m : Mod) : (updLink pc f m).pin = m.pin := rfl
@[simp] theorem updLink_lp (pc : Nat) (f : Link → Link) (m : Mod) : (updLink pc f m).lp = m.lp := rfl
@[simp] theorem updLink_lane (pc : Nat) (f : Link → Link) (m : Mod) : (updLink pc f m).lane = m.lane := rfl
@[simp] theorem updLink_xb (pc : Nat) (f : Link → Link) (m : Mod) : (updLink pc f m).xb = m.xb := rfl
@[simp] theorem updLink_tabs (pc : Nat) (f : Link → Link) (m : Mod) : (updLink pc f m).tabs = m.tabs := rfl
@[simp] theorem updLink_evr (pc : Nat) (f : Link → Link) (m : Mod) : (updLink pc f m).evr = m.evr := rfl
@[simp] theorem updLink_xlt (pc : Nat) (f : Link → Link) (m : Mod) : (updLink pc f m).xlt = m.xlt := rfl
@[simp] theorem updLink_trn (pc : Nat) (f : Link → Link) (m : Mod) : (updLink pc f m).trn = m.trn := rfl
@[simp] theorem updLink_drv (pc : Nat) (f : Link → Link) (m : Mod) : (updLink pc f m).drv = m.drv := rfl
@[simp] theorem updLink_pools (pc : Nat) (f : Link → Link) (m : Mod) : (updLink pc f m).pools = m.pools := rfl
@[simp] theorem updLink_pool (pc : Nat) (f : Link → Link) (m : Mod) : (updLink pc f m).pool = m.pool := rfl
@[simp] theorem updLink_smp (pc : Nat) (f : Link → Link) (m : Mod) : (updLink pc f m).smp = m.smp := rfl
@[simp] theorem updLink_azx (pc : Nat) (f : Link → Link) (m : Mod) : (updLink pc f m).azx = m.azx := rfl
@[simp] theorem updLink_shep (pc : Nat) (f : Link → Link) (m : Mod) : (updLink pc f m).shep = m.shep := rfl
@[simp] theorem updLink_todo (pc : Nat) (f : Link → Link) (m : Mod) : (updLink pc f m).todo = m.todo := rfl
@[simp] theorem updLink_out (pc : Nat) (f : Link → Link) (m : Mod) : (updLink pc f m).out = m.out := rfl
@[simp] theorem updLink_free (pc : Nat) (f : Link → Link) (m : Mod) : (updLink pc f m).free = m.free := rfl
@[simp] theorem updLink_burn (pc : Nat) (f : Link → Link) (m : Mod) : (updLink pc f m).burn = m.burn := rfl

/-! `updLp`. -/
@[simp] theorem updLp_regs (pc : Nat) (f : LPort → LPort) (m : Mod) : (updLp pc f m).regs = m.regs := rfl
@[simp] theorem updLp_live (pc : Nat) (f : LPort → LPort) (m : Mod) : (updLp pc f m).live = m.live := rfl
@[simp] theorem updLp_ctr (pc : Nat) (f : LPort → LPort) (m : Mod) : (updLp pc f m).ctr = m.ctr := rfl
@[simp] theorem updLp_ctrWrap (pc : Nat) (f : LPort → LPort) (m : Mod) : (updLp pc f m).ctrWrap = m.ctrWrap := rfl
@[simp] theorem updLp_ctrEpoch (pc : Nat) (f : LPort → LPort) (m : Mod) : (updLp pc f m).ctrEpoch = m.ctrEpoch := rfl
@[simp] theorem updLp_d2d (pc : Nat) (f : LPort → LPort) (m : Mod) : (updLp pc f m).d2d = m.d2d := rfl
@[simp] theorem updLp_d2dFail (pc : Nat) (f : LPort → LPort) (m : Mod) : (updLp pc f m).d2dFail = m.d2dFail := rfl
@[simp] theorem updLp_dieSt (pc : Nat) (f : LPort → LPort) (m : Mod) : (updLp pc f m).dieSt = m.dieSt := rfl
@[simp] theorem updLp_hif (pc : Nat) (f : LPort → LPort) (m : Mod) : (updLp pc f m).hif = m.hif := rfl
@[simp] theorem updLp_clk (pc : Nat) (f : LPort → LPort) (m : Mod) : (updLp pc f m).clk = m.clk := rfl
@[simp] theorem updLp_tm (pc : Nat) (f : LPort → LPort) (m : Mod) : (updLp pc f m).tm = m.tm := rfl
@[simp] theorem updLp_flt (pc : Nat) (f : LPort → LPort) (m : Mod) : (updLp pc f m).flt = m.flt := rfl
@[simp] theorem updLp_bst (pc : Nat) (f : LPort → LPort) (m : Mod) : (updLp pc f m).bst = m.bst := rfl
@[simp] theorem updLp_flash (pc : Nat) (f : LPort → LPort) (m : Mod) : (updLp pc f m).flash = m.flash := rfl
@[simp] theorem updLp_conf (pc : Nat) (f : LPort → LPort) (m : Mod) : (updLp pc f m).conf = m.conf := rfl
@[simp] theorem updLp_sec (pc : Nat) (f : LPort → LPort) (m : Mod) : (updLp pc f m).sec = m.sec := rfl
@[simp] theorem updLp_keys (pc : Nat) (f : LPort → LPort) (m : Mod) : (updLp pc f m).keys = m.keys := rfl
@[simp] theorem updLp_tly (pc : Nat) (f : LPort → LPort) (m : Mod) : (updLp pc f m).tly = m.tly := rfl
@[simp] theorem updLp_pin (pc : Nat) (f : LPort → LPort) (m : Mod) : (updLp pc f m).pin = m.pin := rfl
@[simp] theorem updLp_lane (pc : Nat) (f : LPort → LPort) (m : Mod) : (updLp pc f m).lane = m.lane := rfl
@[simp] theorem updLp_lnk (pc : Nat) (f : LPort → LPort) (m : Mod) : (updLp pc f m).lnk = m.lnk := rfl
@[simp] theorem updLp_xb (pc : Nat) (f : LPort → LPort) (m : Mod) : (updLp pc f m).xb = m.xb := rfl
@[simp] theorem updLp_tabs (pc : Nat) (f : LPort → LPort) (m : Mod) : (updLp pc f m).tabs = m.tabs := rfl
@[simp] theorem updLp_evr (pc : Nat) (f : LPort → LPort) (m : Mod) : (updLp pc f m).evr = m.evr := rfl
@[simp] theorem updLp_xlt (pc : Nat) (f : LPort → LPort) (m : Mod) : (updLp pc f m).xlt = m.xlt := rfl
@[simp] theorem updLp_trn (pc : Nat) (f : LPort → LPort) (m : Mod) : (updLp pc f m).trn = m.trn := rfl
@[simp] theorem updLp_drv (pc : Nat) (f : LPort → LPort) (m : Mod) : (updLp pc f m).drv = m.drv := rfl
@[simp] theorem updLp_pools (pc : Nat) (f : LPort → LPort) (m : Mod) : (updLp pc f m).pools = m.pools := rfl
@[simp] theorem updLp_pool (pc : Nat) (f : LPort → LPort) (m : Mod) : (updLp pc f m).pool = m.pool := rfl
@[simp] theorem updLp_smp (pc : Nat) (f : LPort → LPort) (m : Mod) : (updLp pc f m).smp = m.smp := rfl
@[simp] theorem updLp_azx (pc : Nat) (f : LPort → LPort) (m : Mod) : (updLp pc f m).azx = m.azx := rfl
@[simp] theorem updLp_shep (pc : Nat) (f : LPort → LPort) (m : Mod) : (updLp pc f m).shep = m.shep := rfl
@[simp] theorem updLp_todo (pc : Nat) (f : LPort → LPort) (m : Mod) : (updLp pc f m).todo = m.todo := rfl
@[simp] theorem updLp_out (pc : Nat) (f : LPort → LPort) (m : Mod) : (updLp pc f m).out = m.out := rfl
@[simp] theorem updLp_free (pc : Nat) (f : LPort → LPort) (m : Mod) : (updLp pc f m).free = m.free := rfl
@[simp] theorem updLp_burn (pc : Nat) (f : LPort → LPort) (m : Mod) : (updLp pc f m).burn = m.burn := rfl

/-! `updTabs`. -/
@[simp] theorem updTabs_regs (d : Nat) (f : Tabs → Tabs) (m : Mod) : (updTabs d f m).regs = m.regs := rfl
@[simp] theorem updTabs_live (d : Nat) (f : Tabs → Tabs) (m : Mod) : (updTabs d f m).live = m.live := rfl
@[simp] theorem updTabs_ctr (d : Nat) (f : Tabs → Tabs) (m : Mod) : (updTabs d f m).ctr = m.ctr := rfl
@[simp] theorem updTabs_ctrWrap (d : Nat) (f : Tabs → Tabs) (m : Mod) : (updTabs d f m).ctrWrap = m.ctrWrap := rfl
@[simp] theorem updTabs_ctrEpoch (d : Nat) (f : Tabs → Tabs) (m : Mod) : (updTabs d f m).ctrEpoch = m.ctrEpoch := rfl
@[simp] theorem updTabs_d2d (d : Nat) (f : Tabs → Tabs) (m : Mod) : (updTabs d f m).d2d = m.d2d := rfl
@[simp] theorem updTabs_d2dFail (d : Nat) (f : Tabs → Tabs) (m : Mod) : (updTabs d f m).d2dFail = m.d2dFail := rfl
@[simp] theorem updTabs_dieSt (d : Nat) (f : Tabs → Tabs) (m : Mod) : (updTabs d f m).dieSt = m.dieSt := rfl
@[simp] theorem updTabs_hif (d : Nat) (f : Tabs → Tabs) (m : Mod) : (updTabs d f m).hif = m.hif := rfl
@[simp] theorem updTabs_clk (d : Nat) (f : Tabs → Tabs) (m : Mod) : (updTabs d f m).clk = m.clk := rfl
@[simp] theorem updTabs_tm (d : Nat) (f : Tabs → Tabs) (m : Mod) : (updTabs d f m).tm = m.tm := rfl
@[simp] theorem updTabs_flt (d : Nat) (f : Tabs → Tabs) (m : Mod) : (updTabs d f m).flt = m.flt := rfl
@[simp] theorem updTabs_bst (d : Nat) (f : Tabs → Tabs) (m : Mod) : (updTabs d f m).bst = m.bst := rfl
@[simp] theorem updTabs_flash (d : Nat) (f : Tabs → Tabs) (m : Mod) : (updTabs d f m).flash = m.flash := rfl
@[simp] theorem updTabs_conf (d : Nat) (f : Tabs → Tabs) (m : Mod) : (updTabs d f m).conf = m.conf := rfl
@[simp] theorem updTabs_sec (d : Nat) (f : Tabs → Tabs) (m : Mod) : (updTabs d f m).sec = m.sec := rfl
@[simp] theorem updTabs_keys (d : Nat) (f : Tabs → Tabs) (m : Mod) : (updTabs d f m).keys = m.keys := rfl
@[simp] theorem updTabs_tly (d : Nat) (f : Tabs → Tabs) (m : Mod) : (updTabs d f m).tly = m.tly := rfl
@[simp] theorem updTabs_pin (d : Nat) (f : Tabs → Tabs) (m : Mod) : (updTabs d f m).pin = m.pin := rfl
@[simp] theorem updTabs_lp (d : Nat) (f : Tabs → Tabs) (m : Mod) : (updTabs d f m).lp = m.lp := rfl
@[simp] theorem updTabs_lane (d : Nat) (f : Tabs → Tabs) (m : Mod) : (updTabs d f m).lane = m.lane := rfl
@[simp] theorem updTabs_lnk (d : Nat) (f : Tabs → Tabs) (m : Mod) : (updTabs d f m).lnk = m.lnk := rfl
@[simp] theorem updTabs_xb (d : Nat) (f : Tabs → Tabs) (m : Mod) : (updTabs d f m).xb = m.xb := rfl
@[simp] theorem updTabs_evr (d : Nat) (f : Tabs → Tabs) (m : Mod) : (updTabs d f m).evr = m.evr := rfl
@[simp] theorem updTabs_xlt (d : Nat) (f : Tabs → Tabs) (m : Mod) : (updTabs d f m).xlt = m.xlt := rfl
@[simp] theorem updTabs_trn (d : Nat) (f : Tabs → Tabs) (m : Mod) : (updTabs d f m).trn = m.trn := rfl
@[simp] theorem updTabs_drv (d : Nat) (f : Tabs → Tabs) (m : Mod) : (updTabs d f m).drv = m.drv := rfl
@[simp] theorem updTabs_pools (d : Nat) (f : Tabs → Tabs) (m : Mod) : (updTabs d f m).pools = m.pools := rfl
@[simp] theorem updTabs_pool (d : Nat) (f : Tabs → Tabs) (m : Mod) : (updTabs d f m).pool = m.pool := rfl
@[simp] theorem updTabs_smp (d : Nat) (f : Tabs → Tabs) (m : Mod) : (updTabs d f m).smp = m.smp := rfl
@[simp] theorem updTabs_azx (d : Nat) (f : Tabs → Tabs) (m : Mod) : (updTabs d f m).azx = m.azx := rfl
@[simp] theorem updTabs_shep (d : Nat) (f : Tabs → Tabs) (m : Mod) : (updTabs d f m).shep = m.shep := rfl
@[simp] theorem updTabs_todo (d : Nat) (f : Tabs → Tabs) (m : Mod) : (updTabs d f m).todo = m.todo := rfl
@[simp] theorem updTabs_out (d : Nat) (f : Tabs → Tabs) (m : Mod) : (updTabs d f m).out = m.out := rfl
@[simp] theorem updTabs_free (d : Nat) (f : Tabs → Tabs) (m : Mod) : (updTabs d f m).free = m.free := rfl
@[simp] theorem updTabs_burn (d : Nat) (f : Tabs → Tabs) (m : Mod) : (updTabs d f m).burn = m.burn := rfl

/-! `updHif`. -/
@[simp] theorem updHif_regs (f : Hif → Hif) (m : Mod) : (updHif f m).regs = m.regs := rfl
@[simp] theorem updHif_live (f : Hif → Hif) (m : Mod) : (updHif f m).live = m.live := rfl
@[simp] theorem updHif_ctr (f : Hif → Hif) (m : Mod) : (updHif f m).ctr = m.ctr := rfl
@[simp] theorem updHif_ctrWrap (f : Hif → Hif) (m : Mod) : (updHif f m).ctrWrap = m.ctrWrap := rfl
@[simp] theorem updHif_ctrEpoch (f : Hif → Hif) (m : Mod) : (updHif f m).ctrEpoch = m.ctrEpoch := rfl
@[simp] theorem updHif_d2d (f : Hif → Hif) (m : Mod) : (updHif f m).d2d = m.d2d := rfl
@[simp] theorem updHif_d2dFail (f : Hif → Hif) (m : Mod) : (updHif f m).d2dFail = m.d2dFail := rfl
@[simp] theorem updHif_dieSt (f : Hif → Hif) (m : Mod) : (updHif f m).dieSt = m.dieSt := rfl
@[simp] theorem updHif_clk (f : Hif → Hif) (m : Mod) : (updHif f m).clk = m.clk := rfl
@[simp] theorem updHif_tm (f : Hif → Hif) (m : Mod) : (updHif f m).tm = m.tm := rfl
@[simp] theorem updHif_flt (f : Hif → Hif) (m : Mod) : (updHif f m).flt = m.flt := rfl
@[simp] theorem updHif_bst (f : Hif → Hif) (m : Mod) : (updHif f m).bst = m.bst := rfl
@[simp] theorem updHif_flash (f : Hif → Hif) (m : Mod) : (updHif f m).flash = m.flash := rfl
@[simp] theorem updHif_conf (f : Hif → Hif) (m : Mod) : (updHif f m).conf = m.conf := rfl
@[simp] theorem updHif_sec (f : Hif → Hif) (m : Mod) : (updHif f m).sec = m.sec := rfl
@[simp] theorem updHif_keys (f : Hif → Hif) (m : Mod) : (updHif f m).keys = m.keys := rfl
@[simp] theorem updHif_tly (f : Hif → Hif) (m : Mod) : (updHif f m).tly = m.tly := rfl
@[simp] theorem updHif_pin (f : Hif → Hif) (m : Mod) : (updHif f m).pin = m.pin := rfl
@[simp] theorem updHif_lp (f : Hif → Hif) (m : Mod) : (updHif f m).lp = m.lp := rfl
@[simp] theorem updHif_lane (f : Hif → Hif) (m : Mod) : (updHif f m).lane = m.lane := rfl
@[simp] theorem updHif_lnk (f : Hif → Hif) (m : Mod) : (updHif f m).lnk = m.lnk := rfl
@[simp] theorem updHif_xb (f : Hif → Hif) (m : Mod) : (updHif f m).xb = m.xb := rfl
@[simp] theorem updHif_tabs (f : Hif → Hif) (m : Mod) : (updHif f m).tabs = m.tabs := rfl
@[simp] theorem updHif_evr (f : Hif → Hif) (m : Mod) : (updHif f m).evr = m.evr := rfl
@[simp] theorem updHif_xlt (f : Hif → Hif) (m : Mod) : (updHif f m).xlt = m.xlt := rfl
@[simp] theorem updHif_trn (f : Hif → Hif) (m : Mod) : (updHif f m).trn = m.trn := rfl
@[simp] theorem updHif_drv (f : Hif → Hif) (m : Mod) : (updHif f m).drv = m.drv := rfl
@[simp] theorem updHif_pools (f : Hif → Hif) (m : Mod) : (updHif f m).pools = m.pools := rfl
@[simp] theorem updHif_pool (f : Hif → Hif) (m : Mod) : (updHif f m).pool = m.pool := rfl
@[simp] theorem updHif_smp (f : Hif → Hif) (m : Mod) : (updHif f m).smp = m.smp := rfl
@[simp] theorem updHif_azx (f : Hif → Hif) (m : Mod) : (updHif f m).azx = m.azx := rfl
@[simp] theorem updHif_shep (f : Hif → Hif) (m : Mod) : (updHif f m).shep = m.shep := rfl
@[simp] theorem updHif_todo (f : Hif → Hif) (m : Mod) : (updHif f m).todo = m.todo := rfl
@[simp] theorem updHif_out (f : Hif → Hif) (m : Mod) : (updHif f m).out = m.out := rfl
@[simp] theorem updHif_free (f : Hif → Hif) (m : Mod) : (updHif f m).free = m.free := rfl
@[simp] theorem updHif_burn (f : Hif → Hif) (m : Mod) : (updHif f m).burn = m.burn := rfl

/-! `updAzx`. -/
@[simp] theorem updAzx_regs (f : AzxSt → AzxSt) (m : Mod) : (updAzx f m).regs = m.regs := rfl
@[simp] theorem updAzx_live (f : AzxSt → AzxSt) (m : Mod) : (updAzx f m).live = m.live := rfl
@[simp] theorem updAzx_ctr (f : AzxSt → AzxSt) (m : Mod) : (updAzx f m).ctr = m.ctr := rfl
@[simp] theorem updAzx_ctrWrap (f : AzxSt → AzxSt) (m : Mod) : (updAzx f m).ctrWrap = m.ctrWrap := rfl
@[simp] theorem updAzx_ctrEpoch (f : AzxSt → AzxSt) (m : Mod) : (updAzx f m).ctrEpoch = m.ctrEpoch := rfl
@[simp] theorem updAzx_d2d (f : AzxSt → AzxSt) (m : Mod) : (updAzx f m).d2d = m.d2d := rfl
@[simp] theorem updAzx_d2dFail (f : AzxSt → AzxSt) (m : Mod) : (updAzx f m).d2dFail = m.d2dFail := rfl
@[simp] theorem updAzx_dieSt (f : AzxSt → AzxSt) (m : Mod) : (updAzx f m).dieSt = m.dieSt := rfl
@[simp] theorem updAzx_hif (f : AzxSt → AzxSt) (m : Mod) : (updAzx f m).hif = m.hif := rfl
@[simp] theorem updAzx_clk (f : AzxSt → AzxSt) (m : Mod) : (updAzx f m).clk = m.clk := rfl
@[simp] theorem updAzx_tm (f : AzxSt → AzxSt) (m : Mod) : (updAzx f m).tm = m.tm := rfl
@[simp] theorem updAzx_flt (f : AzxSt → AzxSt) (m : Mod) : (updAzx f m).flt = m.flt := rfl
@[simp] theorem updAzx_bst (f : AzxSt → AzxSt) (m : Mod) : (updAzx f m).bst = m.bst := rfl
@[simp] theorem updAzx_flash (f : AzxSt → AzxSt) (m : Mod) : (updAzx f m).flash = m.flash := rfl
@[simp] theorem updAzx_conf (f : AzxSt → AzxSt) (m : Mod) : (updAzx f m).conf = m.conf := rfl
@[simp] theorem updAzx_sec (f : AzxSt → AzxSt) (m : Mod) : (updAzx f m).sec = m.sec := rfl
@[simp] theorem updAzx_keys (f : AzxSt → AzxSt) (m : Mod) : (updAzx f m).keys = m.keys := rfl
@[simp] theorem updAzx_tly (f : AzxSt → AzxSt) (m : Mod) : (updAzx f m).tly = m.tly := rfl
@[simp] theorem updAzx_pin (f : AzxSt → AzxSt) (m : Mod) : (updAzx f m).pin = m.pin := rfl
@[simp] theorem updAzx_lp (f : AzxSt → AzxSt) (m : Mod) : (updAzx f m).lp = m.lp := rfl
@[simp] theorem updAzx_lane (f : AzxSt → AzxSt) (m : Mod) : (updAzx f m).lane = m.lane := rfl
@[simp] theorem updAzx_lnk (f : AzxSt → AzxSt) (m : Mod) : (updAzx f m).lnk = m.lnk := rfl
@[simp] theorem updAzx_xb (f : AzxSt → AzxSt) (m : Mod) : (updAzx f m).xb = m.xb := rfl
@[simp] theorem updAzx_tabs (f : AzxSt → AzxSt) (m : Mod) : (updAzx f m).tabs = m.tabs := rfl
@[simp] theorem updAzx_evr (f : AzxSt → AzxSt) (m : Mod) : (updAzx f m).evr = m.evr := rfl
@[simp] theorem updAzx_xlt (f : AzxSt → AzxSt) (m : Mod) : (updAzx f m).xlt = m.xlt := rfl
@[simp] theorem updAzx_trn (f : AzxSt → AzxSt) (m : Mod) : (updAzx f m).trn = m.trn := rfl
@[simp] theorem updAzx_drv (f : AzxSt → AzxSt) (m : Mod) : (updAzx f m).drv = m.drv := rfl
@[simp] theorem updAzx_pools (f : AzxSt → AzxSt) (m : Mod) : (updAzx f m).pools = m.pools := rfl
@[simp] theorem updAzx_pool (f : AzxSt → AzxSt) (m : Mod) : (updAzx f m).pool = m.pool := rfl
@[simp] theorem updAzx_smp (f : AzxSt → AzxSt) (m : Mod) : (updAzx f m).smp = m.smp := rfl
@[simp] theorem updAzx_shep (f : AzxSt → AzxSt) (m : Mod) : (updAzx f m).shep = m.shep := rfl
@[simp] theorem updAzx_todo (f : AzxSt → AzxSt) (m : Mod) : (updAzx f m).todo = m.todo := rfl
@[simp] theorem updAzx_out (f : AzxSt → AzxSt) (m : Mod) : (updAzx f m).out = m.out := rfl
@[simp] theorem updAzx_free (f : AzxSt → AzxSt) (m : Mod) : (updAzx f m).free = m.free := rfl
@[simp] theorem updAzx_burn (f : AzxSt → AzxSt) (m : Mod) : (updAzx f m).burn = m.burn := rfl

/-! `updShep`. -/
@[simp] theorem updShep_regs (f : ShepSt → ShepSt) (m : Mod) : (updShep f m).regs = m.regs := rfl
@[simp] theorem updShep_live (f : ShepSt → ShepSt) (m : Mod) : (updShep f m).live = m.live := rfl
@[simp] theorem updShep_ctr (f : ShepSt → ShepSt) (m : Mod) : (updShep f m).ctr = m.ctr := rfl
@[simp] theorem updShep_ctrWrap (f : ShepSt → ShepSt) (m : Mod) : (updShep f m).ctrWrap = m.ctrWrap := rfl
@[simp] theorem updShep_ctrEpoch (f : ShepSt → ShepSt) (m : Mod) : (updShep f m).ctrEpoch = m.ctrEpoch := rfl
@[simp] theorem updShep_d2d (f : ShepSt → ShepSt) (m : Mod) : (updShep f m).d2d = m.d2d := rfl
@[simp] theorem updShep_d2dFail (f : ShepSt → ShepSt) (m : Mod) : (updShep f m).d2dFail = m.d2dFail := rfl
@[simp] theorem updShep_dieSt (f : ShepSt → ShepSt) (m : Mod) : (updShep f m).dieSt = m.dieSt := rfl
@[simp] theorem updShep_hif (f : ShepSt → ShepSt) (m : Mod) : (updShep f m).hif = m.hif := rfl
@[simp] theorem updShep_clk (f : ShepSt → ShepSt) (m : Mod) : (updShep f m).clk = m.clk := rfl
@[simp] theorem updShep_tm (f : ShepSt → ShepSt) (m : Mod) : (updShep f m).tm = m.tm := rfl
@[simp] theorem updShep_flt (f : ShepSt → ShepSt) (m : Mod) : (updShep f m).flt = m.flt := rfl
@[simp] theorem updShep_bst (f : ShepSt → ShepSt) (m : Mod) : (updShep f m).bst = m.bst := rfl
@[simp] theorem updShep_flash (f : ShepSt → ShepSt) (m : Mod) : (updShep f m).flash = m.flash := rfl
@[simp] theorem updShep_conf (f : ShepSt → ShepSt) (m : Mod) : (updShep f m).conf = m.conf := rfl
@[simp] theorem updShep_sec (f : ShepSt → ShepSt) (m : Mod) : (updShep f m).sec = m.sec := rfl
@[simp] theorem updShep_keys (f : ShepSt → ShepSt) (m : Mod) : (updShep f m).keys = m.keys := rfl
@[simp] theorem updShep_tly (f : ShepSt → ShepSt) (m : Mod) : (updShep f m).tly = m.tly := rfl
@[simp] theorem updShep_pin (f : ShepSt → ShepSt) (m : Mod) : (updShep f m).pin = m.pin := rfl
@[simp] theorem updShep_lp (f : ShepSt → ShepSt) (m : Mod) : (updShep f m).lp = m.lp := rfl
@[simp] theorem updShep_lane (f : ShepSt → ShepSt) (m : Mod) : (updShep f m).lane = m.lane := rfl
@[simp] theorem updShep_lnk (f : ShepSt → ShepSt) (m : Mod) : (updShep f m).lnk = m.lnk := rfl
@[simp] theorem updShep_xb (f : ShepSt → ShepSt) (m : Mod) : (updShep f m).xb = m.xb := rfl
@[simp] theorem updShep_tabs (f : ShepSt → ShepSt) (m : Mod) : (updShep f m).tabs = m.tabs := rfl
@[simp] theorem updShep_evr (f : ShepSt → ShepSt) (m : Mod) : (updShep f m).evr = m.evr := rfl
@[simp] theorem updShep_xlt (f : ShepSt → ShepSt) (m : Mod) : (updShep f m).xlt = m.xlt := rfl
@[simp] theorem updShep_trn (f : ShepSt → ShepSt) (m : Mod) : (updShep f m).trn = m.trn := rfl
@[simp] theorem updShep_drv (f : ShepSt → ShepSt) (m : Mod) : (updShep f m).drv = m.drv := rfl
@[simp] theorem updShep_pools (f : ShepSt → ShepSt) (m : Mod) : (updShep f m).pools = m.pools := rfl
@[simp] theorem updShep_pool (f : ShepSt → ShepSt) (m : Mod) : (updShep f m).pool = m.pool := rfl
@[simp] theorem updShep_smp (f : ShepSt → ShepSt) (m : Mod) : (updShep f m).smp = m.smp := rfl
@[simp] theorem updShep_azx (f : ShepSt → ShepSt) (m : Mod) : (updShep f m).azx = m.azx := rfl
@[simp] theorem updShep_todo (f : ShepSt → ShepSt) (m : Mod) : (updShep f m).todo = m.todo := rfl
@[simp] theorem updShep_out (f : ShepSt → ShepSt) (m : Mod) : (updShep f m).out = m.out := rfl
@[simp] theorem updShep_free (f : ShepSt → ShepSt) (m : Mod) : (updShep f m).free = m.free := rfl
@[simp] theorem updShep_burn (f : ShepSt → ShepSt) (m : Mod) : (updShep f m).burn = m.burn := rfl

/-! `setDie`. -/
@[simp] theorem setDie_regs (d st : Nat) (m : Mod) : (setDie d st m).regs = m.regs := rfl
@[simp] theorem setDie_live (d st : Nat) (m : Mod) : (setDie d st m).live = m.live := rfl
@[simp] theorem setDie_ctr (d st : Nat) (m : Mod) : (setDie d st m).ctr = m.ctr := rfl
@[simp] theorem setDie_ctrWrap (d st : Nat) (m : Mod) : (setDie d st m).ctrWrap = m.ctrWrap := rfl
@[simp] theorem setDie_ctrEpoch (d st : Nat) (m : Mod) : (setDie d st m).ctrEpoch = m.ctrEpoch := rfl
@[simp] theorem setDie_d2d (d st : Nat) (m : Mod) : (setDie d st m).d2d = m.d2d := rfl
@[simp] theorem setDie_d2dFail (d st : Nat) (m : Mod) : (setDie d st m).d2dFail = m.d2dFail := rfl
@[simp] theorem setDie_hif (d st : Nat) (m : Mod) : (setDie d st m).hif = m.hif := rfl
@[simp] theorem setDie_clk (d st : Nat) (m : Mod) : (setDie d st m).clk = m.clk := rfl
@[simp] theorem setDie_tm (d st : Nat) (m : Mod) : (setDie d st m).tm = m.tm := rfl
@[simp] theorem setDie_flt (d st : Nat) (m : Mod) : (setDie d st m).flt = m.flt := rfl
@[simp] theorem setDie_bst (d st : Nat) (m : Mod) : (setDie d st m).bst = m.bst := rfl
@[simp] theorem setDie_flash (d st : Nat) (m : Mod) : (setDie d st m).flash = m.flash := rfl
@[simp] theorem setDie_conf (d st : Nat) (m : Mod) : (setDie d st m).conf = m.conf := rfl
@[simp] theorem setDie_sec (d st : Nat) (m : Mod) : (setDie d st m).sec = m.sec := rfl
@[simp] theorem setDie_keys (d st : Nat) (m : Mod) : (setDie d st m).keys = m.keys := rfl
@[simp] theorem setDie_tly (d st : Nat) (m : Mod) : (setDie d st m).tly = m.tly := rfl
@[simp] theorem setDie_pin (d st : Nat) (m : Mod) : (setDie d st m).pin = m.pin := rfl
@[simp] theorem setDie_lp (d st : Nat) (m : Mod) : (setDie d st m).lp = m.lp := rfl
@[simp] theorem setDie_lane (d st : Nat) (m : Mod) : (setDie d st m).lane = m.lane := rfl
@[simp] theorem setDie_lnk (d st : Nat) (m : Mod) : (setDie d st m).lnk = m.lnk := rfl
@[simp] theorem setDie_xb (d st : Nat) (m : Mod) : (setDie d st m).xb = m.xb := rfl
@[simp] theorem setDie_tabs (d st : Nat) (m : Mod) : (setDie d st m).tabs = m.tabs := rfl
@[simp] theorem setDie_evr (d st : Nat) (m : Mod) : (setDie d st m).evr = m.evr := rfl
@[simp] theorem setDie_xlt (d st : Nat) (m : Mod) : (setDie d st m).xlt = m.xlt := rfl
@[simp] theorem setDie_trn (d st : Nat) (m : Mod) : (setDie d st m).trn = m.trn := rfl
@[simp] theorem setDie_drv (d st : Nat) (m : Mod) : (setDie d st m).drv = m.drv := rfl
@[simp] theorem setDie_pools (d st : Nat) (m : Mod) : (setDie d st m).pools = m.pools := rfl
@[simp] theorem setDie_pool (d st : Nat) (m : Mod) : (setDie d st m).pool = m.pool := rfl
@[simp] theorem setDie_smp (d st : Nat) (m : Mod) : (setDie d st m).smp = m.smp := rfl
@[simp] theorem setDie_azx (d st : Nat) (m : Mod) : (setDie d st m).azx = m.azx := rfl
@[simp] theorem setDie_shep (d st : Nat) (m : Mod) : (setDie d st m).shep = m.shep := rfl
@[simp] theorem setDie_todo (d st : Nat) (m : Mod) : (setDie d st m).todo = m.todo := rfl
@[simp] theorem setDie_out (d st : Nat) (m : Mod) : (setDie d st m).out = m.out := rfl
@[simp] theorem setDie_free (d st : Nat) (m : Mod) : (setDie d st m).free = m.free := rfl
@[simp] theorem setDie_burn (d st : Nat) (m : Mod) : (setDie d st m).burn = m.burn := rfl

/-! `blow`. -/
@[simp] theorem blow_regs (o : FuseOp) (m : Mod) : (blow o m).regs = m.regs := rfl
@[simp] theorem blow_live (o : FuseOp) (m : Mod) : (blow o m).live = m.live := rfl
@[simp] theorem blow_ctr (o : FuseOp) (m : Mod) : (blow o m).ctr = m.ctr := rfl
@[simp] theorem blow_ctrWrap (o : FuseOp) (m : Mod) : (blow o m).ctrWrap = m.ctrWrap := rfl
@[simp] theorem blow_ctrEpoch (o : FuseOp) (m : Mod) : (blow o m).ctrEpoch = m.ctrEpoch := rfl
@[simp] theorem blow_d2d (o : FuseOp) (m : Mod) : (blow o m).d2d = m.d2d := rfl
@[simp] theorem blow_d2dFail (o : FuseOp) (m : Mod) : (blow o m).d2dFail = m.d2dFail := rfl
@[simp] theorem blow_dieSt (o : FuseOp) (m : Mod) : (blow o m).dieSt = m.dieSt := rfl
@[simp] theorem blow_hif (o : FuseOp) (m : Mod) : (blow o m).hif = m.hif := rfl
@[simp] theorem blow_clk (o : FuseOp) (m : Mod) : (blow o m).clk = m.clk := rfl
@[simp] theorem blow_tm (o : FuseOp) (m : Mod) : (blow o m).tm = m.tm := rfl
@[simp] theorem blow_flt (o : FuseOp) (m : Mod) : (blow o m).flt = m.flt := rfl
@[simp] theorem blow_bst (o : FuseOp) (m : Mod) : (blow o m).bst = m.bst := rfl
@[simp] theorem blow_flash (o : FuseOp) (m : Mod) : (blow o m).flash = m.flash := rfl
@[simp] theorem blow_conf (o : FuseOp) (m : Mod) : (blow o m).conf = m.conf := rfl
@[simp] theorem blow_sec (o : FuseOp) (m : Mod) : (blow o m).sec = m.sec := rfl
@[simp] theorem blow_keys (o : FuseOp) (m : Mod) : (blow o m).keys = m.keys := rfl
@[simp] theorem blow_tly (o : FuseOp) (m : Mod) : (blow o m).tly = m.tly := rfl
@[simp] theorem blow_pin (o : FuseOp) (m : Mod) : (blow o m).pin = m.pin := rfl
@[simp] theorem blow_lp (o : FuseOp) (m : Mod) : (blow o m).lp = m.lp := rfl
@[simp] theorem blow_lane (o : FuseOp) (m : Mod) : (blow o m).lane = m.lane := rfl
@[simp] theorem blow_lnk (o : FuseOp) (m : Mod) : (blow o m).lnk = m.lnk := rfl
@[simp] theorem blow_xb (o : FuseOp) (m : Mod) : (blow o m).xb = m.xb := rfl
@[simp] theorem blow_tabs (o : FuseOp) (m : Mod) : (blow o m).tabs = m.tabs := rfl
@[simp] theorem blow_evr (o : FuseOp) (m : Mod) : (blow o m).evr = m.evr := rfl
@[simp] theorem blow_xlt (o : FuseOp) (m : Mod) : (blow o m).xlt = m.xlt := rfl
@[simp] theorem blow_trn (o : FuseOp) (m : Mod) : (blow o m).trn = m.trn := rfl
@[simp] theorem blow_drv (o : FuseOp) (m : Mod) : (blow o m).drv = m.drv := rfl
@[simp] theorem blow_pools (o : FuseOp) (m : Mod) : (blow o m).pools = m.pools := rfl
@[simp] theorem blow_pool (o : FuseOp) (m : Mod) : (blow o m).pool = m.pool := rfl
@[simp] theorem blow_smp (o : FuseOp) (m : Mod) : (blow o m).smp = m.smp := rfl
@[simp] theorem blow_azx (o : FuseOp) (m : Mod) : (blow o m).azx = m.azx := rfl
@[simp] theorem blow_shep (o : FuseOp) (m : Mod) : (blow o m).shep = m.shep := rfl
@[simp] theorem blow_todo (o : FuseOp) (m : Mod) : (blow o m).todo = m.todo := rfl
@[simp] theorem blow_out (o : FuseOp) (m : Mod) : (blow o m).out = m.out := rfl
@[simp] theorem blow_free (o : FuseOp) (m : Mod) : (blow o m).free = m.free := rfl

/-! `setNegot`. -/
@[simp] theorem setNegot_regs (v n : Nat) (m : Mod) : (setNegot v n m).regs = m.regs := rfl
@[simp] theorem setNegot_live (v n : Nat) (m : Mod) : (setNegot v n m).live = m.live := rfl
@[simp] theorem setNegot_ctr (v n : Nat) (m : Mod) : (setNegot v n m).ctr = m.ctr := rfl
@[simp] theorem setNegot_ctrWrap (v n : Nat) (m : Mod) : (setNegot v n m).ctrWrap = m.ctrWrap := rfl
@[simp] theorem setNegot_ctrEpoch (v n : Nat) (m : Mod) : (setNegot v n m).ctrEpoch = m.ctrEpoch := rfl
@[simp] theorem setNegot_d2d (v n : Nat) (m : Mod) : (setNegot v n m).d2d = m.d2d := rfl
@[simp] theorem setNegot_d2dFail (v n : Nat) (m : Mod) : (setNegot v n m).d2dFail = m.d2dFail := rfl
@[simp] theorem setNegot_dieSt (v n : Nat) (m : Mod) : (setNegot v n m).dieSt = m.dieSt := rfl
@[simp] theorem setNegot_hif (v n : Nat) (m : Mod) : (setNegot v n m).hif = m.hif := rfl
@[simp] theorem setNegot_clk (v n : Nat) (m : Mod) : (setNegot v n m).clk = m.clk := rfl
@[simp] theorem setNegot_tm (v n : Nat) (m : Mod) : (setNegot v n m).tm = m.tm := rfl
@[simp] theorem setNegot_flt (v n : Nat) (m : Mod) : (setNegot v n m).flt = m.flt := rfl
@[simp] theorem setNegot_bst (v n : Nat) (m : Mod) : (setNegot v n m).bst = m.bst := rfl
@[simp] theorem setNegot_flash (v n : Nat) (m : Mod) : (setNegot v n m).flash = m.flash := rfl
@[simp] theorem setNegot_conf (v n : Nat) (m : Mod) : (setNegot v n m).conf = m.conf := rfl
@[simp] theorem setNegot_keys (v n : Nat) (m : Mod) : (setNegot v n m).keys = m.keys := rfl
@[simp] theorem setNegot_tly (v n : Nat) (m : Mod) : (setNegot v n m).tly = m.tly := rfl
@[simp] theorem setNegot_pin (v n : Nat) (m : Mod) : (setNegot v n m).pin = m.pin := rfl
@[simp] theorem setNegot_lp (v n : Nat) (m : Mod) : (setNegot v n m).lp = m.lp := rfl
@[simp] theorem setNegot_lane (v n : Nat) (m : Mod) : (setNegot v n m).lane = m.lane := rfl
@[simp] theorem setNegot_lnk (v n : Nat) (m : Mod) : (setNegot v n m).lnk = m.lnk := rfl
@[simp] theorem setNegot_xb (v n : Nat) (m : Mod) : (setNegot v n m).xb = m.xb := rfl
@[simp] theorem setNegot_tabs (v n : Nat) (m : Mod) : (setNegot v n m).tabs = m.tabs := rfl
@[simp] theorem setNegot_evr (v n : Nat) (m : Mod) : (setNegot v n m).evr = m.evr := rfl
@[simp] theorem setNegot_xlt (v n : Nat) (m : Mod) : (setNegot v n m).xlt = m.xlt := rfl
@[simp] theorem setNegot_trn (v n : Nat) (m : Mod) : (setNegot v n m).trn = m.trn := rfl
@[simp] theorem setNegot_drv (v n : Nat) (m : Mod) : (setNegot v n m).drv = m.drv := rfl
@[simp] theorem setNegot_pools (v n : Nat) (m : Mod) : (setNegot v n m).pools = m.pools := rfl
@[simp] theorem setNegot_pool (v n : Nat) (m : Mod) : (setNegot v n m).pool = m.pool := rfl
@[simp] theorem setNegot_smp (v n : Nat) (m : Mod) : (setNegot v n m).smp = m.smp := rfl
@[simp] theorem setNegot_azx (v n : Nat) (m : Mod) : (setNegot v n m).azx = m.azx := rfl
@[simp] theorem setNegot_shep (v n : Nat) (m : Mod) : (setNegot v n m).shep = m.shep := rfl
@[simp] theorem setNegot_todo (v n : Nat) (m : Mod) : (setNegot v n m).todo = m.todo := rfl
@[simp] theorem setNegot_out (v n : Nat) (m : Mod) : (setNegot v n m).out = m.out := rfl
@[simp] theorem setNegot_free (v n : Nat) (m : Mod) : (setNegot v n m).free = m.free := rfl
@[simp] theorem setNegot_burn (v n : Nat) (m : Mod) : (setNegot v n m).burn = m.burn := rfl

/-! `updCond`. -/
@[simp] theorem updCond_regs (d cn : Nat) (f : Cond → Cond) (m : Mod) : (updCond d cn f m).regs = m.regs := rfl
@[simp] theorem updCond_live (d cn : Nat) (f : Cond → Cond) (m : Mod) : (updCond d cn f m).live = m.live := rfl
@[simp] theorem updCond_ctr (d cn : Nat) (f : Cond → Cond) (m : Mod) : (updCond d cn f m).ctr = m.ctr := rfl
@[simp] theorem updCond_ctrWrap (d cn : Nat) (f : Cond → Cond) (m : Mod) : (updCond d cn f m).ctrWrap = m.ctrWrap := rfl
@[simp] theorem updCond_ctrEpoch (d cn : Nat) (f : Cond → Cond) (m : Mod) : (updCond d cn f m).ctrEpoch = m.ctrEpoch := rfl
@[simp] theorem updCond_d2d (d cn : Nat) (f : Cond → Cond) (m : Mod) : (updCond d cn f m).d2d = m.d2d := rfl
@[simp] theorem updCond_d2dFail (d cn : Nat) (f : Cond → Cond) (m : Mod) : (updCond d cn f m).d2dFail = m.d2dFail := rfl
@[simp] theorem updCond_dieSt (d cn : Nat) (f : Cond → Cond) (m : Mod) : (updCond d cn f m).dieSt = m.dieSt := rfl
@[simp] theorem updCond_hif (d cn : Nat) (f : Cond → Cond) (m : Mod) : (updCond d cn f m).hif = m.hif := rfl
@[simp] theorem updCond_clk (d cn : Nat) (f : Cond → Cond) (m : Mod) : (updCond d cn f m).clk = m.clk := rfl
@[simp] theorem updCond_tm (d cn : Nat) (f : Cond → Cond) (m : Mod) : (updCond d cn f m).tm = m.tm := rfl
@[simp] theorem updCond_flt (d cn : Nat) (f : Cond → Cond) (m : Mod) : (updCond d cn f m).flt = m.flt := rfl
@[simp] theorem updCond_bst (d cn : Nat) (f : Cond → Cond) (m : Mod) : (updCond d cn f m).bst = m.bst := rfl
@[simp] theorem updCond_flash (d cn : Nat) (f : Cond → Cond) (m : Mod) : (updCond d cn f m).flash = m.flash := rfl
@[simp] theorem updCond_conf (d cn : Nat) (f : Cond → Cond) (m : Mod) : (updCond d cn f m).conf = m.conf := rfl
@[simp] theorem updCond_sec (d cn : Nat) (f : Cond → Cond) (m : Mod) : (updCond d cn f m).sec = m.sec := rfl
@[simp] theorem updCond_keys (d cn : Nat) (f : Cond → Cond) (m : Mod) : (updCond d cn f m).keys = m.keys := rfl
@[simp] theorem updCond_tly (d cn : Nat) (f : Cond → Cond) (m : Mod) : (updCond d cn f m).tly = m.tly := rfl
@[simp] theorem updCond_pin (d cn : Nat) (f : Cond → Cond) (m : Mod) : (updCond d cn f m).pin = m.pin := rfl
@[simp] theorem updCond_lp (d cn : Nat) (f : Cond → Cond) (m : Mod) : (updCond d cn f m).lp = m.lp := rfl
@[simp] theorem updCond_lane (d cn : Nat) (f : Cond → Cond) (m : Mod) : (updCond d cn f m).lane = m.lane := rfl
@[simp] theorem updCond_lnk (d cn : Nat) (f : Cond → Cond) (m : Mod) : (updCond d cn f m).lnk = m.lnk := rfl
@[simp] theorem updCond_xb (d cn : Nat) (f : Cond → Cond) (m : Mod) : (updCond d cn f m).xb = m.xb := rfl
@[simp] theorem updCond_tabs (d cn : Nat) (f : Cond → Cond) (m : Mod) : (updCond d cn f m).tabs = m.tabs := rfl
@[simp] theorem updCond_evr (d cn : Nat) (f : Cond → Cond) (m : Mod) : (updCond d cn f m).evr = m.evr := rfl
@[simp] theorem updCond_xlt (d cn : Nat) (f : Cond → Cond) (m : Mod) : (updCond d cn f m).xlt = m.xlt := rfl
@[simp] theorem updCond_drv (d cn : Nat) (f : Cond → Cond) (m : Mod) : (updCond d cn f m).drv = m.drv := rfl
@[simp] theorem updCond_pools (d cn : Nat) (f : Cond → Cond) (m : Mod) : (updCond d cn f m).pools = m.pools := rfl
@[simp] theorem updCond_pool (d cn : Nat) (f : Cond → Cond) (m : Mod) : (updCond d cn f m).pool = m.pool := rfl
@[simp] theorem updCond_smp (d cn : Nat) (f : Cond → Cond) (m : Mod) : (updCond d cn f m).smp = m.smp := rfl
@[simp] theorem updCond_azx (d cn : Nat) (f : Cond → Cond) (m : Mod) : (updCond d cn f m).azx = m.azx := rfl
@[simp] theorem updCond_shep (d cn : Nat) (f : Cond → Cond) (m : Mod) : (updCond d cn f m).shep = m.shep := rfl
@[simp] theorem updCond_todo (d cn : Nat) (f : Cond → Cond) (m : Mod) : (updCond d cn f m).todo = m.todo := rfl
@[simp] theorem updCond_out (d cn : Nat) (f : Cond → Cond) (m : Mod) : (updCond d cn f m).out = m.out := rfl
@[simp] theorem updCond_free (d cn : Nat) (f : Cond → Cond) (m : Mod) : (updCond d cn f m).free = m.free := rfl
@[simp] theorem updCond_burn (d cn : Nat) (f : Cond → Cond) (m : Mod) : (updCond d cn f m).burn = m.burn := rfl

/-! `setPortTime`. -/
@[simp] theorem setPortTime_regs (pc : Nat) (t : PortTime) (m : Mod) : (setPortTime pc t m).regs = m.regs := rfl
@[simp] theorem setPortTime_live (pc : Nat) (t : PortTime) (m : Mod) : (setPortTime pc t m).live = m.live := rfl
@[simp] theorem setPortTime_ctr (pc : Nat) (t : PortTime) (m : Mod) : (setPortTime pc t m).ctr = m.ctr := rfl
@[simp] theorem setPortTime_ctrWrap (pc : Nat) (t : PortTime) (m : Mod) : (setPortTime pc t m).ctrWrap = m.ctrWrap := rfl
@[simp] theorem setPortTime_ctrEpoch (pc : Nat) (t : PortTime) (m : Mod) : (setPortTime pc t m).ctrEpoch = m.ctrEpoch := rfl
@[simp] theorem setPortTime_d2d (pc : Nat) (t : PortTime) (m : Mod) : (setPortTime pc t m).d2d = m.d2d := rfl
@[simp] theorem setPortTime_d2dFail (pc : Nat) (t : PortTime) (m : Mod) : (setPortTime pc t m).d2dFail = m.d2dFail := rfl
@[simp] theorem setPortTime_dieSt (pc : Nat) (t : PortTime) (m : Mod) : (setPortTime pc t m).dieSt = m.dieSt := rfl
@[simp] theorem setPortTime_hif (pc : Nat) (t : PortTime) (m : Mod) : (setPortTime pc t m).hif = m.hif := rfl
@[simp] theorem setPortTime_clk (pc : Nat) (t : PortTime) (m : Mod) : (setPortTime pc t m).clk = m.clk := rfl
@[simp] theorem setPortTime_flt (pc : Nat) (t : PortTime) (m : Mod) : (setPortTime pc t m).flt = m.flt := rfl
@[simp] theorem setPortTime_bst (pc : Nat) (t : PortTime) (m : Mod) : (setPortTime pc t m).bst = m.bst := rfl
@[simp] theorem setPortTime_flash (pc : Nat) (t : PortTime) (m : Mod) : (setPortTime pc t m).flash = m.flash := rfl
@[simp] theorem setPortTime_conf (pc : Nat) (t : PortTime) (m : Mod) : (setPortTime pc t m).conf = m.conf := rfl
@[simp] theorem setPortTime_sec (pc : Nat) (t : PortTime) (m : Mod) : (setPortTime pc t m).sec = m.sec := rfl
@[simp] theorem setPortTime_keys (pc : Nat) (t : PortTime) (m : Mod) : (setPortTime pc t m).keys = m.keys := rfl
@[simp] theorem setPortTime_tly (pc : Nat) (t : PortTime) (m : Mod) : (setPortTime pc t m).tly = m.tly := rfl
@[simp] theorem setPortTime_pin (pc : Nat) (t : PortTime) (m : Mod) : (setPortTime pc t m).pin = m.pin := rfl
@[simp] theorem setPortTime_lp (pc : Nat) (t : PortTime) (m : Mod) : (setPortTime pc t m).lp = m.lp := rfl
@[simp] theorem setPortTime_lane (pc : Nat) (t : PortTime) (m : Mod) : (setPortTime pc t m).lane = m.lane := rfl
@[simp] theorem setPortTime_lnk (pc : Nat) (t : PortTime) (m : Mod) : (setPortTime pc t m).lnk = m.lnk := rfl
@[simp] theorem setPortTime_xb (pc : Nat) (t : PortTime) (m : Mod) : (setPortTime pc t m).xb = m.xb := rfl
@[simp] theorem setPortTime_tabs (pc : Nat) (t : PortTime) (m : Mod) : (setPortTime pc t m).tabs = m.tabs := rfl
@[simp] theorem setPortTime_evr (pc : Nat) (t : PortTime) (m : Mod) : (setPortTime pc t m).evr = m.evr := rfl
@[simp] theorem setPortTime_xlt (pc : Nat) (t : PortTime) (m : Mod) : (setPortTime pc t m).xlt = m.xlt := rfl
@[simp] theorem setPortTime_trn (pc : Nat) (t : PortTime) (m : Mod) : (setPortTime pc t m).trn = m.trn := rfl
@[simp] theorem setPortTime_drv (pc : Nat) (t : PortTime) (m : Mod) : (setPortTime pc t m).drv = m.drv := rfl
@[simp] theorem setPortTime_pools (pc : Nat) (t : PortTime) (m : Mod) : (setPortTime pc t m).pools = m.pools := rfl
@[simp] theorem setPortTime_pool (pc : Nat) (t : PortTime) (m : Mod) : (setPortTime pc t m).pool = m.pool := rfl
@[simp] theorem setPortTime_smp (pc : Nat) (t : PortTime) (m : Mod) : (setPortTime pc t m).smp = m.smp := rfl
@[simp] theorem setPortTime_azx (pc : Nat) (t : PortTime) (m : Mod) : (setPortTime pc t m).azx = m.azx := rfl
@[simp] theorem setPortTime_shep (pc : Nat) (t : PortTime) (m : Mod) : (setPortTime pc t m).shep = m.shep := rfl
@[simp] theorem setPortTime_todo (pc : Nat) (t : PortTime) (m : Mod) : (setPortTime pc t m).todo = m.todo := rfl
@[simp] theorem setPortTime_out (pc : Nat) (t : PortTime) (m : Mod) : (setPortTime pc t m).out = m.out := rfl
@[simp] theorem setPortTime_free (pc : Nat) (t : PortTime) (m : Mod) : (setPortTime pc t m).free = m.free := rfl
@[simp] theorem setPortTime_burn (pc : Nat) (t : PortTime) (m : Mod) : (setPortTime pc t m).burn = m.burn := rfl

/-! `setEvr`. -/
@[simp] theorem setEvr_regs (d f : Nat) (x : Evr) (m : Mod) : (setEvr d f x m).regs = m.regs := rfl
@[simp] theorem setEvr_live (d f : Nat) (x : Evr) (m : Mod) : (setEvr d f x m).live = m.live := rfl
@[simp] theorem setEvr_ctr (d f : Nat) (x : Evr) (m : Mod) : (setEvr d f x m).ctr = m.ctr := rfl
@[simp] theorem setEvr_ctrWrap (d f : Nat) (x : Evr) (m : Mod) : (setEvr d f x m).ctrWrap = m.ctrWrap := rfl
@[simp] theorem setEvr_ctrEpoch (d f : Nat) (x : Evr) (m : Mod) : (setEvr d f x m).ctrEpoch = m.ctrEpoch := rfl
@[simp] theorem setEvr_d2d (d f : Nat) (x : Evr) (m : Mod) : (setEvr d f x m).d2d = m.d2d := rfl
@[simp] theorem setEvr_d2dFail (d f : Nat) (x : Evr) (m : Mod) : (setEvr d f x m).d2dFail = m.d2dFail := rfl
@[simp] theorem setEvr_dieSt (d f : Nat) (x : Evr) (m : Mod) : (setEvr d f x m).dieSt = m.dieSt := rfl
@[simp] theorem setEvr_hif (d f : Nat) (x : Evr) (m : Mod) : (setEvr d f x m).hif = m.hif := rfl
@[simp] theorem setEvr_clk (d f : Nat) (x : Evr) (m : Mod) : (setEvr d f x m).clk = m.clk := rfl
@[simp] theorem setEvr_tm (d f : Nat) (x : Evr) (m : Mod) : (setEvr d f x m).tm = m.tm := rfl
@[simp] theorem setEvr_flt (d f : Nat) (x : Evr) (m : Mod) : (setEvr d f x m).flt = m.flt := rfl
@[simp] theorem setEvr_bst (d f : Nat) (x : Evr) (m : Mod) : (setEvr d f x m).bst = m.bst := rfl
@[simp] theorem setEvr_flash (d f : Nat) (x : Evr) (m : Mod) : (setEvr d f x m).flash = m.flash := rfl
@[simp] theorem setEvr_conf (d f : Nat) (x : Evr) (m : Mod) : (setEvr d f x m).conf = m.conf := rfl
@[simp] theorem setEvr_sec (d f : Nat) (x : Evr) (m : Mod) : (setEvr d f x m).sec = m.sec := rfl
@[simp] theorem setEvr_keys (d f : Nat) (x : Evr) (m : Mod) : (setEvr d f x m).keys = m.keys := rfl
@[simp] theorem setEvr_tly (d f : Nat) (x : Evr) (m : Mod) : (setEvr d f x m).tly = m.tly := rfl
@[simp] theorem setEvr_pin (d f : Nat) (x : Evr) (m : Mod) : (setEvr d f x m).pin = m.pin := rfl
@[simp] theorem setEvr_lp (d f : Nat) (x : Evr) (m : Mod) : (setEvr d f x m).lp = m.lp := rfl
@[simp] theorem setEvr_lane (d f : Nat) (x : Evr) (m : Mod) : (setEvr d f x m).lane = m.lane := rfl
@[simp] theorem setEvr_lnk (d f : Nat) (x : Evr) (m : Mod) : (setEvr d f x m).lnk = m.lnk := rfl
@[simp] theorem setEvr_xb (d f : Nat) (x : Evr) (m : Mod) : (setEvr d f x m).xb = m.xb := rfl
@[simp] theorem setEvr_tabs (d f : Nat) (x : Evr) (m : Mod) : (setEvr d f x m).tabs = m.tabs := rfl
@[simp] theorem setEvr_xlt (d f : Nat) (x : Evr) (m : Mod) : (setEvr d f x m).xlt = m.xlt := rfl
@[simp] theorem setEvr_trn (d f : Nat) (x : Evr) (m : Mod) : (setEvr d f x m).trn = m.trn := rfl
@[simp] theorem setEvr_drv (d f : Nat) (x : Evr) (m : Mod) : (setEvr d f x m).drv = m.drv := rfl
@[simp] theorem setEvr_pools (d f : Nat) (x : Evr) (m : Mod) : (setEvr d f x m).pools = m.pools := rfl
@[simp] theorem setEvr_pool (d f : Nat) (x : Evr) (m : Mod) : (setEvr d f x m).pool = m.pool := rfl
@[simp] theorem setEvr_smp (d f : Nat) (x : Evr) (m : Mod) : (setEvr d f x m).smp = m.smp := rfl
@[simp] theorem setEvr_azx (d f : Nat) (x : Evr) (m : Mod) : (setEvr d f x m).azx = m.azx := rfl
@[simp] theorem setEvr_shep (d f : Nat) (x : Evr) (m : Mod) : (setEvr d f x m).shep = m.shep := rfl
@[simp] theorem setEvr_todo (d f : Nat) (x : Evr) (m : Mod) : (setEvr d f x m).todo = m.todo := rfl
@[simp] theorem setEvr_out (d f : Nat) (x : Evr) (m : Mod) : (setEvr d f x m).out = m.out := rfl
@[simp] theorem setEvr_free (d f : Nat) (x : Evr) (m : Mod) : (setEvr d f x m).free = m.free := rfl
@[simp] theorem setEvr_burn (d f : Nat) (x : Evr) (m : Mod) : (setEvr d f x m).burn = m.burn := rfl

end Sys2Proof.Machine
end

