-- ==== Sys2Proof/Laws/Act.lean ====
section
/-! SUPPORT. How commands end: in a calm module nothing follows a command's own effect. -/
namespace Sys2Proof.Machine

theorem signalReady_calm {m : Mod} (h : (!m.shep.booted || m.pin.ready || m.flt.stopped) = true) : signalReady m = m := by
  unfold signalReady
  cases h1 : m.shep.booted <;> cases h2 : m.pin.ready <;> cases h3 : m.flt.stopped <;> simp_all

theorem leaveM2_calm {m : Mod} (h : m.tly.mstate ≠ 2) : leaveM2 m = m := by simp [leaveM2, h]

theorem resumeDone_calm {m : Mod} (h : m.azx.jobs = []) : resumeDone m = m := by simp [resumeDone, h]

theorem azxSettle_calm (fz : Fuse) (n : Nat) {m : Mod} (h : m.azx.jobs = []) (h' : m.azx.held = []) : azxSettle fz n m = m := by
  cases n with
  | zero => rfl
  | succ n => simp [azxSettle, h, h', turnReady]

theorem timedCheck_calm {m : Mod} (h : dies.all (fun d => !rdB F.ETL_STATUS_TIMED_OK d 0 m || timedWithin d m) = true) : timedCheck m = m := by
  simp only [dies, List.all_cons, List.all_nil, Bool.and_true, Bool.and_eq_true, Bool.or_eq_true, Bool.not_eq_true'] at h
  obtain ⟨h0, h1, h2, h3⟩ := h
  have go : ∀ d, (rdB F.ETL_STATUS_TIMED_OK d 0 m = false ∨ timedWithin d m = true) →
      ¬ ((rdB F.ETL_STATUS_TIMED_OK d 0 m && !timedWithin d m) = true) := by
    intro d hd; rcases hd with hd | hd <;> simp [hd]
  simp only [timedCheck, each, dies, List.foldl_cons, List.foldl_nil, if_neg (go 0 h0), if_neg (go 1 h1), if_neg (go 2 h2), if_neg (go 3 h3)]

theorem releaseHeld_calm {m : Mod} (h : m.xb.held = []) (d : Nat) : releaseHeld d m = m := by simp [releaseHeld, h, NMap.get]

/-- A calm module stays as it is. -/
theorem settle_calm (fz : Fuse) {m : Mod} (h : m.calm = true) : settle fz m = m := by
  simp only [Mod.calm, Bool.and_eq_true, List.isEmpty_iff, bne_iff_ne] at h
  obtain ⟨⟨⟨⟨⟨⟨⟨h1, h2⟩, h3⟩, h4⟩, h5⟩, h6⟩, h7⟩, h8⟩ := h
  have hr : each dies releaseHeld m = m := by simp [each, dies, releaseHeld_calm h7]
  unfold settle settleGo
  rw [timedCheck_calm h8, hr]
  simp only [h1, h2, List.isEmpty_nil]
  rw [resumeDone_calm h3, leaveM2_calm h5, signalReady_calm h6, azxSettle_calm fz 256 h3 h4]
  simp [Mod.idle, h1, h2]

@[simp] theorem finish_pending (s : State) (m : Mod) : (finish s m).pending = s.pending := by unfold finish; rfl
@[simp] theorem finish_burn (s : State) (m : Mod) : (finish s m).m.burn = [] := by unfold finish; rfl

/-- `finish` changes the fuses only by burning what the module asks for. -/
theorem finish_fuse (s : State) (m : Mod) : (finish s m).fuse = s.fuse.burn (settle s.fuse m).burn := by simp only [finish]

/-- What a command with checked operands answers. -/
theorem act_true {ok : Bool} {s : State} {f : Fuse → Mod → Mod} (h : ok = true) : act ok s f = .next (finish s (f s.fuse s.m)) := by
  simp [act, h]

/-- Burning fuses only goes forward, one operation at a time. -/
theorem burn1_notBefore (fz : Fuse) (o : FuseOp) : fz.notBefore (fz.burn1 o) := by
  cases o with
  | owner h => cases hk : fz.ownerKey <;> simp [Fuse.notBefore, Fuse.burn1, hk]
  | secret k => cases hk : fz.secret <;> simp [Fuse.notBefore, Fuse.burn1, hk]
  | svn n => simp [Fuse.notBefore, Fuse.burn1]
  | revoke0 => simp [Fuse.notBefore, Fuse.burn1]
  | advance n => simp [Fuse.notBefore, Fuse.burn1]

end Sys2Proof.Machine
end

