-- ==== Sys2Proof/Laws/Sums.lean ====
section
/-! SUPPORT. Laws of the Plainsum (R393 to R400): what an operand is, and what one more operand does to the sum of those
taken before. -/
set_option linter.unusedSimpArgs false
set_option linter.unreachableTactic false
set_option linter.unusedTactic false
namespace Sys2Proof.Machine

/-- The accumulator that holds a finite sum. -/
def finOf (v : Int) : Accu := { Accu.reset with fin := true, v := v, any := true }

/-- An operand is a finite number below 2^128 or a marker of one flag (R397, R398). -/
theorem sumNative_cases (dt b : Nat) (h1 : 1 ≤ dt) (h5 : dt ≤ 5) :
    (∃ v : Int, (sumNative dt b).1 = finOf v ∧ v = plainUnits dt b ∧ v.natAbs ≤ 2 ^ 288 - 2 ^ 264 )
    ∨ (∃ f, (f = 1 ∨ f = 2 ∨ f = 4 ∨ f = 8) ∧ (sumNative dt b).1 = markerOf f ∧ plainUnits dt b = 0) := by
  have bd : ∀ neg a w, (fmt dt).decode b = .fin neg a w → a * 2 ^ (w + 160).toNat ≤ 2 ^ 288 - 2 ^ 264 := by
    intro neg a w h
    have key : ∀ A E : Nat, A * 2 ^ E ≤ 2 ^ 288 - 2 ^ 264 → a ≤ A → (w + 160).toNat ≤ E → a * 2 ^ (w + 160).toNat ≤ 2 ^ 288 - 2 ^ 264 := by
      intro A E h1 h2 h3
      exact le_trans (Nat.mul_le_mul h2 (Nat.pow_le_pow_right (by norm_num) h3)) h1
    have hm : bits b 0 (fmt dt).fb < 2 ^ (fmt dt).fb := by unfold bits; exact Nat.mod_lt _ (by positivity)
    have he : bits b (fmt dt).fb (fmt dt).eb < 2 ^ (fmt dt).eb := by unfold bits; exact Nat.mod_lt _ (by positivity)
    unfold Fmt.decode at h
    simp only at h
    generalize bits b 0 (fmt dt).fb = m at *
    generalize bits b (fmt dt).fb (fmt dt).eb = e at *
    have fin : a < 2 ^ ((fmt dt).fb + 1) ∧ w ≤ (2 ^ (fmt dt).eb - 1 : Int) - (if (fmt dt).e4m3 then 0 else 1) - (fmt dt).bias - (fmt dt).fb := by
      rw [Nat.pow_succ]
      interval_cases dt <;> simp only [fmt, Fmt.bias, Bool.not_false, Bool.not_true, and_true, if_false, if_true] at * <;>
       (split at h
        · split at h <;> cases h
        · first
           | (split at h
              · cases h
              · split at h <;> cases h <;> (constructor <;> push_cast <;> omega))
           | (split at h <;> cases h <;> (constructor <;> push_cast <;> omega)))
    obtain ⟨f1, f2⟩ := fin
    interval_cases dt <;> simp only [fmt, Fmt.bias] at f1 f2
    · exact key (2^24 - 1) 264 (by decide +kernel) (by omega) (by norm_num at f2; omega)
    · exact key (2^11 - 1) 200 (by decide +kernel) (by omega) (by norm_num at f2; omega)
    · exact key (2^8 - 1) 280 (by decide +kernel) (by omega) (by norm_num at f2; omega)
    · exact key (2^4 - 1) 264 (by decide +kernel) (by omega) (by norm_num at f2; omega)
    · exact key (2^3 - 1) 264 (by decide +kernel) (by omega) (by norm_num at f2; omega)
  unfold sumNative plainUnits
  cases hd : (fmt dt).decode b with
  | nan => right; exact ⟨8, by simp, rfl, rfl⟩
  | inf neg => right; cases neg <;> simp
  | fin neg a w =>
    have := bd _ _ _ hd
    have hne : dt ≠ 0 := by omega
    by_cases hz : a = 0 ∧ neg = true
    · right; refine ⟨1, by simp, by simp [hz], by simp [hz]⟩
    · left
      refine ⟨(if neg then -1 else 1) * ((a * 2 ^ (w + 160).toNat : Nat) : Int), ?_, rfl, ?_⟩
      · simp only [if_neg hz, if_neg hne, finOf, Nat.shiftLeft_eq]
        cases neg <;> simp
      · have e : ((if neg then -1 else 1) * ((a * 2 ^ (w + 160).toNat : Nat) : Int)).natAbs = a * 2 ^ (w + 160).toNat := by
          rw [Int.natAbs_mul, Int.natAbs_natCast]; cases neg <;> simp
        rw [e]; exact this

/-- The sum of operands with special flags `x`; `h`: some are finite and not −0, with the sum `v`. -/
def sumState (x : Nat) (h : Bool) (v : Int) : Accu :=
  if x / 2 ≠ 0 then markerOf x else if h then finOf v else if x = 0 then Accu.reset else markerOf 1

/-- One more finite operand. -/
theorem sumJoin_fin (x : Nat) (h : Bool) (v v' : Int) (hv : h = false → v = 0) (b : (v + v').natAbs ≤ 2 ^ 319 - 2 ^ 295) :
    sumJoin false (sumState x h v) (finOf v') = (sumState x true (v + v'), Tal.zero) := by
  have pl : plainOf (v + v') = (finOf (v + v'), Tal.zero) := by
    unfold plainOf finOf
    rw [if_neg]
    push_cast
    norm_num at b ⊢
    omega
  unfold sumState
  by_cases h1 : x / 2 = 0
  · cases h
    · have := hv rfl; subst this
      have : x = 0 ∨ x = 1 := by omega
      rcases this with rfl | rfl <;> simp [sumJoin, Accu.reset, finOf, markerOf]
    · simp only [h1, ne_eq, not_true, if_false, if_true]
      simp only [sumJoin]
      rw [if_pos (by simp [finOf])]
      simp only [Bool.false_eq_true, if_false]
      exact pl
  · have e : x / 2 * 2 / 2 = x / 2 := by omega
    simp [sumJoin, h1, markerOf, finOf, Accu.reset, e]

/-- One more operand that is a marker. -/
theorem sumJoin_mark (x f : Nat) (h : Bool) (v : Int) (hx : x < 16) (hf : f = 1 ∨ f = 2 ∨ f = 4 ∨ f = 8) :
    sumJoin false (sumState x h v) (markerOf f) = (sumState (Nat.lor x f) h v, Tal.zero) := by
  cases h <;> rcases hf with rfl | rfl | rfl | rfl <;> interval_cases x <;> simp [sumJoin, sumState, markerOf, finOf, Accu.reset] <;> decide

/-- A whole list of operands, taken one after the other (R398). -/
theorem sum_fold (dt : Nat) (h1 : 1 ≤ dt) (h5 : dt ≤ 5) (l : List Bytes) : ∀ (x k : Nat) (h : Bool) (v : Int) (t : Tal), x < 16 → (h = false → v = 0) →
    v.natAbs ≤ k * (2 ^ 288 - 2 ^ 264) → k + l.length ≤ 2 ^ 31 →
    l.foldl (fun r b => ((takeElem 2 dt false b r.1).1, r.2.add (takeElem 2 dt false b r.1).2)) (sumState x h v, t)
      = (sumState (l.foldl (fun x b => Nat.lor x (sumNative dt (rdLE b 0 (dtSize dt))).1.fl) x)
          (h || l.any (fun b => (sumNative dt (rdLE b 0 (dtSize dt))).1.fin))
          (v + (l.map (fun b => plainUnits dt (rdLE b 0 (dtSize dt)))).sum),
         l.foldl (fun t b => t.add (sumNative dt (rdLE b 0 (dtSize dt))).2) t) := by
  induction l with
  | nil => intro x k h v t _ _ _ _; simp
  | cons b l ih =>
    intro x k h v t hx hv hb hk
    have hf : isFloat dt = true := by simp [isFloat]; omega
    have h0 : (dt == 0) = false := by simp; omega
    have tk : ∀ a, takeElem 2 dt false b a = ((sumJoin false a (sumNative dt (rdLE b 0 (dtSize dt))).1).1,
        (sumNative dt (rdLE b 0 (dtSize dt))).2.add (sumJoin false a (sumNative dt (rdLE b 0 (dtSize dt))).1).2) := by
      intro a; simp [takeElem, hf, h0]
    have az : ∀ t : Tal, t.add Tal.zero = t := by intro t; cases t; rfl
    simp only [List.foldl_cons, List.any_cons, List.map_cons, List.sum_cons, List.length_cons] at *
    simp only [tk]
    rcases sumNative_cases dt (rdLE b 0 (dtSize dt)) h1 h5 with ⟨w, e, ew, bw⟩ | ⟨f, hf, e, ew⟩
    · rw [e, ← ew]
      have hw : (v + w).natAbs ≤ (k + 1) * (2 ^ 288 - 2 ^ 264) := by
        have := Int.natAbs_add_le v w
        rw [Nat.succ_mul]; omega
      have hB : (k + 1) * (2 ^ 288 - 2 ^ 264) ≤ 2 ^ 319 - 2 ^ 295 := by
        calc (k + 1) * (2 ^ 288 - 2 ^ 264) ≤ 2 ^ 31 * (2 ^ 288 - 2 ^ 264) := Nat.mul_le_mul_right _ (by omega)
          _ = _ := by decide +kernel
      rw [sumJoin_fin x h v w hv (le_trans hw hB)]
      rw [az]
      have := ih x (k + 1) true (v + w) (t.add (sumNative dt (rdLE b 0 (dtSize dt))).2) hx (by simp) hw (by omega)
      rw [this]
      have l0 : Nat.lor x (finOf w).fl = x := Nat.or_zero x
      simp [finOf, l0, add_assoc, Accu.reset]
    · rw [e, sumJoin_mark x f h v hx hf, az, ew]
      have hl : Nat.lor x f < 16 := by
        have : f < 16 := by omega
        exact Nat.or_lt_two_pow (n := 4) hx this
      have := ih (Nat.lor x f) k h v (t.add (sumNative dt (rdLE b 0 (dtSize dt))).2) hl hv hb (by omega)
      rw [this]
      have e1 : (markerOf f).fl = f := by rcases hf with rfl | rfl | rfl | rfl <;> rfl
      have e2 : (markerOf f).fin = false := by rcases hf with rfl | rfl | rfl | rfl <;> rfl
      rw [e1, e2]; simp

end Sys2Proof.Machine
end

