-- ==== Sys2Proof/Laws/Bins.lean ====
section
/-! SUPPORT. Laws of the binned sum (R401 to R405): the size of a piece, raising, and what one more operand does to the sum of
those taken before. -/
set_option linter.unusedSimpArgs false
set_option linter.unreachableTactic false
set_option linter.unusedTactic false
namespace Sys2Proof.Machine

/-- Rounding to a multiple of 2^s moves a number by at most half of it. -/
theorem rne_near (a s : Nat) (hs : 0 < s) (n : Nat)
    (h : n = if 2 ^ (s - 1) < a % 2 ^ s ∨ (a % 2 ^ s = 2 ^ (s - 1) ∧ (a >>> s) % 2 = 1) then a >>> s + 1 else a >>> s) :
    n * 2 ^ s ≤ a + 2 ^ (s - 1) ∧ a ≤ n * 2 ^ s + 2 ^ (s - 1) := by
  have e : 2 ^ s = 2 * 2 ^ (s - 1) := by rw [← Nat.pow_succ']; congr 1; omega
  have d := Nat.div_add_mod a (2 ^ s)
  rw [Nat.shiftRight_eq_div_pow] at h
  have lt : a % 2 ^ s < 2 ^ s := Nat.mod_lt _ (by positivity)
  rw [Nat.mul_comm] at d
  split at h
  · subst h; rw [Nat.succ_mul]; omega
  · subst h; omega

/-- Two roundings of one number, to a unit and to 2^40 units, differ by at most 2^39 units. -/
theorem near_small (p : Nat) (n n' : Int) (hpz : (0 : Int) < p) (f1 : n * (2 * p) ≤ (n' * 2 ^ 40 : Int) * (2 * p) + p + p * 2 ^ 40)
    (f2 : (n' * 2 ^ 40 : Int) * (2 * p) ≤ n * (2 * p) + p + p * 2 ^ 40) : (n - n' * (2 ^ 40 : Nat)).natAbs ≤ 2 ^ 39 := by
  generalize hd : n - n' * (2 ^ 40 : Nat) = d
  have e : n = d + n' * 2 ^ 40 := by rw [← hd]; push_cast; ring
  rw [e] at f1 f2
  have g1 : d * 2 ≤ 1 + 2 ^ 40 := by
    by_contra hc
    have := lt_of_not_ge hc
    nlinarith
  have g2 : -(1 + 2 ^ 40) ≤ d * 2 := by
    by_contra hc
    have := lt_of_not_ge hc
    nlinarith
  clear e f1 f2 hd
  norm_num at *
  omega

/-- A piece has a magnitude of at most 2^39 (R403). -/
theorem piece_small (a : Nat) (w : Int) (j : Nat) :
    ((rneUnits a w (binUnit j) : Int) - (rneUnits a w (binUnit (j + 1)) : Int) * (2 ^ 40 : Nat)).natAbs ≤ 2 ^ 39 := by
  have hk : binUnit (j + 1) = binUnit j + 40 := by unfold binUnit; push_cast; ring
  rw [hk]
  generalize binUnit j = k
  unfold rneUnits
  by_cases h1 : k + 40 ≤ w
  · rw [if_pos (by omega), if_pos h1, Nat.shiftLeft_eq, Nat.shiftLeft_eq]
    have e : (w - k).toNat = (w - (k + 40)).toNat + 40 := by omega
    rw [e, Nat.pow_add]
    push_cast
    rw [show ∀ x y : Int, x * (y * 1099511627776) - x * y * 1099511627776 = 0 from fun x y => by ring]
    simp
  · rw [if_neg h1]
    simp only
    have s0 : 0 < (k + 40 - w).toNat := by omega
    have b := rne_near a _ s0 _ rfl
    generalize (if 2 ^ ((k + 40 - w).toNat - 1) < a % 2 ^ (k + 40 - w).toNat ∨ a % 2 ^ (k + 40 - w).toNat = 2 ^ ((k + 40 - w).toNat - 1) ∧
        a >>> (k + 40 - w).toNat % 2 = 1 then a >>> (k + 40 - w).toNat + 1 else a >>> (k + 40 - w).toNat) = n' at *
    by_cases h2 : k ≤ w
    · rw [if_pos h2, Nat.shiftLeft_eq]
      have e1 : 2 ^ 40 = 2 ^ (w - k).toNat * 2 ^ (k + 40 - w).toNat := by rw [← Nat.pow_add]; congr 1; omega
      have e2 : 2 ^ 39 = 2 ^ (w - k).toNat * 2 ^ ((k + 40 - w).toNat - 1) := by rw [← Nat.pow_add]; congr 1; omega
      rw [e1, e2]
      have : ((a * 2 ^ (w - k).toNat : Nat) : Int) - (n' : Int) * ((2 ^ (w - k).toNat * 2 ^ (k + 40 - w).toNat : Nat) : Int)
          = ((2 ^ (w - k).toNat : Nat) : Int) * ((a : Int) - (n' * 2 ^ (k + 40 - w).toNat : Nat)) := by push_cast; ring
      rw [this, Int.natAbs_mul, Int.natAbs_natCast]
      exact Nat.mul_le_mul_left _ (by omega)
    · rw [if_neg h2]
      have s1 : 0 < (k - w).toNat := by omega
      have c := rne_near a _ s1 _ rfl
      generalize (if 2 ^ ((k - w).toNat - 1) < a % 2 ^ (k - w).toNat ∨ a % 2 ^ (k - w).toNat = 2 ^ ((k - w).toNat - 1) ∧
        a >>> (k - w).toNat % 2 = 1 then a >>> (k - w).toNat + 1 else a >>> (k - w).toNat) = n at *
      have e0 : (k + 40 - w).toNat = (k - w).toNat + 40 := by omega
      have e1 : (k + 40 - w).toNat - 1 = ((k - w).toNat - 1) + 40 := by omega
      rw [e0] at b
      rw [show (k - w).toNat + 40 - 1 = ((k - w).toNat - 1) + 40 by omega] at b
      have e2 : 2 ^ (k - w).toNat = 2 * 2 ^ ((k - w).toNat - 1) := by rw [← Nat.pow_succ']; congr 1; omega
      rw [Nat.pow_add, Nat.pow_add, e2] at b
      rw [e2] at c
      have hp : 0 < 2 ^ ((k - w).toNat - 1) := by positivity
      generalize 2 ^ ((k - w).toNat - 1) = p at *
      have f1 : (n : Int) * (2 * p) ≤ (n' * 2 ^ 40 : Int) * (2 * p) + p + p * 2 ^ 40 := by
        have h1 := c.1; have h2 := b.2
        zify at h1 h2
        nlinarith
      have f2 : (n' * 2 ^ 40 : Int) * (2 * p) ≤ (n : Int) * (2 * p) + p + p * 2 ^ 40 := by
        have h1 := c.2; have h2 := b.1
        zify at h1 h2
        nlinarith
      exact near_small p n n' (by exact_mod_cast hp) f1 f2

/-- The accumulator that holds three bins. -/
def binState (t : Nat) (hi mid lo : Int) : Accu :=
  { Accu.reset with fin := true, any := true, top := t, hi := hi, mid := mid, lo := lo }

/-- Bin `j` of a finite operand of top `t`, seen under the top `u` at least `t`: bins count from the top, 0 the highest (R402). -/
def shown (t u : Nat) (b : Nat → Int) (j : Nat) : Int := if j < u - t then 0 else b (j - (u - t))

/-- A list of three bins raised. -/
theorem raise_bins (t u : Nat) (b : Nat → Int) (h : t ≤ u) :
    (binState t (b 0) (b 1) (b 2)).raise u = binState u (shown t u b 0) (shown t u b 1) (shown t u b 2) := by
  unfold Accu.raise binState shown
  simp only
  rcases hd : u - t with _ | _ | _ | n
  · have : u = t := by omega
    subst this; simp
  · simp
  · simp
  · simp only
    rw [if_pos (by omega), if_pos (by omega), if_pos (by omega)]

/-- Piece `j` of a number under its top bin `t`, counted from the top. -/
def pieceOf (neg : Bool) (a : Nat) (w : Int) (t j : Nat) : Int :=
  (if neg then -1 else 1) * ((rneUnits a w (binUnit (t - j)) : Int) - (rneUnits a w (binUnit (t - j + 1)) : Int) * (2 ^ 40 : Nat))

theorem pieceOf_small (neg : Bool) (a : Nat) (w : Int) (t j : Nat) : (pieceOf neg a w t j).natAbs ≤ 2 ^ 39 := by
  unfold pieceOf
  rw [Int.natAbs_mul]
  refine le_trans (le_of_eq ?_) (piece_small a w (t - j))
  cases neg
  · rw [if_neg (by decide), Int.natAbs_one, Nat.one_mul]
  · rw [if_pos rfl, Int.natAbs_neg, Int.natAbs_one, Nat.one_mul]

/-- A finite binary64 enters as three small pieces under its top bin (R403, R404). -/
theorem binsOf_pieces (neg : Bool) (a : Nat) (w : Int) :
    ∃ (t : Nat) (p : Nat → Int), binsOf neg a w = binState t (p 0) (p 1) (p 2) ∧ 2 ≤ t ∧ ∀ j, (p j).natAbs ≤ 2 ^ 39 := by
  unfold binsOf
  by_cases h0 : a = 0
  · exact ⟨2, fun _ => 0, by rw [if_pos h0]; rfl, le_refl _, fun _ => Nat.zero_le _⟩
  · rw [if_neg h0]
    refine ⟨max 2 (((bitLen a : Int) - 1 + w + 1075) / 40).toNat, pieceOf neg a w (max 2 (((bitLen a : Int) - 1 + w + 1075) / 40).toNat), ?_, Nat.le_max_left _ _, pieceOf_small _ _ _ _⟩
    cases neg
    · simp only [pieceOf, binState, Bool.false_eq_true, if_false, Int.one_mul, Nat.sub_zero]
    · simp only [pieceOf, binState, if_true, Nat.sub_zero, Int.neg_mul, Int.one_mul]

/-- A native binary64 operand is three small pieces, or a marker of one flag (R397, R403, R404). -/
theorem sumNative_bins (b : Nat) :
    (∃ (t : Nat) (p : Nat → Int), (sumNative 0 b).1 = binState t (p 0) (p 1) (p 2) ∧ 2 ≤ t ∧ ∀ j, (p j).natAbs ≤ 2 ^ 39)
    ∨ (∃ f, (f = 1 ∨ f = 2 ∨ f = 4 ∨ f = 8) ∧ (sumNative 0 b).1 = markerOf f) := by
  unfold sumNative
  cases (fmt 0).decode b with
  | nan => right; exact ⟨8, by simp, rfl⟩
  | inf neg => right; cases neg <;> simp
  | fin neg a w =>
    by_cases hz : a = 0 ∧ neg = true
    · right; exact ⟨1, by simp, by simp [hz]⟩
    · left
      simp only [if_neg hz, if_true]
      exact binsOf_pieces neg a w

/-- The sum of operands with special flags `x`; `h`: some are finite and not −0, with the bins `p` under the top `t`. -/
def binSum (x : Nat) (h : Bool) (t : Nat) (p : Nat → Int) : Accu :=
  if x / 2 ≠ 0 then markerOf x else if h then binState t (p 0) (p 1) (p 2) else if x = 0 then Accu.reset else markerOf 1

theorem shown_small (t u : Nat) (p : Nat → Int) (B : Nat) (h : ∀ j, (p j).natAbs ≤ B) (j : Nat) : (shown t u p j).natAbs ≤ B := by
  unfold shown
  split
  · exact Nat.zero_le _
  · exact h _

theorem shown_self (t : Nat) (p : Nat → Int) : shown t t p = p := by
  funext j; simp [shown]

theorem shown_shown (t u v : Nat) (p : Nat → Int) (h1 : t ≤ u) (h2 : u ≤ v) : shown u v (shown t u p) = shown t v p := by
  funext j
  unfold shown
  by_cases c : j < v - u
  · rw [if_pos c, if_pos (by omega)]
  · rw [if_neg c]
    by_cases c2 : j - (v - u) < u - t
    · rw [if_pos c2, if_pos (by omega)]
    · rw [if_neg c2, if_neg (by omega)]; congr 1; omega

theorem shown_add (t u : Nat) (p q : Nat → Int) : shown t u (fun j => p j + q j) = fun j => shown t u p j + shown t u q j := by
  funext j; unfold shown; split <;> simp

/-- One more finite operand. -/
theorem binSum_fin (x : Nat) (h : Bool) (t t' : Nat) (p q : Nat → Int) (hv : h = false → t = 2 ∧ p = fun _ => 0) (ht : 2 ≤ t')
    (k : Nat) (hp : ∀ j, (p j).natAbs ≤ k * 2 ^ 39) (hq : ∀ j, (q j).natAbs ≤ 2 ^ 39) (hk : k + 1 ≤ 2 ^ 23) :
    sumJoin true (binSum x h t p) (binState t' (q 0) (q 1) (q 2))
      = (binSum x true (max t t') (fun j => shown t (max t t') p j + shown t' (max t t') q j), Tal.zero) := by
  by_cases h1 : x / 2 = 0
  · cases h
    · obtain ⟨rfl, rfl⟩ := hv rfl
      have : x = 0 ∨ x = 1 := by omega
      have e : max 2 t' = t' := by omega
      have z : ∀ j, shown 2 t' (fun _ => 0) j = 0 := by intro j; simp [shown]
      rcases this with rfl | rfl <;>
        simp [sumJoin, binSum, Accu.reset, binState, markerOf, e, shown_self, z]
    · have e1 : binSum x true t p = binState t (p 0) (p 1) (p 2) := by simp [binSum, h1]
      have e2 : ∀ u b, binSum x true u b = binState u (b 0) (b 1) (b 2) := by intro u b; simp [binSum, h1]
      rw [e1, e2]
      unfold sumJoin
      rw [if_pos ⟨rfl, rfl⟩, if_pos rfl]
      have r1 : (binState t (p 0) (p 1) (p 2)).raise (max (binState t (p 0) (p 1) (p 2)).top (binState t' (q 0) (q 1) (q 2)).top)
          = binState (max t t') (shown t (max t t') p 0) (shown t (max t t') p 1) (shown t (max t t') p 2) :=
        raise_bins t (max t t') p (by omega)
      have r2 : (binState t' (q 0) (q 1) (q 2)).raise (max (binState t (p 0) (p 1) (p 2)).top (binState t' (q 0) (q 1) (q 2)).top)
          = binState (max t t') (shown t' (max t t') q 0) (shown t' (max t t') q 1) (shown t' (max t t') q 2) :=
        raise_bins t' (max t t') q (by omega)
      simp only [r1, r2]
      have b : ∀ j, fits64 (shown t (max t t') p j + shown t' (max t t') q j) = true := by
        intro j
        have a1 := shown_small t (max t t') p _ hp j
        have a2 := shown_small t' (max t t') q _ hq j
        have a3 : k * 2 ^ 39 + 2 ^ 39 ≤ 2 ^ 62 := by
          have := Nat.mul_le_mul_right (2 ^ 39) hk
          rw [Nat.succ_mul] at this
          exact le_trans this (by norm_num)
        have a4 := Int.natAbs_add_le (shown t (max t t') p j) (shown t' (max t t') q j)
        generalize shown t (max t t') p j + shown t' (max t t') q j = y at *
        have a5 : y.natAbs ≤ 2 ^ 62 := by omega
        unfold fits64
        norm_num at a5 ⊢
        omega
      unfold binOf
      have f0 := b 0
      have f1 := b 1
      have f2 := b 2
      rw [if_pos (by simp only [binState]; rw [f0, f1, f2]; rfl)]
      rfl
  · have e : x / 2 * 2 / 2 = x / 2 := by omega
    simp [sumJoin, binSum, h1, markerOf, binState, Accu.reset, e]

/-- One more operand that is a marker. -/
theorem binSum_mark (x f : Nat) (h : Bool) (t : Nat) (p : Nat → Int) (hx : x < 16) (hf : f = 1 ∨ f = 2 ∨ f = 4 ∨ f = 8) :
    sumJoin true (binSum x h t p) (markerOf f) = (binSum (Nat.lor x f) h t p, Tal.zero) := by
  cases h <;> rcases hf with rfl | rfl | rfl | rfl <;> interval_cases x <;>
    simp [sumJoin, binSum, markerOf, binState, Accu.reset] <;> decide

/-- The bins of an accumulator, counted from the top. -/
def binAt (a : Accu) (j : Nat) : Int := match j with
  | 0 => a.hi
  | 1 => a.mid
  | 2 => a.lo
  | _ => 0

theorem le_foldl_max (l : List Bytes) (g : Bytes → Nat) (t : Nat) : t ≤ l.foldl (fun t b => max t (g b)) t := by
  induction l generalizing t with
  | nil => exact le_refl _
  | cons b l ih => exact le_trans (Nat.le_max_left _ _) (ih _)

/-- A whole list of binary64 operands, taken one after the other (R403, R405). -/
theorem bin_fold (l : List Bytes) : ∀ (x k : Nat) (h : Bool) (t : Nat) (p : Nat → Int) (r : Tal), x < 16 →
    (h = false → t = 2 ∧ p = fun _ => 0) → 2 ≤ t → (∀ j, (p j).natAbs ≤ k * 2 ^ 39) → k + l.length ≤ 2 ^ 23 →
    l.foldl (fun r b => ((takeElem 2 0 false b r.1).1, r.2.add (takeElem 2 0 false b r.1).2)) (binSum x h t p, r)
      = (binSum (l.foldl (fun x b => Nat.lor x (sumNative 0 (rdLE b 0 8)).1.fl) x)
          (h || l.any (fun b => (sumNative 0 (rdLE b 0 8)).1.fin))
          (l.foldl (fun t b => max t (sumNative 0 (rdLE b 0 8)).1.top) t)
          (fun j => shown t (l.foldl (fun t b => max t (sumNative 0 (rdLE b 0 8)).1.top) t) p j
            + (l.map (fun b => shown (sumNative 0 (rdLE b 0 8)).1.top
                (l.foldl (fun t b => max t (sumNative 0 (rdLE b 0 8)).1.top) t) (binAt (sumNative 0 (rdLE b 0 8)).1) j)).sum),
         l.foldl (fun t b => t.add (sumNative 0 (rdLE b 0 8)).2) r) := by
  induction l with
  | nil => intro x k h t p r _ _ _ _ _; simp [shown_self]
  | cons b l ih =>
    intro x k h t p r hx hv ht hp hk
    have tk : ∀ a, takeElem 2 0 false b a = ((sumJoin true a (sumNative 0 (rdLE b 0 8)).1).1,
        (sumNative 0 (rdLE b 0 8)).2.add (sumJoin true a (sumNative 0 (rdLE b 0 8)).1).2) := by
      intro a; rfl
    have az : ∀ t : Tal, t.add Tal.zero = t := by intro t; cases t; rfl
    simp only [List.foldl_cons, List.any_cons, List.map_cons, List.sum_cons, List.length_cons, tk] at *
    rcases sumNative_bins (rdLE b 0 8) with ⟨t', q, e, ht', hq⟩ | ⟨f, hf, e⟩
    · rw [e]
      have hq' : ∀ j, (binAt (binState t' (q 0) (q 1) (q 2)) j).natAbs ≤ 2 ^ 39 := by
        intro j
        rcases j with _ | _ | _ | j
        · exact hq 0
        · exact hq 1
        · exact hq 2
        · exact Nat.zero_le _
      have st := binSum_fin x h t t' p (binAt (binState t' (q 0) (q 1) (q 2))) hv ht' k hp hq' (by omega)
      have st' : sumJoin true (binSum x h t p) (binState t' (q 0) (q 1) (q 2)) = _ := st
      rw [st', az]
      have tt : (binState t' (q 0) (q 1) (q 2)).top = t' := rfl
      have tf : (binState t' (q 0) (q 1) (q 2)).fin = true := rfl
      have tl : Nat.lor x (binState t' (q 0) (q 1) (q 2)).fl = x := Nat.or_zero x
      rw [tt, tf, tl]
      have hb : ∀ j, (shown t (max t t') p j + shown t' (max t t') (binAt (binState t' (q 0) (q 1) (q 2))) j).natAbs ≤ (k + 1) * 2 ^ 39 := by
        intro j
        have a1 := shown_small t (max t t') p _ hp j
        have a2 := shown_small t' (max t t') _ _ hq' j
        have a3 := Int.natAbs_add_le (shown t (max t t') p j) (shown t' (max t t') (binAt (binState t' (q 0) (q 1) (q 2))) j)
        rw [Nat.succ_mul]; omega
      have := ih x (k + 1) true (max t t') _ (r.add (sumNative 0 (rdLE b 0 8)).2) hx (by simp) (by omega) hb (by omega)
      rw [this]
      have up := le_foldl_max l (fun b => (sumNative 0 (rdLE b 0 8)).1.top) (max t t')
      simp only [Bool.true_or, Bool.or_true]
      congr 2
      funext j
      rw [shown_add, shown_shown _ _ _ _ (by omega) up, shown_shown _ _ _ _ (by omega) up]
      ring
    · rw [e, binSum_mark x f h t p hx hf, az]
      have hl : Nat.lor x f < 16 := Nat.or_lt_two_pow (n := 4) hx (by omega)
      have := ih (Nat.lor x f) k h t p (r.add (sumNative 0 (rdLE b 0 8)).2) hl hv ht hp (by omega)
      rw [this]
      have e1 : (markerOf f).fl = f := by rcases hf with rfl | rfl | rfl | rfl <;> rfl
      have e2 : (markerOf f).fin = false := by rcases hf with rfl | rfl | rfl | rfl <;> rfl
      have e3 : (markerOf f).top = 2 := by rcases hf with rfl | rfl | rfl | rfl <;> rfl
      have e4 : binAt (markerOf f) = fun _ => 0 := by
        funext j; rcases hf with rfl | rfl | rfl | rfl <;> rcases j with _ | _ | _ | j <;> rfl
      have e5 : max t 2 = t := by omega
      have e6 : ∀ u j, shown 2 u (fun _ => 0) j = 0 := by intro u j; simp [shown]
      rw [e1, e2, e3, e4, e5]; simp [e6]

end Sys2Proof.Machine
end

