-- ==== Sys2Proof/Laws/Bytes.lean ====
section
/-! SUPPORT. Laws of byte strings: a number read where its bytes were put is the number (R5). -/
namespace Sys2Proof.Machine

@[simp] theorem leBytes_length (n v : Nat) : (leBytes n v).length = n := by
  induction n generalizing v with
  | zero => rfl
  | succ n ih => simp [leBytes, ih]

@[simp] theorem zeros_length (n : Nat) : (zeros n).length = n := by simp [zeros]

theorem leNat_leBytes (n v : Nat) : leNat (leBytes n v) = v % 256 ^ n := by
  induction n generalizing v with
  | zero => simp [leBytes, leNat, Nat.mod_one]
  | succ n ih =>
    simp only [leBytes, leNat, ih, toByte, BitVec.toNat_ofNat]
    show v % 256 + 256 * (v / 256 % 256 ^ n) = v % 256 ^ (n + 1)
    rw [show 256 ^ (n + 1) = 256 * 256 ^ n from Nat.pow_succ', Nat.mod_mul]

theorem sub_self_append (a b : Bytes) : sub (a ++ b) 0 a.length = a := by simp [sub]

theorem sub_append_skip (a b : Bytes) (o n : Nat) (h : a.length ≤ o) : sub (a ++ b) o n = sub b (o - a.length) n := by
  simp [sub, List.drop_append, List.drop_eq_nil_of_le h]

/-- A number at the front is read back. -/
theorem rdLE_front (n v : Nat) (b : Bytes) : rdLE (leBytes n v ++ b) 0 n = v % 256 ^ n := by
  have := sub_self_append (leBytes n v) b
  rw [leBytes_length] at this
  rw [rdLE, this, leNat_leBytes]

theorem rdLE_only (n v : Nat) : rdLE (leBytes n v) 0 n = v % 256 ^ n := by
  simpa using rdLE_front n v []

/-- A read behind what stands in front does not see it. -/
theorem rdLE_skip (n v : Nat) (b : Bytes) (o k : Nat) (h : n ≤ o) : rdLE (leBytes n v ++ b) o k = rdLE b (o - n) k := by
  rw [rdLE, sub_append_skip _ _ _ _ (by simpa using h), leBytes_length, rdLE]

theorem rdLE_skip_zeros (n : Nat) (b : Bytes) (o k : Nat) (h : n ≤ o) : rdLE (zeros n ++ b) o k = rdLE b (o - n) k := by
  rw [rdLE, sub_append_skip _ _ _ _ (by simpa using h), zeros_length, rdLE]

theorem rdLE_skip_bytes (a b : Bytes) (o k : Nat) (h : a.length ≤ o) : rdLE (a ++ b) o k = rdLE b (o - a.length) k := by
  rw [rdLE, sub_append_skip _ _ _ _ h, rdLE]

end Sys2Proof.Machine
end

