-- ==== Sys2Proof/Laws/Commands.lean ====
section
/-! SUPPORT. What commands come to: Azrix commands that begin and queue entries that are taken; and laws of interrupts and
clocks. -/
namespace Sys2Proof.Machine

/-- What a command that names nothing of the module answers. -/
theorem act_false {ok : Bool} {s : State} {f : Fuse → Mod → Mod} (h : ok = false) : act ok s f = .refused .noSuchObject := by
  simp [act, h]

/-- What every step of a loop keeps, the loop keeps. -/
theorem each_keeps {α : Type} (p : Mod → α) (f : Nat → Mod → Mod) (h : ∀ i m, p (f i m) = p m) (l : List Nat) (m : Mod) :
    p (each l f m) = p m := by
  induction l generalizing m with
  | nil => rfl
  | cons i l ih => simp only [each, List.foldl_cons]; rw [show List.foldl _ (f i m) l = each l f (f i m) from rfl, ih, h]

/-- An MSI-X message changes no pin. -/
theorem msix_pin (d f v : Nat) (m : Mod) : (msix d f v m).pin = m.pin := by
  simp only [msix]; split <;> (split <;> rfl)

/-- An interrupt changes no pin. -/
theorem interrupt_pin (d u : Nat) (m : Mod) : (interrupt d u m).pin = m.pin := by
  simp only [interrupt]
  split
  · show (each _ _ m).pin = _
    exact each_keeps Mod.pin _ (fun i m => by split <;> simp [msix_pin]) _ m
  · exact each_keeps Mod.pin _ (fun i m => by split <;> simp [msix_pin]) _ m

/-- A fault record changes no pin. -/
theorem raiseInj_pin (i : Bool) (d u s a x : Nat) (fn : Option Nat) (m : Mod) : (raiseInj i d u s a x fn m).pin = m.pin := by
  simp only [raiseInj]
  split <;> split <;> simp only [interrupt_pin, updRec, count] <;> split <;> (try split) <;> rfl

/-- The opcode of the command held is the row's. -/
theorem azOp_held (op : Nat) (iss : Option (Nat × Nat)) (ent : Bytes) (buf : Option Bytes) (h : op < 256) : (azHeld op iss ent buf).op = op := by
  simp [azHeld, AzCmd.op, rdLE, sub, leBytes, leNat, toByte]; omega

/-- FAULT_INJECT exists in the first lifecycle. -/
theorem azRow_inject (m : Mod) (h : m.sec.lifecycle = 0) : azRow 0x63 m = some azInject := by simp [azRow, h]

/-- An Azrix command that begins runs its row's effect (R89, R90): the checks pass one after the other. -/
theorem az_runs {r : AzRow} {iss : Option (Nat × Nat)} {ent : Bytes} {buf : Option Bytes} {s : State} {m : Mod} {t : Result} (op : Nat)
    (h0 : t = act (issuerOk iss && decide (ent.length = 64)) s (fun fz m => azRowTake op fz iss ent buf m))
    (h1 : issuerOk iss = true) (h2 : ent.length = 64) (h3 : azStands op iss s.m = true)
    (h5 : azMalformed (azHeld op iss ent buf) (some r) = false) (h6 : mayIssue r.who (azHeld op iss ent buf) (azCounted (azHeld op iss ent buf) s.m) = true)
    (h7 : bufferOk r (azHeld op iss ent buf) (azCounted (azHeld op iss ent buf) s.m) = (true, m))
    (h8 : azBlocked r { cmd := azHeld op iss ent buf, t0 := now 4 (azCounted (azHeld op iss ent buf) s.m), wait := .wakeAll, mute := false, res0 := 0, res1 := 0 } m.azx.jobs = false)
    (h9 : r.chk s.fuse (azHeld op iss ent buf) m = none) (h10 : (azHeld op iss ent buf).checkOnly = false)
    (h11 : azRow op s.m = some r) (h12 : decide (op < 256) = true) :
    t = .next (finish s (r.run s.fuse { cmd := azHeld op iss ent buf, t0 := now 4 (azCounted (azHeld op iss ent buf) s.m), wait := .wakeAll, mute := false, res0 := 0, res1 := 0 } m)) := by
  subst h0
  simp only [decide_eq_true_eq] at h12
  have ho := azOp_held op iss ent buf h12
  have hrow : ∀ m', m'.sec = s.m.sec → azRow op m' = some r := by
    intro m' e
    unfold azRow at h11 ⊢
    rw [e]; exact h11
  rw [act_true (by simp [h1, h2])]
  congr 2
  have hp : ∀ m', azCounted (azHeld op iss ent buf) s.m = count 4 (64 + op / 16 % 16) 1 (count 4 10 1 m') → m'.sec = s.m.sec →
      azPerform s.fuse { iss := iss, ent := leBytes 2 op ++ (padTo 64 ent).drop 2, buf := buf } m' = r.run s.fuse { cmd := azHeld op iss ent buf, t0 := now 4 (azCounted (azHeld op iss ent buf) s.m), wait := .wakeAll, mute := false, res0 := 0, res1 := 0 } m := by
    intro m' e es
    unfold azPerform
    have hc : ({ ({ iss := iss, ent := leBytes 2 op ++ (padTo 64 ent).drop 2, buf := buf } : AzCmd) with
        buf := (({ iss := iss, ent := leBytes 2 op ++ (padTo 64 ent).drop 2, buf := buf } : AzCmd).buf).map
          (·.take ({ iss := iss, ent := leBytes 2 op ++ (padTo 64 ent).drop 2, buf := buf } : AzCmd).argLen) } : AzCmd) = azHeld op iss ent buf := rfl
    simp only [hc, ho, ← e]
    rw [hrow _ (by rw [e]; exact es)]
    simp only [h5, h6, h7, h8, azApply, h9, h10]
    simp
  unfold azRowTake
  cases iss with
  | none =>
    simp only [azStands, Bool.and_eq_true, Bool.not_eq_true', Bool.or_eq_true] at h3
    obtain ⟨⟨⟨a1, a2⟩, a3⟩, a4⟩ := h3
    have := hp (azFront none s.m) (by simp [azCounted, ho]; rfl) rfl
    have f1 : (azFront none s.m).shep = s.m.shep := rfl
    have f2 : (azFront none s.m).flt = s.m.flt := rfl
    simp only [a1, if_true, mgmtTake, f1, f2, a2, a3]
    rcases a4 with (a4 | a4) | a4
    · simpa [a4] using this
    · simp at a4; subst a4; simpa [AzCmd.op, rdLE, sub, leBytes, leNat, toByte] using this
    · simp at a4; subst a4; simpa [AzCmd.op, rdLE, sub, leBytes, leNat, toByte] using this
  | some p =>
    obtain ⟨d, f⟩ := p
    simp only [azStands] at h3
    simp only [h3, if_true]
    exact hp _ (by simp [azCounted, ho]; rfl) rfl

/-- A table whose values are all mapped. -/
theorem NMap.find_map {α β : Type} (f : α → β) (m : NMap α) (k : Nat) : NMap.find (m.map (fun e => (e.1, f e.2))) k = (NMap.find m k).map f := by
  induction m with
  | nil => rfl
  | cons e m ih => obtain ⟨j, w⟩ := e; simp only [List.map_cons, NMap.find]; split <;> simp [*]

/-- Ticks of all clocks are ticks of each. -/
theorem clock_runTicks (e n : Nat) (m : Mod) : clock e (runTicks n m) = Clock.ticks n (clock e m) := by
  have hk : (runTicks n m).clk = m.clk.map (fun e => (e.1, Clock.ticks n e.2)) := rfl
  unfold clock NMap.get
  rw [hk, NMap.find_map]
  cases NMap.find m.clk e <;> simp [Clock.ticks, Clock.reset]

/-- Time that passes leaves the transport's state and the registers: only clocks, counters and the LIVE writes now due change. -/
theorem keeps_elapse (f : Clock → Clock) (m : Mod) : (elapse f m).trn = m.trn ∧ (elapse f m).regs = m.regs := by
  have h : ∀ i m, (poolWait f i m).trn = m.trn ∧ (poolWait f i m).regs = m.regs := by
    intro i m; simp only [poolWait]; split <;> exact ⟨rfl, rfl⟩
  simp only [elapse]
  exact ⟨each_keeps (fun m => m.trn) _ (fun i m => (h i m).1) dies m, each_keeps (fun m => m.regs) _ (fun i m => (h i m).2) dies m⟩

@[simp] theorem trn_runTo (d t : Nat) (m : Mod) : (runTo d t m).trn = m.trn := (keeps_elapse _ m).1
@[simp] theorem regs_runTo (d t : Nat) (m : Mod) : (runTo d t m).regs = m.regs := (keeps_elapse _ m).2

/-- Ticking a clock until a time brings it there. -/
theorem ticksTo_reaches (c : Clock) (t : Nat) (h : -219902325 ≤ c.trim) : t ≤ (c.count + c.ticksTo t * c.rate) / 2 ^ 40 := by
  have hr : 0 < c.rate := by unfold Clock.rate; omega
  rw [Nat.le_div_iff_mul_le (by norm_num)]
  unfold Clock.ticksTo
  simp only
  split
  · omega
  · rename_i h'
    have h2 := Nat.div_add_mod (t * 2 ^ 40 - c.count + c.rate - 1) c.rate
    have h3 := Nat.mod_lt (t * 2 ^ 40 - c.count + c.rate - 1) hr
    have e := Nat.mul_comm c.rate ((t * 2 ^ 40 - c.count + c.rate - 1) / c.rate)
    have : c.rate * ((t * 2 ^ 40 - c.count + c.rate - 1) / c.rate) ≥ t * 2 ^ 40 - c.count := by omega
    omega

/-- A queue entry that is taken has its effect, and the queue reads ahead (R289). -/
theorem takes_runs {code d q : Nat} {b : Bytes} {s : State} {e : Ent} {m : Mod} (h : Takes code d q b s e m) (run : Ent → Mod → Mod) :
    act (dieOk d && queueOk q) s (fun _ m => when (hostUp d m) (fun m => takeOp code d q run m) m)
      = .next (finish s (entryAfter d q (run e m))) := by
  obtain ⟨h1, h2, h3, h4, h5, h6, rfl, rfl⟩ := h
  simp [act, when, dieOk, queueOk, h1, h2, h3, takeOp, h4, h5, takeEntry, h6, entryAfter]

/-- An entry on an open conduit of its function is not turned away (R287). -/
theorem onConduit_runs {e : Ent} {m : Mod} (h : e.connected m) (rest : Mod → Mod) : e.onConduit none rest m = rest m := by
  obtain ⟨h1, h2, h3⟩ := h
  simp [Ent.onConduit, h1, h2, h3]

end Sys2Proof.Machine
end

