-- ==== Sys2Proof/Laws/PerInstr.lean ====
section
/-! SUPPORT. The family Shape: what a well-formed command names lies within the module, shown command by command. -/
set_option Elab.async false
set_option linter.unusedSimpArgs false
namespace Sys2Proof.Laws.Shape

/-- The dies that a command names, the Shepherd (4) among them. -/
def dies : Instr → List Nat
  | .registerWrite d _ _ _ _ _ => [d]
  | .liveWriteApply d _ => [d]
  | .lowerHalfRead d _ _ => [d]
  | .readClear d _ _ _ => [d]
  | .moduleResetRelease _ _ => []
  | .moduleResetAssert => []
  | .perstAssert d => [d]
  | .perstRelease d => [d]
  | .hostLinkDown link => [link.1]
  | .d2dParityError a b _ => [a, b]
  | .genPublish => []
  | .functionRun d _ => [d]
  | .busMasterEnableClear d _ => [d]
  | .busMasterEnableSet d _ => [d]
  | .drainComplete d _ => [d]
  | .d3hotEntry d _ => [d]
  | .d3hotExit d _ => [d]
  | .flrInitiate d _ => [d]
  | .flrSilence d _ => [d]
  | .flrComplete d _ => [d]
  | .vfEnable d _ _ => [d]
  | .vfDisable d _ => [d]
  | .bar4Resize d _ _ => [d]
  | .hostCompletionReceived d _ _ _ => [d]
  | .completionTimeout d _ => [d]
  | .tagQuarantineExpiry d _ => [d]
  | .generalTagGrant d => [d]
  | .msixTableWrite d _ _ _ _ _ => [d]
  | .msixPendingSend d _ _ => [d]
  | .coreWatchdogExpiry _ => []
  | .azxCmdTailWrite d _ _ => [d]
  | .azxCommandTake _ => []
  | .azxEnable d _ => [d]
  | .azxDisable d _ => [d]
  | .mctpCommandReceived _ _ => []
  | .queryState iss _ _ => (iss.map Prod.fst).toList
  | .pastureCreate iss _ _ => (iss.map Prod.fst).toList
  | .pastureDestroy iss _ _ => (iss.map Prod.fst).toList
  | .pastureKeyLoad iss _ _ => (iss.map Prod.fst).toList
  | .pathLoad iss _ _ => (iss.map Prod.fst).toList
  | .passSetLoad iss _ _ => (iss.map Prod.fst).toList
  | .flockLoad iss _ _ => (iss.map Prod.fst).toList
  | .calLoad iss _ _ => (iss.map Prod.fst).toList
  | .calSwitch iss _ _ => (iss.map Prod.fst).toList
  | .resConfirm iss _ _ => (iss.map Prod.fst).toList
  | .resWithdraw iss _ _ => (iss.map Prod.fst).toList
  | .drvProgLoad iss _ _ => (iss.map Prod.fst).toList
  | .drvProgUnload iss _ _ => (iss.map Prod.fst).toList
  | .budgetSet iss _ _ => (iss.map Prod.fst).toList
  | .faultLogRead iss _ _ => (iss.map Prod.fst).toList
  | .bufPartition iss _ _ => (iss.map Prod.fst).toList
  | .poolAlloc iss _ _ => (iss.map Prod.fst).toList
  | .poolFree iss _ _ => (iss.map Prod.fst).toList
  | .dieFence iss _ _ => (iss.map Prod.fst).toList
  | .dieRestore iss _ _ => (iss.map Prod.fst).toList
  | .dieTestComplete d _ _ => [d]
  | .dieActivate iss _ _ => (iss.map Prod.fst).toList
  | .returnProcedure d => [d]
  | .returnTimeout d => [d]
  | .tablePushAck d _ => [d]
  | .timeRole iss _ _ => (iss.map Prod.fst).toList
  | .timeOfDay iss _ _ => (iss.map Prod.fst).toList
  | .dieSleep iss _ _ => (iss.map Prod.fst).toList
  | .dieSleepDrainEnd d => [d]
  | .dieWake iss _ _ => (iss.map Prod.fst).toList
  | .moduleStandby iss _ _ => (iss.map Prod.fst).toList
  | .moduleResume iss _ _ => (iss.map Prod.fst).toList
  | .moduleShutdown iss _ _ => (iss.map Prod.fst).toList
  | .faultClear iss _ _ => (iss.map Prod.fst).toList
  | .faultReactSet iss _ _ => (iss.map Prod.fst).toList
  | .faultInject iss _ _ => (iss.map Prod.fst).toList
  | .unitRestore iss _ _ => (iss.map Prod.fst).toList
  | .secCommit iss _ _ => (iss.map Prod.fst).toList
  | .debugNonce iss _ _ => (iss.map Prod.fst).toList
  | .debugUnlock iss _ _ => (iss.map Prod.fst).toList
  | .debugLock iss _ _ => (iss.map Prod.fst).toList
  | .lifecycleAdvance iss _ _ => (iss.map Prod.fst).toList
  | .ownerKeySet iss _ _ => (iss.map Prod.fst).toList
  | .shepCntRead iss _ _ => (iss.map Prod.fst).toList
  | .cycleBoundary d => [d]
  | .frameBoundary d _ _ _ => [d]
  | .slotBoundary d => [d]
  | .servoInterval d => [d]
  | .alarmFire d _ => [d]
  | .timeMessageReceive d _ _ _ => [d]
  | .ppsEdge _ => []
  | .ppsTimeout => []
  | .ppsOutRise => []
  | .ppsOutFall => []
  | .laneBlockSend _ => []
  | .laneBlockReceive _ _ => []
  | .quadEnable d _ => [d]
  | .signalDetect _ => []
  | .calibrationComplete _ _ => []
  | .alignTimeout _ => []
  | .exchangeTimeout _ => []
  | .trainingMessageReceive _ _ _ _ => []
  | .loopbackComplete _ _ _ _ _ => []
  | .portRetrain _ => []
  | .retrainRequestTimeout _ => []
  | .laneIdleQuiet _ => []
  | .lane0IdleQuiet _ => []
  | .laneSleepTimer _ _ _ => []
  | .laneWake _ => []
  | .laneJoin _ => []
  | .flitSend _ => []
  | .flitReceive _ _ => []
  | .replayTimeout _ => []
  | .handshakeSend _ => []
  | .linkEnable _ => []
  | .linkDisable _ => []
  | .linkFlush _ => []
  | .packetRoute _ _ => []
  | .flockReplicate _ _ => []
  | .flockDieCopy e d _ => [e, d]
  | .packetInject d _ _ => [d]
  | .pathRecordFetch d _ => [d]
  | .calendarSwitchFrame d => [d]
  | .timedRelease d _ => [d]
  | .transportPacketArrive d _ => [d]
  | .ackReceive d _ => [d]
  | .conduitFetchComplete d _ _ => [d]
  | .retryTimeout d _ _ => [d]
  | .notReadyRetry d _ _ _ => [d]
  | .gatePoolRefill d _ => [d]
  | .trackerIdleTimeout d _ => [d]
  | .closeSend d _ => [d]
  | .oldKeyExpiry d _ => [d]
  | .conduitFnEnable d _ _ => [d]
  | .sqDoorbell d _ _ => [d]
  | .descriptorFetchComplete d _ _ _ => [d]
  | .groupTurn d _ _ => [d]
  | .nop d _ => [d]
  | .put d _ _ => [d]
  | .get d _ _ => [d]
  | .send d _ _ => [d]
  | .add32 d _ _ => [d]
  | .add64 d _ _ => [d]
  | .fetchAdd32 d _ _ => [d]
  | .fetchAdd64 d _ _ => [d]
  | .cas32 d _ _ => [d]
  | .cas64 d _ _ => [d]
  | .cas128 d _ _ => [d]
  | .lockAcquire d _ => [d]
  | .lockTry d _ => [d]
  | .lockRelease d _ => [d]
  | .recvPost d _ _ => [d]
  | .collStart d _ _ => [d]
  | .conduitOpen d _ => [d]
  | .conduitClose d _ => [d]
  | .fmSend d _ => [d]
  | .sqInvalidate d _ _ _ => [d]
  | .crArm d _ => [d]
  | .queueEnable d _ _ => [d]
  | .queueDisable d _ _ => [d]
  | .queueReset d _ _ => [d]
  | .queueDrainComplete d _ => [d]
  | .eventRingEnable d _ => [d]
  | .eventRingHeadWrite d _ _ => [d]
  | .getResponseSegment d _ _ => [d]
  | .flitBufferGrant d _ => [d]
  | .lockProbeTimer d _ => [d]
  | .slotAcquire d _ => [d]
  | .slotRelease d _ => [d]
  | .slotWaitRead d _ => [d]
  | .slotWaitTimeout d _ => [d]
  | .eagerCopyComplete _ _ => []
  | .rendezvousGetComplete _ => []
  | .matchBind d _ => [d]
  | .domainResume d _ => [d]
  | .domainDisable d _ => [d]
  | .overflowRingHeadWrite d _ _ => [d]
  | .chunkAdmit d _ _ => [d]
  | .droverTimeWaitEnd d _ _ => [d]
  | .collPacketReceive d => [d]
  | .collOutputSend d _ _ _ _ => [d]
  | .creditSend d _ _ => [d]
  | .stepTimeout d _ _ => [d]
  | .droverProgramReset d _ => [d]
  | .translationWalk d _ _ _ _ _ _ _ => [d]
  | .xltInvalidate d _ => [d]
  | .invalidateDone d _ => [d]
  | .xltLock d _ _ => [d]
  | .contextDisable d _ => [d]
  | .regionLock d _ => [d]
  | .bar4Request d _ _ _ _ _ _ _ => [d]
  | .windowCommit d _ => [d]
  | .peerReadTimeout d _ => [d]
  | .pwlogRearm d => [d]
  | .mirrorPoll d _ => [d]
  | .actionEntryApply d => [d]
  | .gainTrim _ => []
  | .faultDetected d _ _ _ _ _ => [d]
  | .faultRecordClear d _ => [d]
  | .errorPairReadback _ _ => []
  | .sliceComplete d _ _ _ => [d]
  | .sliceAbort d _ => [d]
  | .getVersion _ => []
  | .getCapabilities _ _ => []
  | .negotiateAlgorithms _ _ => []
  | .getDigests _ => []
  | .getCertificate _ _ _ _ => []
  | .challenge _ _ => []
  | .getMeasurements _ _ => []
  | .keyExchange _ _ => []
  | .finish _ _ _ => []
  | .keyUpdate _ _ => []
  | .heartbeat _ _ => []
  | .endSession _ _ => []
  | .setCertificate _ _ _ => []
  | .ideKmRequest d _ _ _ => [d]
  | .ideIntegrityFail d _ => [d]
  | .extest _ => []
  | .samplePreload _ => []
  | .idcode => []
  | .debugAuth _ _ => []
  | .bypass => []
  | .observeAccess _ => []
  | .invasiveAccess _ => []
  | .scanSelect _ => []
  | .counterRead d _ _ => [d]
  | .counterWrap d _ => [d]
  | .samplerEnable d _ => [d]
  | .hostLinkUp link _ _ => [link.1]
  | .etlNowNsRead d _ => [d]
  | .localInputReadComplete d _ _ _ => [d]
  | .faultCauseEnd d _ _ => [d]
  | .group4SupplyChange _ => []
  | .bootSelfTestComplete d _ _ _ _ => [d]
  | .shutdownTestComplete _ => []
  | .unitTestComplete d _ _ => [d]
  | .boardFlashWrite _ => []

/-- A well-formed command names dies of the module only. -/
def Statement (i : Instr) : Prop := i.wf = true → ∀ d ∈ dies i, d < 5

/-- A command of an issuer names the issuer's die. -/
theorem issuer {iss : Option (Nat × Nat)} {b : Bool} (h : (issuerOk iss && b) = true) : ∀ d ∈ (iss.map Prod.fst).toList, d < 5 := by
  cases iss with
  | none => simp
  | some p => simp [issuerOk, dieOk] at h ⊢; omega

theorem registerWrite (d f off size val : Nat) (ans : HostAns) : Statement (.registerWrite d f off size val ans) := by
  simp [Statement, Instr.wf, dies, dieOk, holderOk] <;> omega

theorem liveWriteApply (d : Nat) (ans : HostAns) : Statement (.liveWriteApply d ans) := by
  simp [Statement, Instr.wf, dies, dieOk, holderOk] <;> omega

theorem lowerHalfRead (d f off : Nat) : Statement (.lowerHalfRead d f off) := by
  simp [Statement, Instr.wf, dies, dieOk, holderOk] <;> omega

theorem readClear (d f off size : Nat) : Statement (.readClear d f off size) := by
  simp [Statement, Instr.wf, dies, dieOk, holderOk] <;> omega

theorem moduleResetRelease (eids : List Nat) (strap : Nat) : Statement (.moduleResetRelease eids strap) := by
  simp [Statement, Instr.wf, dies, dieOk, holderOk] <;> omega

theorem moduleResetAssert : Statement (.moduleResetAssert) := by
  simp [Statement, Instr.wf, dies, dieOk, holderOk] <;> omega

theorem perstAssert (d : Nat) : Statement (.perstAssert d) := by
  simp [Statement, Instr.wf, dies, dieOk, holderOk] <;> omega

theorem perstRelease (d : Nat) : Statement (.perstRelease d) := by
  simp [Statement, Instr.wf, dies, dieOk, holderOk] <;> omega

theorem hostLinkDown (link : Nat × Nat) : Statement (.hostLinkDown link) := by
  simp [Statement, Instr.wf, dies, dieOk, holderOk] <;> omega

theorem d2dParityError (a b lane : Nat) : Statement (.d2dParityError a b lane) := by
  simp [Statement, Instr.wf, dies, dieOk, holderOk] <;> omega

theorem genPublish : Statement (.genPublish) := by
  simp [Statement, Instr.wf, dies, dieOk, holderOk] <;> omega

theorem functionRun (d f : Nat) : Statement (.functionRun d f) := by
  simp [Statement, Instr.wf, dies, dieOk, holderOk] <;> omega

theorem busMasterEnableClear (d f : Nat) : Statement (.busMasterEnableClear d f) := by
  simp [Statement, Instr.wf, dies, dieOk, holderOk] <;> omega

theorem busMasterEnableSet (d f : Nat) : Statement (.busMasterEnableSet d f) := by
  simp [Statement, Instr.wf, dies, dieOk, holderOk] <;> omega

theorem drainComplete (d f : Nat) : Statement (.drainComplete d f) := by
  simp [Statement, Instr.wf, dies, dieOk, holderOk] <;> omega

theorem d3hotEntry (d f : Nat) : Statement (.d3hotEntry d f) := by
  simp [Statement, Instr.wf, dies, dieOk, holderOk] <;> omega

theorem d3hotExit (d f : Nat) : Statement (.d3hotExit d f) := by
  simp [Statement, Instr.wf, dies, dieOk, holderOk] <;> omega

theorem flrInitiate (d f : Nat) : Statement (.flrInitiate d f) := by
  simp [Statement, Instr.wf, dies, dieOk, holderOk] <;> omega

theorem flrSilence (d f : Nat) : Statement (.flrSilence d f) := by
  simp [Statement, Instr.wf, dies, dieOk, holderOk] <;> omega

theorem flrComplete (d f : Nat) : Statement (.flrComplete d f) := by
  simp [Statement, Instr.wf, dies, dieOk, holderOk] <;> omega

theorem vfEnable (d pf n : Nat) : Statement (.vfEnable d pf n) := by
  simp [Statement, Instr.wf, dies, dieOk, holderOk] <;> omega

theorem vfDisable (d pf : Nat) : Statement (.vfDisable d pf) := by
  simp [Statement, Instr.wf, dies, dieOk, holderOk] <;> omega

theorem bar4Resize (d pf log2 : Nat) : Statement (.bar4Resize d pf log2) := by
  simp [Statement, Instr.wf, dies, dieOk, holderOk] <;> omega

theorem hostCompletionReceived (d tag status : Nat) (data : Bytes) : Statement (.hostCompletionReceived d tag status data) := by
  simp [Statement, Instr.wf, dies, dieOk, holderOk] <;> omega

theorem completionTimeout (d tag : Nat) : Statement (.completionTimeout d tag) := by
  simp [Statement, Instr.wf, dies, dieOk, holderOk] <;> omega

theorem tagQuarantineExpiry (d tag : Nat) : Statement (.tagQuarantineExpiry d tag) := by
  simp [Statement, Instr.wf, dies, dieOk, holderOk] <;> omega

theorem generalTagGrant (d : Nat) : Statement (.generalTagGrant d) := by
  simp [Statement, Instr.wf, dies, dieOk, holderOk] <;> omega

theorem msixTableWrite (d f vec addr data : Nat) (masked : Bool) : Statement (.msixTableWrite d f vec addr data masked) := by
  simp [Statement, Instr.wf, dies, dieOk, holderOk] <;> omega

theorem msixPendingSend (d f vec : Nat) : Statement (.msixPendingSend d f vec) := by
  simp [Statement, Instr.wf, dies, dieOk, holderOk] <;> omega

theorem coreWatchdogExpiry (core : Nat) : Statement (.coreWatchdogExpiry core) := by
  simp [Statement, Instr.wf, dies, dieOk, holderOk] <;> omega

theorem azxCmdTailWrite (d f i : Nat) : Statement (.azxCmdTailWrite d f i) := by
  simp [Statement, Instr.wf, dies, dieOk, holderOk] <;> omega

theorem azxCommandTake (ans : HostAns) : Statement (.azxCommandTake ans) := by
  simp [Statement, Instr.wf, dies, dieOk, holderOk] <;> omega

theorem azxEnable (d f : Nat) : Statement (.azxEnable d f) := by
  simp [Statement, Instr.wf, dies, dieOk, holderOk] <;> omega

theorem azxDisable (d f : Nat) : Statement (.azxDisable d f) := by
  simp [Statement, Instr.wf, dies, dieOk, holderOk] <;> omega

theorem mctpCommandReceived (ent : Bytes) (buf : Option Bytes) : Statement (.mctpCommandReceived ent buf) := by
  simp [Statement, Instr.wf, dies, dieOk, holderOk] <;> omega

theorem queryState (iss : Option (Nat × Nat)) (ent : Bytes) (buf : Option Bytes) : Statement (.queryState iss ent buf) := by
  exact issuer

theorem pastureCreate (iss : Option (Nat × Nat)) (ent : Bytes) (buf : Option Bytes) : Statement (.pastureCreate iss ent buf) := by
  exact issuer

theorem pastureDestroy (iss : Option (Nat × Nat)) (ent : Bytes) (buf : Option Bytes) : Statement (.pastureDestroy iss ent buf) := by
  exact issuer

theorem pastureKeyLoad (iss : Option (Nat × Nat)) (ent : Bytes) (buf : Option Bytes) : Statement (.pastureKeyLoad iss ent buf) := by
  exact issuer

theorem pathLoad (iss : Option (Nat × Nat)) (ent : Bytes) (buf : Option Bytes) : Statement (.pathLoad iss ent buf) := by
  exact issuer

theorem passSetLoad (iss : Option (Nat × Nat)) (ent : Bytes) (buf : Option Bytes) : Statement (.passSetLoad iss ent buf) := by
  exact issuer

theorem flockLoad (iss : Option (Nat × Nat)) (ent : Bytes) (buf : Option Bytes) : Statement (.flockLoad iss ent buf) := by
  exact issuer

theorem calLoad (iss : Option (Nat × Nat)) (ent : Bytes) (buf : Option Bytes) : Statement (.calLoad iss ent buf) := by
  exact issuer

theorem calSwitch (iss : Option (Nat × Nat)) (ent : Bytes) (buf : Option Bytes) : Statement (.calSwitch iss ent buf) := by
  exact issuer

theorem resConfirm (iss : Option (Nat × Nat)) (ent : Bytes) (buf : Option Bytes) : Statement (.resConfirm iss ent buf) := by
  exact issuer

theorem resWithdraw (iss : Option (Nat × Nat)) (ent : Bytes) (buf : Option Bytes) : Statement (.resWithdraw iss ent buf) := by
  exact issuer

theorem drvProgLoad (iss : Option (Nat × Nat)) (ent : Bytes) (buf : Option Bytes) : Statement (.drvProgLoad iss ent buf) := by
  exact issuer

theorem drvProgUnload (iss : Option (Nat × Nat)) (ent : Bytes) (buf : Option Bytes) : Statement (.drvProgUnload iss ent buf) := by
  exact issuer

theorem budgetSet (iss : Option (Nat × Nat)) (ent : Bytes) (buf : Option Bytes) : Statement (.budgetSet iss ent buf) := by
  exact issuer

theorem faultLogRead (iss : Option (Nat × Nat)) (ent : Bytes) (buf : Option Bytes) : Statement (.faultLogRead iss ent buf) := by
  exact issuer

theorem bufPartition (iss : Option (Nat × Nat)) (ent : Bytes) (buf : Option Bytes) : Statement (.bufPartition iss ent buf) := by
  exact issuer

theorem poolAlloc (iss : Option (Nat × Nat)) (ent : Bytes) (buf : Option Bytes) : Statement (.poolAlloc iss ent buf) := by
  exact issuer

theorem poolFree (iss : Option (Nat × Nat)) (ent : Bytes) (buf : Option Bytes) : Statement (.poolFree iss ent buf) := by
  exact issuer

theorem dieFence (iss : Option (Nat × Nat)) (ent : Bytes) (buf : Option Bytes) : Statement (.dieFence iss ent buf) := by
  exact issuer

theorem dieRestore (iss : Option (Nat × Nat)) (ent : Bytes) (buf : Option Bytes) : Statement (.dieRestore iss ent buf) := by
  exact issuer

theorem dieTestComplete (d links : Nat) (pass : Bool) : Statement (.dieTestComplete d links pass) := by
  simp [Statement, Instr.wf, dies, dieOk, holderOk] <;> omega

theorem dieActivate (iss : Option (Nat × Nat)) (ent : Bytes) (buf : Option Bytes) : Statement (.dieActivate iss ent buf) := by
  exact issuer

theorem returnProcedure (d : Nat) : Statement (.returnProcedure d) := by
  simp [Statement, Instr.wf, dies, dieOk, holderOk] <;> omega

theorem returnTimeout (d : Nat) : Statement (.returnTimeout d) := by
  simp [Statement, Instr.wf, dies, dieOk, holderOk] <;> omega

theorem tablePushAck (d t : Nat) : Statement (.tablePushAck d t) := by
  simp [Statement, Instr.wf, dies, dieOk, holderOk] <;> omega

theorem timeRole (iss : Option (Nat × Nat)) (ent : Bytes) (buf : Option Bytes) : Statement (.timeRole iss ent buf) := by
  exact issuer

theorem timeOfDay (iss : Option (Nat × Nat)) (ent : Bytes) (buf : Option Bytes) : Statement (.timeOfDay iss ent buf) := by
  exact issuer

theorem dieSleep (iss : Option (Nat × Nat)) (ent : Bytes) (buf : Option Bytes) : Statement (.dieSleep iss ent buf) := by
  exact issuer

theorem dieSleepDrainEnd (d : Nat) : Statement (.dieSleepDrainEnd d) := by
  simp [Statement, Instr.wf, dies, dieOk, holderOk] <;> omega

theorem dieWake (iss : Option (Nat × Nat)) (ent : Bytes) (buf : Option Bytes) : Statement (.dieWake iss ent buf) := by
  exact issuer

theorem moduleStandby (iss : Option (Nat × Nat)) (ent : Bytes) (buf : Option Bytes) : Statement (.moduleStandby iss ent buf) := by
  exact issuer

theorem moduleResume (iss : Option (Nat × Nat)) (ent : Bytes) (buf : Option Bytes) : Statement (.moduleResume iss ent buf) := by
  exact issuer

theorem moduleShutdown (iss : Option (Nat × Nat)) (ent : Bytes) (buf : Option Bytes) : Statement (.moduleShutdown iss ent buf) := by
  exact issuer

theorem faultClear (iss : Option (Nat × Nat)) (ent : Bytes) (buf : Option Bytes) : Statement (.faultClear iss ent buf) := by
  exact issuer

theorem faultReactSet (iss : Option (Nat × Nat)) (ent : Bytes) (buf : Option Bytes) : Statement (.faultReactSet iss ent buf) := by
  exact issuer

theorem faultInject (iss : Option (Nat × Nat)) (ent : Bytes) (buf : Option Bytes) : Statement (.faultInject iss ent buf) := by
  exact issuer

theorem unitRestore (iss : Option (Nat × Nat)) (ent : Bytes) (buf : Option Bytes) : Statement (.unitRestore iss ent buf) := by
  exact issuer

theorem secCommit (iss : Option (Nat × Nat)) (ent : Bytes) (buf : Option Bytes) : Statement (.secCommit iss ent buf) := by
  exact issuer

theorem debugNonce (iss : Option (Nat × Nat)) (ent : Bytes) (buf : Option Bytes) : Statement (.debugNonce iss ent buf) := by
  exact issuer

theorem debugUnlock (iss : Option (Nat × Nat)) (ent : Bytes) (buf : Option Bytes) : Statement (.debugUnlock iss ent buf) := by
  exact issuer

theorem debugLock (iss : Option (Nat × Nat)) (ent : Bytes) (buf : Option Bytes) : Statement (.debugLock iss ent buf) := by
  exact issuer

theorem lifecycleAdvance (iss : Option (Nat × Nat)) (ent : Bytes) (buf : Option Bytes) : Statement (.lifecycleAdvance iss ent buf) := by
  exact issuer

theorem ownerKeySet (iss : Option (Nat × Nat)) (ent : Bytes) (buf : Option Bytes) : Statement (.ownerKeySet iss ent buf) := by
  exact issuer

theorem shepCntRead (iss : Option (Nat × Nat)) (ent : Bytes) (buf : Option Bytes) : Statement (.shepCntRead iss ent buf) := by
  exact issuer

theorem cycleBoundary (d : Nat) : Statement (.cycleBoundary d) := by
  simp [Statement, Instr.wf, dies, dieOk, holderOk] <;> omega

theorem frameBoundary (d volt : Nat) (temp : Int) (nominal : Bool) : Statement (.frameBoundary d volt temp nominal) := by
  simp [Statement, Instr.wf, dies, dieOk, holderOk] <;> omega

theorem slotBoundary (d : Nat) : Statement (.slotBoundary d) := by
  simp [Statement, Instr.wf, dies, dieOk, holderOk] <;> omega

theorem servoInterval (d : Nat) : Statement (.servoInterval d) := by
  simp [Statement, Instr.wf, dies, dieOk, holderOk] <;> omega

theorem alarmFire (d k : Nat) : Statement (.alarmFire d k) := by
  simp [Statement, Instr.wf, dies, dieOk, holderOk] <;> omega

theorem timeMessageReceive (d p stamp : Nat) (b : Bytes) : Statement (.timeMessageReceive d p stamp b) := by
  simp [Statement, Instr.wf, dies, dieOk, holderOk] <;> omega

theorem ppsEdge (stamp : Nat) : Statement (.ppsEdge stamp) := by
  simp [Statement, Instr.wf, dies, dieOk, holderOk] <;> omega

theorem ppsTimeout : Statement (.ppsTimeout) := by
  simp [Statement, Instr.wf, dies, dieOk, holderOk] <;> omega

theorem ppsOutRise : Statement (.ppsOutRise) := by
  simp [Statement, Instr.wf, dies, dieOk, holderOk] <;> omega

theorem ppsOutFall : Statement (.ppsOutFall) := by
  simp [Statement, Instr.wf, dies, dieOk, holderOk] <;> omega

theorem laneBlockSend (pc : Nat) : Statement (.laneBlockSend pc) := by
  simp [Statement, Instr.wf, dies, dieOk, holderOk] <;> omega

theorem laneBlockReceive (pc : Nat) (blocks : List (Nat × List Nat)) : Statement (.laneBlockReceive pc blocks) := by
  simp [Statement, Instr.wf, dies, dieOk, holderOk] <;> omega

theorem quadEnable (d q : Nat) : Statement (.quadEnable d q) := by
  simp [Statement, Instr.wf, dies, dieOk, holderOk] <;> omega

theorem signalDetect (pc : Nat) : Statement (.signalDetect pc) := by
  simp [Statement, Instr.wf, dies, dieOk, holderOk] <;> omega

theorem calibrationComplete (pc : Nat) (found : List (Nat × Nat)) : Statement (.calibrationComplete pc found) := by
  simp [Statement, Instr.wf, dies, dieOk, holderOk] <;> omega

theorem alignTimeout (pc : Nat) : Statement (.alignTimeout pc) := by
  simp [Statement, Instr.wf, dies, dieOk, holderOk] <;> omega

theorem exchangeTimeout (pc : Nat) : Statement (.exchangeTimeout pc) := by
  simp [Statement, Instr.wf, dies, dieOk, holderOk] <;> omega

theorem trainingMessageReceive (pc lane id : Nat) (msg : Bytes) : Statement (.trainingMessageReceive pc lane id msg) := by
  simp [Statement, Instr.wf, dies, dieOk, holderOk] <;> omega

theorem loopbackComplete (pc lp txpd rxpd : Nat) (lbd : Nat × Nat) : Statement (.loopbackComplete pc lp txpd rxpd lbd) := by
  simp [Statement, Instr.wf, dies, dieOk, holderOk] <;> omega

theorem portRetrain (pc : Nat) : Statement (.portRetrain pc) := by
  simp [Statement, Instr.wf, dies, dieOk, holderOk] <;> omega

theorem retrainRequestTimeout (pc : Nat) : Statement (.retrainRequestTimeout pc) := by
  simp [Statement, Instr.wf, dies, dieOk, holderOk] <;> omega

theorem laneIdleQuiet (pc : Nat) : Statement (.laneIdleQuiet pc) := by
  simp [Statement, Instr.wf, dies, dieOk, holderOk] <;> omega

theorem lane0IdleQuiet (pc : Nat) : Statement (.lane0IdleQuiet pc) := by
  simp [Statement, Instr.wf, dies, dieOk, holderOk] <;> omega

theorem laneSleepTimer (pc lane dir : Nat) : Statement (.laneSleepTimer pc lane dir) := by
  simp [Statement, Instr.wf, dies, dieOk, holderOk] <;> omega

theorem laneWake (pc : Nat) : Statement (.laneWake pc) := by
  simp [Statement, Instr.wf, dies, dieOk, holderOk] <;> omega

theorem laneJoin (pc : Nat) : Statement (.laneJoin pc) := by
  simp [Statement, Instr.wf, dies, dieOk, holderOk] <;> omega

theorem flitSend (pc : Nat) : Statement (.flitSend pc) := by
  simp [Statement, Instr.wf, dies, dieOk, holderOk] <;> omega

theorem flitReceive (pc : Nat) (b : Bytes) : Statement (.flitReceive pc b) := by
  simp [Statement, Instr.wf, dies, dieOk, holderOk] <;> omega

theorem replayTimeout (pc : Nat) : Statement (.replayTimeout pc) := by
  simp [Statement, Instr.wf, dies, dieOk, holderOk] <;> omega

theorem handshakeSend (pc : Nat) : Statement (.handshakeSend pc) := by
  simp [Statement, Instr.wf, dies, dieOk, holderOk] <;> omega

theorem linkEnable (pc : Nat) : Statement (.linkEnable pc) := by
  simp [Statement, Instr.wf, dies, dieOk, holderOk] <;> omega

theorem linkDisable (pc : Nat) : Statement (.linkDisable pc) := by
  simp [Statement, Instr.wf, dies, dieOk, holderOk] <;> omega

theorem linkFlush (pc : Nat) : Statement (.linkFlush pc) := by
  simp [Statement, Instr.wf, dies, dieOk, holderOk] <;> omega

theorem packetRoute (src vc : Nat) : Statement (.packetRoute src vc) := by
  simp [Statement, Instr.wf, dies, dieOk, holderOk] <;> omega

theorem flockReplicate (src vc : Nat) : Statement (.flockReplicate src vc) := by
  simp [Statement, Instr.wf, dies, dieOk, holderOk] <;> omega

theorem flockDieCopy (e d vc : Nat) : Statement (.flockDieCopy e d vc) := by
  simp [Statement, Instr.wf, dies, dieOk, holderOk] <;> omega

theorem packetInject (d cn : Nat) (ans : HostAns) : Statement (.packetInject d cn ans) := by
  simp [Statement, Instr.wf, dies, dieOk, holderOk] <;> omega

theorem pathRecordFetch (d e : Nat) : Statement (.pathRecordFetch d e) := by
  simp [Statement, Instr.wf, dies, dieOk, holderOk] <;> omega

theorem calendarSwitchFrame (d : Nat) : Statement (.calendarSwitchFrame d) := by
  simp [Statement, Instr.wf, dies, dieOk, holderOk] <;> omega

theorem timedRelease (d r : Nat) : Statement (.timedRelease d r) := by
  simp [Statement, Instr.wf, dies, dieOk, holderOk] <;> omega

theorem transportPacketArrive (d : Nat) (ans : HostAns) : Statement (.transportPacketArrive d ans) := by
  simp [Statement, Instr.wf, dies, dieOk, holderOk] <;> omega

theorem ackReceive (d : Nat) (ans : HostAns) : Statement (.ackReceive d ans) := by
  simp [Statement, Instr.wf, dies, dieOk, holderOk] <;> omega

theorem conduitFetchComplete (d cn : Nat) (ans : HostAns) : Statement (.conduitFetchComplete d cn ans) := by
  simp [Statement, Instr.wf, dies, dieOk, holderOk] <;> omega

theorem retryTimeout (d cn : Nat) (ans : HostAns) : Statement (.retryTimeout d cn ans) := by
  simp [Statement, Instr.wf, dies, dieOk, holderOk] <;> omega

theorem notReadyRetry (d cn psn : Nat) (ans : HostAns) : Statement (.notReadyRetry d cn psn ans) := by
  simp [Statement, Instr.wf, dies, dieOk, holderOk] <;> omega

theorem gatePoolRefill (d f : Nat) : Statement (.gatePoolRefill d f) := by
  simp [Statement, Instr.wf, dies, dieOk, holderOk] <;> omega

theorem trackerIdleTimeout (d k : Nat) : Statement (.trackerIdleTimeout d k) := by
  simp [Statement, Instr.wf, dies, dieOk, holderOk] <;> omega

theorem closeSend (d cn : Nat) : Statement (.closeSend d cn) := by
  simp [Statement, Instr.wf, dies, dieOk, holderOk] <;> omega

theorem oldKeyExpiry (d p : Nat) : Statement (.oldKeyExpiry d p) := by
  simp [Statement, Instr.wf, dies, dieOk, holderOk] <;> omega

theorem conduitFnEnable (d f : Nat) (on : Bool) : Statement (.conduitFnEnable d f on) := by
  simp [Statement, Instr.wf, dies, dieOk, holderOk] <;> omega

theorem sqDoorbell (d q tail : Nat) : Statement (.sqDoorbell d q tail) := by
  simp [Statement, Instr.wf, dies, dieOk, holderOk] <;> omega

theorem descriptorFetchComplete (d q idx : Nat) (data : Option Bytes) : Statement (.descriptorFetchComplete d q idx data) := by
  simp [Statement, Instr.wf, dies, dieOk, holderOk] <;> omega

theorem groupTurn (d g : Nat) (ans : HostAns) : Statement (.groupTurn d g ans) := by
  simp [Statement, Instr.wf, dies, dieOk, holderOk] <;> omega

theorem nop (d q : Nat) : Statement (.nop d q) := by
  simp [Statement, Instr.wf, dies, dieOk, holderOk] <;> omega

theorem put (d q : Nat) (ans : HostAns) : Statement (.put d q ans) := by
  simp [Statement, Instr.wf, dies, dieOk, holderOk] <;> omega

theorem get (d q : Nat) (ans : HostAns) : Statement (.get d q ans) := by
  simp [Statement, Instr.wf, dies, dieOk, holderOk] <;> omega

theorem send (d q : Nat) (ans : HostAns) : Statement (.send d q ans) := by
  simp [Statement, Instr.wf, dies, dieOk, holderOk] <;> omega

theorem add32 (d q : Nat) (ans : HostAns) : Statement (.add32 d q ans) := by
  simp [Statement, Instr.wf, dies, dieOk, holderOk] <;> omega

theorem add64 (d q : Nat) (ans : HostAns) : Statement (.add64 d q ans) := by
  simp [Statement, Instr.wf, dies, dieOk, holderOk] <;> omega

theorem fetchAdd32 (d q : Nat) (ans : HostAns) : Statement (.fetchAdd32 d q ans) := by
  simp [Statement, Instr.wf, dies, dieOk, holderOk] <;> omega

theorem fetchAdd64 (d q : Nat) (ans : HostAns) : Statement (.fetchAdd64 d q ans) := by
  simp [Statement, Instr.wf, dies, dieOk, holderOk] <;> omega

theorem cas32 (d q : Nat) (ans : HostAns) : Statement (.cas32 d q ans) := by
  simp [Statement, Instr.wf, dies, dieOk, holderOk] <;> omega

theorem cas64 (d q : Nat) (ans : HostAns) : Statement (.cas64 d q ans) := by
  simp [Statement, Instr.wf, dies, dieOk, holderOk] <;> omega

theorem cas128 (d q : Nat) (ans : HostAns) : Statement (.cas128 d q ans) := by
  simp [Statement, Instr.wf, dies, dieOk, holderOk] <;> omega

theorem lockAcquire (d q : Nat) : Statement (.lockAcquire d q) := by
  simp [Statement, Instr.wf, dies, dieOk, holderOk] <;> omega

theorem lockTry (d q : Nat) : Statement (.lockTry d q) := by
  simp [Statement, Instr.wf, dies, dieOk, holderOk] <;> omega

theorem lockRelease (d q : Nat) : Statement (.lockRelease d q) := by
  simp [Statement, Instr.wf, dies, dieOk, holderOk] <;> omega

theorem recvPost (d q : Nat) (ans : HostAns) : Statement (.recvPost d q ans) := by
  simp [Statement, Instr.wf, dies, dieOk, holderOk] <;> omega

theorem collStart (d q : Nat) (ans : HostAns) : Statement (.collStart d q ans) := by
  simp [Statement, Instr.wf, dies, dieOk, holderOk] <;> omega

theorem conduitOpen (d q : Nat) : Statement (.conduitOpen d q) := by
  simp [Statement, Instr.wf, dies, dieOk, holderOk] <;> omega

theorem conduitClose (d q : Nat) : Statement (.conduitClose d q) := by
  simp [Statement, Instr.wf, dies, dieOk, holderOk] <;> omega

theorem fmSend (d q : Nat) : Statement (.fmSend d q) := by
  simp [Statement, Instr.wf, dies, dieOk, holderOk] <;> omega

theorem sqInvalidate (d q first n : Nat) : Statement (.sqInvalidate d q first n) := by
  simp [Statement, Instr.wf, dies, dieOk, holderOk] <;> omega

theorem crArm (d r : Nat) : Statement (.crArm d r) := by
  simp [Statement, Instr.wf, dies, dieOk, holderOk] <;> omega

theorem queueEnable (d kind n : Nat) : Statement (.queueEnable d kind n) := by
  simp [Statement, Instr.wf, dies, dieOk, holderOk] <;> omega

theorem queueDisable (d kind n : Nat) : Statement (.queueDisable d kind n) := by
  simp [Statement, Instr.wf, dies, dieOk, holderOk] <;> omega

theorem queueReset (d kind n : Nat) : Statement (.queueReset d kind n) := by
  simp [Statement, Instr.wf, dies, dieOk, holderOk] <;> omega

theorem queueDrainComplete (d q : Nat) : Statement (.queueDrainComplete d q) := by
  simp [Statement, Instr.wf, dies, dieOk, holderOk] <;> omega

theorem eventRingEnable (d f : Nat) : Statement (.eventRingEnable d f) := by
  simp [Statement, Instr.wf, dies, dieOk, holderOk] <;> omega

theorem eventRingHeadWrite (d f i : Nat) : Statement (.eventRingHeadWrite d f i) := by
  simp [Statement, Instr.wf, dies, dieOk, holderOk] <;> omega

theorem getResponseSegment (d cn : Nat) (ans : HostAns) : Statement (.getResponseSegment d cn ans) := by
  simp [Statement, Instr.wf, dies, dieOk, holderOk] <;> omega

theorem flitBufferGrant (d cn : Nat) : Statement (.flitBufferGrant d cn) := by
  simp [Statement, Instr.wf, dies, dieOk, holderOk] <;> omega

theorem lockProbeTimer (d bus : Nat) : Statement (.lockProbeTimer d bus) := by
  simp [Statement, Instr.wf, dies, dieOk, holderOk] <;> omega

theorem slotAcquire (d k : Nat) : Statement (.slotAcquire d k) := by
  simp [Statement, Instr.wf, dies, dieOk, holderOk] <;> omega

theorem slotRelease (d k : Nat) : Statement (.slotRelease d k) := by
  simp [Statement, Instr.wf, dies, dieOk, holderOk] <;> omega

theorem slotWaitRead (d k : Nat) : Statement (.slotWaitRead d k) := by
  simp [Statement, Instr.wf, dies, dieOk, holderOk] <;> omega

theorem slotWaitTimeout (d k : Nat) : Statement (.slotWaitTimeout d k) := by
  simp [Statement, Instr.wf, dies, dieOk, holderOk] <;> omega

theorem eagerCopyComplete (tok : Nat) (ans : HostAns) : Statement (.eagerCopyComplete tok ans) := by
  simp [Statement, Instr.wf, dies, dieOk, holderOk] <;> omega

theorem rendezvousGetComplete (tok : Nat) : Statement (.rendezvousGetComplete tok) := by
  simp [Statement, Instr.wf, dies, dieOk, holderOk] <;> omega

theorem matchBind (d n : Nat) : Statement (.matchBind d n) := by
  simp [Statement, Instr.wf, dies, dieOk, holderOk] <;> omega

theorem domainResume (d n : Nat) : Statement (.domainResume d n) := by
  simp [Statement, Instr.wf, dies, dieOk, holderOk] <;> omega

theorem domainDisable (d n : Nat) : Statement (.domainDisable d n) := by
  simp [Statement, Instr.wf, dies, dieOk, holderOk] <;> omega

theorem overflowRingHeadWrite (d n head : Nat) : Statement (.overflowRingHeadWrite d n head) := by
  simp [Statement, Instr.wf, dies, dieOk, holderOk] <;> omega

theorem chunkAdmit (d p : Nat) (ans : HostAns) : Statement (.chunkAdmit d p ans) := by
  simp [Statement, Instr.wf, dies, dieOk, holderOk] <;> omega

theorem droverTimeWaitEnd (d p chunk : Nat) : Statement (.droverTimeWaitEnd d p chunk) := by
  simp [Statement, Instr.wf, dies, dieOk, holderOk] <;> omega

theorem collPacketReceive (d : Nat) : Statement (.collPacketReceive d) := by
  simp [Statement, Instr.wf, dies, dieOk, holderOk] <;> omega

theorem collOutputSend (d p chunk edge : Nat) (ans : HostAns) : Statement (.collOutputSend d p chunk edge ans) := by
  simp [Statement, Instr.wf, dies, dieOk, holderOk] <;> omega

theorem creditSend (d p edge : Nat) : Statement (.creditSend d p edge) := by
  simp [Statement, Instr.wf, dies, dieOk, holderOk] <;> omega

theorem stepTimeout (d p chunk : Nat) : Statement (.stepTimeout d p chunk) := by
  simp [Statement, Instr.wf, dies, dieOk, holderOk] <;> omega

theorem droverProgramReset (d p : Nat) : Statement (.droverProgramReset d p) := by
  simp [Statement, Instr.wf, dies, dieOk, holderOk] <;> omega

theorem translationWalk (d f ctx va len kind cls : Nat) (ans : HostAns) : Statement (.translationWalk d f ctx va len kind cls ans) := by
  simp [Statement, Instr.wf, dies, dieOk, holderOk] <;> omega

theorem xltInvalidate (d f : Nat) : Statement (.xltInvalidate d f) := by
  simp [Statement, Instr.wf, dies, dieOk, holderOk] <;> omega

theorem invalidateDone (d f : Nat) : Statement (.invalidateDone d f) := by
  simp [Statement, Instr.wf, dies, dieOk, holderOk] <;> omega

theorem xltLock (d f : Nat) (ans : HostAns) : Statement (.xltLock d f ans) := by
  simp [Statement, Instr.wf, dies, dieOk, holderOk] <;> omega

theorem contextDisable (d ctx : Nat) : Statement (.contextDisable d ctx) := by
  simp [Statement, Instr.wf, dies, dieOk, holderOk] <;> omega

theorem regionLock (d r : Nat) : Statement (.regionLock d r) := by
  simp [Statement, Instr.wf, dies, dieOk, holderOk] <;> omega

theorem bar4Request (d pf id kind off len op : Nat) (data : Bytes) : Statement (.bar4Request d pf id kind off len op data) := by
  simp [Statement, Instr.wf, dies, dieOk, holderOk] <;> omega

theorem windowCommit (d win : Nat) : Statement (.windowCommit d win) := by
  simp [Statement, Instr.wf, dies, dieOk, holderOk] <;> omega

theorem peerReadTimeout (d id : Nat) : Statement (.peerReadTimeout d id) := by
  simp [Statement, Instr.wf, dies, dieOk, holderOk] <;> omega

theorem pwlogRearm (d : Nat) : Statement (.pwlogRearm d) := by
  simp [Statement, Instr.wf, dies, dieOk, holderOk] <;> omega

theorem mirrorPoll (d k : Nat) : Statement (.mirrorPoll d k) := by
  simp [Statement, Instr.wf, dies, dieOk, holderOk] <;> omega

theorem actionEntryApply (d : Nat) : Statement (.actionEntryApply d) := by
  simp [Statement, Instr.wf, dies, dieOk, holderOk] <;> omega

theorem gainTrim (tel : Nat) : Statement (.gainTrim tel) := by
  simp [Statement, Instr.wf, dies, dieOk, holderOk] <;> omega

theorem faultDetected (d u cause addr detail : Nat) (fn : Option Nat) : Statement (.faultDetected d u cause addr detail fn) := by
  simp [Statement, Instr.wf, dies, dieOk, holderOk] <;> omega

theorem faultRecordClear (d u : Nat) : Statement (.faultRecordClear d u) := by
  simp [Statement, Instr.wf, dies, dieOk, holderOk] <;> omega

theorem errorPairReadback (p n : Bool) : Statement (.errorPairReadback p n) := by
  simp [Statement, Instr.wf, dies, dieOk, holderOk] <;> omega

theorem sliceComplete (d k u : Nat) (pass : Bool) : Statement (.sliceComplete d k u pass) := by
  simp [Statement, Instr.wf, dies, dieOk, holderOk] <;> omega

theorem sliceAbort (d k : Nat) : Statement (.sliceAbort d k) := by
  simp [Statement, Instr.wf, dies, dieOk, holderOk] <;> omega

theorem getVersion (via : Nat) : Statement (.getVersion via) := by
  simp [Statement, Instr.wf, dies, dieOk, holderOk] <;> omega

theorem getCapabilities (via : Nat) (req : Bytes) : Statement (.getCapabilities via req) := by
  simp [Statement, Instr.wf, dies, dieOk, holderOk] <;> omega

theorem negotiateAlgorithms (via : Nat) (req : Bytes) : Statement (.negotiateAlgorithms via req) := by
  simp [Statement, Instr.wf, dies, dieOk, holderOk] <;> omega

theorem getDigests (via : Nat) : Statement (.getDigests via) := by
  simp [Statement, Instr.wf, dies, dieOk, holderOk] <;> omega

theorem getCertificate (via slot off len : Nat) : Statement (.getCertificate via slot off len) := by
  simp [Statement, Instr.wf, dies, dieOk, holderOk] <;> omega

theorem challenge (via : Nat) (req : Bytes) : Statement (.challenge via req) := by
  simp [Statement, Instr.wf, dies, dieOk, holderOk] <;> omega

theorem getMeasurements (via index : Nat) : Statement (.getMeasurements via index) := by
  simp [Statement, Instr.wf, dies, dieOk, holderOk] <;> omega

theorem keyExchange (via : Nat) (req : Bytes) : Statement (.keyExchange via req) := by
  simp [Statement, Instr.wf, dies, dieOk, holderOk] <;> omega

theorem finish (via id : Nat) (req : Bytes) : Statement (.finish via id req) := by
  simp [Statement, Instr.wf, dies, dieOk, holderOk] <;> omega

theorem keyUpdate (via id : Nat) : Statement (.keyUpdate via id) := by
  simp [Statement, Instr.wf, dies, dieOk, holderOk] <;> omega

theorem heartbeat (via id : Nat) : Statement (.heartbeat via id) := by
  simp [Statement, Instr.wf, dies, dieOk, holderOk] <;> omega

theorem endSession (via id : Nat) : Statement (.endSession via id) := by
  simp [Statement, Instr.wf, dies, dieOk, holderOk] <;> omega

theorem setCertificate (via slot : Nat) (chain : Bytes) : Statement (.setCertificate via slot chain) := by
  simp [Statement, Instr.wf, dies, dieOk, holderOk] <;> omega

theorem ideKmRequest (d stream op sess : Nat) : Statement (.ideKmRequest d stream op sess) := by
  simp [Statement, Instr.wf, dies, dieOk, holderOk] <;> omega

theorem ideIntegrityFail (d stream : Nat) : Statement (.ideIntegrityFail d stream) := by
  simp [Statement, Instr.wf, dies, dieOk, holderOk] <;> omega

theorem extest (cells : Nat) : Statement (.extest cells) := by
  simp [Statement, Instr.wf, dies, dieOk, holderOk] <;> omega

theorem samplePreload (cells : Nat) : Statement (.samplePreload cells) := by
  simp [Statement, Instr.wf, dies, dieOk, holderOk] <;> omega

theorem idcode : Statement (.idcode) := by
  simp [Statement, Instr.wf, dies, dieOk, holderOk] <;> omega

theorem debugAuth (tok owner : Bytes) : Statement (.debugAuth tok owner) := by
  simp [Statement, Instr.wf, dies, dieOk, holderOk] <;> omega

theorem bypass : Statement (.bypass) := by
  simp [Statement, Instr.wf, dies, dieOk, holderOk] <;> omega

theorem observeAccess (t : DebugAt) : Statement (.observeAccess t) := by
  simp [Statement, Instr.wf, dies, dieOk, holderOk] <;> omega

theorem invasiveAccess (x : DebugOp) : Statement (.invasiveAccess x) := by
  simp [Statement, Instr.wf, dies, dieOk, holderOk] <;> omega

theorem scanSelect (chain : Nat) : Statement (.scanSelect chain) := by
  simp [Statement, Instr.wf, dies, dieOk, holderOk] <;> omega

theorem counterRead (d f i : Nat) : Statement (.counterRead d f i) := by
  simp [Statement, Instr.wf, dies, dieOk, holderOk] <;> omega

theorem counterWrap (d i : Nat) : Statement (.counterWrap d i) := by
  simp [Statement, Instr.wf, dies, dieOk, holderOk] <;> omega

theorem samplerEnable (d : Nat) (on : Bool) : Statement (.samplerEnable d on) := by
  simp [Statement, Instr.wf, dies, dieOk, holderOk] <;> omega

theorem hostLinkUp (link : Nat × Nat) (width speed : Nat) : Statement (.hostLinkUp link width speed) := by
  simp [Statement, Instr.wf, dies, dieOk, holderOk] <;> omega

theorem etlNowNsRead (d size : Nat) : Statement (.etlNowNsRead d size) := by
  simp [Statement, Instr.wf, dies, dieOk, holderOk] <;> omega

theorem localInputReadComplete (d p chunk edge : Nat) : Statement (.localInputReadComplete d p chunk edge) := by
  simp [Statement, Instr.wf, dies, dieOk, holderOk] <;> omega

theorem faultCauseEnd (d u cause : Nat) : Statement (.faultCauseEnd d u cause) := by
  simp [Statement, Instr.wf, dies, dieOk, holderOk] <;> omega

theorem group4SupplyChange (mask : Nat) : Statement (.group4SupplyChange mask) := by
  simp [Statement, Instr.wf, dies, dieOk, holderOk] <;> omega

theorem bootSelfTestComplete (d links units : Nat) (macros : List Nat) (hbm : Bool × Bool) : Statement (.bootSelfTestComplete d links units macros hbm) := by
  simp [Statement, Instr.wf, dies, dieOk, holderOk] <;> omega

theorem shutdownTestComplete (l : List TestRes) : Statement (.shutdownTestComplete l) := by
  simp [Statement, Instr.wf, dies, dieOk, holderOk] <;> omega

theorem unitTestComplete (d u : Nat) (pass : Bool) : Statement (.unitTestComplete d u pass) := by
  simp [Statement, Instr.wf, dies, dieOk, holderOk] <;> omega

theorem boardFlashWrite (x : FlashFile) : Statement (.boardFlashWrite x) := by
  simp [Statement, Instr.wf, dies, dieOk, holderOk] <;> omega

end Sys2Proof.Laws.Shape
end

