-- ==== Sys2Proof/Tests/Slice0.lean ====
section
/-! SUPPORT. Tests: a witness for the hypotheses of every statement (`witness_<statement>`, each clause at a boundary value),
the refusal of ill-formed commands, and worked examples of the spec (`test_<what>`). -/
open Sys2Proof Sys2Proof.Machine
set_option maxRecDepth 6000
set_option Elab.async false

namespace Sys2Proof.Tests

/-! ## Ill-formed commands are refused -/

/-- One ill-formed command for each check of WellFormed: a number one beyond the last, or a wrong length. -/
def illFormed : List Instr :=
  [.cycleBoundary 5, .perstAssert 4, .functionRun 0 1026, .vfEnable 0 2 0, .vfEnable 0 0 1025, .laneWake 128, .packetRoute 152 0, .packetRoute 0 4,
   .closeSend 0 (2 ^ 24), .crArm 0 65536, .queueEnable 0 2 0, .queryState (some (4, 0)) (zeros 64) none, .queryState none (zeros 63) none,
   .boardFlashWrite { part := [], hold := 16, bifur := 0, pref := 0, imgA := none, imgB := none }, .observeAccess (.reg 0 1026 0),
   .observeAccess (.pool 0 (2 ^ 40)), .observeAccess (.sram 5 0), .observeAccess (.key 0 65536), .invasiveAccess (.write (.sram 0 0) (2 ^ 256)),
   .invasiveAccess (.halt 256), .invasiveAccess (.step 8), .moduleResetRelease [0, 0, 0] 0, .moduleResetRelease [0, 0, 0, 2 ^ 20] 0,
   .moduleResetRelease [0, 0, 0, 0] 8]
  ++ [.registerWrite 0 0 0 0 0 [], .registerWrite 0 0 0 4 (2 ^ 64) [], .d2dParityError 1 1 0, .d2dParityError 0 1 512,
   .hostCompletionReceived 0 1024 0 [], .msixTableWrite 0 0 2048 0 0 false, .coreWatchdogExpiry 8, .azxCmdTailWrite 0 0 65536, .tablePushAck 0 16,
   .alarmFire 0 64, .timeMessageReceive 0 32 0 (zeros 24), .timeMessageReceive 0 0 0 (zeros 23), .quadEnable 0 16, .laneSleepTimer 0 4 0,
   .laneBlockReceive 0 [(0, List.replicate 2047 0)], .flitReceive 0 (zeros 255), .pathRecordFetch 0 (2 ^ 20), .timedRelease 0 16384,
   .gatePoolRefill 4 0, .trackerIdleTimeout 0 4096, .oldKeyExpiry 0 65536, .groupTurn 0 1024 [], .slotAcquire 0 64, .matchBind 0 4096]
  ++ [.collOutputSend 0 256 0 0 [], .collOutputSend 0 0 0 64 [], .regionLock 0 1024, .windowCommit 0 256, .bar4Request 0 0 0 3 0 0 0 [],
   .faultDetected 0 64 0 0 0 none, .faultRecordClear 0 28, .sliceAbort 0 1920, .ideKmRequest 0 0 3 0, .ideIntegrityFail 0 8, .extest (2 ^ 20),
   .counterRead 0 0 704, .counterWrap 0 1024, .etlNowNsRead 0 2, .group4SupplyChange 32, .bootSelfTestComplete 0 0 0 [1920] (false, false), .unitTestComplete 0 28 true]
  ++ [.hostLinkUp (0, 2) 1 4, .d2dParityError 0 4 64, .calibrationComplete 0 [(16, 0)], .calibrationComplete 0 (List.replicate 5 (0, 0)),
   .trainingMessageReceive 0 4 0 (zeros 32), .trainingMessageReceive 0 0 4 (zeros 32), .trainingMessageReceive 0 0 0 (zeros 31), .flockDieCopy 1 1 0,
   .dieTestComplete 0 32 true, .notReadyRetry 0 0 (2 ^ 32) [], .sqDoorbell 0 0 65536, .descriptorFetchComplete 0 0 65536 none,
   .sqInvalidate 0 0 65536 0, .eventRingHeadWrite 0 0 65536, .lockProbeTimer 0 (2 ^ 64), .overflowRingHeadWrite 0 0 65536,
   .translationWalk 0 0 4096 0 1 0 0 [], .translationWalk 0 0 0 (2 ^ 64) 1 0 0 [], .translationWalk 0 0 0 0 1 3 0 [], .translationWalk 0 0 0 0 1 0 5 [],
   .getVersion 17, .sliceComplete 0 0 28 true, .shutdownTestComplete [{ die := 0, units := 0, hbmOk := true, failed := [1920] }], .servoInterval 5, .timedRelease 4 0]

theorem test_ill_formed : ∀ c ∈ illFormed, c.wf = false := by decide +kernel

/-- exec refuses each by name. -/
theorem test_ill_formed_refused : ∀ c ∈ illFormed, (match exec c State.reset with | .refused .noSuchObject => true | _ => false) = true := by decide +kernel

/-! ## No row of the command table has bits -/

theorem test_no_word : decodeTableWord 16 0 = none ∧ State.reset.withFetchWord 64 1 = State.reset := by decide +kernel

/-! ## Worked examples of the spec -/

/-- spec/07: the header of the 1,112-byte packet, and its five flits. -/
theorem test_header_bytes : mkHdr [0x14, 0x83, 0x4E, 0xFE] 4 false false 2 0x5C3A 0x1234 0x0107 1 1112 0
    = leBytes 24 0x0000045800010107001234005C3A4040FFFFFFFFFE4E8314 ∧ flitCount 1112 = 5 := by decide +kernel

/-- spec/08: the admission of the 16 KiB post, and of the post after it. -/
theorem test_release :
    let e : Resv := { role := 1, path := 0, src := 0, dest := 0, pasture := 0, fn := 0, sigma := 72, rho := 480, bound := 285000, allow := 5000 }
    timedFlits 16384 64 = 72
      ∧ releaseOf { ResRun.reset with lastRelease := 6999900000, tok := 10485760 } e 7000000000 72 = (7000035442, 448)
      ∧ (releaseOf { ResRun.reset with lastRelease := 7000035442, tok := 448 } e 7000001000 18).1 = 7000074763 := by decide +kernel

/-- spec/04: freq and T of K's Shepherd after an offset of 3 ns. -/
theorem test_servo : servo 1250000 (some (3 * 65536)) 25165824 = (-1895728, -27061552) := by decide +kernel

/-- spec/12: the lock word, and with a waiter queued. -/
theorem test_lock_word :
    let k (l : List Waiter) : Lock := { bus := 0, va := 0x600000000040, xctx := 0, fn := 0, page := false, holder := some { cn := 0x2201, tag := 0x51, prio := 10, eid := 0x0A10 }
                                        aband := false, gen := 6, waiters := l, eff := 0, probed := 0 }
    lockWord (k []) = 0x80A00A1006002201 ∧ lockWord (k [{ cn := 0x2205, tag := 0, prio := 40, eid := 0x0B22 }]) = 0xA0A00A1006002201 := by decide +kernel

/-- spec/17: SWAP 2. -/
theorem test_swap : arrange 2 (leBytes 8 0x1122334455667788) = leBytes 8 0x4433221188776655 := by decide +kernel

/-- spec/18: kv at 760 mV against 750 mV. -/
theorem test_kv : kvOf 760 750 = 67295 := by decide +kernel

/-- An accumulator with native operands taken in order. -/
def summed (op dt n : Nat) (l : List Nat) : Accu := l.foldl (fun a x => (takeElem op dt false (leBytes n x) a).1) Accu.reset

/-- spec/15: the bfloat16 sum in two orders, and the Plainsum of 256. -/
theorem test_plainsum : (formElem 2 3 0 false false 0 (summed 2 3 2 [0x4380, 0x3F80, 0x3F80, 0xC380])).1 = leBytes 2 0x4000
    ∧ (formElem 2 3 0 false false 0 (summed 2 3 2 [0x3F80, 0xC380, 0x4380, 0x3F80])).1 = leBytes 2 0x4000
    ∧ (formElem 2 3 0 false true 0 (summed 2 3 2 [0x4380])).1 = leBytes 40 (2 ^ 168) := by decide +kernel

/-- spec/15: the binary64 sum in two orders. -/
theorem test_binned_sum :
    (formElem 2 0 0 false false 0 (summed 2 0 8 [0x3FF0000000000000, 0x3DC8000000000000, 0x43B0000000000000, 0xC3B0000000000000])).1 = leBytes 8 0x3FF0000000040000
    ∧ (formElem 2 0 0 false false 0 (summed 2 0 8 [0x43B0000000000000, 0xC3B0000000000000, 0x3FF0000000000000, 0x3DC8000000000000])).1
        = leBytes 8 0x3FF0000000040000 := by decide +kernel

/-- spec/15: int8 wrap and saturate, both with INT_OVERFLOW. -/
theorem test_int8 : formElem 2 8 0 false false 0 (summed 2 8 1 [100, 100, 0xCE]) = (leBytes 1 0x96, { Tal.zero with intv := 1 })
    ∧ formElem 2 8 0 true false 0 (summed 2 8 1 [100, 100, 0xCE]) = (leBytes 1 0x7F, { Tal.zero with intv := 1 }) := by decide +kernel

/-- spec/15: 257 in bfloat16, to nearest and by two stochastic draws. -/
theorem test_rounding : (formElem 2 3 0 false false 0 (summed 2 3 2 [0x4380, 0x3F80])).1 = leBytes 2 0x4380
    ∧ (formElem 2 3 4 false false 0x3A000000 (summed 2 3 2 [0x4380, 0x3F80])).1 = leBytes 2 0x4380
    ∧ (formElem 2 3 4 false false 0xC1000000 (summed 2 3 2 [0x4380, 0x3F80])).1 = leBytes 2 0x4381 := by decide +kernel

/-- spec/15: MINLOC of (2.5, 9), (−0.0, 4), (−0.0, 2), (+0.0, 1). -/
theorem test_minloc : (formElem 8 1 0 false false 0 (summed 8 1 8 [0x40200000 + 9 * 2 ^ 32, 0x80000000 + 4 * 2 ^ 32, 0x80000000 + 2 * 2 ^ 32, 2 ^ 32])).1
    = leBytes 8 (0x80000000 + 2 * 2 ^ 32) := by decide +kernel

/-- spec/14: element 0 of the allreduce. -/
theorem test_allreduce : (formElem 2 1 0 false false 0 (summed 2 1 4 [0x3F800000, 0x30800000, 0xBF800000, 0x30800000])).1 = leBytes 4 0x31000000 := by
  decide +kernel

/-- R469's example: 10 °C above T_REF with TD 25 °C, kt is 86,475 before the part's own error. -/
theorem test_kt_example : ktExact 80 200 18 0 = 86475 := by decide +kernel

/-! ## Witnesses -/

/-- The register at a place, and its element. -/
def regAt : Place → Reg × Nat
  | .reg r i _ _ => (r, i)
  | _ => (⟨0, 0, [], .plain, [], none, 0, F.HIF_CTRL_ENABLE, 0⟩, 0)

/-- A module at work: booted, four dies ACTIVE, host links up, clocks running. -/
def served : Sys2Proof.Machine.Mod :=
  let m : Sys2Proof.Machine.Mod := { Mod.reset with
    pin := { Mod.reset.pin with rst := false, pwr := true, refS := true, ready := true }
    shep := { Mod.reset.shep with booted := true }
    dieSt := [(0, DieSt.active), (1, DieSt.active), (2, DieSt.active), (3, DieSt.active)]
    clk := [(0, { Clock.reset with run := true }), (1, { Clock.reset with run := true }), (2, { Clock.reset with run := true }),
      (3, { Clock.reset with run := true }), (4, { Clock.reset with run := true })]
    d2d := [(0, true), (1, true), (2, true), (3, true), (4, true), (5, true), (6, true), (7, true), (8, true), (9, true)]
    conf := { Mod.reset.conf with mask := 15 } }
  each dies (fun d m => force F.RTE_CTRL_ENABLE d 0 1 (force F.HIF_CTRL_ENABLE d 0 1 (force F.HIF_STATUS_LINK_UP d 0 1 m))) m

def st (f : Sys2Proof.Machine.Mod → Sys2Proof.Machine.Mod) : State := { State.reset with m := f served }
def die (d x : Nat) (m : Sys2Proof.Machine.Mod) : Sys2Proof.Machine.Mod := { m with dieSt := NMap.put m.dieSt d x }
/-- The module as reset leaves it, changed by `f`. -/
def cold (f : Sys2Proof.Machine.Mod → Sys2Proof.Machine.Mod) : State := { State.reset with m := f Mod.reset }

/-- The record of unit 27 of die 0, with persistence bit `p`. -/
def rec0 (p : Nat) : FaultRec :=
  { seq := 1, die := 0, unit := 27, src := 0, sev := 0, isOpen := true, pers := p, inj := false, crash := false, cause := 0, merges := 0
    reacted := 0, fn := none, first := 0, last := 0, addr := 0, detail := 0, cleared := 0 }
def broken (p : Nat) : State := st fun m => { m with flt := { m.flt with log := [rec0 p] } }
def spanned : State := st fun m => { m with tly := { m.tly with spanE := 65536 } }
/-- An Azrix command in hand that waits as `w` says. -/
def waits (w : Wait) (m : Sys2Proof.Machine.Mod) : Sys2Proof.Machine.Mod :=
  { m with azx := { m.azx with
    jobs := [{ cmd := { iss := none, ent := zeros 64, buf := none }, t0 := 0, wait := w, mute := false, res0 := 0, res1 := 0 }] } }

/-- An Azrix command of ARG_LEN `len` with the arguments `v` (INLINE as one number). -/
def ent (len v : Nat) : Bytes := leBytes 8 0 ++ leBytes 4 len ++ zeros 12 ++ leBytes 40 v

/-- What AzBegins asks, of a command from the management interface. -/
def azReady (op : Nat) (r : AzRow) (e : Bytes) (buf : Option Bytes) (s : State) : Bool :=
  let c := azHeld op none e buf
  let n := azCounted c s.m
  decide (e.length = 64) && azStands op none s.m && !azMalformed c (some r) && n.azx.jobs.isEmpty
    && (r.chk s.fuse c n).isNone && !c.checkOnly

/-- A command that some state, buffer and entry let begin, with the command held and the module of that moment as `P` says. -/
def azCan (op : Nat) (r : AzRow) (P : State → AzCmd → Sys2Proof.Machine.Mod → Prop) : Prop :=
  ∃ iss e buf s j m, AzBegins op r iss e buf s j m ∧ P s j.cmd m

theorem begins {op : Nat} {r : AzRow} {P : State → AzCmd → Sys2Proof.Machine.Mod → Prop} (e : Bytes) (buf : Option Bytes) (s : State)
    (h : azReady op r e buf s = true) (hP : P s (azHeld op none e buf) (azCounted (azHeld op none e buf) s.m)) : azCan op r P := by
  simp only [azReady, Bool.and_eq_true, decide_eq_true_eq, Bool.not_eq_true', Option.isNone_iff_eq_none, List.isEmpty_iff] at h
  obtain ⟨⟨⟨⟨⟨h1, h2⟩, h3⟩, h4⟩, h5⟩, h6⟩ := h
  refine ⟨none, e, buf, s, _, _, ⟨rfl, h1, h2, rfl, h3, rfl, ?_, ?_, h5, h6⟩, hP⟩
  · unfold bufferOk
    split <;> rfl
  · unfold azBlocked
    rw [h4]
    split <;> simp

def anyway : State → AzCmd → Sys2Proof.Machine.Mod → Prop := fun _ _ _ => True

/-- A Drover program of one SUM step with a HOST input and a HOST output. -/
def prog0 : DProg :=
  { fn := 0, src := 0, collId := 1, arrival := false, pasture := 0, window := 1, chunk := 4, seed := 0, timeout := 1, recs := 3
    edges := [{ route := [], off := 0, hops := 0, kind := 3, target := 0, peer := 0, leaves := 0 }, { route := [], off := 0, hops := 0, kind := 3, target := 0, peer := 0, leaves := 1 }]
    steps := [{ op := 2, dt := 1, round := 0, sat := false, outPart := false, timed := false, partOk := false, twait := 0, count := 1, next := 0xFF
                res := 0, ins := 1, outs := 2, elemOff := 0, elemCount := 0, timeOff := 0, dlOff := 0, timeout := 0 }] }

def progBytes : Bytes :=
  leBytes 8 1 ++ leBytes 1 1 ++ leBytes 1 2 ++ leBytes 2 1 ++ leBytes 2 4 ++ zeros 10 ++ leBytes 4 1 ++ zeros 36
    ++ (zeros 9 ++ leBytes 1 3 ++ zeros 6) ++ (zeros 9 ++ leBytes 1 3 ++ zeros 4 ++ leBytes 1 1 ++ zeros 1) ++ zeros 32
    ++ leBytes 1 2 ++ leBytes 1 1 ++ zeros 2 ++ leBytes 1 1 ++ leBytes 1 255 ++ zeros 2 ++ leBytes 8 1 ++ leBytes 8 2 ++ zeros 40

def keyBuf : Bytes := leBytes 2 7 ++ zeros 70
/-- Pasture 7 exists on die 0, and a session is held over the management interface. -/
def keyed : State := st fun m => { updTabs 4 (fun t => { t with past := NMap.put t.past 7 { fn := 0, flags := 0 } }) m with
  sec := { m.sec with sessions := [{ id := 0, via := 4, draw := 0, est := true, updates := 0 }] } }

/-- PF0 of die 0 has one command waiting in its ring. -/
def ringOf (m : Sys2Proof.Machine.Mod) : Sys2Proof.Machine.Mod :=
  wr F.AZX_CMD_TAIL_INDEX 0 0 1 (force F.AZX_CTRL_ENABLE 0 0 1 (updHif (fun h => { h with bme := [(0, true)] }) m))
def ring1 : State := st ringOf
def ringM2 : Sys2Proof.Machine.Mod := (accessBus 0 0 0 64 0 (updAzx (fun a => { a with next := 1 }) ring1.m)).2
/-- PATH_LOAD with a buffer of 128 bytes at 4096, and what the host answers. -/
def ringEnt : Bytes := leBytes 64 (0x20 + 128 * 2 ^ 64 + 4096 * 2 ^ 128)
def ringAns : HostAns := [(0, ringEnt), (4096, zeros 128)]
def ringM4 : Sys2Proof.Machine.Mod :=
  wr F.AZX_CMD_HEAD_INDEX 0 0 1 (readPieces 0 0 false ringAns [(0, 64)] ringM2).2

/-- A command in hand that waits as `w` says. -/
def jobOf (w : Wait) : Job :=
  { cmd := { iss := none, ent := zeros 64, buf := none }, t0 := 0, wait := w, mute := false, res0 := 0, res1 := 0 }

def flit0 (b : Bytes) : Flit := { vc := 0, sop := true, eop := true, abort := false, data := b, pkt := 1, fid := 1, res := none, org := 0 }
/-- Port 31 of die 3 is ACTIVE with its link in state `n` and the link's record changed by `f`. -/
def linked (n : Nat) (f : Link → Link) : State :=
  st fun m => updLink 127 f (wr F.LNK_PORT_STATUS_LINK_STATE 3 31 n (setPst 127 6 m))

/-- A routing header of one hop, with its code, whether it is a flock packet, its destination and its length. -/
def hdr1 (code : Nat) (flock : Bool) (dest len : Nat) : Bytes := mkHdr [code] 1 flock false 0 dest 0 0 0 len 0
/-- A packet waits at input `x` of the crossbar on channel 0. -/
def queued (x : Nat) (b : Bytes) (m : Sys2Proof.Machine.Mod) : Sys2Proof.Machine.Mod := updXb (fun y => { y with inq := [(x * 4, [flit0 b])] }) m
/-- The flock table of die 0 has the entry of flock 9. -/
def flocked (e : FlockEnt) (m : Sys2Proof.Machine.Mod) : Sys2Proof.Machine.Mod := updTabs 0 (fun t => { t with flock := NMap.put t.flock 9 e }) m
def flock9 : FlockEnt := { out := 2, id := 9, valid := true, toDrv := false, drvDie := 0, host := 1, owner := 0, pasture := 0xFFFF }

/-- Conduit 5 of die 0, OPEN and resident, with room for packets, changed by `f`; its path record is cached. -/
def conduit (f : Cond → Cond) (m : Sys2Proof.Machine.Mod) : Sys2Proof.Machine.Mod :=
  updXb (fun y => { y with cache := [(0, 0)] }) (setCond 0 5 (f { Cond.reset with state := CSt.open_, resident := true, eff := 64, rxLog := 8, retryLimit := 7 }) m)
def tmsg (o : Owner) : Msg := { Msg.blank with op := Op.put, len := 64, buf := [(0, 64)], owner := o }
def own0 : Owner := .queue 0 0 0 0x10 0 0 true
def rec1 : Rec := { psn := 3, msg := 0, op := Op.put, off := 0, len := 64, path := some 0, round := 0, time := 0, acks := 0, again := none }
def resv1 : Resv := { role := 1, path := 0, src := 0, dest := 9, pasture := 0, fn := 0, sigma := 1, rho := 1, bound := 1, allow := 0 }
def post1 (b : Option Bytes) : Post :=
  { id := 0, owner := .nobody, fn := 0, cn := 5, len := 64, deadline := 100, release := 50, payload := b, released := false, seq := 0, acked := [] }
/-- A timed post of reservation 16383 waits on die 0. -/
def posted (b : Option Bytes) : State := st fun m =>
  updTabs 0 (fun t => { t with res := [(16383, resv1)] }) (updTrn (fun t => { t with run := [(16383, { ResRun.reset with posts := [post1 b] })] }) m)

/-- An entry of 64 bytes: its opcode, completion ring 65535, and the rest as one number. -/
def entry (code v : Nat) : Bytes := leBytes 64 (code + 0xFFFF * 2 ^ 16 + v)
/-- Queue and ring 65535 of die 0 are ACTIVE with one entry waiting; PF0 may hold conduits. -/
def withEntry (b : Bytes) (f : Sys2Proof.Machine.Mod → Sys2Proof.Machine.Mod) : State :=
  st fun m => f (updSq 0 65535 (fun k => { k with slots := [(0, b)] }) (wr F.WQU_QSTATE_TAIL 0 (qix 0 65535) 1
    (wr F.WQU_QSTATE_STATE 0 (qix 0 65535) QSt.active (wr F.WQU_QSTATE_STATE 0 (qix 1 65535) QSt.active (force F.CND_FN_CTL_ENABLE 0 0 1 m)))))
/-- The entry as taken, and the module with it taken. -/
def eOf (b : Bytes) (f : Sys2Proof.Machine.Mod → Sys2Proof.Machine.Mod) : Ent := entryOf 0 65535 b (withEntry b f).m
def mOf (b : Bytes) (f : Sys2Proof.Machine.Mod → Sys2Proof.Machine.Mod) : Sys2Proof.Machine.Mod := entryTaken 0 65535 b (withEntry b f).m
def takesReady (code : Nat) (b : Bytes) (f : Sys2Proof.Machine.Mod → Sys2Proof.Machine.Mod) : Bool :=
  hostUp 0 (withEntry b f).m && decide (nextEntry 0 65535 (withEntry b f).m = some b) && rdLE b 0 1 == code
    && crUsable 0 65535 (rdLE b 2 2) (withEntry b f).m
theorem takes {code : Nat} {b : Bytes} {f : Sys2Proof.Machine.Mod → Sys2Proof.Machine.Mod} (h : takesReady code b f = true) :
    Takes code 0 65535 b (withEntry b f) (eOf b f) (mOf b f) := by
  simp only [takesReady, Bool.and_eq_true, decide_eq_true_eq, beq_iff_eq] at h
  exact ⟨by decide, by decide, h.1.1.1, h.1.1.2, h.1.2, h.2, rfl, rfl⟩
/-- Translation context 0 of die 0 is on and maps the first gibibyte to itself; every access is permitted. -/
def mapped (m : Sys2Proof.Machine.Mod) : Sys2Proof.Machine.Mod :=
  setXlt 0 { Xlt.reset with tlb := [{ ctx := 0, vpn := 0, size := 30, oa := 0, leaf := 13, slot := 0, lvl := 3, locked := false }] }
    (force F.ACP_DEFAULT_PERM 0 0 (2 ^ 15 - 1) (force F.XLT_CTX_CFG_ENABLE 0 0 1 m))
def pass5 (m : Sys2Proof.Machine.Mod) : Sys2Proof.Machine.Mod := mapped (conduit id m)
/-- Where a buffer of an entry has been checked. -/
def bufOf (kind : Nat) (cls : Nat) (l : List (Nat × Nat)) (m : Sys2Proof.Machine.Mod) : Sys2Proof.Machine.Mod := (checkBuf 0 0 0 kind cls [] l false m).2.2
def codes : List Nat := [0x01, 0x10, 0x11, 0x12, 0x20, 0x21, 0x22, 0x23, 0x24, 0x25, 0x26, 0x30, 0x31, 0x32, 0x38, 0x40, 0x50, 0x51, 0x60]

/-- Reservation 16383 of die 0 for conduit 5, delivered by the module's own exit, and TIMED_OK. -/
def reserved (m : Sys2Proof.Machine.Mod) : Sys2Proof.Machine.Mod :=
  wr F.ETL_STATUS_TIMED_OK 0 0 1 (updTabs 0 (fun t => { t with res := [(16383, { resv1 with dest := 0 })], path := [(0, { route := [0xFD], hops := 1, valid := true, timedOk := true, bias := 0 })] })
    { pass5 m with conf := { m.conf with eids := [(0, 0)], mask := 15 } })

/-- Pasture 7 belongs to function 0 on die 0; matching domain 4095 is function 0's, of that pasture, on and NORMAL. -/
def domained (m : Sys2Proof.Machine.Mod) : Sys2Proof.Machine.Mod :=
  wr F.HIF_FN_STATE 0 0 FnSt.running (wr F.MTC_DSTATUS_STATE 0 4095 1 (force F.MTC_DCTL_ENABLE 0 4095 1 (force F.MTC_DCFG_PASTURE 0 4095 7
    (updTabs 0 (fun t => { t with past := NMap.put t.past 7 { fn := 0, flags := 0 } }) (pass5 m)))))
def collReady (m : Sys2Proof.Machine.Mod) : Sys2Proof.Machine.Mod := updTabs 0 (fun t => { t with drv := NMap.put t.drv 255 prog0 }) (pass5 m)
def openReady (m : Sys2Proof.Machine.Mod) : Sys2Proof.Machine.Mod := updTabs 0 (fun t => { t with past := NMap.put t.past 7 { fn := 0, flags := 0 } }) m

def waiter1 : Waiter := { cn := 5, tag := 1, prio := 7, eid := 0 }
def lock1 : Lock :=
  { bus := 2 ^ 64 - 8, va := 0, xctx := 0, fn := 0, page := false, holder := some { waiter1 with tag := 0 }, aband := false, gen := 0, waiters := [waiter1], eff := 0, probed := 0 }

def recv1 : Recv :=
  { bits := 0, ignore := 0, source := 0, any := true, len := 64, buf := [(4096, 64)], indirect := false, xctx := 0, cring := 65535, tag := 0, idx := 0, q := 65535, gen := 0, time := 0 }

/-- A message of conduit 5 of die 0 at its target, at place `p`, with a receive where `r`. -/
def mmsg1 (p : Nat) (r : Bool) : MMsg :=
  { dom := 4095, cn := 5, msg := 0, bits := 0, eid := 0, len := 64, rndv := false, srcAddr := 0, srcXctx := 0, space := 0, stored := [], arrived := 64
    failed := false, place := p, time := 0, recv := if r then some recv1 else none, placed := 0, err := none, whole := true, copying := r, fetching := false
    flushed := false }
/-- That message has token 1. -/
def arrived (x : MMsg) (m : Sys2Proof.Machine.Mod) : Sys2Proof.Machine.Mod := updTrn (fun t => { t with mmsg := [(1, x)] }) m

/-- Program 255 of die 0 is `P` and runs the instance `x`. -/
def runningIn (f : Sys2Proof.Machine.Mod → Sys2Proof.Machine.Mod) (P : DProg) (x : Inst) : State :=
  st fun m => updDrun 0 255 (fun r => { r with state := 2, cur := some x }) (updTabs 0 (fun t => { t with drv := [(255, P)] }) (f m))
def running (P : DProg) (x : Inst) : State := runningIn id P x
def inst1 (l : List (Nat × Chunk)) (n : Nat) : Inst := { Inst.new 0 8 0 with chunks := l, next := n }
def chunk1 (phase left : Nat) : Chunk :=
  { step := 0, phase := phase, alarm := false, time := 0, acc := [], got := 0, done := 0, closed := 0, result := [], part := false, left := left, nan := 0, afl := 0, release := 0 }
def hostOut : Inst := inst1 [(0, { chunk1 2 2 with result := zeros 16 })] 1
/-- `prog0` with edges of kind `k` and its step changed by `f`. -/
def progK (k : Nat) (f : DStep → DStep) : DProg := { prog0 with edges := prog0.edges.map (fun e => { e with kind := k }), steps := prog0.steps.map f }

def step0 : DStep :=
  { op := 2, dt := 1, round := 0, sat := false, outPart := false, timed := false, partOk := false, twait := 0, count := 1, next := 0xFF, res := 0, ins := 1, outs := 2
    elemOff := 0, elemCount := 0, timeOff := 0, dlOff := 0, timeout := 0 }
def edge0 (k l : Nat) : DEdge := { route := [], off := 0, hops := 0, kind := k, target := 0, peer := 0, leaves := l }

def walkable : State := st fun m => setXlt 0 Xlt.reset (force F.XLT_CTX_CFG_LEVELS 0 0 3 (mapped m))

def walkedM : Sys2Proof.Machine.Mod :=
  (walkMark 0 0 0 4095 2 (inbound 4) (regions 0 walkable.m) 8 [(0, leBytes 8 15)] (bump F.XLT_CNT_WALKS 0 0 (count 0 545 1 (count 0 544 1 walkable.m)))).2.2

/-- Window 255 of die 0 maps the first 4 KiB of BAR4, as `x`; its conduit 5 is OPEN. -/
def win1 : Win := { off := 0, size := 12, remote := 0, eid := 0, pasture := 0, rxctx := 0, strict := false, swap := 0, xmode := 0 }
def windowed (x : Win) (m : Sys2Proof.Machine.Mod) : Sys2Proof.Machine.Mod := updTrn (fun t => { t with win := [(255, x)] }) (conduit id m)
def bar1 (kind : Nat) : Bar4 :=
  { die := 0, win := 255, id := 3, kind := kind, off := 0, len := 8, op := 0, data := [], set := win1, sent := true, time := 0 }
/-- That request is held. -/
def bars (kind : Nat) (m : Sys2Proof.Machine.Mod) : Sys2Proof.Machine.Mod := updTrn (fun t => { t with bar4 := [bar1 kind] }) m

theorem witness_AnIdleStepIsATick :
    (∃ (s : State), s.pending = []) :=
  ⟨State.reset, by decide +kernel⟩

theorem witness_RegisterAccessesReachTheRegister :
    (∃ (d : _) (f : _) (off : _) (val : _) (r : _) (i : _) (s : State), d < 4 ∧ f < 1026 ∧ val < 2 ^ 64 ∧ reaches d f off s.m = true ∧ off % 4 = 0 ∧ locate d f off s.m = .reg r i false false ∧ r.bits = 32)
    ∧ (∃ (d : _) (f : _) (off : _) (val : _) (r : _) (i : _) (s : State), d < 4 ∧ f < 1026 ∧ val < 2 ^ 64 ∧ reaches d f off s.m = true ∧ off % 8 = 0 ∧ locate d f off s.m = .reg r i false false ∧ r.bits = 64)
    ∧ (∃ (d : _) (f : _) (off : _) (r : _) (i : _) (ro : _) (s : State), d < 4 ∧ f < 1026 ∧ reaches d f off s.m = true ∧ off % 4 = 0 ∧ locate d f off s.m = .reg r i false ro ∧ r.bits = 64 ∧ r.off ≠ F.CRK_SLOT_WAIT_STATUS.reg)
    ∧ (∃ (d : _) (f : _) (off : _) (r : _) (i : _) (ro : _) (s : State), d < 4 ∧ f < 1026 ∧ reaches d f off s.m = true ∧ off % 4 = 0 ∧ locate d f off s.m = .reg r i false ro ∧ r.bits = 32 ∧ r.off ≠ F.CRK_SLOT_WAIT_STATUS.reg)
    ∧ (∃ (d : _) (f : _) (i : _) (r : _) (j : _) (ro : _) (s : State), d < 4 ∧ f < 1026 ∧ i < 704 ∧ reaches d f (counterOff d f i s.m) s.m = true ∧ locate d f (counterOff d f i s.m) s.m = .reg r j false ro ∧ r.bits = 64 ∧ r.off ≠ F.CRK_SLOT_WAIT_STATUS.reg)
    ∧ (∃ (d : _) (r : _) (j : _) (ro : _) (s : State), d < 4 ∧ reaches d 0 0x300008 s.m = true ∧ locate d 0 0x300008 s.m = .reg r j false ro ∧ r.bits = 64 ∧ r.off ≠ F.CRK_SLOT_WAIT_STATUS.reg) :=
  ⟨⟨0, 0, 0x100000, 2 ^ 64 - 1, (regAt (locate 0 0 0x100000 (st id).m)).1, (regAt (locate 0 0 0x100000 (st id).m)).2, (st id), by and_intros <;> decide +kernel⟩,
   ⟨0, 0, 0x302000, 2 ^ 64 - 1, (regAt (locate 0 0 0x302000 (st id).m)).1, (regAt (locate 0 0 0x302000 (st id).m)).2, (st id), by and_intros <;> decide +kernel⟩,
   ⟨0, 0, 0x302000, (regAt (locate 0 0 0x302000 (st id).m)).1, (regAt (locate 0 0 0x302000 (st id).m)).2, false, (st id), by and_intros <;> decide +kernel⟩,
   ⟨0, 0, 0x100000, (regAt (locate 0 0 0x100000 (st id).m)).1, (regAt (locate 0 0 0x100000 (st id).m)).2, false, (st id), by and_intros <;> decide +kernel⟩,
   ⟨0, 0, (regAt (locate 0 0 (counterOff 0 0 0 (st id).m) (st id).m)).2, (regAt (locate 0 0 (counterOff 0 0 0 (st id).m) (st id).m)).1, (regAt (locate 0 0 (counterOff 0 0 0 (st id).m) (st id).m)).2, false, (st id), by and_intros <;> decide +kernel⟩,
   ⟨0, (regAt (locate 0 0 0x300008 (st id).m)).1, (regAt (locate 0 0 0x300008 (st id).m)).2, false, (st id), by and_intros <;> decide +kernel⟩⟩

theorem witness_AccessesThatReachNoRegister :
    (∃ (d : _) (f : _) (off : _) (size : _) (val : _) (s : State), d < 4 ∧ f < 1026 ∧ 0 < size ∧ val < 2 ^ 64 ∧ reaches d f off s.m = false)
    ∧ (∃ (d : _) (f : _) (off : _) (size : _) (val : _) (s : State), d < 4 ∧ f < 1026 ∧ 0 < size ∧ val < 2 ^ 64 ∧ reaches d f off s.m = true ∧ (((size ≠ 4 ∧ size ≠ 8) ∨ off % size ≠ 0)))
    ∧ (∃ (d : _) (f : _) (off : _) (r : _) (i : _) (ro : _) (s : State) (m : _), d < 4 ∧ f < 1026 ∧ reaches d f off s.m = true ∧ off % 4 = 0 ∧ locate d f off s.m = .reg r i false ro ∧ r.off = F.CRK_SLOT_WAIT_STATUS.reg ∧ m = setHalf d f { halfOf d f s.m with rReg := some (halfKey r i, 0) } s.m) :=
  ⟨⟨0, 0, 0, 1, 2 ^ 64 - 1, State.reset, by and_intros <;> decide +kernel⟩,
   ⟨0, 0, 2, 4, 0, (st id), by and_intros <;> decide +kernel⟩,
   ⟨0, 0, 0xC10020, (regAt (locate 0 0 0xC10020 (st id).m)).1, (regAt (locate 0 0 0xC10020 (st id).m)).2, false, (st id), _, by and_intros <;> first | decide +kernel | rfl⟩⟩

theorem witness_CountersAndLiveWrites :
    (∃ (d : _) (i : _) (s : State), (clock d s.m).run = true ∧ (((d < 4 ∧ i < 704) ∨ (d = 4 ∧ i < 192))))
    ∧ (∃ (d : _) (s : State), d < 4 ∧ hostUp d s.m = true)
    ∧ (∃ (d : _) (s : State), d < 4 ∧ hostUp d s.m = true ∧ curB F.SMP_CTRL_ENABLE d 0 s.m = false)
    ∧ (∃ (d : _) (s : State), d < 4 ∧ hostUp d s.m = true) :=
  ⟨⟨0, 703, (st id), by and_intros <;> decide +kernel⟩,
   ⟨3, (st id), by and_intros <;> decide +kernel⟩,
   ⟨3, (st id), by and_intros <;> decide +kernel⟩,
   ⟨3, (st id), by and_intros <;> decide +kernel⟩⟩

theorem witness_ModuleResetAndFlash :
    (∃ (eids : List Nat) (strap : _) (s : State) (m : _), eids.length = 4 ∧ eids.all (fun e => decide (e < 2 ^ 20)) = true ∧ strap < 8 ∧ s.m.pin.rst = true ∧ m = secReset s.fuse (setClock 4 { Clock.reset with run := true } { s.m with pin := { s.m.pin with rst := false, pwr := true, refS := true, mgmtAddr := strap }, conf := { s.m.conf with eids := (dies.filter (fun d => fusedIn d s.m && decide (d < 4))).foldl (fun l d => NMap.put l d (eids.getD d 0 % 2 ^ 20)) [] } }))
    ∧ (∃ (eids : List Nat) (strap : _) (s : State), eids.length = 4 ∧ eids.all (fun e => decide (e < 2 ^ 20)) = true ∧ strap < 8 ∧ s.m.pin.rst = false)
    ∧ (∃ (x : FlashFile), x.ok = true) :=
  ⟨⟨[0, 1, 2, 2 ^ 20 - 1], 7, State.reset, _, by and_intros <;> first | decide +kernel | rfl⟩,
   ⟨[0, 1, 2, 3], 0, (st id), by and_intros <;> decide +kernel⟩,
   ⟨{ part := [], hold := 15, bifur := 15, pref := 1, imgA := none, imgB := none }, by decide +kernel⟩⟩

theorem witness_FaultsOfTheModule :
    (∃ (a : _) (b : _) (lane : _) (s : State), a < 4 ∧ b < 5 ∧ a ≠ b ∧ lane < d2dLanes b ∧ d2dUp a b s.m = true)
    ∧ (∃ (core : _) (s : State), core < 8 ∧ bit s.m.sec.halted core = false ∧ s.m.shep.booted = true)
    ∧ (∃ (d : _) (u : _) (c : _) (addr : _) (detail : _) (s : State), d < 5 ∧ u < 64 ∧ c < 64 ∧ addr < 2 ^ 64 ∧ detail < 2 ^ 64 ∧ sourceKnown u c = true ∧ unitKnown d u = true ∧ ((d < 4 → fusedIn d s.m = true)) ∧ s.m.pin.rst = false ∧ c ≠ 26 ∧ c ≠ 27 ∧ ((dieState d s.m ≠ DieSt.fenced ∨ d2dUp d 4 s.m = true)))
    ∧ (∃ (d : _) (c : _) (addr : _) (detail : _) (s : State), d < 4 ∧ addr < 2 ^ 64 ∧ detail < 2 ^ 64 ∧ ((c = 26 ∨ c = 27)) ∧ fusedIn d s.m = true ∧ s.m.pin.rst = false ∧ ((dieState d s.m ≠ DieSt.fenced ∨ d2dUp d 4 s.m = true)))
    ∧ (∃ (d : _) (u : _), d < 5 ∧ u < 64)
    ∧ (∃ (d : _) (u : _) (r : _) (s : State), d < 4 ∧ u < 28 ∧ hostUp d s.m = true ∧ openRec d u s.m = some r ∧ r.pers = 0)
    ∧ (∃ (d : _) (u : _) (r : _) (s : State), d < 4 ∧ u < 28 ∧ hostUp d s.m = true ∧ openRec d u s.m = some r ∧ r.pers ≠ 0)
    ∧ (∃ (tel : _) (s : State), s.m.shep.booted = true ∧ s.m.tly.spanE ≠ 0 ∧ ((tel * 2 ^ 16 / s.m.tly.spanE < 49152 ∨ 81920 < tel * 2 ^ 16 / s.m.tly.spanE)))
    ∧ (∃ (tel : _) (s : State) (g : Nat), s.m.shep.booted = true ∧ s.m.tly.spanE ≠ 0 ∧ 49152 ≤ tel * 2 ^ 16 / s.m.tly.spanE ∧ tel * 2 ^ 16 / s.m.tly.spanE ≤ 81920 ∧ g = (max 57344 (min 73728 ((s.m.tly.gain : Int) + (s.m.tly.gain * ((tel * 2 ^ 16 / s.m.tly.spanE : Nat) - 65536 : Int)) / 2 ^ 18))).toNat) :=
  ⟨⟨3, 2, 511, (st id), by and_intros <;> decide +kernel⟩,
   ⟨7, (st id), by and_intros <;> decide +kernel⟩,
   ⟨4, 39, 28, 0, 2 ^ 64 - 1, (st id), by decide +kernel, by decide +kernel, by decide +kernel, by decide +kernel, by decide +kernel, by decide +kernel, by decide +kernel, (fun h => absurd h (by decide)), by and_intros <;> decide +kernel⟩,
   ⟨3, 27, 2 ^ 64 - 1, 0, (st id), by and_intros <;> decide +kernel⟩,
   ⟨4, 63, by and_intros <;> decide +kernel⟩,
   ⟨0, 27, rec0 0, broken 0, by and_intros <;> decide +kernel⟩,
   ⟨0, 27, rec0 1, broken 1, by and_intros <;> decide +kernel⟩,
   ⟨0, spanned, by and_intros <;> decide +kernel⟩,
   ⟨65536, spanned, _, by and_intros <;> first | decide +kernel | rfl⟩⟩

theorem witness_TheErrorPairIsReadBack :
    (∃ (s : State), s.m.shep.booted = true ∧ s.m.flt.pairEq + 1 ≠ 10)
    ∧ (∃ (s : State), s.m.shep.booted = true ∧ s.m.flt.pairEq + 1 = 10)
    ∧ (∃ (p : Bool) (n : _) (s : State), s.m.shep.booted = true ∧ p ≠ n) :=
  ⟨⟨(st id), by and_intros <;> decide +kernel⟩,
   ⟨(st fun m => { m with flt := { m.flt with pairEq := 9 } }), by and_intros <;> decide +kernel⟩,
   ⟨true, false, (st id), by and_intros <;> decide +kernel⟩⟩

theorem witness_BootAndStandbyOfTheModule :
    (∃ (d : _) (links : _) (units : _) (macros : List Nat) (s : State) (lost : _) (bad : _) (m₀ : _) (m : _), d < 4 ∧ links < 32 ∧ units < 2 ^ 28 ∧ macros.all (fun k => decide (k < 1920)) = true ∧ dieState d s.m = DieSt.booting ∧ s.m.shep.booted = true ∧ s.m.flt.stopped = false ∧ lost = linksFailed d links s.m ∧ bad = setBit units 22 (bit units 22 || !lost.isEmpty) ∧ m₀ = { s.m with d2dFail := lost.foldl (fun l j => NMap.set false l (pairIx d j) true) s.m.d2dFail, bst := { s.m.bst with badUnit := (bitList 28 bad).foldl (fun l u => NMap.set false l (d * 32 + u) true) s.m.bst.badUnit, bad := macros.foldl (fun l k => if k < 1920 then NMap.set false l (d * 2048 + k) true else l) s.m.bst.bad } } ∧ m = wr F.BST_BOOT_FAILED_AT_START d 0 (macrosBad d m₀) (linksTrained d links m₀))
    ∧ (∃ (s : State), s.m.shep.booted = true)
    ∧ (∃ (mask : _) (s : State), mask < 32 ∧ s.m.tly.mstate = 3)
    ∧ (∃ (l : List TestRes) (s : State), l.all (fun r => dieOk r.die && r.failed.all (fun k => decide (k < 1920))) = true ∧ (s.m.azx.jobs.any (fun j => j.wait == .testAll)) = true) :=
  ⟨⟨3, 31, 2 ^ 28 - 1, [0, 1919], (st (die 3 DieSt.booting)), _, _, _, _, by and_intros <;> first | decide +kernel | rfl⟩,
   ⟨(st id), by decide +kernel⟩,
   ⟨31, (st (setMState 3)), by and_intros <;> decide +kernel⟩,
   ⟨[], (st (waits .testAll)), by and_intros <;> decide +kernel⟩⟩

theorem witness_HostLinksGoDownAndComeUp :
    (∃ (d : _), d < 4)
    ∧ (∃ (d : _), d < 4)
    ∧ (∃ (d : _) (p : _), d < 4 ∧ p < 2)
    ∧ (∃ (d : _) (p : _) (w : _) (v : _) (s : State), d < 4 ∧ p < 2 ∧ ((dieState d s.m = DieSt.active ∨ dieState d s.m = DieSt.quarantine)) ∧ NMap.get false s.m.hif.released d = true ∧ NMap.get false s.m.hif.perst d = false ∧ w ∈ linkWidths d p s.m ∧ v ∈ [4, 5, 6] ∧ ((rdB F.HIF_STATUS_LINK_UP d p s.m = false ∨ rd F.HIF_LINK_STATUS_SPEED d p s.m ≠ v ∨ rd F.HIF_LINK_STATUS_WIDTH d p s.m < w)))
    ∧ (∃ (d : _) (p : _) (w : _) (v : _) (s : State), d < 4 ∧ p < 2 ∧ ((dieState d s.m = DieSt.active ∨ dieState d s.m = DieSt.quarantine)) ∧ NMap.get false s.m.hif.released d = true ∧ NMap.get false s.m.hif.perst d = false ∧ w ∈ linkWidths d p s.m ∧ v ∈ [4, 5, 6] ∧ rdB F.HIF_STATUS_LINK_UP d p s.m = true ∧ rd F.HIF_LINK_STATUS_SPEED d p s.m = v ∧ w ≤ rd F.HIF_LINK_STATUS_WIDTH d p s.m)
    ∧ (∃ (d : _) (p : _) (w : _) (v : _) (s : State), d < 4 ∧ p < 2 ∧ ((hostUp d s.m = false ∨ dieState d s.m = DieSt.sleep ∨ NMap.get false s.m.hif.released d = false ∨ NMap.get false s.m.hif.perst d = true ∨ w ∉ linkWidths d p s.m ∨ v ∉ [4, 5, 6]))) :=
  ⟨⟨3, by decide +kernel⟩,
   ⟨3, by decide +kernel⟩,
   ⟨3, 1, by and_intros <;> decide +kernel⟩,
   ⟨3, 0, 16, 6, (st fun m => { (wrB F.HIF_STATUS_LINK_UP 3 0 false m) with hif := { m.hif with released := [(3, true)] } }), by and_intros <;> decide +kernel⟩,
   ⟨3, 0, 16, 6, (st fun m => { (wr F.HIF_LINK_STATUS_SPEED 3 0 6 (wr F.HIF_LINK_STATUS_WIDTH 3 0 16 m)) with hif := { m.hif with released := [(3, true)] } }), by and_intros <;> decide +kernel⟩,
   ⟨3, 1, 1, 4, (st id), by and_intros <;> decide +kernel⟩⟩

theorem witness_FunctionStatesChangeByTheirTriggers :
    (∃ (d : _) (f : _) (s : State), d < 4 ∧ f < 1026 ∧ hostUp d s.m = true ∧ fnState d f s.m = FnSt.disabled ∧ fnExists d f s.m = true ∧ inD3 d f s.m = false ∧ bme d f s.m = true ∧ rdB F.HIF_CTRL_ENABLE d 0 s.m = true)
    ∧ (∃ (d : _) (f : _) (s : State), d < 4 ∧ f < 1026 ∧ hostUp d s.m = true ∧ cfgReaches d f s.m = true ∧ bme d f s.m = true)
    ∧ (∃ (d : _) (f : _) (s : State), d < 4 ∧ f < 1026 ∧ hostUp d s.m = true ∧ cfgReaches d f s.m = true ∧ fnState d f s.m = FnSt.halted)
    ∧ (∃ (d : _) (f : _) (s : State), d < 4 ∧ f < 1026 ∧ hostUp d s.m = true ∧ cfgReaches d f s.m = true ∧ fnState d f s.m ≠ FnSt.halted)
    ∧ (∃ (d : _) (f : _) (s : State), d < 4 ∧ f < 1026 ∧ hostUp d s.m = true ∧ fnState d f s.m = FnSt.draining ∧ drained d f s.m = true)
    ∧ (∃ (d : _) (f : _) (s : State), d < 4 ∧ f < 1026 ∧ hostUp d s.m = true ∧ fnExists d f s.m = true ∧ inD3 d f s.m = false ∧ ((fnState d f s.m = FnSt.disabled ∨ fnState d f s.m = FnSt.halted)))
    ∧ (∃ (d : _) (f : _) (s : State), d < 4 ∧ f < 1026 ∧ hostUp d s.m = true ∧ fnExists d f s.m = true ∧ inD3 d f s.m = false ∧ ((fnState d f s.m = FnSt.running ∨ fnState d f s.m = FnSt.draining)))
    ∧ (∃ (d : _) (f : _) (s : State), d < 4 ∧ f < 1026 ∧ hostUp d s.m = true ∧ inD3 d f s.m = true ∧ fnExists d f s.m = true ∧ isPf d f s.m = false)
    ∧ (∃ (d : _) (f : _) (s : State), d < 4 ∧ f < 1026 ∧ hostUp d s.m = true ∧ inD3 d f s.m = true ∧ isPf d f s.m = true)
    ∧ (∃ (d : _) (f : _) (s : State), d < 4 ∧ f < 1026 ∧ ((hostUp d s.m = false ∨ inD3 d f s.m = false)))
    ∧ (∃ (d : _) (f : _) (s : State), d < 4 ∧ f < 1026 ∧ cfgReaches d f s.m = false) :=
  ⟨⟨3, 1024, (st (updHif fun h => { h with vfEn := [(6, true)], numVf := [(6, 1024)], bme := [(fk 3 1024, true)] })), by and_intros <;> decide +kernel⟩,
   ⟨0, 0, (st fun m => (updHif (fun h => { h with bme := [(fk 0 0, true)] }) (m))), by and_intros <;> decide +kernel⟩,
   ⟨0, 0, (st fun m => wr F.HIF_FN_STATE 0 0 FnSt.halted m), by and_intros <;> decide +kernel⟩,
   ⟨0, 0, (st id), by and_intros <;> decide +kernel⟩,
   ⟨0, 0, (st fun m => wr F.HIF_FN_STATE 0 0 FnSt.draining m), by and_intros <;> decide +kernel⟩,
   ⟨0, 0, (st fun m => wr F.HIF_FN_STATE 0 0 FnSt.halted m), by and_intros <;> decide +kernel⟩,
   ⟨0, 0, (st fun m => wr F.HIF_FN_STATE 0 0 FnSt.running m), by and_intros <;> decide +kernel⟩,
   ⟨3, 1024, (st (updHif fun h => { h with d3 := [(fk 3 1024, true)], vfEn := [(6, true)], numVf := [(6, 1024)], bme := [(fk 3 1024, true)] })), by and_intros <;> decide +kernel⟩,
   ⟨3, 1025, (st fun m => (updHif (fun h => { h with d3 := [(fk 3 1025, true)] }) ({ m with flash := { m.flash with bifur := 15 } }))), by and_intros <;> decide +kernel⟩,
   ⟨3, 1025, (st id), by and_intros <;> decide +kernel⟩,
   ⟨3, 1025, (st id), by and_intros <;> decide +kernel⟩⟩

theorem witness_FunctionLevelResets :
    (∃ (d : _) (f : _) (s : State), d < 4 ∧ f < 1026 ∧ hostUp d s.m = true ∧ fnExists d f s.m = true ∧ isPf d f s.m = false)
    ∧ (∃ (d : _) (f : _) (s : State), d < 4 ∧ f < 1026 ∧ hostUp d s.m = true ∧ isPf d f s.m = true)
    ∧ (∃ (d : _) (f : _) (s : State), d < 4 ∧ f < 1026 ∧ hostUp d s.m = true)
    ∧ (∃ (d : _) (f : _) (s : State), d < 4 ∧ f < 1026 ∧ hostUp d s.m = true)
    ∧ (∃ (d : _) (p : _) (n : _) (s : State), d < 4 ∧ p < 2 ∧ n ≤ 1024 ∧ hostUp d s.m = true ∧ cfgReaches d (pfFn p) s.m = true ∧ NMap.get false s.m.hif.vfEn (d * 2 + p) = false)
    ∧ (∃ (d : _) (p : _) (n : _) (s : State), d < 4 ∧ p < 2 ∧ n ≤ 1024 ∧ hostUp d s.m = true ∧ cfgReaches d (pfFn p) s.m = true ∧ NMap.get false s.m.hif.vfEn (d * 2 + p) = true)
    ∧ (∃ (d : _) (p : _) (s : State), d < 4 ∧ p < 2 ∧ hostUp d s.m = true ∧ cfgReaches d (pfFn p) s.m = true)
    ∧ (∃ (d : _) (p : _) (n : _) (s : State), d < 4 ∧ p < 2 ∧ hostUp d s.m = true ∧ 30 ≤ n ∧ n ≤ 40 ∧ cfgReaches d (pfFn p) s.m = true)
    ∧ (∃ (d : _) (p : _) (n : _) (s : State), d < 4 ∧ p < 2 ∧ ((n < 30 ∨ 40 < n ∨ cfgReaches d (pfFn p) s.m = false))) :=
  ⟨⟨3, 1024, (st (updHif fun h => { h with vfEn := [(6, true)], numVf := [(6, 1024)], bme := [(fk 3 1024, true)] })), by and_intros <;> decide +kernel⟩,
   ⟨0, 0, (st id), by and_intros <;> decide +kernel⟩,
   ⟨0, 1025, (st id), by and_intros <;> decide +kernel⟩,
   ⟨0, 1025, (st id), by and_intros <;> decide +kernel⟩,
   ⟨3, 1, 1024, (st fun m => { m with flash := { m.flash with bifur := 15 } }), by and_intros <;> decide +kernel⟩,
   ⟨3, 0, 0, (st (updHif fun h => { h with vfEn := [(6, true)], numVf := [(6, 1024)], bme := [(fk 3 1024, true)] })), by and_intros <;> decide +kernel⟩,
   ⟨3, 1, (st fun m => { m with flash := { m.flash with bifur := 15 } }), by and_intros <;> decide +kernel⟩,
   ⟨3, 1, 40, (st fun m => { m with flash := { m.flash with bifur := 15 } }), by and_intros <;> decide +kernel⟩,
   ⟨3, 1, 41, (st id), by and_intros <;> decide +kernel⟩⟩

theorem witness_HostReadTagsAreUsedOnce :
    (∃ (d : _) (t : _) (g : _) (s : State), d < 4 ∧ t < 1024 ∧ hostUp d s.m = true ∧ tagOf d t s.m = some g ∧ g.quar = false)
    ∧ (∃ (d : _) (t : _) (g : _) (s : State), d < 4 ∧ t < 1024 ∧ hostUp d s.m = true ∧ tagOf d t s.m = some g ∧ g.quar = true)
    ∧ (∃ (d : _) (t : _) (s : State), d < 4 ∧ t < 1024 ∧ hostUp d s.m = true ∧ tagOf d t s.m = none)
    ∧ (∃ (d : _) (t : _) (g : _) (s : State), d < 4 ∧ t < 1024 ∧ hostUp d s.m = true ∧ tagOf d t s.m = some g ∧ g.quar = false)
    ∧ (∃ (d : _) (t : _) (g : _) (s : State), d < 4 ∧ t < 1024 ∧ hostUp d s.m = true ∧ tagOf d t s.m = some g ∧ g.quar = true)
    ∧ (∃ (d : _) (q : _) (t : _) (s : State), d < 4 ∧ hostUp d s.m = true ∧ s.m.hif.waitQ.find? (fun q => q.die == d && (tagFor q s.m).isSome) = some q ∧ tagFor q s.m = some t) :=
  ⟨⟨3, 1023, { fn := 0, work := .discard, quar := false }, (st (updHif fun h => { h with tags := [(tk 3 1023, { fn := 0, work := .discard, quar := false })] })), by and_intros <;> decide +kernel⟩,
   ⟨3, 1023, { fn := 0, work := .discard, quar := true }, (st (updHif fun h => { h with tags := [(tk 3 1023, { fn := 0, work := .discard, quar := true })] })), by and_intros <;> decide +kernel⟩,
   ⟨3, 1023, (st id), by and_intros <;> decide +kernel⟩,
   ⟨3, 1023, { fn := 0, work := .discard, quar := false }, (st (updHif fun h => { h with tags := [(tk 3 1023, { fn := 0, work := .discard, quar := false })] })), by and_intros <;> decide +kernel⟩,
   ⟨3, 1023, { fn := 0, work := .discard, quar := true }, (st (updHif fun h => { h with tags := [(tk 3 1023, { fn := 0, work := .discard, quar := true })] })), by and_intros <;> decide +kernel⟩,
   ⟨0, { die := 0, fn := 0, addr := 0, len := 64, work := .discard, inb := true }, 768, (st (updHif fun h => { h with bme := [(0, true)], waitQ := [{ die := 0, fn := 0, addr := 0, len := 64, work := .discard, inb := true }] })), by and_intros <;> decide +kernel⟩⟩

theorem witness_MsixVectorsPendAndFire :
    (∃ (d : _) (f : _) (v : _) (a : _) (x : _) (s : State), d < 4 ∧ f < 1026 ∧ v < 2048 ∧ a < 2 ^ 64 ∧ x < 2 ^ 32 ∧ hostUp d s.m = true ∧ fnExists d f s.m = true ∧ v < vecCount d f s.m)
    ∧ (∃ (d : _) (f : _) (v : _) (s : State), d < 4 ∧ f < 1026 ∧ v < 2048 ∧ hostUp d s.m = true ∧ v < vecCount d f s.m ∧ NMap.get false s.m.hif.pba (vk d f v) = true ∧ (msixEnt d f v s.m).masked = false ∧ canIssue d f s.m = true)
    ∧ (∃ (d : _) (f : _) (v : _) (s : State), d < 4 ∧ f < 1026 ∧ v < 2048 ∧ hostUp d s.m = true ∧ ((NMap.get false s.m.hif.pba (vk d f v) = false ∨ (msixEnt d f v s.m).masked = true ∨ canIssue d f s.m = false))) :=
  ⟨⟨0, 0, 2047, 2 ^ 64 - 1, 2 ^ 32 - 1, (st id), by and_intros <;> decide +kernel⟩,
   ⟨0, 0, 2047, (st (updHif fun h => { h with bme := [(fk 0 0, true)], pba := [(vk 0 0 2047, true)], msix := [(vk 0 0 2047, { MsixEnt.reset with masked := false })] })), by and_intros <;> decide +kernel⟩,
   ⟨0, 0, 2047, (st id), by and_intros <;> decide +kernel⟩⟩

theorem witness_AzrixRingsTakeCommands :
    (∃ (d : _) (f : _) (s : State), d < 4 ∧ f < 1026 ∧ hostUp d s.m = true ∧ curB F.AZX_CTRL_ENABLE d f s.m = false)
    ∧ (∃ (d : _) (f : _) (s : State), d < 4 ∧ f < 1026 ∧ hostUp d s.m = true ∧ curB F.AZX_CTRL_ENABLE d f s.m = true)
    ∧ (∃ (d : _) (f : _) (s : State), d < 4 ∧ f < 1026 ∧ hostUp d s.m = true)
    ∧ (∃ (d : _) (f : _) (i : _) (s : State), d < 4 ∧ f < 1026 ∧ i < 65536 ∧ hostUp d s.m = true)
    ∧ (∃ (ans : HostAns) (n : _) (ent : Bytes) (s : State) (d : _) (f : _) (m1 : _) (m2 : _) (m3 : _) (m4 : _), nextSource (takeable s.m) s.m = some n ∧ n ≠ 8192 ∧ d = n / 2048 ∧ f = n % 2048 ∧ m1 = updAzx (fun a => { a with next := n + 1 }) s.m ∧ accessBus d f (cur F.AZX_CMD_BASE_ADDR d f m1 * 64 + 64 * rd F.AZX_CMD_HEAD_INDEX d f m1) 64 0 m1 = (true, m2) ∧ readPieces d f false ans [(cur F.AZX_CMD_BASE_ADDR d f m1 * 64 + 64 * rd F.AZX_CMD_HEAD_INDEX d f m1, 64)] m2 = (some ent, m3) ∧ m4 = wr F.AZX_CMD_HEAD_INDEX d f ((rd F.AZX_CMD_HEAD_INDEX d f m1 + 1) % cmdSize d f m3) m3 ∧ AzCmd.argLen { iss := some (d, f), ent := ent, buf := none } = 0)
    ∧ (∃ (ans : HostAns) (n : _) (ent : Bytes) (s : State) (d : _) (f : _) (m1 : _) (m2 : _) (m3 : _) (m4 : _) (r : AzRow) (b : _) (m5 : _), nextSource (takeable s.m) s.m = some n ∧ n ≠ 8192 ∧ d = n / 2048 ∧ f = n % 2048 ∧ m1 = updAzx (fun a => { a with next := n + 1 }) s.m ∧ accessBus d f (cur F.AZX_CMD_BASE_ADDR d f m1 * 64 + 64 * rd F.AZX_CMD_HEAD_INDEX d f m1) 64 0 m1 = (true, m2) ∧ readPieces d f false ans [(cur F.AZX_CMD_BASE_ADDR d f m1 * 64 + 64 * rd F.AZX_CMD_HEAD_INDEX d f m1, 64)] m2 = (some ent, m3) ∧ m4 = wr F.AZX_CMD_HEAD_INDEX d f ((rd F.AZX_CMD_HEAD_INDEX d f m1 + 1) % cmdSize d f m3) m3 ∧ azRow (AzCmd.op { iss := some (d, f), ent := ent, buf := none }) m4 = some r ∧ r.reads = true ∧ AzCmd.argLen { iss := some (d, f), ent := ent, buf := none } ≠ 0 ∧ AzCmd.argLen { iss := some (d, f), ent := ent, buf := none } ≤ 67108864 ∧ readPieces d f false ans [(AzCmd.argAddr { iss := some (d, f), ent := ent, buf := none }, AzCmd.argLen { iss := some (d, f), ent := ent, buf := none })] m4 = (b, m5))
    ∧ (∃ (n : _) (s : State) (d : _) (f : _) (m1 : _) (m2 : _), nextSource (takeable s.m) s.m = some n ∧ n ≠ 8192 ∧ d = n / 2048 ∧ f = n % 2048 ∧ m1 = updAzx (fun a => { a with next := n + 1 }) s.m ∧ accessBus d f (cur F.AZX_CMD_BASE_ADDR d f m1 * 64 + 64 * rd F.AZX_CMD_HEAD_INDEX d f m1) 64 0 m1 = (false, m2))
    ∧ (∃ (c : _) (q : _) (s : State), nextSource (takeable s.m) s.m = some 8192 ∧ s.m.azx.mgmtQ = c :: q)
    ∧ (∃ (s : State), nextSource (takeable s.m) s.m = none)
    ∧ (∃ (ent : Bytes) (s : State), ent.length = 64 ∧ s.m.shep.bootFail = false ∧ s.m.shep.booted = true) :=
  ⟨⟨0, 1025, (st id), by and_intros <;> decide +kernel⟩,
   ⟨3, 1025, (st (force F.AZX_CTRL_ENABLE 3 1025 1)), by and_intros <;> decide +kernel⟩,
   ⟨0, 1025, (st id), by and_intros <;> decide +kernel⟩,
   ⟨0, 0, 65535, (st id), by and_intros <;> decide +kernel⟩,
   ⟨[(0, zeros 64)], 0, zeros 64, ring1, 0, 0, _, ringM2, (readPieces 0 0 false [(0, zeros 64)] [(0, 64)] ringM2).2, _, by and_intros <;> first | decide +kernel | rfl⟩,
   ⟨ringAns, 0, ringEnt, ring1, 0, 0, _, ringM2, (readPieces 0 0 false ringAns [(0, 64)] ringM2).2, ringM4, azPathLoad, some (zeros 128), (readPieces 0 0 false ringAns [(4096, 128)] ringM4).2, by and_intros <;> first | decide +kernel | rfl⟩,
   ⟨0, (st fun m => ringOf (force F.ACP_DEFAULT_PERM 0 0 0 m)), 0, 0, _, (accessBus 0 0 0 64 0 (updAzx (fun a => { a with next := 1 }) (ringOf (force F.ACP_DEFAULT_PERM 0 0 0 served)))).2, by and_intros <;> first | decide +kernel | rfl⟩,
   ⟨{ iss := none, ent := zeros 64, buf := none }, [], (st fun m => updAzx (fun a => { a with mgmtQ := [{ iss := none, ent := zeros 64, buf := none }] }) m), by and_intros <;> decide +kernel⟩,
   ⟨(st id), by decide +kernel⟩,
   ⟨zeros 64, (st id), by and_intros <;> decide +kernel⟩⟩

theorem witness_ShepherdProceduresEnd :
    (∃ (d : _) (t : _) (j : _) (w : _) (a : _) (s : State), d < 4 ∧ t < 16 ∧ t ≠ 4 ∧ s.m.azx.jobs.find? (fun j => j.wait.pushes t d) = some j ∧ j.wait = .push t w a)
    ∧ (∃ (d : _) (l : _) (s : State), d < 4 ∧ l < 32 ∧ (s.m.azx.jobs.any (fun j => j.wait == .dieTest d)) = true)
    ∧ (∃ (d : _) (u : _) (s : State), d < 4 ∧ u < 28 ∧ (s.m.azx.jobs.any (fun j => j.wait == .unitTest d u)) = true)
    ∧ (∃ (d : _) (j : _) (b : _) (s : State), d < 4 ∧ s.m.azx.jobs.find? (fun j => j.wait.drains d) = some j ∧ j.wait = .drain d b ∧ dieIdle d s.m = false)
    ∧ (∃ (d : _) (j : _) (b : _) (s : State), d < 4 ∧ s.m.tly.mstate ≠ 3 ∧ (dieSleep d b s.m).tly.mstate ≠ 3 ∧ s.m.azx.jobs.find? (fun j => j.wait.drains d) = some j ∧ j.wait = .drain d b ∧ dieIdle d s.m = true)
    ∧ (∃ (d : _) (s : State), d < 4 ∧ dieState d s.m = DieSt.quarantine)
    ∧ (∃ (d : _) (s : State), d < 4 ∧ dieActive d s.m = true)
    ∧ (∃ (d : _) (s : State), d < 4 ∧ dieState d s.m = DieSt.quarantine ∧ ((NMap.get false s.m.shep.waits d = false ∨ mayActivate d s.m = true))) :=
  ⟨⟨3, 15, (jobOf (.push 15 8 0)), 8, 0, (st (waits (.push 15 8 0))), by and_intros <;> decide +kernel⟩,
   ⟨3, 31, (st (waits (.dieTest 3))), by and_intros <;> decide +kernel⟩,
   ⟨3, 27, (st (waits (.unitTest 3 27))), by and_intros <;> decide +kernel⟩,
   ⟨0, (jobOf (.drain 0 true)), true, (st fun m => waits (.drain 0 true) (updDrun 0 0 (fun r => { r with state := 2 }) m)), by and_intros <;> decide +kernel⟩,
   ⟨0, (jobOf (.drain 0 true)), true, (st fun m => waits (.drain 0 true) m), by and_intros <;> decide +kernel⟩,
   ⟨3, (st (die 3 DieSt.quarantine)), by and_intros <;> decide +kernel⟩,
   ⟨3, (st id), by and_intros <;> decide +kernel⟩,
   ⟨3, (st (die 3 DieSt.quarantine)), by and_intros <;> decide +kernel⟩⟩

theorem witness_ClocksReachTheirBoundaries :
    (∃ (d : _) (m : Sys2Proof.Machine.Mod), (clock d m).run = true ∧ -219902325 ≤ (clock d m).trim)
    ∧ (∃ (d : _) (s : State) (m : _), d < 4 ∧ (clock d s.m).run = true ∧ m = runTo d (((clock d s.m).cyc + 1) * 1024) s.m)
    ∧ (∃ (s : State) (m : _), (clock 4 s.m).run = true ∧ m = runTo 4 (((clock 4 s.m).cyc + 1) * 1024) s.m)
    ∧ (∃ (d : _) (s : State) (m : _), d < 4 ∧ (clock d s.m).run = true ∧ m = runTo d (((clock d s.m).slot + 1) * 256) s.m)
    ∧ (∃ (s : State), (clock 4 s.m).run = true)
    ∧ (∃ (d : _) (s : State), d < 4 ∧ (clock d s.m).run = true)
    ∧ (∃ (s : State), (clock 4 s.m).run = true)
    ∧ (∃ (d : _) (s : State), d < 4 ∧ (clock d s.m).run = true)
    ∧ (∃ (d : _) (s : State), d < 5 ∧ (clock d s.m).run = false) :=
  ⟨⟨3, (st (setClock 3 { Clock.reset with run := true, trim := -219902325 })).m, by and_intros <;> decide +kernel⟩,
   ⟨3, (st id), _, by decide +kernel, by decide +kernel, rfl⟩,
   ⟨(st id), _, by decide +kernel, rfl⟩,
   ⟨3, (st id), _, by decide +kernel, by decide +kernel, rfl⟩,
   ⟨(st id), by decide +kernel⟩,
   ⟨3, (st id), by and_intros <;> decide +kernel⟩,
   ⟨(st id), by decide +kernel⟩,
   ⟨3, (st id), by and_intros <;> decide +kernel⟩,
   ⟨4, State.reset, by and_intros <;> decide +kernel⟩⟩

theorem witness_AlarmsPulsesAndTimeMessages :
    (∃ (d : _) (i : _) (s : State) (t : _) (m : _) (n : _), d < 4 ∧ i < 32 ∧ hostUp d s.m = true ∧ curB F.ETL_ALARM_CTL_ARM d i s.m = true ∧ (clock d s.m).run = true ∧ t = (clock d s.m).notBefore (cur F.ETL_ALARM_CMP_CMP d i s.m) ∧ m = (if t ≤ now d s.m then s.m else runTo d t s.m) ∧ cur F.ETL_ALARM_CTL_PERIOD d i m = 0 ∧ n = count d 675 1 (force F.ETL_ALARM_CTL_ARM d i 0 m))
    ∧ (∃ (d : _) (i : _) (p : _) (s : State) (t : _) (m : _) (n : _), d < 4 ∧ i < 32 ∧ hostUp d s.m = true ∧ curB F.ETL_ALARM_CTL_ARM d i s.m = true ∧ (clock d s.m).run = true ∧ t = (clock d s.m).notBefore (cur F.ETL_ALARM_CMP_CMP d i s.m) ∧ m = (if t ≤ now d s.m then s.m else runTo d t s.m) ∧ cur F.ETL_ALARM_CTL_PERIOD d i m = p ∧ p ≠ 0 ∧ n = count d 675 1 (force F.ETL_ALARM_CMP_CMP d i (cur F.ETL_ALARM_CMP_CMP d i s.m + ((now d m - cur F.ETL_ALARM_CMP_CMP d i s.m) / p + 1) * p) m))
    ∧ (∃ (d : _) (p : _) (b : Bytes) (s : State), d < 4 ∧ p < 32 ∧ b.length = 24 ∧ hostUp d s.m = true ∧ rdB F.LNE_QCTRL_COMPAT d (p / 2) s.m = false ∧ rdLE b 22 2 ≠ crc16 (sub b 0 22))
    ∧ (∃ (d : _) (p : _) (b : Bytes) (s : State), d < 4 ∧ p < 32 ∧ b.length = 24 ∧ hostUp d s.m = true ∧ rdB F.LNE_QCTRL_COMPAT d (p / 2) s.m = false ∧ rdLE b 22 2 = crc16 (sub b 0 22))
    ∧ (∃ (s : State), s.m.tm.gmOn = true ∧ s.m.tm.ppsOn = true ∧ s.m.tm.standby = false)
    ∧ (∃ (s : State), ((s.m.tm.gmOn = false ∨ s.m.tm.ppsOn = false ∨ s.m.tm.standby = true)))
    ∧ (∃ (s : State) (m : _), (clock 4 s.m).run = true ∧ m = runTo 4 ((max (now 4 s.m) (clock 4 s.m).high / 1000000000 + 1) * 1000000000) s.m ∧ m.tm.state ≠ 0)
    ∧ (∃ (s : State), (clock 4 s.m).run = false)
    ∧ (∃ (s : State) (m : _), s.m.tm.ppsHigh = true ∧ m = runTo 4 (now 4 s.m / 1000000000 * 1000000000 + 100000) s.m) :=
  ⟨⟨3, 31, (st fun m => force F.ETL_ALARM_CTL_ARM 3 31 1 m), 0, _, _, by and_intros <;> first | decide +kernel | rfl⟩,
   ⟨3, 31, 2 ^ 30, (st fun m => force F.ETL_ALARM_CTL_PERIOD 3 31 (2 ^ 30) (force F.ETL_ALARM_CTL_ARM 3 31 1 m)), 0, _, _, by and_intros <;> first | decide +kernel | rfl⟩,
   ⟨3, 31, (zeros 24), (st id), by and_intros <;> decide +kernel⟩,
   ⟨3, 31, (zeros 22 ++ leBytes 2 (crc16 (zeros 22))), (st id), by and_intros <;> decide +kernel⟩,
   ⟨(st fun m => { m with tm := { m.tm with gmOn := true, ppsOn := true } }), by and_intros <;> decide +kernel⟩,
   ⟨(st id), by decide +kernel⟩,
   ⟨(st fun m => { m with tm := { m.tm with state := 1 } }), _, by decide +kernel, rfl, by decide +kernel⟩,
   ⟨State.reset, by decide +kernel⟩,
   ⟨(st fun m => { m with tm := { m.tm with ppsHigh := true } }), _, by decide +kernel, rfl⟩⟩

theorem witness_LaneTrainingMovesThroughItsStates :
    (∃ (d : _) (q : _) (s : State), d < 4 ∧ q < 16 ∧ hostUp d s.m = true ∧ curB F.LNE_QCTRL_ENABLE d q s.m = false ∧ unitUp d q (force F.LNE_QCTRL_ENABLE d q 1 s.m) = true)
    ∧ (∃ (pc : _) (s : State), pc < 128 ∧ hostUp (pc / 32) s.m = true ∧ pst pc s.m = 1)
    ∧ (∃ (pc : _) (s : State), pc < 128 ∧ hostUp (pc / 32) s.m = true ∧ pst pc s.m ≠ 1)
    ∧ (∃ (pc : _) (found : List (Nat × Nat)) (s : State), pc < 128 ∧ hostUp (pc / 32) s.m = true ∧ found.length ≤ 4 ∧ found.all (fun x => decide (x.1 < 16)) = true ∧ pst pc s.m = 2)
    ∧ (∃ (pc : _) (found : List (Nat × Nat)) (s : State), pc < 128 ∧ hostUp (pc / 32) s.m = true ∧ found.length ≤ 4 ∧ found.all (fun x => decide (x.1 < 16)) = true ∧ pst pc s.m = 6)
    ∧ (∃ (pc : _) (s : State), pc < 128 ∧ hostUp (pc / 32) s.m = true ∧ pst pc s.m = 3)
    ∧ (∃ (pc : _) (s : State), pc < 128 ∧ hostUp (pc / 32) s.m = true ∧ pst pc s.m = 4)
    ∧ (∃ (pc : _) (ln : _) (id : _) (b : Bytes) (s : State), pc < 128 ∧ hostUp (pc / 32) s.m = true ∧ ln < 4 ∧ id < 4 ∧ b.length = 32 ∧ ((rdLE b 30 2 ≠ crc16 (sub b 0 30) ∨ (portLanes pc s.m).contains ln = false)))
    ∧ (∃ (pc : _) (ln : _) (id : _) (b : Bytes) (s : State), pc < 128 ∧ hostUp (pc / 32) s.m = true ∧ ln < 4 ∧ id < 4 ∧ b.length = 32 ∧ rdLE b 30 2 = crc16 (sub b 0 30) ∧ (portLanes pc s.m).contains ln = true ∧ id ≠ ln)
    ∧ (∃ (pc : _) (ln : _) (b : Bytes) (s : State) (m : _), pc < 128 ∧ hostUp (pc / 32) s.m = true ∧ ln < 4 ∧ b.length = 32 ∧ rdLE b 30 2 = crc16 (sub b 0 30) ∧ (portLanes pc s.m).contains ln = true ∧ m = updLp pc (fun l => { l with last := some (4, rdLE b 8 2, rdLE b 10 1) }) (updLp pc (fun l => { l with heard := setBit l.heard ln true }) s.m) ∧ bit (rdLE b 1 1) 0 = compat pc s.m ∧ (lport pc s.m).last ≠ some (4, rdLE b 8 2, rdLE b 10 1) ∧ pst pc s.m = 4 ∧ rdLE b 0 1 = 4)
    ∧ (∃ (pc : _) (a : _) (b : _) (c : _) (e : _) (h : _) (s : State) (x : _) (g : _) (y : _) (m : _), pc < 128 ∧ hostUp (pc / 32) s.m = true ∧ pst pc s.m = 5 ∧ x = loopbackMeasure (pc / 32) (pc % 32) a b c e h s.m ∧ g = prd F.LNE_PORT_STATUS_LANES pc x ∧ y = pwr F.LNE_PORT_STATUS_RX_SET pc g (pwr F.LNE_PORT_STATUS_TX_SET pc g (each (bitList 4 g) (fun l m => setDir pc l 1 0 (setDir pc l 0 0 m)) x)) ∧ m = linkPortUp pc (setPst pc 6 (updLp pc (fun l => { l with tx := 0, last := none, peer := none, ready := false, req := false, agreed := none, leave := false, restart := true, rxOn := false, idleAt := now (pc / 32) y }) y)))
    ∧ (∃ (pc : _) (s : State), pc < 128 ∧ hostUp (pc / 32) s.m = true ∧ pst pc s.m = 6)
    ∧ (∃ (pc : _) (s : State), pc < 128 ∧ hostUp (pc / 32) s.m = true ∧ pst pc s.m = 6 ∧ (lport pc s.m).req = true)
    ∧ (∃ (pc : _) (s : State), pc < 128 ∧ hostUp (pc / 32) s.m = true ∧ pst pc s.m ≠ 6) :=
  ⟨⟨3, 15, (st id), by and_intros <;> decide +kernel⟩,
   ⟨127, (st fun m => (setPst 127 1 (m))), by and_intros <;> decide +kernel⟩,
   ⟨127, (st id), by and_intros <;> decide +kernel⟩,
   ⟨127, [(15, 0)], (st fun m => (setPst 127 2 (m))), by and_intros <;> decide +kernel⟩,
   ⟨127, [], (st fun m => (setPst 127 6 (m))), by and_intros <;> decide +kernel⟩,
   ⟨127, (st fun m => (setPst 127 3 (m))), by and_intros <;> decide +kernel⟩,
   ⟨127, (st fun m => (setPst 127 4 (m))), by and_intros <;> decide +kernel⟩,
   ⟨127, 3, 3, (zeros 32), (st id), by and_intros <;> decide +kernel⟩,
   ⟨126, 3, 2, (zeros 30 ++ leBytes 2 (crc16 (zeros 30))), (st id), by and_intros <;> decide +kernel⟩,
   ⟨126, 3, (leBytes 1 4 ++ zeros 29 ++ leBytes 2 (crc16 (leBytes 1 4 ++ zeros 29))), (st fun m => (setPst 126 4 (m))), _, by and_intros <;> first | decide +kernel | rfl⟩,
   ⟨127, 0, 0, 0, 0, 0, (st fun m => (setPst 127 5 (m))), _, _, _, _, by and_intros <;> first | decide +kernel | rfl⟩,
   ⟨127, (st fun m => (setPst 127 6 (m))), by and_intros <;> decide +kernel⟩,
   ⟨127, (st fun m => (setPst 127 6 (updLp 127 (fun l => { l with req := true }) m))), by and_intros <;> decide +kernel⟩,
   ⟨127, (st id), by and_intros <;> decide +kernel⟩⟩

theorem witness_LanesSendReceiveRestAndWake :
    (∃ (pc : _) (s : State), pc < 128 ∧ hostUp (pc / 32) s.m = true ∧ pst pc s.m = 0)
    ∧ (∃ (pc : _) (s : State), pc < 128 ∧ hostUp (pc / 32) s.m = true ∧ pst pc s.m = 1)
    ∧ (∃ (pc : _) (s : State), pc < 128 ∧ hostUp (pc / 32) s.m = true ∧ ((pst pc s.m = 2 ∨ pst pc s.m = 3 ∨ pst pc s.m = 4 ∨ pst pc s.m = 5)))
    ∧ (∃ (pc : _) (s : State), pc < 128 ∧ hostUp (pc / 32) s.m = true ∧ pst pc s.m = 6 ∧ (lport pc s.m).leave = false ∧ (lport pc s.m).tx = 0)
    ∧ (∃ (pc : _) (s : State), pc < 128 ∧ hostUp (pc / 32) s.m = true ∧ pst pc s.m = 6 ∧ (lport pc s.m).leave = true)
    ∧ (∃ (pc : _) (s : State), pc < 128 ∧ hostUp (pc / 32) s.m = true ∧ pst pc s.m = 6 ∧ (lport pc s.m).leave = false ∧ (lport pc s.m).tx ≠ 0)
    ∧ (∃ (pc : _) (bs : List (Nat × List Nat)) (s : State), pc < 128 ∧ hostUp (pc / 32) s.m = true ∧ bs.all (fun b => decide (b.1 < 4) && decide (b.2.length = 2048)) = true ∧ pst pc s.m = 3)
    ∧ (∃ (pc : _) (s : State), pc < 128 ∧ hostUp (pc / 32) s.m = true ∧ mayRest pc s.m = true ∧ idleFor pc (quietIdle (pc / 32) s.m) s.m = true)
    ∧ (∃ (pc : _) (s : State), pc < 128 ∧ hostUp (pc / 32) s.m = true ∧ mayRest pc s.m = true ∧ lane0Held pc s.m = false ∧ idleFor pc (4 * quietIdle (pc / 32) s.m) s.m = true ∧ prd F.LNE_PORT_STATUS_TX_SET pc s.m = lane0 pc s.m ∧ (lport pc s.m).waking = [] ∧ (lport pc s.m).restart = false)
    ∧ (∃ (pc : _) (l : _) (dir : _) (s : State), pc < 128 ∧ hostUp (pc / 32) s.m = true ∧ l < 4 ∧ dir < 2 ∧ pst pc s.m = 6 ∧ lrd (dirFld dir) pc l s.m = 1 ∧ NMap.find (lport pc s.m).waking l = none)
    ∧ (∃ (pc : _) (lanes : _) (s : State) (m : _) (new : _), pc < 128 ∧ hostUp (pc / 32) s.m = true ∧ pst pc s.m = 6 ∧ (lanes = (if (List.range 4).any (fun vc => decide (cur F.TLY_WAKE_WAKE_FLITS (pc / 32) 0 s.m < backlog pc vc s.m)) then bitList 4 (Nat.land (prd F.LNE_PORT_STATUS_LANES pc s.m) (Nat.xor 15 (prd F.LNE_PORT_STATUS_TX_SET pc s.m))) else if prd F.LNE_PORT_STATUS_TX_SET pc s.m = 0 ∧ (waiting pc s.m = true ∨ (lport pc s.m).resync = true) then bitList 4 (lane0 pc s.m) else [])) ∧ m = (if unitState (pc / 32) (pc % 32 / 2) s.m = UnitSt.sleep then setUnit (pc / 32) (pc % 32 / 2) UnitSt.active (unitQuarantine (pc / 32) (pc % 32 / 2) s.m) else s.m) ∧ new = lanes.filter (fun i => (NMap.find (lport pc m).waking i).isNone))
    ∧ (∃ (pc : _) (s : State), pc < 128 ∧ hostUp (pc / 32) s.m = true ∧ pst pc s.m = 6 ∧ (lport pc s.m).waking ≠ []) :=
  ⟨⟨127, (st id), by and_intros <;> decide +kernel⟩,
   ⟨127, (st fun m => (setPst 127 1 (m))), by and_intros <;> decide +kernel⟩,
   ⟨127, (st fun m => (setPst 127 5 (m))), by and_intros <;> decide +kernel⟩,
   ⟨127, (st fun m => (setPst 127 6 (m))), by and_intros <;> decide +kernel⟩,
   ⟨127, (st fun m => (setPst 127 6 (updLp 127 (fun l => { l with leave := true }) m))), by and_intros <;> decide +kernel⟩,
   ⟨127, (st fun m => (setPst 127 6 (updLp 127 (fun l => { l with tx := 3 }) m))), by and_intros <;> decide +kernel⟩,
   ⟨127, [(3, List.replicate 2048 0)], (st fun m => (setPst 127 3 (m))), by and_intros <;> decide +kernel⟩,
   ⟨127, (st fun m => runTo 3 70000 (setPst 127 6 (m))), by and_intros <;> decide +kernel⟩,
   ⟨126, (st fun m => pwr F.LNE_PORT_STATUS_LANES 126 15 (pwr F.LNE_PORT_STATUS_TX_SET 126 1 (runTo 3 300000 (setPst 126 6 (m))))), by and_intros <;> decide +kernel⟩,
   ⟨127, 3, 1, (st fun m => lwr F.LNE_LANE_STATUS_RX_STATE 127 3 1 (setPst 127 6 (m))), by and_intros <;> decide +kernel⟩,
   ⟨127, _, (st fun m => wr F.TLY_WAKE_WAKE_FLITS 3 0 0 (pwr F.LNE_PORT_STATUS_LANES 127 15 (pwr F.LNE_PORT_STATUS_TX_SET 127 1 (updXb (fun y => { y with outq := [(127 * 4 + 3, [flit0 (zeros 64)])] }) (setPst 127 6 m))))), _, _, by and_intros <;> first | decide +kernel | rfl⟩,
   ⟨127, (st fun m => (setPst 127 6 (updLp 127 (fun l => { l with waking := [(3, 1)] }) m))), by and_intros <;> decide +kernel⟩⟩

theorem witness_LinksSendAndReceiveFlits :
    (∃ (pc : _) (s : State), pc < 128 ∧ hostUp (pc / 32) s.m = true ∧ rd F.LNE_PORT_STATUS_STATE (pc / 32) (pc % 32) s.m ≠ 6)
    ∧ (∃ (pc : _) (i : _) (f : _) (s : State), pc < 128 ∧ hostUp (pc / 32) s.m = true ∧ rd F.LNE_PORT_STATUS_STATE (pc / 32) (pc % 32) s.m = 6 ∧ linkUp pc s.m = true ∧ (link pc s.m).rpos = some i ∧ (link pc s.m).replay[i]? = some f)
    ∧ (∃ (pc : _) (s : State), pc < 128 ∧ hostUp (pc / 32) s.m = true ∧ rd F.LNE_PORT_STATUS_STATE (pc / 32) (pc % 32) s.m = 6 ∧ ((linkUp pc s.m = false ∨ (link pc s.m).rpos = none)) ∧ 2 ≤ linkState pc s.m ∧ (link pc s.m).nakDue = true)
    ∧ (∃ (pc : _) (t : _) (r : _) (s : State), pc < 128 ∧ hostUp (pc / 32) s.m = true ∧ rd F.LNE_PORT_STATUS_STATE (pc / 32) (pc % 32) s.m = 6 ∧ ((linkUp pc s.m = false ∨ (link pc s.m).rpos = none)) ∧ ((linkState pc s.m < 2 ∨ (link pc s.m).nakDue = false)) ∧ (link pc s.m).ctl = t :: r)
    ∧ (∃ (pc : _) (f : _) (s : State), pc < 128 ∧ hostUp (pc / 32) s.m = true ∧ rd F.LNE_PORT_STATUS_STATE (pc / 32) (pc % 32) s.m = 6 ∧ linkUp pc s.m = true ∧ (link pc s.m).rpos = none ∧ (link pc s.m).nakDue = false ∧ (link pc s.m).ctl = [] ∧ (link pc s.m).held < 1024 ∧ pickData pc s.m = some f)
    ∧ (∃ (pc : _) (s : State), pc < 128 ∧ hostUp (pc / 32) s.m = true ∧ rd F.LNE_PORT_STATUS_STATE (pc / 32) (pc % 32) s.m = 6 ∧ ((linkUp pc s.m = false ∨ (link pc s.m).rpos = none)) ∧ ((linkState pc s.m < 2 ∨ (link pc s.m).nakDue = false)) ∧ (link pc s.m).ctl = [] ∧ ((linkUp pc s.m = false ∨ 1024 ≤ (link pc s.m).held ∨ pickData pc s.m = none)))
    ∧ (∃ (pc : _) (b : Bytes) (s : State), pc < 128 ∧ hostUp (pc / 32) s.m = true ∧ b.length = 256 ∧ linkState pc s.m < 2)
    ∧ (∃ (pc : _) (b : Bytes) (s : State), pc < 128 ∧ hostUp (pc / 32) s.m = true ∧ b.length = 256 ∧ 2 ≤ linkState pc s.m ∧ rdLE b 248 8 ≠ crc64 (sub b 0 248))
    ∧ (∃ (pc : _) (b : Bytes) (s : State) (m : _), pc < 128 ∧ hostUp (pc / 32) s.m = true ∧ b.length = 256 ∧ 2 ≤ linkState pc s.m ∧ rdLE b 248 8 = crc64 (sub b 0 248) ∧ m = updLink pc (fun k => { k with total := upd4 k.total (bits (rdLE b 0 8) 26 2) (fun _ => bits (rdLE b 0 8) 28 12) }) (takeAck pc (bits (rdLE b 0 8) 12 12) s.m) ∧ ((bits (rdLE b 0 8) 40 2 = 1 ∨ bits (rdLE b 0 8) 40 2 = 3)))
    ∧ (∃ (pc : _) (b : Bytes) (s : State) (m : _), pc < 128 ∧ hostUp (pc / 32) s.m = true ∧ b.length = 256 ∧ 2 ≤ linkState pc s.m ∧ rdLE b 248 8 = crc64 (sub b 0 248) ∧ m = updLink pc (fun k => { k with total := upd4 k.total (bits (rdLE b 0 8) 26 2) (fun _ => bits (rdLE b 0 8) 28 12) }) (takeAck pc (bits (rdLE b 0 8) 12 12) s.m) ∧ bits (rdLE b 0 8) 40 2 = 2 ∧ rdLE (sub b 8 240) 0 1 = 3)
    ∧ (∃ (pc : _) (b : Bytes) (s : State) (m : _), pc < 128 ∧ hostUp (pc / 32) s.m = true ∧ b.length = 256 ∧ 2 ≤ linkState pc s.m ∧ rdLE b 248 8 = crc64 (sub b 0 248) ∧ m = updLink pc (fun k => { k with total := upd4 k.total (bits (rdLE b 0 8) 26 2) (fun _ => bits (rdLE b 0 8) 28 12) }) (takeAck pc (bits (rdLE b 0 8) 12 12) s.m) ∧ bits (rdLE b 0 8) 40 2 = 0 ∧ linkState pc m = 4)
    ∧ (∃ (pc : _) (b : Bytes) (s : State) (m : _), pc < 128 ∧ hostUp (pc / 32) s.m = true ∧ b.length = 256 ∧ 2 ≤ linkState pc s.m ∧ rdLE b 248 8 = crc64 (sub b 0 248) ∧ m = updLink pc (fun k => { k with total := upd4 k.total (bits (rdLE b 0 8) 26 2) (fun _ => bits (rdLE b 0 8) 28 12) }) (takeAck pc (bits (rdLE b 0 8) 12 12) s.m) ∧ bits (rdLE b 0 8) 40 2 = 0 ∧ linkState pc m ≠ 4 ∧ bits (rdLE b 0 8) 0 12 ≠ (link pc m).nrx)
    ∧ (∃ (pc : _) (b : Bytes) (s : State) (m : _), pc < 128 ∧ hostUp (pc / 32) s.m = true ∧ b.length = 256 ∧ 2 ≤ linkState pc s.m ∧ rdLE b 248 8 = crc64 (sub b 0 248) ∧ m = updLink pc (fun k => { k with total := upd4 k.total (bits (rdLE b 0 8) 26 2) (fun _ => bits (rdLE b 0 8) 28 12) }) (takeAck pc (bits (rdLE b 0 8) 12 12) s.m) ∧ bits (rdLE b 0 8) 40 2 = 0 ∧ linkState pc m ≠ 4 ∧ bits (rdLE b 0 8) 0 12 = (link pc m).nrx)
    ∧ (∃ (pc : _) (s : State) (m : _), pc < 128 ∧ hostUp (pc / 32) s.m = true ∧ linkUp pc s.m = true ∧ (link pc s.m).held ≠ 0 ∧ rd F.LNE_PORT_STATUS_RX_SET (pc / 32) (pc % 32) s.m ≠ 0 ∧ m = beginReplay pc (bump F.LNK_CNT1_REPLAY_TIMEOUTS (pc / 32) (pc % 32) (updLink pc (fun k => { k with expiries := k.expiries + 1 }) s.m)))
    ∧ (∃ (pc : _) (s : State), pc < 128 ∧ hostUp (pc / 32) s.m = true ∧ linkState pc s.m = 2)
    ∧ (∃ (pc : _) (s : State), pc < 128 ∧ hostUp (pc / 32) s.m = true ∧ linkState pc (force F.LNK_PORT_CTRL_ENABLE (pc / 32) (pc % 32) 1 s.m) = 0)
    ∧ (∃ (pc : _) (s : State), pc < 128 ∧ hostUp (pc / 32) s.m = true)
    ∧ (∃ (pc : _) (s : State), pc < 128 ∧ hostUp (pc / 32) s.m = true ∧ linkUp pc s.m = true)
    ∧ (∃ (pc : _) (s : State) (m : _), pc < 128 ∧ hostUp (pc / 32) s.m = true ∧ linkUp pc s.m = false ∧ m = wrB F.LNK_PORT_STATUS_STUCK (pc / 32) (pc % 32) false (wrB F.LNK_PORT_STATUS_FRESH (pc / 32) (pc % 32) true (showHeld pc (wr F.LNK_PEER_VALID (pc / 32) (pc % 32) 0 (wr F.LNK_PEER_EID (pc / 32) (pc % 32) 0 (wr F.LNK_PEER_PORT_CODE (pc / 32) (pc % 32) 0 (updXb (fun y => { y with inq := disown pc y.inq, outq := disown pc y.outq }) (updLink pc (fun _ => { Link.reset with crVc := (link pc s.m).crVc, cut := (link pc s.m).cut, slot := (link pc s.m).slot, slotN := (link pc s.m).slotN, replays := (link pc s.m).replays, excess := (link pc s.m).excess }) (bumpBy F.LNK_CNT2_FLUSHED_FLITS (pc / 32) (pc % 32) (link pc s.m).replay.length s.m))))))) )) :=
  ⟨⟨127, (st id), by and_intros <;> decide +kernel⟩,
   ⟨127, 0, (flit0 (zeros 64)), (linked 3 fun k => { k with rpos := some 0, replay := [flit0 (zeros 64)] }), by and_intros <;> decide +kernel⟩,
   ⟨127, (linked 3 fun k => { k with nakDue := true }), by and_intros <;> decide +kernel⟩,
   ⟨127, 1, [], (linked 3 fun k => { k with ctl := [1] }), by and_intros <;> decide +kernel⟩,
   ⟨127, (flit0 (zeros 64)), (st fun m => updXb (fun y => { y with outq := [(508, [flit0 (zeros 64)])] }) (linked 3 fun k => { k with credit := [1, 1, 1, 1] }).m), by and_intros <;> decide +kernel⟩,
   ⟨127, (linked 3 fun k => { k with nextTx := 1024 }), by and_intros <;> decide +kernel⟩,
   ⟨127, (zeros 256), (st id), by and_intros <;> decide +kernel⟩,
   ⟨127, (zeros 256), (linked 2 id), by and_intros <;> decide +kernel⟩,
   ⟨127, (leBytes 8 (2 ^ 40) ++ (zeros 240) ++ leBytes 8 (crc64 (leBytes 8 (2 ^ 40) ++ (zeros 240)))), (linked 3 id), _, by and_intros <;> first | decide +kernel | rfl⟩,
   ⟨127, (leBytes 8 (2 ^ 41) ++ (leBytes 1 3 ++ zeros 239) ++ leBytes 8 (crc64 (leBytes 8 (2 ^ 41) ++ (leBytes 1 3 ++ zeros 239)))), (linked 2 id), _, by and_intros <;> first | decide +kernel | rfl⟩,
   ⟨127, (leBytes 8 (0) ++ (zeros 240) ++ leBytes 8 (crc64 (leBytes 8 (0) ++ (zeros 240)))), (linked 4 id), _, by and_intros <;> first | decide +kernel | rfl⟩,
   ⟨127, (leBytes 8 (4095) ++ (zeros 240) ++ leBytes 8 (crc64 (leBytes 8 (4095) ++ (zeros 240)))), (linked 3 id), _, by and_intros <;> first | decide +kernel | rfl⟩,
   ⟨127, (leBytes 8 (0) ++ (zeros 240) ++ leBytes 8 (crc64 (leBytes 8 (0) ++ (zeros 240)))), (linked 3 id), _, by and_intros <;> first | decide +kernel | rfl⟩,
   ⟨127, (st fun _ => wr F.LNE_PORT_STATUS_RX_SET 3 31 15 (linked 3 fun k => { k with nextTx := 4095 }).m), _, by and_intros <;> first | decide +kernel | rfl⟩,
   ⟨127, (linked 2 id), by and_intros <;> decide +kernel⟩,
   ⟨127, (st id), by and_intros <;> decide +kernel⟩,
   ⟨127, (st id), by and_intros <;> decide +kernel⟩,
   ⟨127, (linked 3 id), by and_intros <;> decide +kernel⟩,
   ⟨127, (st id), _, by and_intros <;> first | decide +kernel | rfl⟩⟩

theorem witness_PacketsAreRoutedByTheirFirstFlit :
    (∃ (x : _) (vc : _) (s : State), x < 152 ∧ vc < 4 ∧ hostUp (dieOf x) s.m = true ∧ NMap.get [] s.m.xb.inq (x * 4 + vc) = [])
    ∧ (∃ (x : _) (vc : _) (f : _) (l : _) (e : _) (s : State), x < 136 ∧ vc < 4 ∧ hostUp (dieOf x) s.m = true ∧ sliceOn (dieOf x) s.m = true ∧ NMap.get [] s.m.xb.inq (x * 4 + vc) = f :: l ∧ Hdr.flock f.data = false ∧ routeDecide x vc f.data s.m = .err e)
    ∧ (∃ (x : _) (vc : _) (f : _) (l : _) (pc : _) (s : State), x < 136 ∧ vc < 4 ∧ hostUp (dieOf x) s.m = true ∧ sliceOn (dieOf x) s.m = true ∧ NMap.get [] s.m.xb.inq (x * 4 + vc) = f :: l ∧ Hdr.flock f.data = false ∧ routeDecide x vc f.data s.m = .down pc)
    ∧ (∃ (x : _) (vc : _) (f : _) (l : _) (y : _) (s : State), x < 136 ∧ vc < 4 ∧ hostUp (dieOf x) s.m = true ∧ sliceOn (dieOf x) s.m = true ∧ NMap.get [] s.m.xb.inq (x * 4 + vc) = f :: l ∧ Hdr.flock f.data = false ∧ routeDecide x vc f.data s.m = .go y none ∧ slotOk vc (Hdr.res f.data) y s.m = true)
    ∧ (∃ (x : _) (vc : _) (f : _) (l : _) (y : _) (z : _) (s : State), x < 136 ∧ vc < 4 ∧ hostUp (dieOf x) s.m = true ∧ sliceOn (dieOf x) s.m = true ∧ NMap.get [] s.m.xb.inq (x * 4 + vc) = f :: l ∧ Hdr.flock f.data = false ∧ routeDecide x vc f.data s.m = .go y z ∧ slotOk vc (Hdr.res f.data) y s.m = false)
    ∧ (∃ (x : _) (vc : _) (f : _) (l : _) (s : State), x < 136 ∧ vc < 4 ∧ hostUp (dieOf x) s.m = true ∧ NMap.get [] s.m.xb.inq (x * 4 + vc) = f :: l ∧ ((Hdr.flock f.data = true ∨ sliceOn (dieOf x) s.m = false)))
    ∧ (∃ (x : _) (vc : _) (f : _) (l : _) (s : State), x < 136 ∧ vc < 4 ∧ hostUp (dieOf x) s.m = true ∧ NMap.get [] s.m.xb.inq (x * 4 + vc) = f :: l ∧ ((Hdr.flock f.data = true ∨ sliceOn (dieOf x) s.m = false)))
    ∧ (∃ (x : _) (vc : _) (f : _) (l : _) (y : _) (pc : _) (s : State), x < 136 ∧ vc < 4 ∧ hostUp (dieOf x) s.m = true ∧ sliceOn (dieOf x) s.m = true ∧ NMap.get [] s.m.xb.inq (x * 4 + vc) = f :: l ∧ Hdr.flock f.data = false ∧ routeDecide x vc f.data s.m = .go y (some pc) ∧ slotOk vc (Hdr.res f.data) y s.m = true)
    ∧ (∃ (x : _) (vc : _) (f : _) (l : _) (s : State), x < 136 ∧ vc < 4 ∧ hostUp (dieOf x) s.m = true ∧ sliceOn (dieOf x) s.m = true ∧ NMap.get [] s.m.xb.inq (x * 4 + vc) = f :: l ∧ Hdr.flock f.data = true ∧ lengthOk vc (Hdr.length f.data) = true ∧ Hdr.hopPtr f.data < 8 ∧ flockEntry (dieOf x) f.data s.m = none)
    ∧ (∃ (x : _) (vc : _) (f : _) (l : _) (e : _) (all : _) (own : _) (far : _) (s : State), x < 136 ∧ vc < 4 ∧ hostUp (dieOf x) s.m = true ∧ sliceOn (dieOf x) s.m = true ∧ NMap.get [] s.m.xb.inq (x * 4 + vc) = f :: l ∧ Hdr.flock f.data = true ∧ lengthOk vc (Hdr.length f.data) = true ∧ Hdr.hopPtr f.data < 8 ∧ flockEntry (dieOf x) f.data s.m = some e ∧ all = (members e).filter (fun y => y != x || decide (128 ≤ y)) ∧ own = liveMembers (dieOf x) vc (Hdr.res f.data) e (all.filter (fun y => dieOf y == dieOf x)) s.m ∧ far = (dies.filter (fun d => d != dieOf x && all.any (fun y => dieOf y == d))).foldl (fun (acc : List Nat × Sys2Proof.Machine.Mod) d => if (crossOf x (32 * d) acc.2).isSome && dieUp d acc.2 then (acc.1 ++ [136 + 4 * dieOf x + d], acc.2) else (acc.1, (all.filter (fun y => dieOf y == d)).foldl (fun m y => prune (dieOf x) ((pruneReason (dieOf x) y m).getD 4) y e m) acc.2)) ([], own.2))
    ∧ (∃ (x : _) (vc : _) (f : _) (l : _) (s : State), x < 136 ∧ vc < 4 ∧ hostUp (dieOf x) s.m = true ∧ sliceOn (dieOf x) s.m = true ∧ NMap.get [] s.m.xb.inq (x * 4 + vc) = f :: l ∧ Hdr.flock f.data = true ∧ ((lengthOk vc (Hdr.length f.data) = false ∨ 8 ≤ Hdr.hopPtr f.data)))
    ∧ (∃ (x : _) (vc : _) (f : _) (l : _) (s : State), x < 136 ∧ vc < 4 ∧ hostUp (dieOf x) s.m = true ∧ sliceOn (dieOf x) s.m = true ∧ NMap.get [] s.m.xb.inq (x * 4 + vc) = f :: l ∧ Hdr.flock f.data = true ∧ ((lengthOk vc (Hdr.length f.data) = false ∨ 8 ≤ Hdr.hopPtr f.data)))
    ∧ (∃ (e : _) (d : _) (vc : _) (f : _) (l : _) (en : _) (s : State), e < 4 ∧ d < 4 ∧ e ≠ d ∧ vc < 4 ∧ hostUp d s.m = true ∧ sliceOn d s.m = true ∧ NMap.get [] s.m.xb.inq ((136 + 4 * e + d) * 4 + vc) = f :: l ∧ flockEntry d f.data s.m = some en)
    ∧ (∃ (e : _) (d : _) (vc : _) (f : _) (l : _) (s : State), e < 4 ∧ d < 4 ∧ e ≠ d ∧ vc < 4 ∧ hostUp d s.m = true ∧ sliceOn d s.m = true ∧ NMap.get [] s.m.xb.inq ((136 + 4 * e + d) * 4 + vc) = f :: l ∧ flockEntry d f.data s.m = none) :=
  ⟨⟨151, 3, (st id), by and_intros <;> decide +kernel⟩,
   ⟨0, 0, (flit0 (hdr1 0xF0 false 0 64)), [], F.RTE_ERR_CNT0_BAD_CODE, (st fun m => queued 0 (hdr1 0xF0 false 0 64) (m)), by and_intros <;> decide +kernel⟩,
   ⟨0, 0, (flit0 (hdr1 2 false 0 64)), [], 2, (st fun m => queued 0 (hdr1 2 false 0 64) (m)), by and_intros <;> decide +kernel⟩,
   ⟨0, 0, (flit0 (hdr1 0xFD false 0 64)), [], 129, (st fun m => queued 0 (hdr1 0xFD false 0 64) (m)), by and_intros <;> decide +kernel⟩,
   ⟨0, 2, (flit0 (hdr1 2 false 0 64)), [], 2, none, (st fun m => updXb (fun y => { y with inq := [(2, [flit0 (hdr1 2 false 0 64)])] }) (wr F.LNK_PORT_STATUS_LINK_STATE 0 2 3 (setPst 2 6 m))), by and_intros <;> decide +kernel⟩,
   ⟨0, 0, (flit0 (hdr1 1 true 9 64)), [], (st fun m => queued 0 (hdr1 1 true 9 64) (m)), by and_intros <;> decide +kernel⟩,
   ⟨0, 0, (flit0 (hdr1 1 false 9 64)), [], (st fun m => queued 0 (hdr1 1 false 9 64) (force F.RTE_CTRL_ENABLE 0 0 0 m)), by and_intros <;> decide +kernel⟩,
   ⟨0, 0, (flit0 (hdr1 0x80 false 0 64)), [], 2, 2, (st fun m => queued 0 (hdr1 0x80 false 0 64) (updTabs 0 (fun t => { t with pass := [(0, 4)] }) (wr F.LNK_PORT_STATUS_LINK_STATE 0 2 3 (setPst 2 6 m)))), by and_intros <;> decide +kernel⟩,
   ⟨0, 0, (flit0 (hdr1 1 true 9 64)), [], (st fun m => queued 0 (hdr1 1 true 9 64) (m)), by and_intros <;> decide +kernel⟩,
   ⟨0, 0, (flit0 (hdr1 1 true 9 64)), [], flock9, _, _, _, (st fun m => queued 0 (hdr1 1 true 9 64) (flocked flock9 m)), by and_intros <;> first | decide +kernel | rfl⟩,
   ⟨0, 0, (flit0 (hdr1 1 true 9 1)), [], (st fun m => queued 0 (hdr1 1 true 9 1) (m)), by and_intros <;> decide +kernel⟩,
   ⟨0, 0, (flit0 (mkHdr [1] 1 true false 0 9 0 0 0 64 0 |>.set 8 0x18)), [], (st fun m => queued 0 (mkHdr [1] 1 true false 0 9 0 0 0 64 0 |>.set 8 0x18) (m)), by and_intros <;> decide +kernel⟩,
   ⟨1, 0, 0, (flit0 (hdr1 1 true 9 64)), [], flock9, (st fun m => updXb (fun y => { y with inq := [((136 + 4 * 1 + 0) * 4, [flit0 (hdr1 1 true 9 64)])] }) (flocked flock9 m)), by and_intros <;> decide +kernel⟩,
   ⟨1, 0, 0, (flit0 (hdr1 1 true 9 64)), [], (st fun m => updXb (fun y => { y with inq := [((136 + 4 * 1 + 0) * 4, [flit0 (hdr1 1 true 9 64)])] }) m), by and_intros <;> decide +kernel⟩⟩

theorem witness_PacketsAreInjectedAndReleasedInTime :
    (∃ (d : _) (cn : _) (g : _) (s : State), d < 4 ∧ cn < 2 ^ 24 ∧ hostUp d s.m = true ∧ (Machine.cond d cn s.m).msgs.find? (fun g => packetReady d cn g s.m) = some g ∧ ((∀ q i t c x y z, g.owner ≠ .queue q i t c x y z)))
    ∧ (∃ (d : _) (cn : _) (g : _) (q : _) (i : _) (t : _) (c : _) (x : _) (y : _) (z : _) (m : _) (s : State), d < 4 ∧ cn < 2 ^ 24 ∧ hostUp d s.m = true ∧ (Machine.cond d cn s.m).msgs.find? (fun g => packetReady d cn g s.m) = some g ∧ g.owner = .queue q i t c x y z ∧ m = accrue d (cur F.WQU_QCFG_Q_GROUP d (qix 0 q) s.m) s.m ∧ (sq d q m).inj = some (cn, g.id) ∧ nextLen d cn g m + grpOverhead d (cur F.WQU_QCFG_Q_GROUP d (qix 0 q) s.m) m ≤ (grp d (cur F.WQU_QCFG_Q_GROUP d (qix 0 q) s.m) m).deficit ∧ grpShaped d (cur F.WQU_QCFG_Q_GROUP d (qix 0 q) s.m) m = false)
    ∧ (∃ (d : _) (cn : _) (s : State), d < 4 ∧ cn < 2 ^ 24 ∧ hostUp d s.m = true ∧ (Machine.cond d cn s.m).msgs.find? (fun g => packetReady d cn g s.m) = none ∧ (Machine.cond d cn s.m).msgs.any (fun g => !g.all) = true)
    ∧ (∃ (d : _) (e : _) (s : State), d < 4 ∧ e < 2 ^ 20 ∧ hostUp d s.m = true ∧ dieUp d s.m = true ∧ pathCached d e s.m = false)
    ∧ (∃ (d : _) (e : _) (s : State), d < 4 ∧ e < 2 ^ 20 ∧ hostUp d s.m = true ∧ dieUp d s.m = true ∧ pathCached d e s.m = true)
    ∧ (∃ (d : _) (s : State), d < 4 ∧ hostUp d s.m = true ∧ s.m.azx.jobs.find? (fun j => j.wait.switching) = none)
    ∧ (∃ (d : _) (r : _) (p : _) (e : _) (s : State), d < 4 ∧ r < 16384 ∧ hostUp d s.m = true ∧ (resRun d r s.m).posts.find? (fun p => !p.released) = some p ∧ resEnt d r s.m = some e ∧ p.payload = none)
    ∧ (∃ (d : _) (r : _) (p : _) (e : _) (pay : _) (m : _) (s : State), d < 4 ∧ r < 16384 ∧ hostUp d s.m = true ∧ (resRun d r s.m).posts.find? (fun p => !p.released) = some p ∧ resEnt d r s.m = some e ∧ p.payload = some pay ∧ m = (if now d s.m < p.release then runTo d p.release s.m else s.m)) :=
  ⟨⟨0, 5, (tmsg .nobody), (st fun m => conduit (fun c => { c with msgs := [tmsg .nobody] }) m), by decide +kernel, by decide +kernel, by decide +kernel, by decide +kernel, (fun _ _ _ _ _ _ _ => by intro h; cases h)⟩,
   ⟨0, 5, (tmsg own0), 0, 0, 0, 16, 0, 0, true, _, (st fun m => conduit (fun c => { c with msgs := [tmsg own0] }) (updSq 0 0 (fun k => { k with inj := some (5, 0) }) (updGrp 0 0 (fun k => { k with deficit := 4096 }) m))), by and_intros <;> first | decide +kernel | rfl⟩,
   ⟨0, 5, (st fun m => conduit (fun c => { c with resident := false, msgs := [tmsg .nobody] }) m), by and_intros <;> decide +kernel⟩,
   ⟨3, 2 ^ 20 - 1, (st id), by and_intros <;> decide +kernel⟩,
   ⟨0, 0, (st (updXb fun y => { y with cache := [(0, 0)] })), by and_intros <;> decide +kernel⟩,
   ⟨0, (st id), by and_intros <;> decide +kernel⟩,
   ⟨0, 16383, (post1 none), resv1, (posted none), by and_intros <;> decide +kernel⟩,
   ⟨0, 16383, (post1 (some (zeros 64))), resv1, (zeros 64), _, (posted (some (zeros 64))), by and_intros <;> first | decide +kernel | rfl⟩⟩

theorem witness_ArrivingPacketsReachTheirConduit :
    (∃ (d : _) (cn : _) (b : _) (l : _) (s : State), d < 4 ∧ hostUp d s.m = true ∧ NMap.get [] s.m.trn.resume d = (cn, b) :: l)
    ∧ (∃ (d : _) (b : _) (l : _) (s : State), d < 4 ∧ hostUp d s.m = true ∧ NMap.get [] s.m.trn.resume d = [] ∧ NMap.get [] s.m.xb.tq d = b :: l)
    ∧ (∃ (d : _) (b : _) (l : _) (s : State), d < 4 ∧ hostUp d s.m = true ∧ NMap.get [] s.m.xb.tq d = b :: l ∧ (Th.of b).op = Op.ack)
    ∧ (∃ (d : _) (b : _) (l : _) (s : State), d < 4 ∧ hostUp d s.m = true ∧ NMap.get [] s.m.xb.tq d = b :: l ∧ (Th.of b).op ≠ Op.ack)
    ∧ (∃ (d : _) (cn : _) (ans : HostAns) (m : _) (s : State), d < 4 ∧ cn < 2 ^ 24 ∧ hostUp d s.m = true ∧ makeResident d cn ans s.m = some m)
    ∧ (∃ (d : _) (cn : _) (ans : HostAns) (m : _) (n : _) (s : State), d < 4 ∧ cn < 2 ^ 24 ∧ hostUp d s.m = true ∧ (Machine.cond d cn s.m).recs ≠ [] ∧ (Machine.cond d cn s.m).state ≠ CSt.closed ∧ m = updCond d cn (fun c => { c with retries := min 255 (c.retries + 1) }) (if now d s.m < (Machine.cond d cn s.m).retryAt then runTo d (Machine.cond d cn s.m).retryAt s.m else s.m) ∧ n = ((Machine.cond d cn s.m).recs.filter (fun r => decide (r.time + rto (Machine.cond d cn s.m) ≤ now d m))).foldl (fun m r => resendRec d cn ans r m) m ∧ (Machine.cond d cn s.m).retries + 1 < (Machine.cond d cn s.m).retryLimit)
    ∧ (∃ (d : _) (cn : _) (ans : HostAns) (m : _) (n : _) (s : State), d < 4 ∧ cn < 2 ^ 24 ∧ hostUp d s.m = true ∧ (Machine.cond d cn s.m).recs ≠ [] ∧ (Machine.cond d cn s.m).state ≠ CSt.closed ∧ m = updCond d cn (fun c => { c with retries := min 255 (c.retries + 1) }) (if now d s.m < (Machine.cond d cn s.m).retryAt then runTo d (Machine.cond d cn s.m).retryAt s.m else s.m) ∧ n = ((Machine.cond d cn s.m).recs.filter (fun r => decide (r.time + rto (Machine.cond d cn s.m) ≤ now d m))).foldl (fun m r => resendRec d cn ans r m) m ∧ (Machine.cond d cn s.m).retryLimit ≤ (Machine.cond d cn s.m).retries + 1 ∧ (Machine.cond d cn s.m).mcast = false)
    ∧ (∃ (d : _) (cn : _) (ans : HostAns) (m : _) (n : _) (s : State), d < 4 ∧ cn < 2 ^ 24 ∧ hostUp d s.m = true ∧ (Machine.cond d cn s.m).recs ≠ [] ∧ (Machine.cond d cn s.m).state ≠ CSt.closed ∧ m = updCond d cn (fun c => { c with retries := min 255 (c.retries + 1) }) (if now d s.m < (Machine.cond d cn s.m).retryAt then runTo d (Machine.cond d cn s.m).retryAt s.m else s.m) ∧ n = ((Machine.cond d cn s.m).recs.filter (fun r => decide (r.time + rto (Machine.cond d cn s.m) ≤ now d m))).foldl (fun m r => resendRec d cn ans r m) m ∧ (Machine.cond d cn s.m).retryLimit ≤ (Machine.cond d cn s.m).retries + 1 ∧ (Machine.cond d cn s.m).mcast = true ∧ (Machine.cond d cn s.m).fromGate = false ∧ (Machine.cond d cn s.m).state = CSt.open_)
    ∧ (∃ (d : _) (cn : _) (psn : _) (r : _) (t : _) (s : State), d < 4 ∧ cn < 2 ^ 24 ∧ psn < 2 ^ 32 ∧ hostUp d s.m = true ∧ (Machine.cond d cn s.m).recs.find? (fun r => r.psn == psn) = some r ∧ r.again = some t)
    ∧ (∃ (d : _) (cn : _) (g : _) (s : State), d < 4 ∧ cn < 2 ^ 24 ∧ hostUp d s.m = true ∧ (Machine.cond d cn s.m).msgs.find? (fun g => g.op == Op.getRsp && !g.all) = some g)
    ∧ (∃ (d : _) (k : _) (t : _) (s : State), d < 4 ∧ k < 4096 ∧ hostUp d s.m = true ∧ NMap.find s.m.trn.trk (d * 4096 + k) = some t) :=
  ⟨⟨0, 5, (zeros 64), [], (st (updTrn fun t => { t with resume := [(0, [(5, zeros 64)])] })), by and_intros <;> decide +kernel⟩,
   ⟨0, (zeros 24 ++ leBytes 1 (Op.put) ++ zeros 39), [], (st (updXb fun y => { y with tq := [(0, [zeros 24 ++ leBytes 1 (Op.put) ++ zeros 39])] })), by and_intros <;> decide +kernel⟩,
   ⟨0, (zeros 24 ++ leBytes 1 (Op.ack) ++ zeros 39), [], (st (updXb fun y => { y with tq := [(0, [zeros 24 ++ leBytes 1 (Op.ack) ++ zeros 39])] })), by and_intros <;> decide +kernel⟩,
   ⟨0, (zeros 24 ++ leBytes 1 (Op.put) ++ zeros 39), [], (st (updXb fun y => { y with tq := [(0, [zeros 24 ++ leBytes 1 (Op.put) ++ zeros 39])] })), by and_intros <;> decide +kernel⟩,
   ⟨3, 2 ^ 24 - 1, [], ((makeResident 3 (2 ^ 24 - 1) [] (st id).m).getD (st id).m), (st id), by and_intros <;> decide +kernel⟩,
   ⟨0, 5, [], _, _, (st fun m => conduit (fun c => { c with recs := [rec1], retries := 5 }) m), by and_intros <;> first | decide +kernel | rfl⟩,
   ⟨0, 5, [], _, _, (st fun m => conduit (fun c => { c with recs := [rec1], retries := 6 }) m), by and_intros <;> first | decide +kernel | rfl⟩,
   ⟨0, 5, [], _, _, (st fun m => conduit (fun c => { c with recs := [rec1], retries := 6, mcast := true }) m), by and_intros <;> first | decide +kernel | rfl⟩,
   ⟨0, 5, 2 ^ 32 - 1, { rec1 with psn := 2 ^ 32 - 1, again := some 9 }, 9, (st fun m => conduit (fun c => { c with recs := [{ rec1 with psn := 2 ^ 32 - 1, again := some 9 }] }) m), by and_intros <;> decide +kernel⟩,
   ⟨0, 5, { Msg.blank with op := Op.getRsp }, (st fun m => conduit (fun c => { c with msgs := [{ Msg.blank with op := Op.getRsp }] }) m), by and_intros <;> decide +kernel⟩,
   ⟨3, 4095, { cn := 5, msg := 0, len := 0, count := 0, last := 0 }, (st (updTrn fun t => { t with trk := [(3 * 4096 + 4095, { cn := 5, msg := 0, len := 0, count := 0, last := 0 })] })), by and_intros <;> decide +kernel⟩⟩

theorem witness_ConduitsOpenCloseAndTakeBuffers :
    (∃ (d : _) (f : _) (s : State), d < 4 ∧ f < 1026 ∧ hostUp d s.m = true ∧ cndOn d f s.m = false ∧ rangeConflict d f s.m = false)
    ∧ (∃ (d : _) (f : _) (s : State), d < 4 ∧ f < 1026 ∧ hostUp d s.m = true ∧ cndOn d f s.m = false ∧ rangeConflict d f s.m = true)
    ∧ (∃ (d : _) (f : _) (s : State), d < 4 ∧ f < 1026 ∧ hostUp d s.m = true ∧ cndOn d f s.m = true)
    ∧ (∃ (d : _) (cn : _) (ch : Option Nat × Sys2Proof.Machine.Mod) (th : _) (r : Rec) (s : State), d < 4 ∧ cn < 2 ^ 24 ∧ hostUp d s.m = true ∧ condState d cn s.m = CSt.closing ∧ (Machine.cond d cn s.m).closeSent = false ∧ (Machine.cond d cn s.m).recs = [] ∧ (Machine.cond d cn s.m).msgs.any (fun g => !g.all) = false ∧ (Machine.cond d cn s.m).resident = true ∧ ch = (if (Machine.cond d cn s.m).mcast = true ∧ (Machine.cond d cn s.m).fromGate = false then (none, s.m) else choosePath d cn none (pathFetch d (Machine.cond d cn s.m).peer s.m)) ∧ th = mayLaunch d cn Op.close ch.1 1 ch.2 ∧ r = { psn := (Machine.cond d cn s.m).txNext, msg := 2 ^ 40, op := Op.close, off := 0, len := 0, path := ch.1, round := 0, time := now d s.m, acks := 0, again := none } ∧ th.1 = true)
    ∧ (∃ (d : _) (cn : _) (ch : Option Nat × Sys2Proof.Machine.Mod) (th : _) (r : Rec) (s : State), d < 4 ∧ cn < 2 ^ 24 ∧ hostUp d s.m = true ∧ condState d cn s.m = CSt.closing ∧ (Machine.cond d cn s.m).closeSent = false ∧ (Machine.cond d cn s.m).recs = [] ∧ (Machine.cond d cn s.m).msgs.any (fun g => !g.all) = false ∧ (Machine.cond d cn s.m).resident = true ∧ ch = (if (Machine.cond d cn s.m).mcast = true ∧ (Machine.cond d cn s.m).fromGate = false then (none, s.m) else choosePath d cn none (pathFetch d (Machine.cond d cn s.m).peer s.m)) ∧ th = mayLaunch d cn Op.close ch.1 1 ch.2 ∧ r = { psn := (Machine.cond d cn s.m).txNext, msg := 2 ^ 40, op := Op.close, off := 0, len := 0, path := ch.1, round := 0, time := now d s.m, acks := 0, again := none } ∧ th.1 = false)
    ∧ (∃ (d : _) (cn : _) (s : State), d < 4 ∧ cn < 2 ^ 24 ∧ hostUp d s.m = true ∧ ((condState d cn s.m ≠ CSt.closing ∨ (Machine.cond d cn s.m).closeSent = true ∨ (Machine.cond d cn s.m).recs ≠ [] ∨ (Machine.cond d cn s.m).msgs.any (fun g => !g.all) = true)))
    ∧ (∃ (d : _) (cn : _) (s : State), d < 4 ∧ cn < 2 ^ 24 ∧ hostUp d s.m = true ∧ (Machine.cond d cn s.m).bufWait = true ∧ 0 < bufFree d s.m)
    ∧ (∃ (d : _) (cn : _) (s : State), d < 4 ∧ cn < 2 ^ 24 ∧ hostUp d s.m = true ∧ (Machine.cond d cn s.m).bufWait = true ∧ bufFree d s.m = 0 ∧ (Machine.cond d cn s.m).bufs = 0 ∧ reserveUsed d s.m < reserveSize d s.m)
    ∧ (∃ (d : _) (f : _) (s : State), d < 4 ∧ f < 1026 ∧ hostUp d s.m = true ∧ cndOn d f s.m = true ∧ 2 * (gatePool d f s.m).length < min 256 (cur F.CND_FN_GATE_GATE_TARGET d f s.m))
    ∧ (∃ (d : _) (p : _) (k : _) (s : State), d < 4 ∧ p < 65536 ∧ pkey d p s.m = some k) :=
  ⟨⟨3, 0, (st id), by and_intros <;> decide +kernel⟩,
   ⟨0, 1, (st fun m => force F.CND_FN_RANGE_COUNT 0 1 1 (force F.CND_FN_CTL_ENABLE 0 0 1 m)), by and_intros <;> decide +kernel⟩,
   ⟨0, 0, (st fun m => force F.CND_FN_CTL_ENABLE 0 0 1 m), by and_intros <;> decide +kernel⟩,
   ⟨0, 5, _, _, _, (st fun m => conduit (fun c => { c with state := CSt.closing }) m), by and_intros <;> first | decide +kernel | rfl⟩,
   ⟨0, 5, _, _, _, (st fun m => wr F.TLY_ACTION_INJ_SCALE 0 0 0 (wr F.LNK_PORT_STATUS_LINK_STATE 0 2 3 (setPst 2 6 (updTabs 0 (fun t => { t with path := [(0, { route := [2], hops := 1, valid := true, timedOk := true, bias := 0 })] }) <| conduit (fun c => { c with state := CSt.closing }) m)))), by and_intros <;> first | decide +kernel | rfl⟩,
   ⟨3, 2 ^ 24 - 1, (st id), by and_intros <;> decide +kernel⟩,
   ⟨0, 5, (st fun m => conduit (fun c => { c with bufWait := true }) m), by and_intros <;> decide +kernel⟩,
   ⟨0, 5, (st fun m => setCond 0 6 { Cond.reset with bufs := 49088 } (conduit (fun c => { c with bufWait := true }) m)), by and_intros <;> decide +kernel⟩,
   ⟨0, 0, (st fun m => force F.CND_FN_GATE_GATE_TARGET 0 0 1 (force F.CND_FN_CTL_ENABLE 0 0 1 m)), by and_intros <;> decide +kernel⟩,
   ⟨3, 65535, { key := [], gen := 0, old := none }, (st fun m => { m with keys := [(3 * 65536 + 65535, { key := [], gen := 0, old := none })] }), by and_intros <;> decide +kernel⟩⟩

theorem witness_AtomicAndLockEntriesStartTheirRequest :
    (∃ (d : _) (q : _) (b : _) (s : State) (e : _) (m : _), Takes 0x20 d q b s e m ∧ e.badAtomic 0 4 = none ∧ e.connected m ∧ e.resultAddr = 0)
    ∧ (∃ (d : _) (q : _) (b : _) (s : State) (e : _) (m : _), Takes 0x21 d q b s e m ∧ e.badAtomic 0 8 = none ∧ e.connected m ∧ e.resultAddr = 0)
    ∧ (∃ (d : _) (q : _) (b : _) (s : State) (e : _) (m : _), Takes 0x22 d q b s e m ∧ e.badAtomic 1 4 = none ∧ e.connected m ∧ e.resultAddr = 0)
    ∧ (∃ (d : _) (q : _) (b : _) (s : State) (e : _) (m : _), Takes 0x23 d q b s e m ∧ e.badAtomic 1 8 = none ∧ e.connected m ∧ e.resultAddr = 0)
    ∧ (∃ (d : _) (q : _) (b : _) (s : State) (e : _) (m : _), Takes 0x24 d q b s e m ∧ e.badAtomic 2 4 = none ∧ e.connected m ∧ e.resultAddr = 0)
    ∧ (∃ (d : _) (q : _) (b : _) (s : State) (e : _) (m : _), Takes 0x25 d q b s e m ∧ e.badAtomic 2 8 = none ∧ e.connected m ∧ e.resultAddr = 0)
    ∧ (∃ (d : _) (q : _) (b : _) (s : State) (e : _) (m : _), Takes 0x26 d q b s e m ∧ e.badAtomic 2 16 = none ∧ e.connected m ∧ e.resultAddr = 0)
    ∧ (∃ (d : _) (q : _) (b : _) (s : State) (e : _) (m : _), Takes 0x30 d q b s e m ∧ e.badLock = none ∧ e.connected m)
    ∧ (∃ (d : _) (q : _) (b : _) (s : State) (e : _) (m : _), Takes 0x31 d q b s e m ∧ e.badLock = none ∧ e.connected m)
    ∧ (∃ (d : _) (q : _) (b : _) (s : State) (e : _) (m : _), Takes 0x32 d q b s e m ∧ e.badLock = none ∧ e.connected m) :=
  ⟨⟨0, 65535, (entry 0x20 (5 * 2 ^ 64)), (withEntry (entry 0x20 (5 * 2 ^ 64)) pass5), (eOf (entry 0x20 (5 * 2 ^ 64)) pass5), (mOf (entry 0x20 (5 * 2 ^ 64)) pass5), takes (by decide +kernel), by decide +kernel, ⟨by decide +kernel, by decide +kernel, by decide +kernel⟩, by decide +kernel⟩,
   ⟨0, 65535, (entry 0x21 (5 * 2 ^ 64)), (withEntry (entry 0x21 (5 * 2 ^ 64)) pass5), (eOf (entry 0x21 (5 * 2 ^ 64)) pass5), (mOf (entry 0x21 (5 * 2 ^ 64)) pass5), takes (by decide +kernel), by decide +kernel, ⟨by decide +kernel, by decide +kernel, by decide +kernel⟩, by decide +kernel⟩,
   ⟨0, 65535, (entry 0x22 (5 * 2 ^ 64)), (withEntry (entry 0x22 (5 * 2 ^ 64)) pass5), (eOf (entry 0x22 (5 * 2 ^ 64)) pass5), (mOf (entry 0x22 (5 * 2 ^ 64)) pass5), takes (by decide +kernel), by decide +kernel, ⟨by decide +kernel, by decide +kernel, by decide +kernel⟩, by decide +kernel⟩,
   ⟨0, 65535, (entry 0x23 (5 * 2 ^ 64)), (withEntry (entry 0x23 (5 * 2 ^ 64)) pass5), (eOf (entry 0x23 (5 * 2 ^ 64)) pass5), (mOf (entry 0x23 (5 * 2 ^ 64)) pass5), takes (by decide +kernel), by decide +kernel, ⟨by decide +kernel, by decide +kernel, by decide +kernel⟩, by decide +kernel⟩,
   ⟨0, 65535, (entry 0x24 (5 * 2 ^ 64)), (withEntry (entry 0x24 (5 * 2 ^ 64)) pass5), (eOf (entry 0x24 (5 * 2 ^ 64)) pass5), (mOf (entry 0x24 (5 * 2 ^ 64)) pass5), takes (by decide +kernel), by decide +kernel, ⟨by decide +kernel, by decide +kernel, by decide +kernel⟩, by decide +kernel⟩,
   ⟨0, 65535, (entry 0x25 (5 * 2 ^ 64)), (withEntry (entry 0x25 (5 * 2 ^ 64)) pass5), (eOf (entry 0x25 (5 * 2 ^ 64)) pass5), (mOf (entry 0x25 (5 * 2 ^ 64)) pass5), takes (by decide +kernel), by decide +kernel, ⟨by decide +kernel, by decide +kernel, by decide +kernel⟩, by decide +kernel⟩,
   ⟨0, 65535, (entry 0x26 (5 * 2 ^ 64)), (withEntry (entry 0x26 (5 * 2 ^ 64)) pass5), (eOf (entry 0x26 (5 * 2 ^ 64)) pass5), (mOf (entry 0x26 (5 * 2 ^ 64)) pass5), takes (by decide +kernel), by decide +kernel, ⟨by decide +kernel, by decide +kernel, by decide +kernel⟩, by decide +kernel⟩,
   ⟨0, 65535, (entry 0x30 (5 * 2 ^ 64)), (withEntry (entry 0x30 (5 * 2 ^ 64)) pass5), (eOf (entry 0x30 (5 * 2 ^ 64)) pass5), (mOf (entry 0x30 (5 * 2 ^ 64)) pass5), takes (by decide +kernel), by decide +kernel, ⟨by decide +kernel, by decide +kernel, by decide +kernel⟩⟩,
   ⟨0, 65535, (entry 0x31 (5 * 2 ^ 64)), (withEntry (entry 0x31 (5 * 2 ^ 64)) pass5), (eOf (entry 0x31 (5 * 2 ^ 64)) pass5), (mOf (entry 0x31 (5 * 2 ^ 64)) pass5), takes (by decide +kernel), by decide +kernel, ⟨by decide +kernel, by decide +kernel, by decide +kernel⟩⟩,
   ⟨0, 65535, (entry 0x32 (5 * 2 ^ 64)), (withEntry (entry 0x32 (5 * 2 ^ 64)) pass5), (eOf (entry 0x32 (5 * 2 ^ 64)) pass5), (mOf (entry 0x32 (5 * 2 ^ 64)) pass5), takes (by decide +kernel), by decide +kernel, ⟨by decide +kernel, by decide +kernel, by decide +kernel⟩⟩⟩

theorem witness_DataEntriesStartTheirMessage_1 :
    (∃ (d : _) (q : _) (ans : HostAns) (b : _) (s : State) (e : _) (m : _) (l : _) (m1 : _) (z : _) (se : _) (m2 : _), Takes 0x10 d q b s e m ∧ e.bad278 60 = none ∧ e.connected m ∧ e.fragments 16 e.len 36 ans m = (.inl l, m1) ∧ checkBuf e.die e.fn e.xctx 0 Cls5.local_ ans l false m1 = (.ok z, se, m2) ∧ e.timed = false) :=
  ⟨0, 65535, [], (entry 0x10 (0 * 2 ^ 8 + 5 * 2 ^ 64 + 4096 * 2 ^ 128 + 0 * 2 ^ 192 + 64 * 2 ^ 256 + 0 * 2 ^ 304 + 0)), (withEntry (entry 0x10 (0 * 2 ^ 8 + 5 * 2 ^ 64 + 4096 * 2 ^ 128 + 0 * 2 ^ 192 + 64 * 2 ^ 256 + 0 * 2 ^ 304 + 0)) pass5), (eOf (entry 0x10 (0 * 2 ^ 8 + 5 * 2 ^ 64 + 4096 * 2 ^ 128 + 0 * 2 ^ 192 + 64 * 2 ^ 256 + 0 * 2 ^ 304 + 0)) pass5), (mOf (entry 0x10 (0 * 2 ^ 8 + 5 * 2 ^ 64 + 4096 * 2 ^ 128 + 0 * 2 ^ 192 + 64 * 2 ^ 256 + 0 * 2 ^ 304 + 0)) pass5), [(4096, 64)], (mOf (entry 0x10 (0 * 2 ^ 8 + 5 * 2 ^ 64 + 4096 * 2 ^ 128 + 0 * 2 ^ 192 + 64 * 2 ^ 256 + 0 * 2 ^ 304 + 0)) pass5), [], false, (bufOf 0 Cls5.local_ [(4096, 64)] (mOf (entry 0x10 (0 * 2 ^ 8 + 5 * 2 ^ 64 + 4096 * 2 ^ 128 + 0 * 2 ^ 192 + 64 * 2 ^ 256 + 0 * 2 ^ 304 + 0)) pass5)), takes (by decide +kernel), by decide +kernel, ⟨by decide +kernel, by decide +kernel, by decide +kernel⟩, by and_intros <;> decide +kernel⟩

theorem witness_DataEntriesStartTheirMessage_2 :
    (∃ (d : _) (q : _) (ans : HostAns) (b : _) (s : State) (e : _) (m : _) (l : _) (m1 : _) (z : _) (m2 : _) (y : _) (r : _), Takes 0x10 d q b s e m ∧ e.bad278 60 = none ∧ e.connected m ∧ e.fragments 16 e.len 36 ans m = (.inl l, m1) ∧ checkBuf e.die e.fn e.xctx 0 Cls5.local_ ans l false m1 = (.ok z, false, m2) ∧ e.timed = true ∧ admitPost e.die e.fn e.res e.cn e.len (rdLE e.b 48 8) m2 = .inr y ∧ r = readBuf e.die e.fn e.xctx Cls5.local_ ans l m2) :=
  ⟨0, 65535, [(4096, zeros 64)], (entry 0x10 (8 * 2 ^ 8 + 5 * 2 ^ 64 + 4096 * 2 ^ 128 + 0 * 2 ^ 192 + 64 * 2 ^ 256 + 16383 * 2 ^ 304 + (2 ^ 64 - 1) * 2 ^ 384)), (withEntry (entry 0x10 (8 * 2 ^ 8 + 5 * 2 ^ 64 + 4096 * 2 ^ 128 + 0 * 2 ^ 192 + 64 * 2 ^ 256 + 16383 * 2 ^ 304 + (2 ^ 64 - 1) * 2 ^ 384)) reserved), (eOf (entry 0x10 (8 * 2 ^ 8 + 5 * 2 ^ 64 + 4096 * 2 ^ 128 + 0 * 2 ^ 192 + 64 * 2 ^ 256 + 16383 * 2 ^ 304 + (2 ^ 64 - 1) * 2 ^ 384)) reserved), (mOf (entry 0x10 (8 * 2 ^ 8 + 5 * 2 ^ 64 + 4096 * 2 ^ 128 + 0 * 2 ^ 192 + 64 * 2 ^ 256 + 16383 * 2 ^ 304 + (2 ^ 64 - 1) * 2 ^ 384)) reserved), [(4096, 64)], (mOf (entry 0x10 (8 * 2 ^ 8 + 5 * 2 ^ 64 + 4096 * 2 ^ 128 + 0 * 2 ^ 192 + 64 * 2 ^ 256 + 16383 * 2 ^ 304 + (2 ^ 64 - 1) * 2 ^ 384)) reserved), [], (bufOf 0 Cls5.local_ [(4096, 64)] (mOf (entry 0x10 (8 * 2 ^ 8 + 5 * 2 ^ 64 + 4096 * 2 ^ 128 + 0 * 2 ^ 192 + 64 * 2 ^ 256 + 16383 * 2 ^ 304 + (2 ^ 64 - 1) * 2 ^ 384)) reserved)), (1048576, 0), _, takes (by decide +kernel), by decide +kernel, ⟨by decide +kernel, by decide +kernel, by decide +kernel⟩, by and_intros <;> first | decide +kernel | rfl⟩

theorem witness_DataEntriesStartTheirMessage_3 :
    (∃ (d : _) (q : _) (ans : HostAns) (b : _) (s : State) (e : _) (m : _) (l : _) (m1 : _) (z : _) (m2 : _) (dt : _), Takes 0x10 d q b s e m ∧ e.bad278 60 = none ∧ e.connected m ∧ e.fragments 16 e.len 36 ans m = (.inl l, m1) ∧ checkBuf e.die e.fn e.xctx 0 Cls5.local_ ans l false m1 = (.ok z, false, m2) ∧ e.timed = true ∧ admitPost e.die e.fn e.res e.cn e.len (rdLE e.b 48 8) m2 = .inl dt) :=
  ⟨0, 65535, [], (entry 0x10 (8 * 2 ^ 8 + 5 * 2 ^ 64 + 4096 * 2 ^ 128 + 0 * 2 ^ 192 + 64 * 2 ^ 256 + 16383 * 2 ^ 304 + 0)), (withEntry (entry 0x10 (8 * 2 ^ 8 + 5 * 2 ^ 64 + 4096 * 2 ^ 128 + 0 * 2 ^ 192 + 64 * 2 ^ 256 + 16383 * 2 ^ 304 + 0)) pass5), (eOf (entry 0x10 (8 * 2 ^ 8 + 5 * 2 ^ 64 + 4096 * 2 ^ 128 + 0 * 2 ^ 192 + 64 * 2 ^ 256 + 16383 * 2 ^ 304 + 0)) pass5), (mOf (entry 0x10 (8 * 2 ^ 8 + 5 * 2 ^ 64 + 4096 * 2 ^ 128 + 0 * 2 ^ 192 + 64 * 2 ^ 256 + 16383 * 2 ^ 304 + 0)) pass5), [(4096, 64)], (mOf (entry 0x10 (8 * 2 ^ 8 + 5 * 2 ^ 64 + 4096 * 2 ^ 128 + 0 * 2 ^ 192 + 64 * 2 ^ 256 + 16383 * 2 ^ 304 + 0)) pass5), [], (bufOf 0 Cls5.local_ [(4096, 64)] (mOf (entry 0x10 (8 * 2 ^ 8 + 5 * 2 ^ 64 + 4096 * 2 ^ 128 + 0 * 2 ^ 192 + 64 * 2 ^ 256 + 16383 * 2 ^ 304 + 0)) pass5)), 1, takes (by decide +kernel), by decide +kernel, ⟨by decide +kernel, by decide +kernel, by decide +kernel⟩, by and_intros <;> decide +kernel⟩

theorem witness_DataEntriesStartTheirMessage_4 :
    (∃ (d : _) (q : _) (ans : HostAns) (b : _) (s : State) (e : _) (m : _) (l : _) (m1 : _) (z : _) (se : _) (m2 : _), Takes 0x11 d q b s e m ∧ e.bad278 4 = none ∧ e.connected m ∧ e.fragments 16 e.len 36 ans m = (.inl l, m1) ∧ checkBuf e.die e.fn e.xctx 1 Cls5.local_ ans l false m1 = (.ok z, se, m2)) :=
  ⟨0, 65535, [], (entry 0x11 (0 * 2 ^ 8 + 5 * 2 ^ 64 + 4096 * 2 ^ 128 + 0 * 2 ^ 192 + 64 * 2 ^ 256 + 0 * 2 ^ 304 + 0)), (withEntry (entry 0x11 (0 * 2 ^ 8 + 5 * 2 ^ 64 + 4096 * 2 ^ 128 + 0 * 2 ^ 192 + 64 * 2 ^ 256 + 0 * 2 ^ 304 + 0)) pass5), (eOf (entry 0x11 (0 * 2 ^ 8 + 5 * 2 ^ 64 + 4096 * 2 ^ 128 + 0 * 2 ^ 192 + 64 * 2 ^ 256 + 0 * 2 ^ 304 + 0)) pass5), (mOf (entry 0x11 (0 * 2 ^ 8 + 5 * 2 ^ 64 + 4096 * 2 ^ 128 + 0 * 2 ^ 192 + 64 * 2 ^ 256 + 0 * 2 ^ 304 + 0)) pass5), [(4096, 64)], (mOf (entry 0x11 (0 * 2 ^ 8 + 5 * 2 ^ 64 + 4096 * 2 ^ 128 + 0 * 2 ^ 192 + 64 * 2 ^ 256 + 0 * 2 ^ 304 + 0)) pass5), [], false, (bufOf 1 Cls5.local_ [(4096, 64)] (mOf (entry 0x11 (0 * 2 ^ 8 + 5 * 2 ^ 64 + 4096 * 2 ^ 128 + 0 * 2 ^ 192 + 64 * 2 ^ 256 + 0 * 2 ^ 304 + 0)) pass5)), takes (by decide +kernel), by decide +kernel, ⟨by decide +kernel, by decide +kernel, by decide +kernel⟩, by and_intros <;> decide +kernel⟩

theorem witness_DataEntriesStartTheirMessage_5 :
    (∃ (d : _) (q : _) (ans : HostAns) (b : _) (s : State) (e : _) (m : _) (l : _) (m1 : _) (z : _) (se : _) (m2 : _), Takes 0x12 d q b s e m ∧ e.bad278 4 = none ∧ e.connected m ∧ e.len ≤ eagerLimit e.die m ∧ e.fragments 16 e.len 36 ans m = (.inl l, m1) ∧ checkBuf e.die e.fn e.xctx 0 Cls5.local_ ans l false m1 = (.ok z, se, m2)) :=
  ⟨0, 65535, [], (entry 0x12 (0 * 2 ^ 8 + 5 * 2 ^ 64 + 4096 * 2 ^ 128 + 0 * 2 ^ 192 + 4096 * 2 ^ 256 + 0 * 2 ^ 304 + 0)), (withEntry (entry 0x12 (0 * 2 ^ 8 + 5 * 2 ^ 64 + 4096 * 2 ^ 128 + 0 * 2 ^ 192 + 4096 * 2 ^ 256 + 0 * 2 ^ 304 + 0)) pass5), (eOf (entry 0x12 (0 * 2 ^ 8 + 5 * 2 ^ 64 + 4096 * 2 ^ 128 + 0 * 2 ^ 192 + 4096 * 2 ^ 256 + 0 * 2 ^ 304 + 0)) pass5), (mOf (entry 0x12 (0 * 2 ^ 8 + 5 * 2 ^ 64 + 4096 * 2 ^ 128 + 0 * 2 ^ 192 + 4096 * 2 ^ 256 + 0 * 2 ^ 304 + 0)) pass5), [(4096, 4096)], (mOf (entry 0x12 (0 * 2 ^ 8 + 5 * 2 ^ 64 + 4096 * 2 ^ 128 + 0 * 2 ^ 192 + 4096 * 2 ^ 256 + 0 * 2 ^ 304 + 0)) pass5), [], false, (bufOf 0 Cls5.local_ [(4096, 4096)] (mOf (entry 0x12 (0 * 2 ^ 8 + 5 * 2 ^ 64 + 4096 * 2 ^ 128 + 0 * 2 ^ 192 + 4096 * 2 ^ 256 + 0 * 2 ^ 304 + 0)) pass5)), takes (by decide +kernel), by decide +kernel, ⟨by decide +kernel, by decide +kernel, by decide +kernel⟩, by and_intros <;> decide +kernel⟩

theorem witness_DataEntriesStartTheirMessage_6 :
    (∃ (d : _) (q : _) (ans : HostAns) (b : _) (s : State) (e : _) (m : _) (z : _) (se : _) (m2 : _), Takes 0x12 d q b s e m ∧ e.bad278 4 = none ∧ e.connected m ∧ eagerLimit e.die m < e.len ∧ e.indirect = false ∧ checkBuf e.die e.fn e.xctx 0 Cls5.local_ ans [(rdLE e.b 16 8, e.len)] false m = (.ok z, se, m2)) :=
  ⟨0, 65535, [], (entry 0x12 (0 * 2 ^ 8 + 5 * 2 ^ 64 + 4096 * 2 ^ 128 + 0 * 2 ^ 192 + 65536 * 2 ^ 256 + 0 * 2 ^ 304 + 0)), (withEntry (entry 0x12 (0 * 2 ^ 8 + 5 * 2 ^ 64 + 4096 * 2 ^ 128 + 0 * 2 ^ 192 + 65536 * 2 ^ 256 + 0 * 2 ^ 304 + 0)) pass5), (eOf (entry 0x12 (0 * 2 ^ 8 + 5 * 2 ^ 64 + 4096 * 2 ^ 128 + 0 * 2 ^ 192 + 65536 * 2 ^ 256 + 0 * 2 ^ 304 + 0)) pass5), (mOf (entry 0x12 (0 * 2 ^ 8 + 5 * 2 ^ 64 + 4096 * 2 ^ 128 + 0 * 2 ^ 192 + 65536 * 2 ^ 256 + 0 * 2 ^ 304 + 0)) pass5), [], false, (bufOf 0 Cls5.local_ [(4096, 65536)] (mOf (entry 0x12 (0 * 2 ^ 8 + 5 * 2 ^ 64 + 4096 * 2 ^ 128 + 0 * 2 ^ 192 + 65536 * 2 ^ 256 + 0 * 2 ^ 304 + 0)) pass5)), takes (by decide +kernel), by decide +kernel, ⟨by decide +kernel, by decide +kernel, by decide +kernel⟩, by and_intros <;> decide +kernel⟩

theorem witness_DataEntriesStartTheirMessage_7 :
    (∃ (d : _) (q : _) (b : _) (s : State) (e : _) (m : _) (dt : _), Takes 0x10 d q b s e m ∧ e.bad278 60 = some dt) :=
  ⟨0, 65535, (entry 0x10 (2 ^ 15)), (withEntry (entry 0x10 (2 ^ 15)) id), (eOf (entry 0x10 (2 ^ 15)) id), (mOf (entry 0x10 (2 ^ 15)) id), 2, takes (by decide +kernel), by decide +kernel⟩


theorem witness_OtherEntriesHaveTheirEffect_1 :
    (∃ (d : _) (q : _) (b : _) (s : State) (e : _) (m : _), Takes 0x01 d q b s e m ∧ e.badCommon 0 1 = none ∧ zeroAt e.b 16 48 = true) :=
  ⟨0, 65535, (entry 0x01 (0)), (withEntry (entry 0x01 (0)) pass5), (eOf (entry 0x01 (0)) pass5), (mOf (entry 0x01 (0)) pass5), takes (by decide +kernel), by and_intros <;> decide +kernel⟩

theorem witness_OtherEntriesHaveTheirEffect_2 :
    (∃ (d : _) (q : _) (ans : HostAns) (b : _) (s : State) (e : _) (m : _) (l : _) (m1 : _) (z : _) (se : _) (m2 : _) (m3 : _), Takes 0x38 d q b s e m ∧ e.badRecv = none ∧ e.fragments 16 (rdLE e.b 44 4) 48 ans m = (.inl l, m1) ∧ checkBuf e.die e.fn e.xctx 1 Cls5.local_ ans l false m1 = (.ok z, se, m2) ∧ Sys2Proof.Machine.recvPost e.die (e.aux % 4096) e.fn (e.recv l (now e.die m2)) m2 = (none, m3)) :=
  ⟨0, 65535, [], (entry 0x38 (4095 * 2 ^ 112 + 4096 * 2 ^ 128 + 64 * 2 ^ 352)), (withEntry (entry 0x38 (4095 * 2 ^ 112 + 4096 * 2 ^ 128 + 64 * 2 ^ 352)) domained), (eOf (entry 0x38 (4095 * 2 ^ 112 + 4096 * 2 ^ 128 + 64 * 2 ^ 352)) domained), (mOf (entry 0x38 (4095 * 2 ^ 112 + 4096 * 2 ^ 128 + 64 * 2 ^ 352)) domained), [(4096, 64)], (mOf (entry 0x38 (4095 * 2 ^ 112 + 4096 * 2 ^ 128 + 64 * 2 ^ 352)) domained), [], false, (bufOf 1 Cls5.local_ [(4096, 64)] (mOf (entry 0x38 (4095 * 2 ^ 112 + 4096 * 2 ^ 128 + 64 * 2 ^ 352)) domained)), (Sys2Proof.Machine.recvPost 0 4095 0 ((eOf (entry 0x38 (4095 * 2 ^ 112 + 4096 * 2 ^ 128 + 64 * 2 ^ 352)) domained).recv [(4096, 64)] (now 0 (bufOf 1 Cls5.local_ [(4096, 64)] (mOf (entry 0x38 (4095 * 2 ^ 112 + 4096 * 2 ^ 128 + 64 * 2 ^ 352)) domained)))) (bufOf 1 Cls5.local_ [(4096, 64)] (mOf (entry 0x38 (4095 * 2 ^ 112 + 4096 * 2 ^ 128 + 64 * 2 ^ 352)) domained))).2, takes (by decide +kernel), by and_intros <;> decide +kernel⟩

theorem witness_OtherEntriesHaveTheirEffect_3 :
    (∃ (d : _) (q : _) (ans : HostAns) (b : _) (s : State) (e : _) (m : _) (l : _) (m1 : _) (z : _) (se : _) (m2 : _) (f : _) (m3 : _), Takes 0x38 d q b s e m ∧ e.badRecv = none ∧ e.fragments 16 (rdLE e.b 44 4) 48 ans m = (.inl l, m1) ∧ checkBuf e.die e.fn e.xctx 1 Cls5.local_ ans l false m1 = (.ok z, se, m2) ∧ Sys2Proof.Machine.recvPost e.die (e.aux % 4096) e.fn (e.recv l (now e.die m2)) m2 = (some f, m3)) :=
  ⟨0, 65535, [], (entry 0x38 (4095 * 2 ^ 112 + 4096 * 2 ^ 128 + 64 * 2 ^ 352)), (withEntry (entry 0x38 (4095 * 2 ^ 112 + 4096 * 2 ^ 128 + 64 * 2 ^ 352)) pass5), (eOf (entry 0x38 (4095 * 2 ^ 112 + 4096 * 2 ^ 128 + 64 * 2 ^ 352)) pass5), (mOf (entry 0x38 (4095 * 2 ^ 112 + 4096 * 2 ^ 128 + 64 * 2 ^ 352)) pass5), [(4096, 64)], (mOf (entry 0x38 (4095 * 2 ^ 112 + 4096 * 2 ^ 128 + 64 * 2 ^ 352)) pass5), [], false, (bufOf 1 Cls5.local_ [(4096, 64)] (mOf (entry 0x38 (4095 * 2 ^ 112 + 4096 * 2 ^ 128 + 64 * 2 ^ 352)) pass5)), (4, 64), (Sys2Proof.Machine.recvPost 0 4095 0 ((eOf (entry 0x38 (4095 * 2 ^ 112 + 4096 * 2 ^ 128 + 64 * 2 ^ 352)) pass5).recv [(4096, 64)] (now 0 (bufOf 1 Cls5.local_ [(4096, 64)] (mOf (entry 0x38 (4095 * 2 ^ 112 + 4096 * 2 ^ 128 + 64 * 2 ^ 352)) pass5)))) (bufOf 1 Cls5.local_ [(4096, 64)] (mOf (entry 0x38 (4095 * 2 ^ 112 + 4096 * 2 ^ 128 + 64 * 2 ^ 352)) pass5))).2, takes (by decide +kernel), by and_intros <;> decide +kernel⟩

theorem witness_OtherEntriesHaveTheirEffect_4 :
    (∃ (d : _) (q : _) (ans : HostAns) (b : _) (s : State) (e : _) (m : _) (p : _) (m2 : _), Takes 0x40 d q b s e m ∧ e.badColl m = none ∧ e.coll.prog < 256 ∧ e.collCheck ans (collBufs e.die e.coll m) m = (none, m2) ∧ collStartCheck e.die e.fn e.coll m2 = .inr p) :=
  ⟨0, 65535, [], (entry 0x40 (255 * 2 ^ 128 + 64 * 2 ^ 320)), (withEntry (entry 0x40 (255 * 2 ^ 128 + 64 * 2 ^ 320)) collReady), (eOf (entry 0x40 (255 * 2 ^ 128 + 64 * 2 ^ 320)) collReady), (mOf (entry 0x40 (255 * 2 ^ 128 + 64 * 2 ^ 320)) collReady), false, ((eOf (entry 0x40 (255 * 2 ^ 128 + 64 * 2 ^ 320)) collReady).collCheck [] (collBufs 0 (eOf (entry 0x40 (255 * 2 ^ 128 + 64 * 2 ^ 320)) collReady).coll (mOf (entry 0x40 (255 * 2 ^ 128 + 64 * 2 ^ 320)) collReady)) (mOf (entry 0x40 (255 * 2 ^ 128 + 64 * 2 ^ 320)) collReady)).2, takes (by decide +kernel), by and_intros <;> decide +kernel⟩

theorem witness_OtherEntriesHaveTheirEffect_5 :
    (∃ (d : _) (q : _) (b : _) (s : State) (e : _) (m : _), Takes 0x50 d q b s e m ∧ e.badOpen = none ∧ e.openDenied m = false ∧ e.openBad m = false) :=
  ⟨0, 65535, (entry 0x50 (5 * 2 ^ 64 + 7 * 2 ^ 160 + 8 * 2 ^ 208 + 7 * 2 ^ 216 + 1000 * 2 ^ 224)), (withEntry (entry 0x50 (5 * 2 ^ 64 + 7 * 2 ^ 160 + 8 * 2 ^ 208 + 7 * 2 ^ 216 + 1000 * 2 ^ 224)) openReady), (eOf (entry 0x50 (5 * 2 ^ 64 + 7 * 2 ^ 160 + 8 * 2 ^ 208 + 7 * 2 ^ 216 + 1000 * 2 ^ 224)) openReady), (mOf (entry 0x50 (5 * 2 ^ 64 + 7 * 2 ^ 160 + 8 * 2 ^ 208 + 7 * 2 ^ 216 + 1000 * 2 ^ 224)) openReady), takes (by decide +kernel), by and_intros <;> decide +kernel⟩

theorem witness_OtherEntriesHaveTheirEffect_6 :
    (∃ (d : _) (q : _) (b : _) (s : State) (e : _) (m : _), Takes 0x50 d q b s e m ∧ e.badOpen = none ∧ e.openDenied m = false ∧ e.openBad m = true) :=
  ⟨0, 65535, (entry 0x50 (5 * 2 ^ 64 + 7 * 2 ^ 160 + 8 * 2 ^ 208 + 7 * 2 ^ 216 + 999 * 2 ^ 224)), (withEntry (entry 0x50 (5 * 2 ^ 64 + 7 * 2 ^ 160 + 8 * 2 ^ 208 + 7 * 2 ^ 216 + 999 * 2 ^ 224)) openReady), (eOf (entry 0x50 (5 * 2 ^ 64 + 7 * 2 ^ 160 + 8 * 2 ^ 208 + 7 * 2 ^ 216 + 999 * 2 ^ 224)) openReady), (mOf (entry 0x50 (5 * 2 ^ 64 + 7 * 2 ^ 160 + 8 * 2 ^ 208 + 7 * 2 ^ 216 + 999 * 2 ^ 224)) openReady), takes (by decide +kernel), by and_intros <;> decide +kernel⟩

theorem witness_OtherEntriesHaveTheirEffect_7 :
    (∃ (d : _) (q : _) (b : _) (s : State) (e : _) (m : _), Takes 0x50 d q b s e m ∧ e.badOpen = none ∧ e.openDenied m = true) :=
  ⟨0, 65535, (entry 0x50 (5 * 2 ^ 64)), (withEntry (entry 0x50 (5 * 2 ^ 64)) id), (eOf (entry 0x50 (5 * 2 ^ 64)) id), (mOf (entry 0x50 (5 * 2 ^ 64)) id), takes (by decide +kernel), by and_intros <;> decide +kernel⟩

theorem witness_OtherEntriesHaveTheirEffect_8 :
    (∃ (d : _) (q : _) (b : _) (s : State) (e : _) (m : _), Takes 0x51 d q b s e m ∧ e.badCommon 0 1 = none ∧ zeroAt e.b 16 48 = true ∧ e.connected m) :=
  ⟨0, 65535, (entry 0x51 (5 * 2 ^ 64)), (withEntry (entry 0x51 (5 * 2 ^ 64)) pass5), (eOf (entry 0x51 (5 * 2 ^ 64)) pass5), (mOf (entry 0x51 (5 * 2 ^ 64)) pass5), takes (by decide +kernel), by decide +kernel, by decide +kernel, ⟨by decide +kernel, by decide +kernel, by decide +kernel⟩⟩

theorem witness_OtherEntriesHaveTheirEffect_9 :
    (∃ (d : _) (q : _) (b : _) (s : State) (e : _) (m : _), Takes 0x60 d q b s e m ∧ e.badCommon 0 65536 = none ∧ e.cn < 2 ^ 20 ∧ 0 < rdLE e.b 14 1 ∧ rdLE e.b 14 1 ≤ 8 ∧ rdLE e.b 15 1 ≤ 40 ∧ isPf e.die e.fn m = true) :=
  ⟨0, 65535, (entry 0x60 ((2 ^ 20 - 1) * 2 ^ 64 + 8 * 2 ^ 112 + 40 * 2 ^ 120)), (withEntry (entry 0x60 ((2 ^ 20 - 1) * 2 ^ 64 + 8 * 2 ^ 112 + 40 * 2 ^ 120)) id), (eOf (entry 0x60 ((2 ^ 20 - 1) * 2 ^ 64 + 8 * 2 ^ 112 + 40 * 2 ^ 120)) id), (mOf (entry 0x60 ((2 ^ 20 - 1) * 2 ^ 64 + 8 * 2 ^ 112 + 40 * 2 ^ 120)) id), takes (by decide +kernel), by and_intros <;> decide +kernel⟩

theorem witness_OtherEntriesHaveTheirEffect_10 :
    (∃ (d : _) (q : _) (b : _) (s : State) (e : _) (m : _), Takes 0x60 d q b s e m ∧ e.badCommon 0 65536 = none ∧ e.cn < 2 ^ 20 ∧ 0 < rdLE e.b 14 1 ∧ rdLE e.b 14 1 ≤ 8 ∧ rdLE e.b 15 1 ≤ 40 ∧ isPf e.die e.fn m = false) :=
  ⟨0, 65535, (entry 0x60 ((2 ^ 20 - 1) * 2 ^ 64 + 8 * 2 ^ 112 + 40 * 2 ^ 120)), (withEntry (entry 0x60 ((2 ^ 20 - 1) * 2 ^ 64 + 8 * 2 ^ 112 + 40 * 2 ^ 120)) (updHif fun h => { h with vfEn := [(0, true)], numVf := [(0, 1)] })), (eOf (entry 0x60 ((2 ^ 20 - 1) * 2 ^ 64 + 8 * 2 ^ 112 + 40 * 2 ^ 120)) (updHif fun h => { h with vfEn := [(0, true)], numVf := [(0, 1)] })), (mOf (entry 0x60 ((2 ^ 20 - 1) * 2 ^ 64 + 8 * 2 ^ 112 + 40 * 2 ^ 120)) (updHif fun h => { h with vfEn := [(0, true)], numVf := [(0, 1)] })), takes (by decide +kernel), by and_intros <;> decide +kernel⟩


theorem witness_QueuesAndRingsChangeState :
    (∃ (d : _) (q : _) (t : _) (s : State), d < 4 ∧ q < 65536 ∧ t < sqSize d q s.m ∧ hostUp d s.m = true ∧ fnState d (qOwner d q s.m) s.m ≠ FnSt.resetting ∧ bellsOff d s.m = false ∧ dieState d s.m ≠ DieSt.sleep ∧ qState d 0 q s.m = QSt.active ∧ t < 65536 ∧ t ≠ sqTail d q s.m)
    ∧ (∃ (d : _) (q : _) (t : _) (s : State), d < 4 ∧ q < 65536 ∧ sqSize d q s.m ≤ t ∧ hostUp d s.m = true ∧ fnState d (qOwner d q s.m) s.m ≠ FnSt.resetting ∧ bellsOff d s.m = false ∧ dieState d s.m ≠ DieSt.sleep ∧ qState d 0 q s.m = QSt.active ∧ t < 65536)
    ∧ (∃ (d : _) (q : _) (t : _) (s : State), d < 4 ∧ q < 65536 ∧ hostUp d s.m = true ∧ fnState d (qOwner d q s.m) s.m ≠ FnSt.resetting ∧ bellsOff d s.m = false ∧ qState d 0 q s.m ≠ QSt.active ∧ t < 65536)
    ∧ (∃ (d : _) (q : _) (i : _) (s : State), d < 4 ∧ q < 65536 ∧ i < 65536 ∧ hostUp d s.m = true ∧ ((qState d 0 q s.m = QSt.active ∨ qState d 0 q s.m = QSt.draining)))
    ∧ (∃ (d : _) (q : _) (i : _) (s : State), d < 4 ∧ q < 65536 ∧ i < 65536 ∧ hostUp d s.m = true)
    ∧ (∃ (d : _) (q : _) (a : _) (n : _) (s : State), d < 4 ∧ q < 65536 ∧ a < 65536 ∧ n < 65536 ∧ hostUp d s.m = true ∧ qState d 0 q s.m = QSt.active ∧ invalBusy d q s.m = false)
    ∧ (∃ (d : _) (q : _) (a : _) (n : _) (s : State), d < 4 ∧ q < 65536 ∧ a < 65536 ∧ n < 65536 ∧ hostUp d s.m = true ∧ ((qState d 0 q s.m ≠ QSt.active ∨ invalBusy d q s.m = true)))
    ∧ (∃ (d : _) (q : _) (a : _) (n : _) (s : State), d < 4 ∧ q < 65536 ∧ a < 65536 ∧ n < 65536 ∧ hostUp d s.m = true ∧ ((qState d 0 q s.m ≠ QSt.active ∨ invalBusy d q s.m = true)))
    ∧ (∃ (d : _) (r : _) (s : State), d < 4 ∧ r < 65536 ∧ hostUp d s.m = true ∧ rd F.WQU_QSTATE_FETCH d (qix 1 r) s.m ≠ rd F.WQU_QSTATE_TAIL d (qix 1 r) s.m)
    ∧ (∃ (d : _) (r : _) (s : State), d < 4 ∧ r < 65536 ∧ hostUp d s.m = true ∧ rd F.WQU_QSTATE_FETCH d (qix 1 r) s.m = rd F.WQU_QSTATE_TAIL d (qix 1 r) s.m)
    ∧ (∃ (d : _) (n : _) (s : State), d < 4 ∧ n < 65536 ∧ hostUp d s.m = true ∧ qState d 0 n s.m = QSt.disabled)
    ∧ (∃ (d : _) (n : _) (s : State), d < 4 ∧ n < 65536 ∧ hostUp d s.m = true ∧ qState d 1 n s.m = QSt.disabled)
    ∧ (∃ (d : _) (n : _) (s : State), d < 4 ∧ n < 65536 ∧ hostUp d s.m = true ∧ qState d 0 n s.m = QSt.active)
    ∧ (∃ (d : _) (n : _) (s : State), d < 4 ∧ n < 65536 ∧ hostUp d s.m = true ∧ qState d 1 n s.m ≠ QSt.overflowed)
    ∧ (∃ (d : _) (n : _) (s : State), d < 4 ∧ n < 65536 ∧ hostUp d s.m = true ∧ qState d 1 n s.m = QSt.overflowed)
    ∧ (∃ (d : _) (n : _) (s : State), d < 4 ∧ n < 65536 ∧ hostUp d s.m = true)
    ∧ (∃ (d : _) (k : _) (n : _) (s : State), d < 4 ∧ k < 2 ∧ n < 65536 ∧ hostUp d s.m = true ∧ qState d k n s.m ≠ QSt.disabled)
    ∧ (∃ (d : _) (n : _) (s : State), d < 4 ∧ n < 65536 ∧ hostUp d s.m = true)
    ∧ (∃ (d : _) (q : _) (s : State), d < 4 ∧ q < 65536 ∧ hostUp d s.m = true ∧ qState d 0 q s.m = QSt.draining ∧ sqOpen d q s.m = 0)
    ∧ (∃ (d : _) (q : _) (s : State), d < 4 ∧ q < 65536 ∧ hostUp d s.m = true ∧ ((qState d 0 q s.m ≠ QSt.draining ∨ sqOpen d q s.m ≠ 0)))
    ∧ (∃ (d : _) (f : _) (s : State), d < 4 ∧ f < 1026 ∧ hostUp d s.m = true)
    ∧ (∃ (d : _) (f : _) (i : _) (s : State), d < 4 ∧ f < 1026 ∧ i < 65536 ∧ hostUp d s.m = true) :=
  ⟨⟨3, 65535, 63, (st fun m => wr F.WQU_QSTATE_STATE 3 (qix 0 65535) QSt.active m), by and_intros <;> decide +kernel⟩,
   ⟨3, 65535, 64, (st fun m => wr F.WQU_QSTATE_STATE 3 (qix 0 65535) QSt.active m), by and_intros <;> decide +kernel⟩,
   ⟨3, 65535, 65535, (st id), by and_intros <;> decide +kernel⟩,
   ⟨3, 65535, 65535, (st fun m => wr F.WQU_QSTATE_STATE 3 (qix 0 65535) QSt.draining m), by and_intros <;> decide +kernel⟩,
   ⟨3, 65535, 65535, (st id), by and_intros <;> decide +kernel⟩,
   ⟨3, 65535, 65535, 65535, (st fun m => wr F.WQU_QSTATE_STATE 3 (qix 0 65535) QSt.active m), by and_intros <;> decide +kernel⟩,
   ⟨3, 65535, 65535, 65535, (st id), by and_intros <;> decide +kernel⟩,
   ⟨3, 65535, 0, 0, (st fun m => updSq 3 65535 (fun k => { k with busyTo := 1000 }) (wr F.WQU_QSTATE_STATE 3 (qix 0 65535) QSt.active m)), by and_intros <;> decide +kernel⟩,
   ⟨3, 65535, (st fun m => wr F.WQU_QSTATE_TAIL 3 (qix 1 65535) 1 (wr F.WQU_QSTATE_STATE 3 (qix 1 65535) QSt.active m)), by and_intros <;> decide +kernel⟩,
   ⟨3, 65535, (st fun m => wr F.WQU_QSTATE_STATE 3 (qix 1 65535) QSt.active m), by and_intros <;> decide +kernel⟩,
   ⟨3, 65535, (st id), by and_intros <;> decide +kernel⟩,
   ⟨3, 65535, (st id), by and_intros <;> decide +kernel⟩,
   ⟨3, 65535, (st fun m => wr F.WQU_QSTATE_STATE 3 (qix 0 65535) QSt.active m), by and_intros <;> decide +kernel⟩,
   ⟨3, 65535, (st id), by and_intros <;> decide +kernel⟩,
   ⟨3, 65535, (st fun m => wr F.WQU_QSTATE_STATE 3 (qix 1 65535) QSt.overflowed m), by and_intros <;> decide +kernel⟩,
   ⟨3, 65535, (st id), by and_intros <;> decide +kernel⟩,
   ⟨3, 1, 65535, (st fun m => wr F.WQU_QSTATE_STATE 3 (qix 1 65535) QSt.overflowed m), by and_intros <;> decide +kernel⟩,
   ⟨3, 65535, (st id), by and_intros <;> decide +kernel⟩,
   ⟨3, 65535, (st fun m => wr F.WQU_QSTATE_STATE 3 (qix 0 65535) QSt.draining m), by and_intros <;> decide +kernel⟩,
   ⟨3, 65535, (st id), by and_intros <;> decide +kernel⟩,
   ⟨3, 1025, (st id), by and_intros <;> decide +kernel⟩,
   ⟨3, 1025, 65535, (st id), by and_intros <;> decide +kernel⟩⟩

theorem witness_LocksAndWaitSlotsServeTheirOwners :
    (∃ (d : _) (b : _) (k : _) (h : _) (s : State), d < 4 ∧ b < 2 ^ 64 ∧ hostUp d s.m = true ∧ lockAt d b s.m = some k ∧ k.waiters ≠ [] ∧ k.holder = some h)
    ∧ (∃ (d : _) (b : _) (s : State), d < 4 ∧ b < 2 ^ 64 ∧ hostUp d s.m = true ∧ ((∀ k, lockAt d b s.m = some k → k.waiters = [])))
    ∧ (∃ (d : _) (k : _) (f : _) (cn : _) (tag : _) (addr : _) (xc : _) (s : State) (m : _), d < 4 ∧ k < 64 ∧ hostUp d s.m = true ∧ curB F.CRK_SLOT_CFG_ENABLE d k s.m = true ∧ f = cur F.CRK_SLOT_CFG_FN d k s.m ∧ cn = cur F.CRK_SLOT_REQ_CONDUIT d k s.m ∧ tag = cur F.CRK_SLOT_REQ_OWNER_TAG d k s.m ∧ addr = cur F.CRK_SLOT_LOCK_ADDR d k s.m * 8 ∧ xc = cur F.CRK_SLOT_CMD_RXCTX d k s.m ∧ inRange d f cn s.m = true ∧ inGate d f cn s.m = false ∧ condLive d cn s.m = true ∧ m = (addMsg d cn { Msg.blank with op := Op.lockReq, owner := .slot k false, wait := 3, hdr := lockHdr addr xc 0 (cur F.CRK_SLOT_REQ_PRIORITY d k s.m) tag 0 } s.m).2)
    ∧ (∃ (d : _) (k : _) (s : State), d < 4 ∧ k < 64 ∧ hostUp d s.m = true ∧ curB F.CRK_SLOT_CFG_ENABLE d k s.m = true ∧ ((inRange d (cur F.CRK_SLOT_CFG_FN d k s.m) (cur F.CRK_SLOT_REQ_CONDUIT d k s.m) s.m = false ∨ inGate d (cur F.CRK_SLOT_CFG_FN d k s.m) (cur F.CRK_SLOT_REQ_CONDUIT d k s.m) s.m = true)))
    ∧ (∃ (d : _) (k : _) (s : State), d < 4 ∧ k < 64 ∧ hostUp d s.m = true ∧ curB F.CRK_SLOT_CFG_ENABLE d k s.m = false)
    ∧ (∃ (d : _) (k : _) (f : _) (cn : _) (s : State), d < 4 ∧ k < 64 ∧ hostUp d s.m = true ∧ curB F.CRK_SLOT_CFG_ENABLE d k s.m = true ∧ f = cur F.CRK_SLOT_CFG_FN d k s.m ∧ cn = cur F.CRK_SLOT_REQ_CONDUIT d k s.m ∧ inRange d f cn s.m = true ∧ inGate d f cn s.m = false ∧ condLive d cn s.m = true)
    ∧ (∃ (d : _) (k : _) (s : State), d < 4 ∧ k < 64 ∧ hostUp d s.m = true ∧ curB F.CRK_SLOT_CFG_ENABLE d k s.m = true ∧ inRange d (cur F.CRK_SLOT_CFG_FN d k s.m) (cur F.CRK_SLOT_REQ_CONDUIT d k s.m) s.m = true ∧ inGate d (cur F.CRK_SLOT_CFG_FN d k s.m) (cur F.CRK_SLOT_REQ_CONDUIT d k s.m) s.m = false ∧ condLive d (cur F.CRK_SLOT_REQ_CONDUIT d k s.m) s.m = false)
    ∧ (∃ (d : _) (k : _) (s : State), d < 4 ∧ k < 64 ∧ hostUp d s.m = true ∧ (slot d k s.m).busy = false)
    ∧ (∃ (d : _) (k : _) (s : State), d < 4 ∧ k < 64 ∧ hostUp d s.m = true ∧ (slot d k s.m).busy = true ∧ (slot d k s.m).stall = none)
    ∧ (∃ (d : _) (k : _) (r : _) (s : State), d < 4 ∧ k < 64 ∧ hostUp d s.m = true ∧ (slot d k s.m).busy = true ∧ (slot d k s.m).stall = some r)
    ∧ (∃ (d : _) (k : _) (r : _) (s : State), d < 4 ∧ k < 64 ∧ hostUp d s.m = true ∧ (slot d k s.m).stall = some r)
    ∧ (∃ (d : _) (k : _) (s : State), d < 4 ∧ k < 64 ∧ hostUp d s.m = true ∧ (slot d k s.m).stall = none) :=
  ⟨⟨3, 2 ^ 64 - 8, lock1, { waiter1 with tag := 0 }, (st fun m => setLocks 3 [lock1] m), by and_intros <;> decide +kernel⟩,
   ⟨3, 2 ^ 64 - 8, (st id), by decide +kernel, by decide +kernel, by decide +kernel, (fun _ h => by cases h)⟩,
   ⟨0, 63, _, _, _, _, _, (st fun m => force F.CRK_SLOT_CFG_ENABLE 0 63 1 (force F.CRK_SLOT_REQ_CONDUIT 0 63 5 (force F.CND_FN_CTL_ENABLE 0 0 1 (pass5 m)))), _, by and_intros <;> first | decide +kernel | rfl⟩,
   ⟨3, 63, (st fun m => force F.CRK_SLOT_CFG_ENABLE 3 63 1 m), by and_intros <;> decide +kernel⟩,
   ⟨3, 63, (st id), by and_intros <;> decide +kernel⟩,
   ⟨0, 63, _, _, (st fun m => force F.CRK_SLOT_CFG_ENABLE 0 63 1 (force F.CRK_SLOT_REQ_CONDUIT 0 63 5 (force F.CND_FN_CTL_ENABLE 0 0 1 (pass5 m)))), by and_intros <;> first | decide +kernel | rfl⟩,
   ⟨0, 63, (st fun m => force F.CRK_SLOT_CFG_ENABLE 0 63 1 (force F.CRK_SLOT_REQ_CONDUIT 0 63 5 (force F.CND_FN_CTL_ENABLE 0 0 1 m))), by and_intros <;> decide +kernel⟩,
   ⟨3, 63, (st id), by and_intros <;> decide +kernel⟩,
   ⟨3, 63, (st fun m => setSlot 3 63 { Slot.reset with busy := true } m), by and_intros <;> decide +kernel⟩,
   ⟨3, 63, (0, 0), (st fun m => setSlot 3 63 { Slot.reset with busy := true, stall := some (0, 0) } m), by and_intros <;> decide +kernel⟩,
   ⟨3, 63, (0, 0), (st fun m => setSlot 3 63 { Slot.reset with stall := some (0, 0) } m), by and_intros <;> decide +kernel⟩,
   ⟨3, 63, (st id), by and_intros <;> decide +kernel⟩⟩

theorem witness_ALockIsHandedToTheNextOwner :
    (∃ (d : _) (k : Lock) (fresh : _) (w : Waiter) (m : Sys2Proof.Machine.Mod), ownsLock k w.cn w.tag = false ∧ ((fresh = true → (locks d m).length < 65536)) ∧ k.holder = none)
    ∧ (∃ (d : _) (k : Lock) (fresh : _) (w : Waiter) (h : Waiter) (m : Sys2Proof.Machine.Mod), ownsLock k w.cn w.tag = false ∧ ((fresh = true → (locks d m).length < 65536)) ∧ k.holder = some h)
    ∧ (∃ (d : _) (k : Lock) (fresh : _) (w : Waiter) (h : Waiter) (m : Sys2Proof.Machine.Mod), ownsLock k w.cn w.tag = false ∧ ((fresh = true → (locks d m).length < 65536)) ∧ k.holder = some h ∧ rd F.CRK_TABLE_WAITERS d 0 m < 262144)
    ∧ (∃ (d : _) (k : Lock) (w : Waiter) (m : Sys2Proof.Machine.Mod) (y : Waiter), k.holder = some w ∧ nextWaiter d k.waiters m = some y)
    ∧ (∃ (k : Lock) (w : Waiter), k.holder = some w ∧ k.waiters = [] ∧ k.aband = false)
    ∧ (∃ (d : _) (l : List Waiter) (m : Sys2Proof.Machine.Mod) (w : Waiter), curB F.CRK_CTRL_PRIO_EN d 0 m = true ∧ nextWaiter d l m = some w)
    ∧ (∃ (d : _) (l : List Waiter) (m : Sys2Proof.Machine.Mod), curB F.CRK_CTRL_PRIO_EN d 0 m = true ∧ l ≠ [])
    ∧ (∃ (d : _) (m : Sys2Proof.Machine.Mod), curB F.CRK_CTRL_PRIO_EN d 0 m = false) :=
  ⟨⟨0, { lock1 with holder := none, waiters := [] }, true, waiter1, (st id).m, by and_intros <;> decide +kernel⟩,
   ⟨0, lock1, true, { waiter1 with tag := 2 }, { waiter1 with tag := 0 }, (st id).m, by and_intros <;> decide +kernel⟩,
   ⟨0, lock1, true, { waiter1 with tag := 2 }, { waiter1 with tag := 0 }, (st id).m, by and_intros <;> decide +kernel⟩,
   ⟨0, lock1, { waiter1 with tag := 0 }, (st id).m, waiter1, by and_intros <;> decide +kernel⟩,
   ⟨{ lock1 with waiters := [] }, { waiter1 with tag := 0 }, by and_intros <;> decide +kernel⟩,
   ⟨0, [{ waiter1 with prio := 0 }, waiter1, { waiter1 with tag := 3 }], (st id).m, waiter1, by and_intros <;> decide +kernel⟩,
   ⟨0, [waiter1], (st id).m, by and_intros <;> decide +kernel⟩,
   ⟨0, (st (force F.CRK_CTRL_PRIO_EN 0 0 0)).m, by decide +kernel⟩⟩

theorem witness_MatchingCommandsAct :
    (∃ (tok : _) (x : _) (r : _) (d : _) (f : _) (s : State), mmsg tok s.m = some x ∧ x.recv = some r ∧ x.copying = true ∧ d = x.cn / 2 ^ 24 ∧ f = (Machine.cond d (x.cn % 2 ^ 24) s.m).fn)
    ∧ (∃ (tok : _) (s : State), ((∀ x, mmsg tok s.m = some x → x.recv = none ∨ x.copying = false)))
    ∧ (∃ (tok : _) (x : _) (d : _) (cn : _) (s : State), mmsg tok s.m = some x ∧ x.place = 5 ∧ d = x.cn / 2 ^ 24 ∧ cn = x.cn % 2 ^ 24 ∧ condState d cn s.m ≠ CSt.closed)
    ∧ (∃ (tok : _) (x : _) (s : State), mmsg tok s.m = some x ∧ x.place = 5 ∧ condState (x.cn / 2 ^ 24) (x.cn % 2 ^ 24) s.m = CSt.closed)
    ∧ (∃ (d : _) (n : _) (tok : _) (x : _) (s : State), d < 4 ∧ n < 4096 ∧ hostUp d s.m = true ∧ tok = cur F.MTC_BIND_TAG_TOKEN d n s.m ∧ mmsg tok s.m = some x ∧ x.cn / 2 ^ 24 = d ∧ x.dom = n ∧ x.place = 2 ∧ (dom d n s.m).bind = none)
    ∧ (∃ (d : _) (n : _) (s : State), d < 4 ∧ n < 4096 ∧ hostUp d s.m = true ∧ mmsg (cur F.MTC_BIND_TAG_TOKEN d n s.m) s.m = none)
    ∧ (∃ (d : _) (n : _) (s : State), d < 4 ∧ n < 4096 ∧ hostUp d s.m = true ∧ domState d n s.m ≠ 2)
    ∧ (∃ (d : _) (n : _) (s : State) (m1 : _) (m : _), d < 4 ∧ n < 4096 ∧ hostUp d s.m = true ∧ m1 = (dom d n s.m).posted.foldl (fun m r => recvCpl d r St.flushed 0 0 0 0 0 m) s.m ∧ m = ((m1.trn.mmsg.filter (fun e => e.2.cn / 2 ^ 24 == d && e.2.dom == n)).map Prod.fst).foldl (fun m t => domainMsgEnd true t m) m1)
    ∧ (∃ (d : _) (n : _) (h : _) (s : State), d < 4 ∧ n < 4096 ∧ h < 65536 ∧ hostUp d s.m = true) :=
  ⟨⟨1, mmsg1 4 true, recv1, _, _, (st fun m => arrived (mmsg1 4 true) (m)), by and_intros <;> first | decide +kernel | rfl⟩,
   ⟨1, (st fun m => arrived (mmsg1 2 false) (m)), (fun x h => by have : x = mmsg1 2 false := (Option.some.inj ((show mmsg 1 _ = some (mmsg1 2 false) by decide +kernel).symm.trans h)).symm; subst this; exact Or.inl rfl)⟩,
   ⟨1, (mmsg1 5 true), _, _, (st fun m => arrived (mmsg1 5 true) (pass5 m)), by and_intros <;> first | decide +kernel | rfl⟩,
   ⟨1, mmsg1 5 true, (st fun m => arrived (mmsg1 5 true) (m)), by and_intros <;> decide +kernel⟩,
   ⟨0, 4095, _, mmsg1 2 false, (st fun m => arrived (mmsg1 2 false) (force F.MTC_BIND_TAG_TOKEN 0 4095 1 m)), by and_intros <;> first | decide +kernel | rfl⟩,
   ⟨3, 4095, (st id), by and_intros <;> decide +kernel⟩,
   ⟨3, 4095, (st id), by and_intros <;> decide +kernel⟩,
   ⟨3, 4095, (st id), _, _, by and_intros <;> first | decide +kernel | rfl⟩,
   ⟨3, 4095, 65535, (st id), by and_intros <;> decide +kernel⟩⟩

theorem witness_AReceiveMatchesByItsBitsAndSource :
    (∃ (r : Recv) (B : Nat), r.bits < 2 ^ 64 ∧ r.ignore < 2 ^ 64 ∧ B < 2 ^ 64) :=
  ⟨{ recv1 with bits := 2 ^ 64 - 1, ignore := 2 ^ 64 - 1 }, 2 ^ 64 - 1, by and_intros <;> decide +kernel⟩

theorem witness_ADomainResumesOnlyWithAnEmptyRing :
    (∃ (d : _) (n : _) (s : State), d < 4 ∧ n < 4096 ∧ hostUp d s.m = true ∧ domState d n s.m = 2 ∧ rd F.MTC_OVF_IDX_TAIL d n s.m = cur F.MTC_OVF_IDX_HEAD d n s.m)
    ∧ (∃ (d : _) (n : _) (s : State), d < 4 ∧ n < 4096 ∧ hostUp d s.m = true ∧ domState d n s.m = 2 ∧ rd F.MTC_OVF_IDX_TAIL d n s.m ≠ cur F.MTC_OVF_IDX_HEAD d n s.m) :=
  ⟨⟨3, 4095, (st fun m => wr F.MTC_DSTATUS_STATE 3 4095 2 m), by and_intros <;> decide +kernel⟩,
   ⟨3, 4095, (st fun m => wr F.MTC_OVF_IDX_TAIL 3 4095 1 (wr F.MTC_DSTATUS_STATE 3 4095 2 m)), by and_intros <;> decide +kernel⟩⟩

theorem witness_TheDroverMovesItsChunks_1 :
    (∃ (d : _) (p : _) (P : DProg) (x : _) (c : Nat) (ss : _) (k : _) (l : _) (y : _) (s : State), d < 4 ∧ p < 256 ∧ hostUp d s.m = true ∧ prog d p s.m = some P ∧ (drun d p s.m).cur = some x ∧ c = x.next ∧ c < x.total P ∧ (x.chunks.filter (fun e => e.2.phase != 3)).length < P.window ∧ ss = stepsOf P c P.steps.length 0 ∧ inputTags d P ss s.m = true ∧ ss = k :: l ∧ P.step? k = some y) :=
  ⟨0, 255, (progK 3 id), (inst1 [] 1), 1, [0], 0, [], step0, (running (progK 3 id) (inst1 [] 1)), by and_intros <;> decide +kernel⟩

theorem witness_TheDroverMovesItsChunks_2 :
    (∃ (d : _) (p : _) (P : DProg) (x : _) (c : Nat) (s : State), d < 4 ∧ p < 256 ∧ hostUp d s.m = true ∧ prog d p s.m = some P ∧ (drun d p s.m).cur = some x ∧ c = x.next ∧ c < x.total P ∧ (x.chunks.filter (fun e => e.2.phase != 3)).length < P.window ∧ stepsOf P c P.steps.length 0 = [] ∧ inputTags d P [] s.m = true) :=
  ⟨0, 255, (progK 3 fun s => { s with elemOff := 1 }), (inst1 [] 0), 0, (running (progK 3 fun s => { s with elemOff := 1 }) (inst1 [] 0)), by and_intros <;> decide +kernel⟩

theorem witness_TheDroverMovesItsChunks_3 :
    (∃ (d : _) (p : _) (P : DProg) (x : _) (s : State), d < 4 ∧ p < 256 ∧ hostUp d s.m = true ∧ prog d p s.m = some P ∧ (drun d p s.m).cur = some x ∧ ((x.total P ≤ x.next ∨ P.window ≤ (x.chunks.filter (fun e => e.2.phase != 3)).length ∨ inputTags d P (stepsOf P x.next P.steps.length 0) s.m = false))) :=
  ⟨0, 255, (progK 3 id), (inst1 [] 2), (running (progK 3 id) (inst1 [] 2)), by and_intros <;> decide +kernel⟩

theorem witness_TheDroverMovesItsChunks_4 :
    (∃ (d : _) (p : _) (P : DProg) (x : _) (s : State), d < 4 ∧ p < 256 ∧ hostUp d s.m = true ∧ prog d p s.m = some P ∧ (drun d p s.m).cur = some x ∧ ((x.total P ≤ x.next ∨ P.window ≤ (x.chunks.filter (fun e => e.2.phase != 3)).length ∨ inputTags d P (stepsOf P x.next P.steps.length 0) s.m = false))) :=
  ⟨0, 255, (progK 3 id), (inst1 [(0, chunk1 1 0)] 1), (running (progK 3 id) (inst1 [(0, chunk1 1 0)] 1)), by and_intros <;> decide +kernel⟩

theorem witness_TheDroverMovesItsChunks_5 :
    (∃ (d : _) (p : _) (c : Nat) (x : _) (ck : Chunk) (s : State), d < 4 ∧ p < 256 ∧ hostUp d s.m = true ∧ (drun d p s.m).cur = some x ∧ NMap.find x.chunks c = some ck ∧ ck.phase = 0) :=
  ⟨0, 255, 1, (inst1 [(1, chunk1 0 0)] 2), chunk1 0 0, (running (progK 3 id) (inst1 [(1, chunk1 0 0)] 2)), by and_intros <;> decide +kernel⟩

theorem witness_TheDroverMovesItsChunks_6 :
    (∃ (d : _) (p : _) (P : DProg) (x : _) (c : Nat) (e : _) (k : _) (j : _) (y : _) (ck : Chunk) (es : _) (n : _) (s : State), d < 4 ∧ p < 256 ∧ hostUp d s.m = true ∧ prog d p s.m = some P ∧ (drun d p s.m).cur = some x ∧ e < 64 ∧ P.edge? e = some k ∧ stepIn P e = some j ∧ P.step? j = some y ∧ NMap.find x.chunks c = some ck ∧ k.kind = 4 ∧ bit ck.got e = false ∧ ck.phase ≠ 3 ∧ es = elemSize y.op y.dt ∧ n = elems P x c * es) :=
  ⟨0, 255, (progK 4 id), (inst1 [(1, chunk1 1 0)] 2), 1, 0, edge0 4 0, 0, step0, chunk1 1 0, 4, 16, (running (progK 4 id) (inst1 [(1, chunk1 1 0)] 2)), by and_intros <;> decide +kernel⟩

theorem witness_TheDroverMovesItsChunks_7 :
    (∃ (d : _) (p : _) (P : DProg) (x : _) (c : Nat) (e : _) (k : _) (st : _) (ck : Chunk) (m : _) (s : State), d < 4 ∧ p < 256 ∧ hostUp d s.m = true ∧ prog d p s.m = some P ∧ (drun d p s.m).cur = some x ∧ e < 64 ∧ NMap.find x.chunks c = some ck ∧ P.edge? e = some k ∧ P.step? ck.step = some st ∧ ck.phase = 2 ∧ bit ck.left e = true ∧ creditOk P x e c = true ∧ k.kind ≤ 2 ∧ m = (if st.timed = true ∧ now d s.m < ck.release then runTo d ck.release s.m else s.m) ∧ stepVoid d P st m = none) :=
  ⟨0, 255, (progK 0 id), (inst1 [(0, chunk1 2 2)] 1), 0, 1, edge0 0 1, step0, chunk1 2 2, _, (running (progK 0 id) (inst1 [(0, chunk1 2 2)] 1)), by and_intros <;> first | decide +kernel | rfl⟩

theorem witness_TheDroverMovesItsChunks_8 :
    (∃ (d : _) (p : _) (P : DProg) (x : _) (c : Nat) (e : _) (k : _) (st : _) (ck : Chunk) (m : _) (status : Nat) (detail : Nat) (s : State), d < 4 ∧ p < 256 ∧ hostUp d s.m = true ∧ prog d p s.m = some P ∧ (drun d p s.m).cur = some x ∧ e < 64 ∧ NMap.find x.chunks c = some ck ∧ P.edge? e = some k ∧ P.step? ck.step = some st ∧ ck.phase = 2 ∧ bit ck.left e = true ∧ creditOk P x e c = true ∧ k.kind ≤ 2 ∧ m = (if st.timed = true ∧ now d s.m < ck.release then runTo d ck.release s.m else s.m) ∧ stepVoid d P st m = some (status, detail)) :=
  ⟨0, 255, (progK 0 fun s => { s with timed := true }), (inst1 [(0, chunk1 2 2)] 1), 0, 1, edge0 0 1, { step0 with timed := true }, chunk1 2 2, _, St.deadline, TDet.withdrawn, (running (progK 0 fun s => { s with timed := true }) (inst1 [(0, chunk1 2 2)] 1)), by and_intros <;> first | decide +kernel | rfl⟩

theorem witness_TheDroverMovesItsChunks_9 :
    (∃ (d : _) (p : _) (P : DProg) (x : _) (c : Nat) (e : _) (k : _) (ans : HostAns) (st : _) (ck : Chunk) (h : _) (b : Bytes) (z : _) (m : _) (s : State), d < 4 ∧ p < 256 ∧ hostUp d s.m = true ∧ prog d p s.m = some P ∧ (drun d p s.m).cur = some x ∧ e < 64 ∧ NMap.find x.chunks c = some ck ∧ P.edge? e = some k ∧ P.step? ck.step = some st ∧ ck.phase = 2 ∧ bit ck.left e = true ∧ creditOk P x e c = true ∧ k.kind = 3 ∧ st.op ≠ 0 ∧ h = hostPart P x x.outOwn x.outAddr (elemSize st.op st.dt) c ∧ h.2.1 ≠ 0 ∧ b = sub ck.result ((h.1 - c * P.chunk) * elemSize st.op st.dt) (h.2.1 * elemSize st.op st.dt) ∧ writeVa d P.fn x.xctx h.2.2 Cls5.drover b ans s.m = (.ok z, m)) :=
  ⟨0, 255, (progK 3 id), hostOut, 0, 1, edge0 3 1, [], step0, { chunk1 2 2 with result := zeros 16 }, _, zeros 16, [], (writeVa 0 0 0 0 Cls5.drover (zeros 16) [] (runningIn mapped (progK 3 id) hostOut).m).2, (runningIn mapped (progK 3 id) hostOut), by and_intros <;> first | decide +kernel | rfl⟩

theorem witness_TheDroverMovesItsChunks_10 :
    (∃ (d : _) (p : _) (P : DProg) (x : _) (c : Nat) (e : _) (k : _) (st : _) (ck : Chunk) (s : State), d < 4 ∧ p < 256 ∧ hostUp d s.m = true ∧ prog d p s.m = some P ∧ (drun d p s.m).cur = some x ∧ e < 64 ∧ NMap.find x.chunks c = some ck ∧ P.edge? e = some k ∧ P.step? ck.step = some st ∧ ck.phase = 2 ∧ bit ck.left e = true ∧ creditOk P x e c = true ∧ k.kind = 4 ∧ st.op ≠ 0) :=
  ⟨0, 255, (progK 4 id), (inst1 [(0, chunk1 2 2)] 1), 0, 1, edge0 4 1, step0, chunk1 2 2, (running (progK 4 id) (inst1 [(0, chunk1 2 2)] 1)), by and_intros <;> decide +kernel⟩

theorem witness_TheDroverMovesItsChunks_11 :
    (∃ (d : _) (p : _) (P : DProg) (x : _) (c : Nat) (e : _) (ck : Chunk) (s : State), d < 4 ∧ p < 256 ∧ hostUp d s.m = true ∧ prog d p s.m = some P ∧ (drun d p s.m).cur = some x ∧ e < 64 ∧ NMap.find x.chunks c = some ck ∧ creditOk P x e c = false) :=
  ⟨0, 255, (progK 0 id), (inst1 [(1, chunk1 2 2)] 2), 1, 1, chunk1 2 2, (running (progK 0 id) (inst1 [(1, chunk1 2 2)] 2)), by and_intros <;> decide +kernel⟩

theorem witness_TheDroverMovesItsChunks_12 :
    (∃ (d : _) (p : _) (P : DProg) (x : _) (e : _) (k : _) (j : _) (t : _) (m : _) (old : _) (s : State), d < 4 ∧ p < 256 ∧ hostUp d s.m = true ∧ prog d p s.m = some P ∧ creditOwner (drun d p s.m) e = some (old, x) ∧ e < 64 ∧ P.edge? e = some k ∧ stepIn P e = some j ∧ k.kind ≤ 1 ∧ t = NMap.get 0 (drun d p s.m).creditAt e ∧ m = count d 579 1 (collSend d P k false false 0 1 (collHdr 2 0 P.collId k.peer x.num x.low x.n x.base 0 0 0) (if 0 < t ∧ now d s.m < t - 1 + 256 then runTo d (t - 1 + 256) s.m else s.m))) :=
  ⟨0, 255, (progK 0 id), (inst1 [] 1), 0, edge0 0 0, 0, _, _, false, (running (progK 0 id) (inst1 [] 1)), by and_intros <;> first | decide +kernel | rfl⟩

theorem witness_TheDroverMovesItsChunks_13 :
    (∃ (d : _) (p : _) (P : DProg) (e : _) (s : State), d < 4 ∧ p < 256 ∧ hostUp d s.m = true ∧ prog d p s.m = some P ∧ e < 64 ∧ creditOwner (drun d p s.m) e = none) :=
  ⟨0, 255, (progK 0 id), 63, (running (progK 0 id) (inst1 [] 0)), by and_intros <;> decide +kernel⟩

theorem witness_TheDroverMovesItsChunks_14 :
    (∃ (d : _) (p : _) (P : DProg) (x : _) (c : Nat) (st : _) (ck : Chunk) (t : _) (m : _) (s : State), d < 4 ∧ p < 256 ∧ hostUp d s.m = true ∧ prog d p s.m = some P ∧ (drun d p s.m).cur = some x ∧ NMap.find x.chunks c = some ck ∧ P.step? ck.step = some st ∧ ck.phase = 1 ∧ st.partOk = true ∧ t = ck.time + (if st.timeout = 0 then P.timeout else st.timeout) * 1000 ∧ m = (if now d s.m < t then runTo d t s.m else s.m)) :=
  ⟨0, 255, (progK 3 fun s => { s with partOk := true }), (inst1 [(0, chunk1 1 0)] 1), 0, { step0 with partOk := true }, chunk1 1 0, _, _, (running (progK 3 fun s => { s with partOk := true }) (inst1 [(0, chunk1 1 0)] 1)), by and_intros <;> first | decide +kernel | rfl⟩

theorem witness_TheDroverMovesItsChunks_15 :
    (∃ (d : _) (p : _) (P : DProg) (x : _) (c : Nat) (st : _) (ck : Chunk) (t : _) (m : _) (s : State), d < 4 ∧ p < 256 ∧ hostUp d s.m = true ∧ prog d p s.m = some P ∧ (drun d p s.m).cur = some x ∧ NMap.find x.chunks c = some ck ∧ P.step? ck.step = some st ∧ ck.phase = 1 ∧ st.partOk = false ∧ st.timed = false ∧ t = ck.time + (if st.timeout = 0 then P.timeout else st.timeout) * 1000 ∧ m = (if now d s.m < t then runTo d t s.m else s.m)) :=
  ⟨0, 255, (progK 3 id), (inst1 [(0, chunk1 1 0)] 1), 0, step0, chunk1 1 0, _, _, (running (progK 3 id) (inst1 [(0, chunk1 1 0)] 1)), by and_intros <;> first | decide +kernel | rfl⟩

theorem witness_TheDroverMovesItsChunks_16 :
    (∃ (d : _) (p : _) (P : DProg) (x : _) (c : Nat) (st : _) (ck : Chunk) (t : _) (m : _) (s : State), d < 4 ∧ p < 256 ∧ hostUp d s.m = true ∧ prog d p s.m = some P ∧ (drun d p s.m).cur = some x ∧ NMap.find x.chunks c = some ck ∧ P.step? ck.step = some st ∧ ck.phase = 1 ∧ st.partOk = false ∧ st.timed = true ∧ t = ck.time + (if st.timeout = 0 then P.timeout else st.timeout) * 1000 ∧ m = (if now d s.m < t then runTo d t s.m else s.m)) :=
  ⟨0, 255, (progK 3 fun s => { s with timed := true }), (inst1 [(0, chunk1 1 0)] 1), 0, { step0 with timed := true }, chunk1 1 0, _, _, (running (progK 3 fun s => { s with timed := true }) (inst1 [(0, chunk1 1 0)] 1)), by and_intros <;> first | decide +kernel | rfl⟩

theorem witness_TheDroverMovesItsChunks_17 :
    (∃ (d : _) (p : _) (s : State), d < 4 ∧ p < 256 ∧ hostUp d s.m = true ∧ (prog d p s.m).isSome = true) :=
  ⟨0, 255, (running prog0 (inst1 [] 0)), by and_intros <;> decide +kernel⟩

theorem witness_TheDroverMovesItsChunks_18 :
    (∃ (d : _) (p : _) (s : State), d < 4 ∧ p < 256 ∧ hostUp d s.m = true ∧ prog d p s.m = none) :=
  ⟨3, 255, (st id), by and_intros <;> decide +kernel⟩

theorem witness_TheDroverMovesItsChunks_19 :
    (∃ (d : _) (b : _) (r : _) (s : State), d < 4 ∧ hostUp d s.m = true ∧ NMap.get [] s.m.xb.dq d = b :: r ∧ unitState d 21 s.m ≠ UnitSt.fenced ∧ unitState d 21 s.m ≠ UnitSt.unusable ∧ dieUp d s.m = true) :=
  ⟨0, (zeros 64), [], (st (updXb fun y => { y with dq := [(0, [zeros 64])] })), by and_intros <;> decide +kernel⟩

theorem witness_TheDroverMovesItsChunks_20 :
    (∃ (d : _) (s : State), d < 4 ∧ hostUp d s.m = true ∧ NMap.get [] s.m.xb.dq d = []) :=
  ⟨3, (st id), by and_intros <;> decide +kernel⟩


theorem witness_TranslationCommandsAct :
    (∃ (d : _) (f : _) (c : _) (va : _) (len : _) (kind : _) (cls : _) (s : State), d < 4 ∧ f < 1026 ∧ c < 4096 ∧ va < 2 ^ 64 ∧ kind < 3 ∧ cls < 5 ∧ hostUp d s.m = true ∧ 0 < len ∧ ctxOk d f c s.m = false)
    ∧ (∃ (d : _) (f : _) (c : _) (va : _) (len : _) (kind : _) (cls : _) (s : State), d < 4 ∧ f < 1026 ∧ c < 4096 ∧ va < 2 ^ 64 ∧ kind < 3 ∧ cls < 5 ∧ hostUp d s.m = true ∧ 0 < len ∧ ctxOk d f c s.m = true ∧ 2 ^ vaWidth (ctxLevels d c s.m) ≤ va)
    ∧ (∃ (d : _) (f : _) (c : _) (va : _) (len : _) (kind : _) (cls : _) (s : State) (t : _) (m : _), d < 4 ∧ f < 1026 ∧ c < 4096 ∧ va < 2 ^ 64 ∧ kind < 3 ∧ cls < 5 ∧ hostUp d s.m = true ∧ 0 < len ∧ va % 4096 + len ≤ 4096 ∧ ctxOk d f c s.m = true ∧ va < 2 ^ vaWidth (ctxLevels d c s.m) ∧ (xlt d s.m).tlb.find? (fun t => t.maps c va) = some t ∧ entDenies t.leaf kind = none ∧ ((curB F.XLT_CTX_CFG_AD_EN d c s.m = false ∨ kind = 0 ∨ bit t.leaf 7 = true)) ∧ m = setXlt d { xlt d s.m with tlb := t :: (xlt d s.m).tlb.erase t } (count d 544 1 s.m))
    ∧ (∃ (d : _) (f : _) (c : _) (va : _) (len : _) (kind : _) (cls : _) (ans : HostAns) (s : State) (b : _) (se : _) (t : _) (passed : _) (m1 : _) (m : _), d < 4 ∧ f < 1026 ∧ c < 4096 ∧ va < 2 ^ 64 ∧ kind < 3 ∧ cls < 5 ∧ hostUp d s.m = true ∧ 0 < len ∧ va % 4096 + len ≤ 4096 ∧ ctxOk d f c s.m = true ∧ va < 2 ^ vaWidth (ctxLevels d c s.m) ∧ (xlt d s.m).tlb.find? (fun t => t.maps c va) = none ∧ walkMark d f c va kind (inbound cls) (regions d s.m) 8 ans (bump F.XLT_CNT_WALKS d 0 (count d 545 1 (count d 544 1 s.m))) = (.ok b se, some (t, passed), m1) ∧ m = setXlt d { xlt d m1 with tlb := tlbAdd t (xlt d m1).tlb, walk := walkAdd passed (xlt d m1).walk } m1)
    ∧ (∃ (d : _) (f : _) (c : _) (sc : _) (s : State), d < 4 ∧ f < 1026 ∧ hostUp d s.m = true ∧ rdB F.XLT_INV_CMD_BUSY d f s.m = false ∧ c = cur F.XLT_INV_CMD_CTX d f s.m ∧ sc = cur F.XLT_INV_CMD_SCOPE d f s.m ∧ ((sc = 1 ∨ sc = 2 → ctxForeign d f c s.m = false)))
    ∧ (∃ (d : _) (f : _) (s : State), d < 4 ∧ f < 1026 ∧ hostUp d s.m = true ∧ ((rdB F.XLT_INV_CMD_BUSY d f s.m = true ∨ ((cur F.XLT_INV_CMD_SCOPE d f s.m = 1 ∨ cur F.XLT_INV_CMD_SCOPE d f s.m = 2) ∧ ctxForeign d f (cur F.XLT_INV_CMD_CTX d f s.m) s.m = true))))
    ∧ (∃ (d : _) (f : _) (s : State), d < 4 ∧ f < 1026 ∧ hostUp d s.m = true ∧ ((rdB F.XLT_INV_CMD_BUSY d f s.m = true ∨ drainingOf d f s.m ≠ [])))
    ∧ (∃ (d : _) (f : _) (s : State), d < 4 ∧ f < 1026 ∧ hostUp d s.m = true ∧ rdB F.XLT_INV_CMD_BUSY d f s.m = false ∧ drainingOf d f s.m = [])
    ∧ (∃ (d : _) (f : _) (ans : HostAns) (c : _) (va : _) (b : _) (se : _) (m : _) (t : _) (s : State), d < 4 ∧ f < 1026 ∧ hostUp d s.m = true ∧ c = cur F.XLT_LOCK_CMD_CTX d f s.m ∧ va = cur F.XLT_LOCK_ADDR_VA d f s.m * 4096 ∧ ctxForeign d f c s.m = false ∧ cur F.XLT_LOCK_CMD_PAGES d f s.m ≤ 1 ∧ Sys2Proof.Machine.translate d f c va 0 false ans s.m = (.ok b se, m) ∧ (xlt d m).tlb.find? (fun t => t.maps c va) = some t ∧ t.locked = false ∧ ((xlt d m).tlb.filter TlbEnt.locked).length < 512)
    ∧ (∃ (d : _) (c : _) (s : State), d < 4 ∧ c < 4096 ∧ hostUp d s.m = true)
    ∧ (∃ (d : _) (r : _) (s : State), d < 4 ∧ r < 1024 ∧ hostUp d s.m = true) :=
  ⟨⟨3, 1025, 4095, 2 ^ 64 - 1, 1, 2, 4, (st id), by and_intros <;> decide +kernel⟩,
   ⟨0, 0, 4095, 2 ^ 48, 1, 2, 4, (st fun m => force F.XLT_CTX_CFG_ENABLE 0 4095 1 m), by and_intros <;> decide +kernel⟩,
   ⟨0, 0, 0, 4095, 1, 2, 4, (st mapped), { ctx := 0, vpn := 0, size := 30, oa := 0, leaf := 13, slot := 0, lvl := 3, locked := false }, _, by and_intros <;> first | decide +kernel | rfl⟩,
   ⟨0, 0, 0, 4095, 1, 2, 4, [(0, leBytes 8 15)], walkable, 4095, false, { ctx := 0, vpn := 0, size := 30, oa := 0, leaf := 15, slot := 0, lvl := 3, locked := false }, [], walkedM, _, by and_intros <;> first | decide +kernel | rfl⟩,
   ⟨3, 1025, _, _, (st id), by and_intros <;> first | decide +kernel | rfl⟩,
   ⟨3, 1025, (st fun m => wr F.XLT_INV_CMD_BUSY 3 1025 1 m), by and_intros <;> decide +kernel⟩,
   ⟨3, 1025, (st fun m => wr F.XLT_INV_CMD_BUSY 3 1025 1 m), by and_intros <;> decide +kernel⟩,
   ⟨3, 1025, (st id), by and_intros <;> decide +kernel⟩,
   ⟨0, 0, [], _, _, 0, false, (Sys2Proof.Machine.translate 0 0 0 0 0 false [] (st mapped).m).2, { ctx := 0, vpn := 0, size := 30, oa := 0, leaf := 13, slot := 0, lvl := 3, locked := false }, (st mapped), by and_intros <;> first | decide +kernel | rfl⟩,
   ⟨3, 4095, (st id), by and_intros <;> decide +kernel⟩,
   ⟨3, 1023, (st id), by and_intros <;> decide +kernel⟩⟩

theorem witness_AWalkEndsOnlyInALawfulLeaf :
    (∃ (d : Nat) (c : Nat) (va : Nat) (kind : Nat) (inb : Bool) (rs : List Region) (ans : HostAns) (n : Nat) (table : Nat) (acc : List WalkEnt) (m : Sys2Proof.Machine.Mod) (e : _) (slot : _) (lv : _) (p : _) (m' : _), walkGo d c va kind inb rs ans n table acc m = (.leaf e slot lv p, m')) :=
  ⟨0, 0, 0, 2, false, [], [(0, leBytes 8 15)], 1, 0, [], served, 15, 0, 1, [], (walkGo 0 0 0 2 false [] [(0, leBytes 8 15)] 1 0 [] served).2, by decide +kernel⟩

theorem witness_AGrantedAccessIsPermitted :
    (∃ (d : _) (f : _) (c : _) (va : _) (len : _) (kind : _) (cls : _) (ans : HostAns) (m : _) (ps : _) (se : _) (m' : _) (a : _) (n : _) (g : _), access d f c va len kind cls ans m = (.ok ps se, m') ∧ (a, n) ∈ ps ∧ a / 64 ≤ g ∧ g < (a + n + 63) / 64) :=
  ⟨0, 0, 0, 2 ^ 30 - 64, 64, 1, 4, [], (st mapped).m, [(2 ^ 30 - 64, 64)], false, (access 0 0 0 (2 ^ 30 - 64) 64 1 4 [] (st mapped).m).2, 2 ^ 30 - 64, 64, 2 ^ 24 - 1, by and_intros <;> decide +kernel⟩

theorem witness_PeerWindowsForwardTheirRequests :
    (∃ (d : _) (pf : _) (k : _) (off : _) (len : _) (op : _) (b : Bytes) (n : _) (s : State), d < 4 ∧ pf < 2 ∧ k < 3 ∧ hostUp d s.m = true ∧ n = (if k = 1 then len else if k = 2 ∧ op = 2 then b.length / 2 else b.length) ∧ decodeBar4 d pf off n s.m = none)
    ∧ (∃ (d : _) (pf : _) (off : _) (op : _) (b : Bytes) (n : _) (w : _) (x : _) (s : State), d < 4 ∧ pf < 2 ∧ hostUp d s.m = true ∧ n = (if op = 2 then b.length / 2 else b.length) ∧ decodeBar4 d pf off n s.m = some (w, x) ∧ ((x.swap = 0 ∨ (off % 2 ^ x.swap = 0 ∧ n % 2 ^ x.swap = 0))) ∧ x.xmode = 0)
    ∧ (∃ (d : _) (pf : _) (id : _) (k : _) (off : _) (len : _) (op : _) (b : Bytes) (n : _) (w : _) (x : _) (cn : _) (s : State) (q : _) (m : _), d < 4 ∧ pf < 2 ∧ k < 3 ∧ hostUp d s.m = true ∧ n = (if k = 1 then len else if k = 2 ∧ op = 2 then b.length / 2 else b.length) ∧ decodeBar4 d pf off n s.m = some (w, x) ∧ ((x.swap = 0 ∨ (off % 2 ^ x.swap = 0 ∧ n % 2 ^ x.swap = 0))) ∧ ((k = 2 → x.xmode ≠ 0)) ∧ unicastOf d (pfFn pf) x.eid x.pasture s.m = some cn ∧ condLive d cn s.m = true ∧ q = { die := d, win := w, id := id, kind := k, off := off, len := n, op := op, data := b, set := x, sent := false, time := 0 } ∧ m = wr F.PWN_WIN_STATUS_INFLIGHT d w (rd F.PWN_WIN_STATUS_INFLIGHT d w s.m + 1) (updTrn (fun t => { t with bar4 := t.bar4 ++ [q] }) s.m))
    ∧ (∃ (q : _) (m : _), bar4Waits q m = true)
    ∧ (∃ (q : _) (cn : _) (m : _), bar4Waits q m = false ∧ ((q.kind = 0 ∨ q.set.strict = false ∨ NMap.get false m.trn.strict (q.die * 256 + q.win) = false)) ∧ unicastOf q.die (pfFn (winPf q.die q.win m)) q.set.eid q.set.pasture m = some cn)
    ∧ (∃ (d : _) (w : _) (s : State), d < 4 ∧ w < 256 ∧ hostUp d s.m = true ∧ curB F.PWN_WIN_MODE_ENABLE d w s.m = true ∧ commitBad d w (shadowSet d w s.m) s.m = none)
    ∧ (∃ (d : _) (w : _) (e : _) (s : State), d < 4 ∧ w < 256 ∧ hostUp d s.m = true ∧ curB F.PWN_WIN_MODE_ENABLE d w s.m = true ∧ commitBad d w (shadowSet d w s.m) s.m = some e)
    ∧ (∃ (d : _) (w : _) (s : State), d < 4 ∧ w < 256 ∧ hostUp d s.m = true ∧ curB F.PWN_WIN_MODE_ENABLE d w s.m = false)
    ∧ (∃ (d : _) (id : _) (q : _) (s : State), d < 4 ∧ hostUp d s.m = true ∧ s.m.trn.bar4.find? (fun b => b.die == d && b.id == id && b.kind != 0) = some q)
    ∧ (∃ (d : _) (id : _) (s : State), d < 4 ∧ hostUp d s.m = true ∧ s.m.trn.bar4.find? (fun b => b.die == d && b.id == id && b.kind != 0) = none)
    ∧ (∃ (d : _) (s : State), d < 4 ∧ hostUp d s.m = true)
    ∧ (∃ (d : _) (k : _) (s : State), d < 4 ∧ k < 64 ∧ hostUp d s.m = true ∧ curB F.PWN_MIR_CTL_ENABLE d k s.m = false)
    ∧ (∃ (d : _) (k : _) (r : _) (s : State), d < 4 ∧ k < 64 ∧ hostUp d s.m = true ∧ curB F.PWN_MIR_CTL_ENABLE d k s.m = true ∧ r = NMap.get Mirror.reset s.m.trn.mir (d * 64 + k) ∧ cur F.PWN_MIR_OUT_VALUE d k s.m = r.last ∧ r.polls + 1 < 64)
    ∧ (∃ (d : _) (k : _) (r : _) (v : _) (cn : _) (s : State) (m : _), d < 4 ∧ k < 64 ∧ hostUp d s.m = true ∧ curB F.PWN_MIR_CTL_ENABLE d k s.m = true ∧ r = NMap.get Mirror.reset s.m.trn.mir (d * 64 + k) ∧ v = cur F.PWN_MIR_OUT_VALUE d k s.m ∧ ((v ≠ r.last ∨ 63 ≤ r.polls)) ∧ unicastOf d 0 (cur F.PWN_MIR_CFG_EID d k s.m) (cur F.PWN_MIR_CFG_PASTURE d k s.m) s.m = some cn ∧ m = (addMsg d cn { Msg.blank with op := Op.put, len := 8, addr := 0, hdr := (rmaHdr (2 ^ 63 + cur F.PWN_MIR_CFG_PEER_MIR d k s.m) 0 0 0), held := some (leBytes 4 v ++ leBytes 2 (cur F.PWN_MIR_CTL_PERIOD_US d k s.m) ++ leBytes 2 ((r.seq + 1) % 65536)) } s.m).2) :=
  ⟨⟨3, 1, 2, 2 ^ 40, 0, 2, zeros 32, _, (st id), by and_intros <;> first | decide +kernel | rfl⟩,
   ⟨0, 0, 4088, 0, zeros 8, _, 255, win1, (st fun m => windowed win1 m), by and_intros <;> first | decide +kernel | rfl⟩,
   ⟨0, 0, 0, 0, 4088, 0, 0, zeros 8, _, 255, win1, 5, (st fun m => windowed win1 m), _, _, by and_intros <;> first | decide +kernel | rfl⟩,
   ⟨bar1 2, (st (bars 2)).m, by decide +kernel⟩,
   ⟨bar1 0, 5, (st fun m => windowed win1 m).m, by and_intros <;> decide +kernel⟩,
   ⟨0, 255, (st fun m => force F.PWN_WIN_MODE_ENABLE 0 255 1 (force F.PWN_WIN_BASE_SIZE_LOG2 0 255 12 (updTabs 0 (fun t => { t with past := [(0, { fn := 0, flags := 1 })] }) m))), by and_intros <;> decide +kernel⟩,
   ⟨3, 255, 4, (st fun m => force F.PWN_WIN_MODE_ENABLE 3 255 1 m), by and_intros <;> decide +kernel⟩,
   ⟨3, 255, (st id), by and_intros <;> decide +kernel⟩,
   ⟨0, 3, bar1 1, (st (bars 1)), by and_intros <;> decide +kernel⟩,
   ⟨3, 3, (st id), by and_intros <;> decide +kernel⟩,
   ⟨3, (st id), by and_intros <;> decide +kernel⟩,
   ⟨3, 63, (st id), by and_intros <;> decide +kernel⟩,
   ⟨3, 63, _, (st fun m => force F.PWN_MIR_CTL_ENABLE 3 63 1 m), by and_intros <;> first | decide +kernel | rfl⟩,
   ⟨0, 63, _, _, 5, (st fun m => force F.PWN_MIR_OUT_VALUE 0 63 1 (force F.PWN_MIR_CTL_ENABLE 0 63 1 (conduit id m))), _, by and_intros <;> first | decide +kernel | rfl⟩⟩

theorem witness_EnergyActionsAndTestSlicesEnd :
    (∃ (d : _) (l : _) (s : State), d < 4 ∧ hostUp d s.m = true ∧ NMap.find s.m.tly.due d = some l)
    ∧ (∃ (d : _) (s : State), d < 4 ∧ hostUp d s.m = true ∧ NMap.find s.m.tly.due d = none)
    ∧ (∃ (d : _) (k : _) (u : _) (s : State), d < 4 ∧ k < 1920 ∧ u < 28 ∧ hostUp d s.m = true ∧ (slicesOf d s.m).contains k = true)
    ∧ (∃ (d : _) (k : _) (u : _) (s : State) (m : _) (left : _) (n : _) (r : _), d < 4 ∧ k < 1920 ∧ u < 28 ∧ hostUp d s.m = true ∧ (slicesOf d s.m).contains k = true ∧ m = bump F.BST_CNT_SLICES_DONE d 0 (count d 677 1 (setSlices d ((slicesOf d s.m).erase k) (againOf d s.m) (NMap.get 0 s.m.bst.pos d) s.m)) ∧ left = rd F.BST_SPARES_SPARES_LEFT d 0 m - 1 ∧ n = wr F.BST_SPARES_SPARES_LEFT d 0 left (bump F.BST_SPARES_REPAIRED d 0 (bump F.BST_CNT_FAILED d 0 { m with bst := { m.bst with spared := NMap.set false m.bst.spared (d * 2048 + k) true } })) ∧ r = raise d u 5 0 k none (wr F.BST_LAST_FAIL_MACRO d 0 k (wr F.BST_LAST_FAIL_FRAME d 0 (now d n / 1048576) n)))
    ∧ (∃ (d : _) (k : _) (u : _) (s : State), d < 4 ∧ k < 1920 ∧ u < 28 ∧ hostUp d s.m = true ∧ (slicesOf d s.m).contains k = false)
    ∧ (∃ (d : _) (k : _) (s : State), d < 4 ∧ k < 1920 ∧ hostUp d s.m = true ∧ (slicesOf d s.m).contains k = true) :=
  ⟨⟨3, 5, (st fun m => { m with tly := { m.tly with due := [(3, 5)] } }), by and_intros <;> decide +kernel⟩,
   ⟨3, (st id), by and_intros <;> decide +kernel⟩,
   ⟨3, 1919, 27, (st fun m => { m with bst := { m.bst with run := [(3, [1919])] } }), by and_intros <;> decide +kernel⟩,
   ⟨3, 1919, 27, (st fun m => { m with bst := { m.bst with run := [(3, [1919])] } }), _, _, _, _, by and_intros <;> first | decide +kernel | rfl⟩,
   ⟨3, 1919, 27, (st id), by and_intros <;> decide +kernel⟩,
   ⟨3, 1919, (st fun m => { m with bst := { m.bst with run := [(3, [1919])] } }), by and_intros <;> decide +kernel⟩⟩

theorem witness_SpdmRequestsAreAnsweredInOrder :
    (∃ (v : _) (s : State), v < 17 ∧ spdmServed v s.m = true)
    ∧ (∃ (v : _) (s : State), v < 17 ∧ spdmServed v s.m = true)
    ∧ (∃ (v : _) (s : State), v < 17 ∧ spdmServed v s.m = true ∧ negot v s.m = 1)
    ∧ (∃ (v : _) (s : State), v < 17 ∧ spdmServed v s.m = true ∧ negot v s.m = 2)
    ∧ (∃ (v : _) (s : State), v < 17 ∧ spdmServed v s.m = true)
    ∧ (∃ (v : _) (s : State), v < 17 ∧ spdmServed v s.m = true)
    ∧ (∃ (v : _) (s : State), v < 17 ∧ spdmServed v s.m = true ∧ negot v s.m = 3)
    ∧ (∃ (v : _) (s : State), v < 17 ∧ spdmServed v s.m = true ∧ negot v s.m = 3)
    ∧ (∃ (v : _) (s : State), v < 17 ∧ spdmServed v s.m = true ∧ negot v s.m = 3 ∧ s.m.sec.idKey = true)
    ∧ (∃ (v : _) (s : State), v < 17 ∧ spdmServed v s.m = true ∧ negot v s.m = 3)
    ∧ (∃ (v : _) (s : State), v < 17 ∧ spdmServed v s.m = true ∧ negot v s.m = 3 ∧ s.m.sec.sessions.length < 8 ∧ s.m.sec.idKey = true)
    ∧ (∃ (v : _) (s : State), v < 17 ∧ spdmServed v s.m = true ∧ negot v s.m = 3 ∧ 8 ≤ s.m.sec.sessions.length)
    ∧ (∃ (v : _) (s : State), v < 17 ∧ spdmServed v s.m = true ∧ negot v s.m = 3 ∧ s.m.sec.idKey = false)
    ∧ (∃ (v : _) (slot : _) (s : State), v < 17 ∧ spdmServed v s.m = true ∧ negot v s.m = 3 ∧ 1 ≤ slot ∧ slot ≤ 7 ∧ ((s.m.sec.lifecycle = 1 ∨ s.m.sec.lifecycle = 2)))
    ∧ (∃ (v : _) (slot : _) (s : State), v < 17 ∧ spdmServed v s.m = true ∧ negot v s.m = 3 ∧ ((slot = 0 ∨ 7 < slot ∨ s.m.sec.lifecycle = 0 ∨ s.m.sec.lifecycle = 3)))
    ∧ (∃ (v : _) (slot : _) (s : State), v < 17 ∧ spdmServed v s.m = true ∧ negot v s.m = 3 ∧ ((slot = 0 ∨ 7 < slot ∨ s.m.sec.lifecycle = 0 ∨ s.m.sec.lifecycle = 3)))
    ∧ (∃ (v : _) (slot : _) (s : State), v < 17 ∧ spdmServed v s.m = true ∧ negot v s.m = 3 ∧ ((slot = 0 ∨ 7 < slot ∨ s.m.sec.lifecycle = 0 ∨ s.m.sec.lifecycle = 3)))
    ∧ (∃ (v : _) (s : State), v < 17 ∧ spdmServed v s.m = true ∧ negot v s.m ≠ 3) :=
  ⟨⟨4, (st id), by and_intros <;> decide +kernel⟩,
   ⟨16, (st (force F.HIF_STATUS_LINK_UP 3 1 1)), by and_intros <;> decide +kernel⟩,
   ⟨4, (st fun m => setNegot 4 1 (m)), by and_intros <;> decide +kernel⟩,
   ⟨3, (st fun m => setNegot 3 2 (m)), by and_intros <;> decide +kernel⟩,
   ⟨4, (st fun m => setNegot 4 2 (m)), by and_intros <;> decide +kernel⟩,
   ⟨4, (st fun m => setNegot 4 1 (m)), by and_intros <;> decide +kernel⟩,
   ⟨4, (st fun m => setNegot 4 3 (m)), by and_intros <;> decide +kernel⟩,
   ⟨4, (st fun m => setNegot 4 3 (m)), by and_intros <;> decide +kernel⟩,
   ⟨4, (st fun m => setNegot 4 3 ({ m with sec := { m.sec with idKey := true, sessions := List.replicate 0 { id := 0, via := 4, draw := 0, est := true, updates := 0 } } })), by and_intros <;> decide +kernel⟩,
   ⟨4, (st fun m => setNegot 4 3 (m)), by and_intros <;> decide +kernel⟩,
   ⟨4, (st fun m => setNegot 4 3 ({ m with sec := { m.sec with idKey := true, sessions := List.replicate 7 { id := 0, via := 4, draw := 0, est := true, updates := 0 } } })), by and_intros <;> decide +kernel⟩,
   ⟨4, (st fun m => setNegot 4 3 ({ m with sec := { m.sec with sessions := List.replicate 8 { id := 0, via := 4, draw := 0, est := true, updates := 0 } } })), by and_intros <;> decide +kernel⟩,
   ⟨4, (st fun m => setNegot 4 3 (m)), by and_intros <;> decide +kernel⟩,
   ⟨4, 7, (st fun m => setNegot 4 3 ({ m with sec := { m.sec with lifecycle := 2 } })), by and_intros <;> decide +kernel⟩,
   ⟨4, 8, (st fun m => setNegot 4 3 ({ m with sec := { m.sec with lifecycle := 1 } })), by and_intros <;> decide +kernel⟩,
   ⟨4, 0, (st fun m => setNegot 4 3 ({ m with sec := { m.sec with lifecycle := 1 } })), by and_intros <;> decide +kernel⟩,
   ⟨4, 7, (st fun m => setNegot 4 3 ({ m with sec := { m.sec with lifecycle := 3 } })), by and_intros <;> decide +kernel⟩,
   ⟨4, (st id), by and_intros <;> decide +kernel⟩⟩

theorem witness_SessionsAndLinkEncryptionAct :
    (∃ (v : _) (id : _) (x : _) (s : State), v < 17 ∧ spdmServed v s.m = true ∧ session v id s.m = some x)
    ∧ (∃ (v : _) (id : _) (x : _) (s : State), v < 17 ∧ spdmServed v s.m = true ∧ session v id s.m = some x ∧ x.est = true)
    ∧ (∃ (v : _) (id : _) (x : _) (s : State), v < 17 ∧ spdmServed v s.m = true ∧ session v id s.m = some x ∧ x.est = true)
    ∧ (∃ (v : _) (id : _) (x : _) (s : State), v < 17 ∧ spdmServed v s.m = true ∧ session v id s.m = some x ∧ x.est = true)
    ∧ (∃ (v : _) (id : _) (s : State), v < 17 ∧ spdmServed v s.m = true ∧ ((∀ x, session v id s.m = some x → x.est = false)))
    ∧ (∃ (v : _) (id : _) (s : State), v < 17 ∧ spdmServed v s.m = true ∧ ((∀ x, session v id s.m = some x → x.est = false)))
    ∧ (∃ (d : _) (i : _) (id : _) (x : _) (s : State), d < 4 ∧ spdmServed (mailbox d (i / 4)) s.m = true ∧ session (mailbox d (i / 4)) id s.m = some x ∧ x.est = true ∧ i < 8)
    ∧ (∃ (d : _) (i : _) (id : _) (x : _) (s : State), d < 4 ∧ spdmServed (mailbox d (i / 4)) s.m = true ∧ session (mailbox d (i / 4)) id s.m = some x ∧ x.est = true ∧ i < 8)
    ∧ (∃ (d : _) (i : _) (id : _) (x : _) (s : State), d < 4 ∧ spdmServed (mailbox d (i / 4)) s.m = true ∧ session (mailbox d (i / 4)) id s.m = some x ∧ x.est = true ∧ i < 8 ∧ (NMap.find s.m.sec.ideKey (d * 8 + i)).isSome = true)
    ∧ (∃ (d : _) (i : _) (id : _) (x : _) (s : State), d < 4 ∧ spdmServed (mailbox d (i / 4)) s.m = true ∧ session (mailbox d (i / 4)) id s.m = some x ∧ x.est = true ∧ i < 8 ∧ NMap.find s.m.sec.ideKey (d * 8 + i) = none)
    ∧ (∃ (d : _) (i : _) (id : _) (x : _) (s : State), d < 4 ∧ spdmServed (mailbox d (i / 4)) s.m = true ∧ session (mailbox d (i / 4)) id s.m = some x ∧ x.est = true ∧ i < 8)
    ∧ (∃ (d : _) (i : _) (s : State), d < 4 ∧ i < 8 ∧ hostUp d s.m = true) :=
  ⟨⟨4, 7, { id := 7, via := 4, draw := 0, est := false, updates := 0 }, (st fun m => { force F.HIF_STATUS_LINK_UP 3 1 1 m with sec := { m.sec with sessions := [{ id := 7, via := 4, draw := 0, est := false, updates := 0 }] } }), by and_intros <;> decide +kernel⟩,
   ⟨4, 7, { id := 7, via := 4, draw := 0, est := true, updates := 0 }, (st fun m => { force F.HIF_STATUS_LINK_UP 3 1 1 m with sec := { m.sec with sessions := [{ id := 7, via := 4, draw := 0, est := true, updates := 0 }] } }), by and_intros <;> decide +kernel⟩,
   ⟨4, 7, { id := 7, via := 4, draw := 0, est := true, updates := 0 }, (st fun m => { force F.HIF_STATUS_LINK_UP 3 1 1 m with sec := { m.sec with sessions := [{ id := 7, via := 4, draw := 0, est := true, updates := 0 }] } }), by and_intros <;> decide +kernel⟩,
   ⟨4, 7, { id := 7, via := 4, draw := 0, est := true, updates := 0 }, (st fun m => { force F.HIF_STATUS_LINK_UP 3 1 1 m with sec := { m.sec with sessions := [{ id := 7, via := 4, draw := 0, est := true, updates := 0 }] } }), by and_intros <;> decide +kernel⟩,
   ⟨4, 7, (st fun m => { force F.HIF_STATUS_LINK_UP 3 1 1 m with sec := { m.sec with sessions := [{ id := 7, via := 4, draw := 0, est := false, updates := 0 }] } }), by decide +kernel, by decide +kernel, (fun x h => by have : x = { id := 7, via := 4, draw := 0, est := false, updates := 0 } := (Option.some.inj ((show session 4 7 (st fun m => { force F.HIF_STATUS_LINK_UP 3 1 1 m with sec := { m.sec with sessions := [{ id := 7, via := 4, draw := 0, est := false, updates := 0 }] } }).m = some { id := 7, via := 4, draw := 0, est := false, updates := 0 } by decide +kernel).symm.trans h)).symm; subst this; rfl)⟩,
   ⟨4, 7, (st id), by decide +kernel, by decide +kernel, (fun x h => by cases h)⟩,
   ⟨3, 3, 7, { id := 7, via := 3, draw := 0, est := true, updates := 0 }, (st fun m => { force F.HIF_STATUS_LINK_UP 3 1 1 m with sec := { m.sec with sessions := [{ id := 7, via := 3, draw := 0, est := true, updates := 0 }] } }), by and_intros <;> decide +kernel⟩,
   ⟨3, 7, 7, { id := 7, via := 8, draw := 0, est := true, updates := 0 }, (st fun m => { force F.HIF_STATUS_LINK_UP 3 1 1 m with sec := { m.sec with sessions := [{ id := 7, via := 8, draw := 0, est := true, updates := 0 }] } }), by and_intros <;> decide +kernel⟩,
   ⟨3, 7, 7, { id := 7, via := 8, draw := 0, est := true, updates := 0 }, (st fun m => { force F.HIF_STATUS_LINK_UP 3 1 1 m with sec := { m.sec with sessions := [{ id := 7, via := 8, draw := 0, est := true, updates := 0 }], ideKey := [(31, 0)] } }), by and_intros <;> decide +kernel⟩,
   ⟨3, 3, 7, { id := 7, via := 3, draw := 0, est := true, updates := 0 }, (st fun m => { force F.HIF_STATUS_LINK_UP 3 1 1 m with sec := { m.sec with sessions := [{ id := 7, via := 3, draw := 0, est := true, updates := 0 }] } }), by and_intros <;> decide +kernel⟩,
   ⟨3, 3, 7, { id := 7, via := 3, draw := 0, est := true, updates := 0 }, (st fun m => { force F.HIF_STATUS_LINK_UP 3 1 1 m with sec := { m.sec with sessions := [{ id := 7, via := 3, draw := 0, est := true, updates := 0 }] } }), by and_intros <;> decide +kernel⟩,
   ⟨3, 7, (st id), by and_intros <;> decide +kernel⟩⟩

theorem witness_TheTestPortObeysTheDebugMode :
    (∃ (c : _), c < 2 ^ 20)
    ∧ (∃ (c : _), c < 2 ^ 20)
    ∧ (∃ (fz : Fuse) (t : Bytes) (o : Bytes) (m : Sys2Proof.Machine.Mod), (presentToken fz t o m).2 = false)
    ∧ (∃ (fz : Fuse) (t : Bytes) (o : Bytes) (m : Sys2Proof.Machine.Mod), (presentToken fz t o m).2 = true)
    ∧ (∃ (t : DebugAt) (s : State), t.ok = true ∧ 1 ≤ s.m.sec.debug ∧ observable t = true)
    ∧ (∃ (t : DebugAt) (s : State), t.ok = true ∧ ((s.m.sec.debug = 0 ∨ observable t = false)))
    ∧ (∃ (t : DebugAt) (v : _) (s : State), 2 ≤ s.m.sec.debug ∧ t.ok = true ∧ v < 2 ^ 256)
    ∧ (∃ (c : _) (k : _) (s : State), 2 ≤ s.m.sec.debug ∧ c < 256 ∧ k < 8)
    ∧ (∃ (x : DebugOp) (s : State), x.ok = true ∧ s.m.sec.debug < 2)
    ∧ (∃ (s : State), s.m.sec.debug = 3 ∧ s.m.sec.scanOn = true)
    ∧ (∃ (s : State), ((s.m.sec.debug ≠ 3 ∨ s.m.sec.scanOn = false))) :=
  ⟨⟨2 ^ 20 - 1, by decide +kernel⟩,
   ⟨2 ^ 20 - 1, by decide +kernel⟩,
   ⟨State.reset.fuse, [], [], served, by decide +kernel⟩,
   ⟨State.reset.fuse, (leBytes 2 (2 * 256) ++ zeros 182), [], { served with sec := { served.sec with lifecycle := 0 } }, by decide +kernel⟩,
   ⟨.reg 3 1025 0, (st fun m => { m with sec := { m.sec with debug := 1 } }), by and_intros <;> decide +kernel⟩,
   ⟨.key 0 0, (st fun m => { m with sec := { m.sec with debug := 3 } }), by and_intros <;> decide +kernel⟩,
   ⟨.key 0 0, 2 ^ 256 - 1, (st fun m => { m with sec := { m.sec with debug := 2 } }), by and_intros <;> decide +kernel⟩,
   ⟨255, 7, (st fun m => { m with sec := { m.sec with debug := 2 } }), by and_intros <;> decide +kernel⟩,
   ⟨.halt 255, (st fun m => { m with sec := { m.sec with debug := 1 } }), by and_intros <;> decide +kernel⟩,
   ⟨(st fun m => { m with sec := { m.sec with debug := 3, scanOn := true } }), by and_intros <;> decide +kernel⟩,
   ⟨(st fun m => { m with sec := { m.sec with debug := 2 } }), by decide +kernel⟩⟩

theorem witness_AGroupTurnServesItsQueues_1 :
    (∃ (d : _) (g : _) (s : State) (m : _), d < 4 ∧ g < 1024 ∧ hostUp d s.m = true ∧ m = (grpQueues d g (accrue d g s.m)).foldl (fun m q => prepare d q (injEnd d q m)) (accrue d g s.m) ∧ eligible d g m = false) :=
  ⟨3, 1023, (st id), _, by and_intros <;> first | decide +kernel | rfl⟩

theorem witness_AGroupTurnServesItsQueues_2 :
    (∃ (d : _) (g : _) (s : State) (m : _), d < 4 ∧ g < 1024 ∧ hostUp d s.m = true ∧ m = (grpQueues d g (accrue d g s.m)).foldl (fun m q => prepare d q (injEnd d q m)) (accrue d g s.m) ∧ eligible d g m = true) :=
  ⟨0, 0, (withEntry (entry 1 0) id), _, by and_intros <;> first | decide +kernel | rfl⟩

theorem witness_AGroupTurnServesItsQueues_3 :
    (∃ (d : Nat) (g : Nat) (skip : List Nat) (fresh : Bool) (m0 : Sys2Proof.Machine.Mod) (m : Sys2Proof.Machine.Mod), m = (grpQueues d g m0).foldl (fun m q => injEnd d q m) m0 ∧ pickQueue d g skip m = none ∧ ((fresh = true ∨ (grpQueues d g m).any (fun q => !skip.contains q && (injMsg d q m).isNone && qReady d q m) = false))) :=
  ⟨0, 0, [], true, served, _, rfl, by decide +kernel, by decide +kernel⟩

theorem witness_AGroupTurnServesItsQueues_4 :
    (∃ (d : Nat) (g : Nat) (skip : List Nat) (m0 : Sys2Proof.Machine.Mod) (m : Sys2Proof.Machine.Mod) (q : Nat), m = (grpQueues d g m0).foldl (fun m q => injEnd d q m) m0 ∧ pickQueue d g skip m = some q ∧ (((grp d g m).deficit < qCounted d g q m ∨ (grpShaped d g m = true ∧ (grp d g m).tokens < qCounted d g q m * 65536)))) :=
  ⟨0, 0, [], (withEntry (entry 0x60 (40 * 2 ^ 120)) (updSq 0 65535 fun k => { k with left := 1 })).m, _, 65535, rfl, by decide +kernel, by decide +kernel⟩

theorem witness_AGroupTurnServesItsQueues_5 :
    (∃ (d : Nat) (g : Nat) (skip : List Nat) (m0 : Sys2Proof.Machine.Mod) (m : Sys2Proof.Machine.Mod) (q : Nat), m = (grpQueues d g m0).foldl (fun m q => injEnd d q m) m0 ∧ pickQueue d g skip m = some q ∧ qCounted d g q m ≤ (grp d g m).deficit ∧ ((grpShaped d g m = false ∨ qCounted d g q m * 65536 ≤ (grp d g m).tokens))) :=
  ⟨0, 0, [], (withEntry (entry 1 0) (updSq 0 65535 fun k => { k with left := 1 })).m, _, 65535, by and_intros <;> first | decide +kernel | rfl⟩


theorem witness_FinishInACalmModule :
    (∃ (m : Sys2Proof.Machine.Mod), m.calm = true) :=
  ⟨Mod.reset, by decide +kernel⟩

theorem witness_FieldsAreWrittenByTheirAccessType :
    (∃ (mask : Nat) (G : Fld), bits mask G.lo G.w = 0)
    ∧ (∃ (d : Nat) (f : Nat) (m : Sys2Proof.Machine.Mod) (G : Fld), isPf d f m = false ∧ G.among pfFields = true)
    ∧ (∃ (G : Fld), ((G.acc = .RO ∨ G.acc = .RC)))
    ∧ (∃ (d : Nat) (f : Nat) (mask : Nat) (m : Sys2Proof.Machine.Mod) (G : Fld), bits mask G.lo G.w ≠ 0 ∧ ((isPf d f m = true ∨ G.among pfFields = false)) ∧ G.acc = .W1C ∧ G.reg ≠ F.CNT_CTR_WRAPPED.reg)
    ∧ (∃ (d : Nat) (f : Nat) (i : Nat) (val : Nat) (mask : Nat) (m : Sys2Proof.Machine.Mod) (G : Fld), bits mask G.lo G.w ≠ 0 ∧ ((isPf d f m = true ∨ G.among pfFields = false)) ∧ G.acc = .W1S ∧ ((G.among [F.LNE_PORT_CTRL_RETRAIN] = false ∨ pst (32 * d + i) m = 6)) ∧ Nat.land (bits val G.lo G.w) (bits mask G.lo G.w) ≠ 0 ∧ goBusy G d i m = false)
    ∧ (∃ (d : Nat) (f : Nat) (i : Nat) (mask : Nat) (m : Sys2Proof.Machine.Mod) (G : Fld), bits mask G.lo G.w ≠ 0 ∧ ((isPf d f m = true ∨ G.among pfFields = false)) ∧ G.acc = .W1S ∧ G.among [F.LNE_PORT_CTRL_RETRAIN] = true ∧ pst (32 * d + i) m ≠ 6)
    ∧ (∃ (d : Nat) (f : Nat) (i : Nat) (mask : Nat) (m : Sys2Proof.Machine.Mod) (G : Fld), bits mask G.lo G.w ≠ 0 ∧ ((isPf d f m = true ∨ G.among pfFields = false)) ∧ G.acc = .W1S ∧ G.among [F.LNE_PORT_CTRL_RETRAIN] = false ∧ goBusy G d i m = true)
    ∧ (∃ (d : Nat) (f : Nat) (mask : Nat) (m : Sys2Proof.Machine.Mod) (G : Fld), bits mask G.lo G.w ≠ 0 ∧ ((isPf d f m = true ∨ G.among pfFields = false)) ∧ G.acc = .RW ∧ G.cls = .GUARDED)
    ∧ (∃ (en : _) (d : Nat) (f : Nat) (mask : Nat) (m : Sys2Proof.Machine.Mod) (G : Fld), bits mask G.lo G.w = 2 ^ G.w - 1 ∧ 0 < G.w ∧ ((isPf d f m = true ∨ G.among pfFields = false)) ∧ G.acc = .RW ∧ ((en = false ∨ G.cls ≠ .GUARDED)) ∧ G.reg ≠ F.FLT_REACT_REACT.reg)
    ∧ (∃ (d : Nat) (f : Nat) (mask : Nat) (m : Sys2Proof.Machine.Mod) (G : Fld), bits mask G.lo G.w ≠ 0 ∧ ((isPf d f m = true ∨ G.among pfFields = false)) ∧ G.acc = .RW ∧ G.cls = .LIVE) :=
  ⟨⟨0, F.FLT_REACT_REACT, by decide +kernel⟩,
   ⟨3, 1024, served, F.WQU_QCFG_Q_GROUP, by and_intros <;> decide +kernel⟩,
   ⟨F.GEN_ID_FAMILY, by decide +kernel⟩,
   ⟨3, 0, 2 ^ 64 - 1, served, F.GEN_STATUS_WRITE_REFUSED, by and_intros <;> decide +kernel⟩,
   ⟨3, 0, 0, 2 ^ 64 - 1, 2 ^ 64 - 1, served, F.WQU_QCMD_RESET, by and_intros <;> decide +kernel⟩,
   ⟨3, 0, 0, 2 ^ 64 - 1, served, F.LNE_PORT_CTRL_RETRAIN, by and_intros <;> decide +kernel⟩,
   ⟨3, 0, 0, 2 ^ 64 - 1, (wr F.XLT_INV_CMD_BUSY 3 0 1 served), F.XLT_INV_CMD_GO, by and_intros <;> decide +kernel⟩,
   ⟨3, 0, 2 ^ 64 - 1, served, F.HIF_VF_PAGES_PAGES, by and_intros <;> decide +kernel⟩,
   ⟨false, 3, 0, 2 ^ 64 - 1, served, F.AZX_CTRL_CMD_LOG2, by and_intros <;> decide +kernel⟩,
   ⟨3, 0, 2 ^ 64 - 1, served, F.HIF_FN_TAG_LIMIT, by and_intros <;> decide +kernel⟩⟩

theorem witness_FusesOnlyMoveForward :
    (∃ (s : State) (t : State), step s = .next t) :=
  ⟨State.reset, _, rfl⟩

theorem witness_HeadersAndContextsAreReadBack :
    (∃ (n : _) (v : _), v < 256 ^ n)
    ∧ (∃ (h : Bytes) (t : Th), h.length = 24 ∧ t.op < 2 ^ 8 ∧ t.flags < 2 ^ 8 ∧ t.round < 2 ^ 8 ∧ t.dcn < 2 ^ 24 ∧ t.scn < 2 ^ 24 ∧ t.psn < 2 ^ 32 ∧ t.msg < 2 ^ 32 ∧ t.off < 2 ^ 32 ∧ t.len < 2 ^ 32 ∧ t.trk < 2 ^ 16 ∧ t.deadline < 2 ^ 64)
    ∧ (∃ (c : Cond), c.fits) :=
  ⟨⟨8, 2 ^ 64 - 1, by decide +kernel⟩,
   ⟨(zeros 24), { op := 255, flags := 255, round := 255, dcn := 2 ^ 24 - 1, scn := 2 ^ 24 - 1, psn := 2 ^ 32 - 1, msg := 2 ^ 32 - 1, off := 2 ^ 32 - 1, len := 2 ^ 32 - 1, trk := 2 ^ 16 - 1, deadline := 2 ^ 64 - 1 }, by and_intros <;> decide +kernel⟩,
   ⟨{ Cond.reset with state := 3, rxLog := 31, fn := 1025, peer := 2 ^ 20 - 1, rxMap := 2 ^ 256 - 1 }, (by unfold Cond.fits; decide +kernel)⟩⟩

theorem witness_SumsDoNotDependOnOrder :
    (∃ (dt : Nat) (l : List Bytes) (l' : List Bytes), 1 ≤ dt ∧ dt ≤ 5 ∧ l.length ≤ 2 ^ 31 ∧ l.Perm l')
    ∧ (∃ (dt : Nat) (l : List Bytes), 1 ≤ dt ∧ dt ≤ 5 ∧ l.length ≤ 2 ^ 31 ∧ ((∀ b ∈ l, isFin dt (rdLE b 0 (dtSize dt)) = true)) ∧ ((∃ b ∈ l, isNegZero dt (rdLE b 0 (dtSize dt)) = false))) :=
  ⟨⟨5, [leBytes 1 1, leBytes 1 2], [leBytes 1 2, leBytes 1 1], by decide +kernel, by decide +kernel, by decide +kernel, List.Perm.swap _ _ _⟩,
   ⟨1, [leBytes 4 0x3F800000, leBytes 4 0x80000000], by and_intros <;> decide +kernel⟩⟩

theorem witness_BinnedSumsDoNotDependOnOrder :
    (∃ (l : List Bytes) (l' : List Bytes), l.length ≤ 2 ^ 23 ∧ l.Perm l') :=
  ⟨[leBytes 8 1, leBytes 8 2], [leBytes 8 2, leBytes 8 1], by decide +kernel, List.Perm.swap _ _ _⟩

theorem witness_AVectorIsCutIntoChunks :
    (∃ (P : DProg), 0 < P.chunk)
    ∧ (∃ (P : DProg) (x : Inst) (c : _), 0 < P.chunk ∧ c < x.total P)
    ∧ (∃ (P : DProg) (t : DStep) (k : Nat), P.step? k = some t ∧ t.next ≠ 0xFF)
    ∧ (∃ (P : DProg) (t : DStep) (k : Nat), P.step? k = some t ∧ t.next = 0xFF) :=
  ⟨⟨prog0, by decide +kernel⟩,
   ⟨prog0, inst1 [] 0, 1, by and_intros <;> decide +kernel⟩,
   ⟨{ prog0 with steps := [{ step0 with next := 0 }] }, { step0 with next := 0 }, 0, by and_intros <;> decide +kernel⟩,
   ⟨prog0, step0, 0, by and_intros <;> decide +kernel⟩⟩

theorem witness_TheDrawAndTheBitOperations :
    (∃ (op : Nat) (a : Accu), ((op = 5 ∨ op = 6 ∨ op = 7)) ∧ a.any = false)
    ∧ (∃ (op : Nat) (a : Accu) (y : Nat), ((op = 5 ∨ op = 6 ∨ op = 7)) ∧ a.any = true ∧ a.v = (y : Int))
    ∧ (∃ (op : Nat), ((op = 5 ∨ op = 6 ∨ op = 7))) :=
  ⟨⟨7, Accu.reset, by and_intros <;> decide +kernel⟩,
   ⟨7, { Accu.reset with any := true, v := 5 }, 5, by and_intros <;> decide +kernel⟩,
   ⟨5, by decide +kernel⟩⟩

theorem witness_ThePoolHoldsWhatIsWritten :
    (∃ (d : Nat) (off : Nat) (b : Bytes) (k : Nat), ((k < d * 2 ^ 40 + off ∨ d * 2 ^ 40 + off + b.length ≤ k)))
    ∧ (∃ (d : Nat) (off : Nat) (b : Bytes) (e : Nat) (o : Nat) (n : Nat), d ≠ e ∧ off + b.length ≤ 2 ^ 40 ∧ o + n ≤ 2 ^ 40)
    ∧ (∃ (m : Sys2Proof.Machine.Mod), NMap.wf 0#8 m.pool = true) :=
  ⟨⟨3, 2 ^ 40 - 1, [1#8], 2 ^ 42 - 2, by decide +kernel⟩,
   ⟨3, 2 ^ 40 - 1, [1#8], 2, 0, 2 ^ 40, by and_intros <;> decide +kernel⟩,
   ⟨served, by decide +kernel⟩⟩

theorem witness_TheLaneCodeIsUndone :
    (∃ (n : Nat) (prev : Nat) (run : Nat) (d : Nat) (data : List Nat), prev < 4 ∧ 1 ≤ run ∧ run ≤ 31 ∧ ((∀ x ∈ data, x < 4)) ∧ d ≤ stuffFit n prev run data)
    ∧ (∃ (x : Nat), x < 4)
    ∧ (∃ (c : Ctl), c.lane < 4 ∧ c.status < 8 ∧ c.stuff < 64 ∧ c.time < 256) :=
  ⟨⟨40, 3, 31, 4, [3, 0, 3, 3], by and_intros <;> decide +kernel⟩,
   ⟨3, by decide +kernel⟩,
   ⟨{ mark := true, lane := 3, resync := true, status := 7, stuff := 63, time := 255 }, by and_intros <;> decide +kernel⟩⟩

theorem witness_AzrixTableCommandsLoad_1 :
    azCan 0x10 azPastureCreate anyway
    ∧ azCan 0x11 azPastureDestroy anyway
    ∧ azCan 0x20 azPathLoad anyway
    ∧ azCan 0x21 azPassLoad anyway :=
  ⟨begins (ent 0 (7 * 2 ^ 16 + 1024 * 2 ^ 32 + 7 * 2 ^ 48)) none (st id) (by decide +kernel) trivial,
   begins (ent 0 (7 * 2 ^ 16)) none (st (updTabs 4 fun t => { t with past := NMap.put t.past 7 { fn := 0, flags := 0 } })) (by decide +kernel) trivial,
   begins (ent 128 (2 ^ 20 - 1 + 2 ^ 32)) (some (zeros 128)) (st id) (by decide +kernel) trivial,
   begins (ent 256 (0xFFFF)) (some (zeros 256)) (st id) (by decide +kernel) trivial⟩

theorem witness_AzrixTableCommandsLoad_2 :
    azCan 0x22 azFlockLoad anyway
    ∧ azCan 0x30 azCalLoad anyway
    ∧ azCan 0x32 azResConfirm anyway
    ∧ azCan 0x33 azResWithdraw anyway :=
  ⟨begins (ent 32 (65535 + 2 ^ 32)) (some (zeros 32)) (st id) (by decide +kernel) trivial,
   begins (ent 0 (0)) none (st id) (by decide +kernel) trivial,
   begins (ent 0 (5 + 6 * 2 ^ 16 + 9 * 2 ^ 56 + 2 ^ 112 + 2 ^ 128 + 2 ^ 160)) none (st (updTabs 4 fun t => { t with flock := NMap.put t.flock 9 { out := 0, id := 9, valid := true, toDrv := false, drvDie := 0, host := 1, owner := 0, pasture := 0 } })) (by decide +kernel) trivial,
   begins (ent 0 (16383 + 2 * 2 ^ 16)) none (st (updTabs 4 fun t => { t with res := NMap.put t.res 16383 { role := 6, path := 0, src := 0, dest := 9, pasture := 0, fn := 0, sigma := 1, rho := 1, bound := 1, allow := 0 } })) (by decide +kernel) trivial⟩

theorem witness_AzrixTableCommandsLoad_3 :
    azCan 0x40 azProgLoad anyway
    ∧ azCan 0x41 azProgUnload anyway
    ∧ azCan 0x50 azBudgetSet anyway
    ∧ azCan 0x70 azBufPartition anyway :=
  ⟨begins (ent 192 (3 * 2 ^ 32)) (some progBytes) (st id) (by decide +kernel) trivial,
   begins (ent 0 (5 * 256)) none (st (updTabs 4 fun t => { t with drv := NMap.put t.drv 5 prog0 })) (by decide +kernel) trivial,
   begins (ent 0 (2 ^ 32 - 1 + 255 * 2 ^ 32)) none (st id) (by decide +kernel) trivial,
   begins (ent 0 (3 + 15 * 256)) none (st (die 3 DieSt.fenced)) (by decide +kernel) trivial⟩

theorem witness_AzrixTableCommandsLoad_4 :
    azCan 0x31 azCalSwitch (fun _ c m => frameBegun (c.arg 0 8) m = false) :=
  begins (ent 0 (2 ^ 44 - 1)) none (st id) (by decide +kernel) (by decide +kernel)

theorem witness_AzrixDieCommandsAct_1 :
    azCan 0x01 azQuery anyway
    ∧ azCan 0x51 azDieSleep anyway
    ∧ azCan 0x52 azDieWake anyway
    ∧ azCan 0x53 (azStandby false) anyway :=
  ⟨begins (ent 0 (0)) none (st id) (by decide +kernel) trivial,
   begins (ent 0 (3 + 256)) none (st id) (by decide +kernel) trivial,
   begins (ent 0 (3)) none (st (die 3 DieSt.sleep)) (by decide +kernel) trivial,
   begins (ent 0 (0)) none (st id) (by decide +kernel) trivial⟩

theorem witness_AzrixDieCommandsAct_2 :
    azCan 0x54 azResume anyway
    ∧ azCan 0x55 (azStandby true) anyway
    ∧ azCan 0x71 azPoolAlloc anyway
    ∧ azCan 0x72 azPoolFree anyway :=
  ⟨begins (ent 0 (0)) none (st id) (by decide +kernel) trivial,
   begins (ent 0 (0)) none (st id) (by decide +kernel) trivial,
   begins (ent 0 (3 + 65536 * 2 ^ 64)) none (st id) (by decide +kernel) trivial,
   begins (ent 0 (3 + 65536 * 2 ^ 64)) none (st (setPool 3 [{ off := 65536, size := 65536, fn := 0, src := 3 }])) (by decide +kernel) trivial⟩

theorem witness_AzrixDieCommandsAct_3 :
    azCan 0x80 azDieFence anyway
    ∧ azCan 0x81 azDieRestore anyway
    ∧ azCan 0x82 azDieActivate anyway
    ∧ azCan 0x83 azUnitRestore anyway :=
  ⟨begins (ent 0 (3)) none (st id) (by decide +kernel) trivial,
   begins (ent 0 (3)) none (st (die 3 DieSt.fenced)) (by decide +kernel) trivial,
   begins (ent 0 (3)) none (st (die 3 DieSt.quarantine)) (by decide +kernel) trivial,
   begins (ent 0 (3 + 27 * 256)) none (st (setUnit 3 27 UnitSt.fenced)) (by decide +kernel) trivial⟩

theorem witness_AzrixDieCommandsAct_4 :
    azCan 0x90 azTimeRole anyway
    ∧ azCan 0x91 azTimeOfDay anyway :=
  ⟨begins (ent 0 (3 + 1000000 * 2 ^ 32)) none (st id) (by decide +kernel) trivial,
   begins (ent 0 (2 ^ 44 - 1 + 999999999 * 2 ^ 64)) none (st id) (by decide +kernel) trivial⟩

theorem witness_AzrixFaultAndSecurityCommandsAct_1 :
    azCan 0x60 azFaultLog anyway
    ∧ azCan 0x61 azFaultClear (fun _ c m => (shepRec (c.arg 0 4) m).filter (fun r => r.isOpen) = some { rec0 0 with die := 4, unit := 47 })
    ∧ azCan 0x62 azReactSet anyway
    ∧ azCan 0x63 azInject (fun s _ _ => s.m.sec.lifecycle = 0) :=
  ⟨begins (ent 64 (0 + 2 ^ 32)) (some (zeros 64)) (st id) (by decide +kernel) trivial,
   begins (ent 0 (1)) none (st fun m => { m with flt := { m.flt with log := [{ rec0 0 with die := 4, unit := 47 }] } }) (by decide +kernel) (by decide +kernel),
   begins (ent 0 (4 + 47 * 256 + 30 * 2 ^ 16 + 63 * 2 ^ 24)) none (st id) (by decide +kernel) trivial,
   begins (ent 0 (4 + 47 * 256 + 30 * 2 ^ 16 + 255 * 2 ^ 24)) none (st id) (by decide +kernel) (by decide +kernel)⟩

theorem witness_AzrixFaultAndSecurityCommandsAct_2 :
    azCan 0x64 azCntRead anyway
    ∧ azCan 0xA0 azSecCommit anyway
    ∧ azCan 0xA1 azNonce anyway
    ∧ azCan 0xA2 azUnlock anyway :=
  ⟨begins (ent 3072 (192 * 2 ^ 16)) (some (zeros 3072)) (st id) (by decide +kernel) trivial,
   begins (ent 0 (1)) none (st id) (by decide +kernel) trivial,
   begins (ent 32 (0)) (some (zeros 32)) (st id) (by decide +kernel) trivial,
   begins (ent 280 (0)) (some (zeros 280)) (st id) (by decide +kernel) trivial⟩

theorem witness_AzrixFaultAndSecurityCommandsAct_3 :
    azCan 0xA3 azLock anyway
    ∧ azCan 0xA4 azLifecycle anyway
    ∧ azCan 0xA5 azOwnerKey anyway :=
  ⟨begins (ent 0 (0)) none (st id) (by decide +kernel) trivial,
   begins (ent 0 (1)) none (st id) (by decide +kernel) trivial,
   begins (ent 48 (0)) (some (zeros 48)) { st (fun m => { m with sec := { m.sec with lifecycle := 1 } }) with fuse := { Fuse.reset with lifecycle := 1 } } (by decide +kernel) trivial⟩

/-- A key wrapped in a session that is held begins to load, where the AES-GCM of Config opens it. -/
theorem witness_AzrixTableCommandsLoad_key (k : Bytes) (h : ∀ a b c d e, Config.gcmOpen a b c d e = some k) :
    azCan 0x12 azPastureKey anyway := by
  have e : keyOpened (azHeld 0x12 none (ent 72 (7 * 2 ^ 16)) (some keyBuf)) (azCounted (azHeld 0x12 none (ent 72 (7 * 2 ^ 16)) (some keyBuf)) keyed.m)
      = some k := by
    have t : keySession (azHeld 0x12 none (ent 72 (7 * 2 ^ 16)) (some keyBuf)) (azCounted (azHeld 0x12 none (ent 72 (7 * 2 ^ 16)) (some keyBuf)) keyed.m)
        = some { id := 0, via := 4, draw := 0, est := true, updates := 0 } := by decide +kernel
    unfold keyOpened
    rw [t]
    exact h _ _ _ _ _
  refine begins (ent 72 (7 * 2 ^ 16)) (some keyBuf) keyed ?_ trivial
  unfold azReady
  have c : azPastureKey.chk keyed.fuse (azHeld 0x12 none (ent 72 (7 * 2 ^ 16)) (some keyBuf))
      (azCounted (azHeld 0x12 none (ent 72 (7 * 2 ^ 16)) (some keyBuf)) keyed.m) = none := by
    unfold azPastureKey
    simp only [e, Option.isNone_some, Bool.and_false]
    decide +kernel
  simp only [c]
  decide +kernel

/-- For every entry: no entry, one whose ring is unusable, one that is taken. -/
theorem witness_QueuesTakeTheirNextEntry :
    (∀ c ∈ codes, hostUp 0 (st id).m = true ∧ nextEntry 0 65535 (st id).m = none ∧ c < 256)
    ∧ (∀ c ∈ codes, ∃ (b : Bytes) (s : State), hostUp 0 s.m = true ∧ nextEntry 0 65535 s.m = some b ∧ rdLE b 0 1 = c ∧ crUsable 0 65535 (rdLE b 2 2) s.m = false)
    ∧ (∀ c ∈ codes, ∃ b s e m, Takes c 0 65535 b s e m) :=
  ⟨by decide +kernel,
   fun c h => ⟨entry c 0, withEntry (entry c 0) (wr F.WQU_QSTATE_STATE 0 (qix 1 65535) QSt.halted), by revert c; decide +kernel⟩,
   fun c h => ⟨_, _, _, _, takes (b := entry c 0) (f := id) (by revert c; decide +kernel)⟩⟩

/-- The same for the clauses over several atomics: a result buffer at 4096, and a misaligned target. -/
theorem witness_AtomicAndLockEntriesStartTheirRequest_lists :
    (∀ r ∈ ([(0x22, 1, 4), (0x23, 1, 8), (0x24, 2, 4), (0x25, 2, 8), (0x26, 2, 16)] : List (Nat × Nat × Nat)),
      ∃ b s e m z se m2, Takes r.1 0 65535 b s e m ∧ e.badAtomic r.2.1 r.2.2 = none ∧ e.connected m ∧ e.resultAddr ≠ 0
        ∧ checkBuf e.die e.fn e.xctx 1 Cls5.local_ [] [(e.resultAddr, r.2.2)] false m = (.ok z, se, m2))
    ∧ (∀ r ∈ ([(0x20, 0, 4), (0x21, 0, 8), (0x22, 1, 4), (0x23, 1, 8), (0x24, 2, 4), (0x25, 2, 8), (0x26, 2, 16)] : List (Nat × Nat × Nat)),
      ∃ b s e m dt, Takes r.1 0 65535 b s e m ∧ e.badAtomic r.2.1 r.2.2 = some dt) := by
  constructor
  · intro r h
    refine ⟨entry r.1 (5 * 2 ^ 64 + 4096 * 2 ^ 192), withEntry (entry r.1 (5 * 2 ^ 64 + 4096 * 2 ^ 192)) pass5, eOf (entry r.1 (5 * 2 ^ 64 + 4096 * 2 ^ 192)) pass5,
      mOf (entry r.1 (5 * 2 ^ 64 + 4096 * 2 ^ 192)) pass5, [], false,
      bufOf 1 Cls5.local_ [(4096, r.2.2)] (mOf (entry r.1 (5 * 2 ^ 64 + 4096 * 2 ^ 192)) pass5), takes ?_, ?_, ⟨?_, ?_, ?_⟩, ?_, ?_⟩
    all_goals (revert r; decide +kernel)
  · intro r h
    refine ⟨entry r.1 (2 ^ 128), withEntry (entry r.1 (2 ^ 128)) id, _, _, 5, takes ?_, ?_⟩
    all_goals (revert r; decide +kernel)

/-- A command that names what exists, and one that does not. -/
theorem witness_CommandsCompleteOnWhatExists : (Instr.cycleBoundary 4).wf = true ∧ (Instr.cycleBoundary 5).wf = false := by decide

/-! ## Worked examples over a module at work -/

/-- spec/01: the die-to-die crossing from W0 to W2, and with links down. -/
theorem test_crossing :
    let down (l : List (Nat × Nat)) : Sys2Proof.Machine.Mod := { served with d2d := l.foldl (fun t p => NMap.put t (pairIx p.1 p.2) false) served.d2d }
    crossing 0 2 false served = some [(0, 2)] ∧ crossing 0 2 false (down [(0, 2)]) = some [(0, 1), (1, 2)]
      ∧ crossing 0 2 true (down [(0, 2)]) = some [(0, 3), (3, 2)] ∧ crossing 0 2 false (down [(0, 2), (1, 2)]) = some [(0, 3), (3, 2)] := by decide +kernel

/-- spec/16: VF 3's context and the two regions. -/
def guarded : Sys2Proof.Machine.Mod :=
  [(F.XLT_CTX_CFG_ENABLE, 0x12, 1), (F.XLT_CTX_CFG_FN, 0x12, 3), (F.XLT_CTX_CFG_LEVELS, 0x12, 4), (F.XLT_CTX_CFG_AD_EN, 0x12, 1),
   (F.XLT_CTX_ROOT_ROOT, 0x12, 0x100000), (F.HIF_CTRL_HOST_ATOMICS, 0, 1),
   (F.ACP_RCTL_ENABLE, 5, 1), (F.ACP_RSTART_START, 5, 0x4280000000 / 64), (F.ACP_REND_END, 5, 0x4280001FBF / 64), (F.ACP_RPERM_PERM, 5, 0x1F), (F.ACP_RCTL_ANY_FN, 5, 1),
   (F.ACP_RCTL_ENABLE, 9, 1), (F.ACP_RSTART_START, 9, 0x4280001FC0 / 64), (F.ACP_REND_END, 9, 0x42FFFFFFFF / 64), (F.ACP_RPERM_PERM, 9, 8), (F.ACP_RCTL_ANY_FN, 9, 1)].foldl
    (fun m e => force e.1 1 e.2.1 e.2.2 m) served

/-- spec/16: the page table as the host answers, and the CAS that marks the leaf. -/
def pages : HostAns :=
  [(0x100000240, leBytes 8 0x100003001), (0x100003008, leBytes 8 0x100005001), (0x100005018, leBytes 8 0x428000000F), (0x100005018 + 2 ^ 64, leBytes 8 0x428000000F)]

/-- spec/16: the write of 128 bytes is refused at the byte of region 9, with its violation record, and the leaf stays marked. -/
theorem test_refused_write :
    let r := access 1 3 0x12 0x240040601F80 128 1 Cls5.remote pages guarded
    r.1 = .denied ∧ rd F.ACP_VLOG_START_START 1 0 r.2 = 0x240040601F80 ∧ rd F.ACP_VLOG_INFO_LENGTH 1 0 r.2 = 128
      ∧ rd F.ACP_VLOG_BAD_FIRST_BAD 1 0 r.2 = 0x4280001FC0 ∧ rd F.ACP_VLOG_INFO_REGION 1 0 r.2 = 9 ∧ rd F.ACP_VLOG_INFO_DEFAULT 1 0 r.2 = 0
      ∧ rd F.ACP_VLOG_INFO_KIND 1 0 r.2 = 1 ∧ rd F.ACP_VLOG_INFO_MASTER 1 0 r.2 = 1 ∧ rd F.ACP_VLOG_INFO_FN 1 0 r.2 = 3
      ∧ (xlt 1 r.2).tlb.map TlbEnt.leaf = [0x42800000CF] := by decide +kernel

/-- spec/01: an NZS9-A48 after its start, with 40 macros of W1 unusable, as GEN then shows it. -/
def a48 : Sys2Proof.Machine.Mod :=
  let m : Sys2Proof.Machine.Mod := { served with
    conf := { served.conf with mask := 7 }
    dieSt := [(0, DieSt.active), (1, DieSt.active), (2, DieSt.active)]
    d2d := [(pairIx 0 1, true), (pairIx 0 2, true), (pairIx 1 2, true), (pairIx 0 4, true), (pairIx 1 4, true), (pairIx 2 4, true)]
    bst := { served.bst with bad := (List.range 40).map (fun k => (2048 + k, true)) } }
  genPublish m

theorem test_gen_values :
    view State.reset.fuse F.GEN_CONFIG_ORDER 1 0 0 a48 = 0x30 ∧ view State.reset.fuse F.GEN_CONFIG_FUSED_MASK 1 0 0 a48 = 7 ∧ view State.reset.fuse F.GEN_CONFIG_USABLE_MASK 1 0 0 a48 = 7
      ∧ view State.reset.fuse F.GEN_DIE_STATE_DIE0 1 0 0 a48 = 3 ∧ view State.reset.fuse F.GEN_DIE_STATE_DIE3 1 0 0 a48 = 0 := by decide +kernel

theorem test_gen_masks :
    view State.reset.fuse F.GEN_QUAD_MASK_USABLE 1 0 0 a48 = 0xFFFFFFFFFFFF ∧ view State.reset.fuse F.GEN_D2D_STATUS_PAIR_UP 1 0 0 a48 = 0b001011 ∧ view State.reset.fuse F.GEN_D2D_STATUS_SHEP_UP 1 0 0 a48 = 7
      ∧ view State.reset.fuse F.GEN_MACRO_STATUS_MACROS_UNUSABLE 1 0 0 a48 = 40 ∧ view State.reset.fuse F.GEN_STATUS_DEGRADED 1 0 0 a48 = 1 := by decide +kernel

end Sys2Proof.Tests
end

section
/-! PROOFS. Numbers, transport headers and conduit contexts are read back from their bytes (R5, R238, R239, R241, R244). -/
namespace Sys2Proof.Machine

/-- A transport header fills its 40 bytes (R249). -/
theorem Th.bytes_length (t : Th) : t.bytes.length = 40 := by
  simp only [Th.bytes, List.length_append, leBytes_length, zeros_length]

/-- A header behind a routing header of 24 bytes is read back, whatever follows it. Each read skips what stands before its
field and finds the field at the front, at a width that holds it. -/
theorem Th.of_bytes (h r : Bytes) (t : Th) (hh : h.length = 24) (op : t.op < 2 ^ 8) (flags : t.flags < 2 ^ 8)
    (round : t.round < 2 ^ 8) (dcn : t.dcn < 2 ^ 24) (scn : t.scn < 2 ^ 24) (psn : t.psn < 2 ^ 32) (msg : t.msg < 2 ^ 32)
    (off : t.off < 2 ^ 32) (len : t.len < 2 ^ 32) (trk : t.trk < 2 ^ 16) (deadline : t.deadline < 2 ^ 64) :
    Th.of (h ++ t.bytes ++ r) = t := by
  simp only [Nat.reducePow] at op flags round dcn scn psn msg off len trk deadline
  simp only [Th.of, Th.bytes, List.append_assoc, rdLE_skip_bytes, hh, leBytes_length, zeros_length, Nat.reduceLeDiff,
    Nat.reduceSub, rdLE_front]
  simp only [Nat.reducePow, Nat.mod_eq_of_lt, op, flags, round, dcn, scn, psn, msg, off, len, trk, deadline]

/-- A conduit context fills its 256 bytes (R239). -/
theorem Cond.bytes_length (c : Cond) : c.bytes.length = 256 := by
  unfold Cond.bytes
  simp only [List.length_append, leBytes_length, zeros_length]

/-- The first byte of a context holds STATE in two bits and the five flags from bit 3 on (R238). -/
theorem ctlByte_parts {st : Nat} (hst : st < 4) (adapt spray pinned fromGate mcast : Bool) :
    let ctl := st + 8 * b2n adapt + 16 * b2n spray + 32 * b2n pinned + 64 * b2n fromGate + 128 * b2n mcast
    ctl < 256 ∧ ctl % 4 = st ∧ bit ctl 3 = adapt ∧ bit ctl 4 = spray ∧ bit ctl 5 = pinned ∧ bit ctl 6 = fromGate
      ∧ bit ctl 7 = mcast := by
  revert st hst adapt spray pinned fromGate mcast
  decide

/-- A context read from its image has every stored field; what the engine keeps beside the image is the reader's. As for a
header, each field is found at the front once what stands before it is skipped. -/
theorem Cond.ofBytes_bytes (c0 c : Cond) (hc : c.fits) : Cond.ofBytes c0 c.bytes = { c with
    resident := c0.resident, used := c0.used, fetching := c0.fetching, halved := c0.halved, ackedCe := c0.ackedCe
    nextMsg := c0.nextMsg, msgs := c0.msgs, recs := c0.recs, rx := c0.rx, nrDetail := c0.nrDetail, bufs := c0.bufs
    fromReserve := c0.fromReserve, bufWait := c0.bufWait, closeSent := c0.closeSent } := by
  simp only [Cond.fits, Nat.reducePow] at hc
  have hctl := ctlByte_parts hc.1 c.adapt c.spray c.pinned c.fromGate c.mcast
  unfold Cond.ofBytes Cond.bytes
  generalize c.state + 8 * b2n c.adapt + 16 * b2n c.spray + 32 * b2n c.pinned + 64 * b2n c.fromGate + 128 * b2n c.mcast
    = ctl at hctl ⊢
  simp only [List.append_assoc, rdLE_skip_bytes, leBytes_length, zeros_length, Nat.reduceLeDiff, Nat.reduceSub, rdLE_front]
  simp [Nat.mod_eq_of_lt, hc, hctl]

/-- Settles O54: numbers by the laws of bytes, headers and contexts field by field. -/
theorem headersAndContextsAreReadBack : Obligations.HeadersAndContextsAreReadBack := by
  refine ⟨fun n v hv => ⟨leBytes_length n v, ?_⟩, ?_, fun c0 c hc => ⟨c.bytes_length, Cond.ofBytes_bytes c0 c hc⟩⟩
  · rw [leNat_leBytes, Nat.mod_eq_of_lt hv]
  · intro h r t hh op flags round dcn scn psn msg off len trk deadline
    exact ⟨t.bytes_length, Th.of_bytes h r t hh op flags round dcn scn psn msg off len trk deadline⟩

end Sys2Proof.Machine
end

section
/-! PROOFS. What a write of one field does, by its access type and class (R9, R11, R13, R14). -/
namespace Sys2Proof.Machine

/-- The value in force does not change when a LIVE write is accepted: the one kept is the one in force before (R11). -/
theorem cur_pendLive (G : Fld) (d i v : Nat) (m : Mod) : cur G d i (pendLive G d i v m) = cur G d i m := by
  cases h : NMap.find m.live (G.key d i) <;> simp [cur, pendLive, h]

/-- A LIVE write that is accepted is read back at once (R11). -/
theorem rd_pendLive (G : Fld) (d i v : Nat) (m : Mod) : rd G d i (pendLive G d i v m) = v % 2 ^ G.w :=
  rd_wr_same G d i v m

/-- Under a mask of the whole field nothing of its old value is left. -/
theorem mergeVal_full {mask : Nat} {G : Fld} (h : bits mask G.lo G.w = 2 ^ G.w - 1) (fz : Fuse) (d f i val : Nat) (m : Mod) :
    mergeVal fz G d f i val mask m = bits val G.lo G.w := by
  have hlt : bits val G.lo G.w < 2 ^ G.w := Nat.mod_lt _ (Nat.two_pow_pos _)
  change (bits val G.lo G.w &&& bits mask G.lo G.w) ||| (view fz G d f i m &&& (bits mask G.lo G.w ^^^ (2 ^ G.w - 1))) = _
  rw [h, Nat.xor_self, Nat.and_zero, Nat.or_zero, Nat.and_two_pow_sub_one_eq_mod, Nat.mod_eq_of_lt hlt]

/-- Only FLT_REACT is stored in a form of its own. -/
theorem storeVal_eq {G : Fld} (h : G.reg ≠ F.FLT_REACT_REACT.reg) (i v : Nat) : storeVal G i v = v := if_neg h

theorem fieldWrite_outside {mask : Nat} {G : Fld} (h : bits mask G.lo G.w = 0) (fz : Fuse) (r : Reg) (en : Bool)
    (d f i val : Nat) (m : Mod) : fieldWrite fz r en d f i val mask m G = m := if_pos (.inl h)

theorem fieldWrite_foreign {d f : Nat} {m : Mod} {G : Fld} (hf : isPf d f m = false) (hG : G.among pfFields = true) (fz : Fuse)
    (r : Reg) (en : Bool) (i val mask : Nat) : fieldWrite fz r en d f i val mask m G = m := if_pos (.inr ⟨by simp [hf], hG⟩)

theorem fieldWrite_readOnly {G : Fld} (h : G.acc = .RO ∨ G.acc = .RC) (fz : Fuse) (r : Reg) (en : Bool) (d f i val mask : Nat)
    (m : Mod) : fieldWrite fz r en d f i val mask m G = m := by
  rcases h with h | h <;> simp only [fieldWrite, h, ite_self]

section
variable {d f mask : Nat} {m : Mod} {G : Fld} (hm : bits mask G.lo G.w ≠ 0) (hp : isPf d f m = true ∨ G.among pfFields = false)
include hm hp

/-- A field under the mask and of the writer is not passed over. -/
theorem not_outside_or_foreign : ¬ (bits mask G.lo G.w = 0 ∨ (!isPf d f m) = true ∧ G.among pfFields = true) := by
  rcases hp with h | h <;> simp [hm, h]

theorem fieldWrite_W1C (ha : G.acc = .W1C) (hr : G.reg ≠ F.CNT_CTR_WRAPPED.reg) (fz : Fuse) (r : Reg) (en : Bool) (i val : Nat) :
    fieldWrite fz r en d f i val mask m G = if Nat.land (bits val G.lo G.w) (bits mask G.lo G.w) = 0 then m
      else wr G d i (Nat.land (rd G d i m) (Nat.xor (Nat.land (bits val G.lo G.w) (bits mask G.lo G.w)) (2 ^ G.w - 1))) m := by
  simp only [fieldWrite, if_neg (not_outside_or_foreign hm hp), ha, if_neg hr]

theorem fieldWrite_W1S (ha : G.acc = .W1S) (fz : Fuse) (r : Reg) (en : Bool) (i val : Nat) :
    fieldWrite fz r en d f i val mask m G =
      if Nat.land (bits val G.lo G.w) (bits mask G.lo G.w) = 0
        ∨ (G.among [F.LNE_PORT_CTRL_RETRAIN] = true ∧ pst (32 * d + i) m ≠ 6) then m
      else if goBusy G d i m = true then undecoded d m
      else pendLive G d i (Nat.land (bits val G.lo G.w) (bits mask G.lo G.w)) m := by
  simp only [fieldWrite, if_neg (not_outside_or_foreign hm hp), ha]

theorem fieldWrite_guarded_enabled (ha : G.acc = .RW) (hc : G.cls = .GUARDED) (fz : Fuse) (r : Reg) (i val : Nat) :
    fieldWrite fz r true d f i val mask m G = noteWriteRefused r d f i m := by
  simp only [fieldWrite, if_neg (not_outside_or_foreign hm hp), ha, hc, if_true]

theorem fieldWrite_live (ha : G.acc = .RW) (hc : G.cls = .LIVE) (fz : Fuse) (r : Reg) (en : Bool) (i val : Nat) :
    fieldWrite fz r en d f i val mask m G = pendLive G d i (storeVal G i (mergeVal fz G d f i val mask m)) m := by
  simp only [fieldWrite, if_neg (not_outside_or_foreign hm hp), ha, hc]

theorem fieldWrite_stored (ha : G.acc = .RW) (hl : G.cls ≠ .LIVE) {en : Bool} (hg : en = false ∨ G.cls ≠ .GUARDED) (fz : Fuse)
    (r : Reg) (i val : Nat) :
    fieldWrite fz r en d f i val mask m G = wr G d i (storeVal G i (mergeVal fz G d f i val mask m)) m := by
  cases hc : G.cls with
  | STATIC => simp only [fieldWrite, if_neg (not_outside_or_foreign hm hp), ha, hc]
  | LIVE => exact absurd hc hl
  | GUARDED =>
    have hen : en = false := hg.resolve_right (fun h => h hc)
    simp only [fieldWrite, if_neg (not_outside_or_foreign hm hp), ha, hc, hen, if_neg Bool.false_ne_true]

/-- An RW field that takes a write reads back the value stored, whether it is in force at once or waits (R9, R11). -/
theorem rd_fieldWrite_RW (ha : G.acc = .RW) {en : Bool} (hg : en = false ∨ G.cls ≠ .GUARDED) (fz : Fuse) (r : Reg) (i val : Nat) :
    rd G d i (fieldWrite fz r en d f i val mask m G) = storeVal G i (mergeVal fz G d f i val mask m) % 2 ^ G.w := by
  by_cases hl : G.cls = .LIVE
  · rw [fieldWrite_live hm hp ha hl, rd_pendLive]
  · rw [fieldWrite_stored hm hp ha hl hg, rd_wr_same]

end

/-- Settles O51: one equation of `fieldWrite` for each access type and class. -/
theorem fieldsAreWrittenByTheirAccessType : Obligations.FieldsAreWrittenByTheirAccessType := by
  refine ⟨?outside, ?foreign, ?readOnly, ?w1c, ?w1s, ?w1sNot, ?guarded, ?rw, ?live⟩
  case outside => intro fz r en d f i val mask m G h; exact fieldWrite_outside h fz r en d f i val m
  case foreign => intro fz r en d f i val mask m G hf hG; exact fieldWrite_foreign hf hG fz r en i val mask
  case readOnly => intro fz r en d f i val mask m G h; exact fieldWrite_readOnly h fz r en d f i val mask m
  case w1c =>
    intro fz r en d f i val mask m G hm hp ha hr
    rw [fieldWrite_W1C hm hp ha hr]
    split
    · next h => exact .inr ⟨h, rfl⟩
    · exact .inl (by rw [rd_wr_same, Nat.mod_mod])
  case w1s =>
    intro fz r en d f i val mask m G hm hp ha hr h0 hb
    have hgo : ¬ (G.among [F.LNE_PORT_CTRL_RETRAIN] = true ∧ pst (32 * d + i) m ≠ 6) := by
      rcases hr with h | h <;> simp [h]
    rw [fieldWrite_W1S hm hp ha, if_neg (not_or_intro h0 hgo), hb, if_neg Bool.false_ne_true]
  case w1sNot =>
    intro fz r en d f i val mask m G hm hp ha
    rw [fieldWrite_W1S hm hp ha]
    exact ⟨fun hr hs => if_pos (.inr ⟨hr, hs⟩), fun h0 hr hb => by rw [if_neg (not_or_intro h0 (by simp [hr])), if_pos hb]⟩
  case guarded =>
    intro fz r d f i val mask m G hm hp ha hc
    exact fieldWrite_guarded_enabled hm hp ha hc fz r i val
  case rw =>
    intro fz r en d f i val mask m G hfull hw hp ha hg hr
    have hm : bits mask G.lo G.w ≠ 0 := by
      have := Nat.one_lt_two_pow (Nat.ne_of_gt hw)
      omega
    rw [rd_fieldWrite_RW hm hp ha hg, storeVal_eq hr, mergeVal_full hfull]
    exact Nat.mod_mod _ _
  case live =>
    intro fz r en d f i val mask m G hm hp ha hc
    rw [fieldWrite_live hm hp ha hc, cur_pendLive]

end Sys2Proof.Machine
end

section
/-! PROOFS. Every command either completes or is refused by name (R1, R21, R44, R237, R269). -/
namespace Sys2Proof.Machine

/-- Each command is one effect, done when its operands name things that exist: the arms of `exec` and of `Instr.wf` check the
same operands. -/
theorem exec_is_act (c : Instr) (s : State) : ∃ f, exec c s = act c.wf s f := by
  cases c <;> (unfold exec Instr.wf; exact ⟨_, rfl⟩)

/-- Settles O3: `act` answers by its check, and `finish` keeps the queue and leaves no fuse operation. -/
theorem commandsCompleteOnWhatExists : Obligations.CommandsCompleteOnWhatExists := by
  intro c s
  obtain ⟨f, hf⟩ := exec_is_act c s
  rw [hf]
  exact ⟨fun h => ⟨_, act_true h, finish_pending s _, finish_burn s _⟩, act_false⟩

end Sys2Proof.Machine
end

section
/-! PROOFS. Register accesses: which commands make which access, and what an access comes to by its reach, its size and the
place it leads to (R7, R8, R9, R52, R337). -/
namespace Sys2Proof.Machine

/-! ## The access that a command makes -/

section
variable {d f off size : Nat} {s : State} (hd : d < 4)
include hd

theorem exec_registerWrite {val : Nat} (hf : f < 1026) (hs : 0 < size) (hv : val < 2 ^ 64) (ans : HostAns) :
    exec (.registerWrite d f off size val ans) s = .next (finish s (writeAt s.fuse d f off size val ans s.m)) := by
  change execRegisterWrite d f off size val ans s = _
  exact act_true (by simp only [dieOk, fnOk, hd, hf, hs, hv, decide_true, Bool.and_self])

theorem exec_readClear (hf : f < 1026) (hs : 0 < size) :
    exec (.readClear d f off size) s = .next (finish s (readAt s.fuse d f off size s.m)) := by
  change execReadClear d f off size s = _
  exact act_true (by simp [dieOk, fnOk, hd, hf, hs])

theorem exec_lowerHalfRead (hf : f < 1026) :
    exec (.lowerHalfRead d f off) s = .next (finish s (readAt s.fuse d f off 4 s.m)) := by
  change execLowerHalfRead d f off s = _
  exact act_true (by simp [dieOk, fnOk, hd, hf])

theorem exec_counterRead {i : Nat} (hf : f < 1026) (hi : i < 704) :
    exec (.counterRead d f i) s = .next (finish s (readAt s.fuse d f (counterOff d f i s.m) 8 s.m)) := by
  change execCounterRead d f i s = _
  exact act_true (by simp [dieOk, fnOk, hd, hf, hi])

theorem exec_etlNowNsRead8 : exec (.etlNowNsRead d 8) s = .next (finish s (readAt s.fuse d 0 0x300008 8 s.m)) := by
  change execEtlNowNsRead d 8 s = _
  exact act_true (by simp [dieOk, hd])

end

/-- A counter stands at a multiple of 8 on either page. -/
theorem counterOff_aligned (d f i : Nat) (m : Mod) : counterOff d f i m % 8 = 0 := by
  unfold counterOff; split <;> omega

/-- An access of 4 or 8 bytes at a multiple of its size is as R8 asks. -/
theorem not_badSize {off size : Nat} (hs : size = 4 ∨ size = 8) (ho : off % size = 0) :
    ¬ ((size ≠ 4 ∧ size ≠ 8) ∨ off % size ≠ 0) := by omega

/-! ## Accesses that reach no register -/

section
variable {d f off : Nat} {m : Mod} (fz : Fuse)

theorem writeAt_unreached (h : reaches d f off m = false) (size val : Nat) (ans : HostAns) :
    writeAt fz d f off size val ans m = m := if_pos (by simp [h])

theorem readAt_unreached (h : reaches d f off m = false) (size : Nat) : readAt fz d f off size m = m := if_pos (by simp [h])

variable (h : reaches d f off m = true)
include h

theorem writeAt_badSize {size : Nat} (hs : (size ≠ 4 ∧ size ≠ 8) ∨ off % size ≠ 0) (val : Nat) (ans : HostAns) :
    writeAt fz d f off size val ans m = bump F.HIF_ACC_ERR_BAD_SIZE d 0 m := by
  rw [writeAt, if_neg (by simp [h]), if_pos hs]

theorem readAt_badSize {size : Nat} (hs : (size ≠ 4 ∧ size ≠ 8) ∨ off % size ≠ 0) :
    readAt fz d f off size m = answerRead d f off (2 ^ (8 * size) - 1) (bump F.HIF_ACC_ERR_BAD_SIZE d 0 m) := by
  rw [readAt, if_neg (by simp [h]), if_pos hs]

/-! ## Accesses that lead to a register -/

variable {r : Reg} {i : Nat}

theorem writeAt_reg32 (ho : off % 4 = 0) (hl : locate d f off m = .reg r i false false) (hb : r.bits = 32) (val : Nat)
    (ans : HostAns) : writeAt fz d f off 4 val ans m = regWrite fz r d f i (val % 2 ^ 32) m32 ans m := by
  rw [writeAt, if_neg (by simp [h]), if_neg (not_badSize (.inl rfl) ho)]
  simp [hl, hb, write4, Place.hit, when]

theorem writeAt_reg64 (ho : off % 8 = 0) (hl : locate d f off m = .reg r i false false) (hb : r.bits = 64) (val : Nat)
    (ans : HostAns) : writeAt fz d f off 8 val ans m = regWrite fz r d f i (val % 2 ^ 64) m64 ans m := by
  rw [writeAt, if_neg (by simp [h]), if_neg (not_badSize (.inr rfl) ho)]
  simp [hl, hb]

section
variable {ro : Bool} (hl : locate d f off m = .reg r i false ro)
include hl

/-- A read of SLOT_WAIT or of its lower half is the read of R337; the lower half captures an upper half of 0. -/
theorem readAt_slotWait {size : Nat} (hs : size = 4 ∨ size = 8) (ho : off % size = 0) (hr : r.off = F.CRK_SLOT_WAIT_STATUS.reg) :
    readAt fz d f off size m = slotWaitRead d i (f, off)
      (if size = 4 then setHalf d f { halfOf d f m with rReg := some (halfKey r i, 0) } m else m) := by
  rw [readAt, if_neg (by simp [h]), if_neg (not_badSize hs ho)]
  simp only [hl, waitSlot, if_pos hr]

variable (hr : r.off ≠ F.CRK_SLOT_WAIT_STATUS.reg)
include hr

theorem readAt_reg32 (ho : off % 4 = 0) (hb : r.bits = 32) :
    readAt fz d f off 4 m = answerRead d f off (regRead fz r d f i m32 m).1 (regRead fz r d f i m32 m).2 := by
  rw [readAt, if_neg (by simp [h]), if_neg (not_badSize (.inl rfl) ho)]
  simp [hl, hb, hr, waitSlot, read4, Place.hit, when]

theorem readAt_lowerHalf (ho : off % 4 = 0) (hb : r.bits = 64) :
    readAt fz d f off 4 m = answerRead d f off ((regRead fz r d f i m64 m).1 % 2 ^ 32)
      (setHalf d f { halfOf d f m with rReg := some (halfKey r i, (regRead fz r d f i m64 m).1 >>> 32) }
        (regRead fz r d f i m64 m).2) := by
  rw [readAt, if_neg (by simp [h]), if_neg (not_badSize (.inl rfl) ho)]
  simp [hl, hb, hr, waitSlot, read4, Place.hit, when]

theorem readAt_reg64 (ho : off % 8 = 0) (hb : r.bits = 64) :
    readAt fz d f off 8 m = answerRead d f off (regRead fz r d f i m64 m).1 (regRead fz r d f i m64 m).2 := by
  rw [readAt, if_neg (by simp [h]), if_neg (not_badSize (.inr rfl) ho)]
  simp [hl, hb, hr, waitSlot]

end
end

/-- Settles O4: each command makes one access, and each access is the register's own read or write. -/
theorem registerAccessesReachTheRegister : Obligations.RegisterAccessesReachTheRegister := by
  refine ⟨?write32, ?write64, ?lowerHalf, ?read32, ?counter, ?now⟩
  case write32 =>
    intro d f off val ans r i s hd hf hv h ho hl hb
    rw [exec_registerWrite hd hf (by omega) hv, writeAt_reg32 _ h ho hl hb]
  case write64 =>
    intro d f off val ans r i s hd hf hv h ho hl hb
    rw [exec_registerWrite hd hf (by omega) hv, writeAt_reg64 _ h ho hl hb, Nat.mod_eq_of_lt hv]
  case lowerHalf =>
    intro d f off r i ro s hd hf h ho hl hb hr
    rw [exec_lowerHalfRead hd hf, readAt_lowerHalf _ h hl hr ho hb]
  case read32 =>
    intro d f off r i ro s hd hf h ho hl hb hr
    rw [exec_readClear hd hf (by omega), readAt_reg32 _ h hl hr ho hb]
  case counter =>
    intro d f i r j ro s hd hf hi h hl hb hr
    rw [exec_counterRead hd hf hi, readAt_reg64 _ h hl hr (counterOff_aligned d f i s.m) hb]
  case now =>
    intro d r j ro s hd h hl hb hr
    rw [exec_etlNowNsRead8 hd, readAt_reg64 _ h hl hr (by omega) hb]

/-- Settles O5: the accesses that are discarded, counted in BAD_SIZE, or the read of R337. -/
theorem accessesThatReachNoRegister : Obligations.AccessesThatReachNoRegister := by
  refine ⟨?unreached, ?badSize, ?slotWait⟩
  case unreached =>
    intro d f off size val ans s hd hf hs hv h
    rw [exec_registerWrite hd hf hs hv, exec_readClear hd hf hs, exec_lowerHalfRead hd hf, writeAt_unreached _ h,
      readAt_unreached _ h, readAt_unreached _ h]
    exact ⟨rfl, rfl, rfl⟩
  case badSize =>
    intro d f off size val ans s hd hf hs hv h hbad
    rw [exec_registerWrite hd hf hs hv, exec_readClear hd hf hs, writeAt_badSize _ h hbad, readAt_badSize _ h hbad]
    exact ⟨rfl, rfl⟩
  case slotWait =>
    rintro d f off r i ro s hd hf h ho hl hr m rfl
    rw [exec_lowerHalfRead hd hf, exec_readClear hd hf (by omega), exec_readClear hd hf (by omega),
      readAt_slotWait _ h hl (.inl rfl) ho hr, if_pos rfl]
    refine ⟨rfl, rfl, fun ho8 => ?_⟩
    rw [readAt_slotWait _ h hl (.inr rfl) ho8 hr, if_neg (by omega)]

end Sys2Proof.Machine
end

section
/-! PROOFS. Counters, LIVE writes at a cycle boundary, and the sampler's enable (R11, R12, R537, R550). -/
namespace Sys2Proof.Machine

theorem ctrWrap_counter {d i : Nat} (h : (d < 4 ∧ i < 704) ∨ (d = 4 ∧ i < 192)) (m : Mod) : ctrWrap d i m =
    { m with ctr := NMap.set 0 m.ctr (d * 1024 + i) 0, ctrWrap := NMap.set false m.ctrWrap (d * 1024 + i) true } := if_pos h

theorem exec_counterWrap {d i : Nat} {s : State} (h : (d < 4 ∧ i < 704) ∨ (d = 4 ∧ i < 192)) :
    exec (.counterWrap d i) s = .next (finish s (when (clock d s.m).run (ctrWrap d i) s.m)) := by
  change execCounterWrap d i s = _
  exact act_true (by simp only [holderOk, Bool.and_eq_true, decide_eq_true_eq]; omega)

section
variable {d : Nat} {s : State} (hd : d < 4) (hu : hostUp d s.m = true)
include hd hu

theorem exec_liveWriteApply (ans : HostAns) :
    exec (.liveWriteApply d ans) s = .next (finish s (liveApply d ans (cycleBoundary d s.m))) := by
  change execLiveWriteApply d ans s = _
  rw [execLiveWriteApply, act_true (by simp [dieOk, hd])]
  simp only [when, hu, if_true]

theorem exec_samplerEnable (on : Bool) : exec (.samplerEnable d on) s = .next (finish s (samplerEnable d on s.m)) := by
  change execSamplerEnable d on s = _
  rw [execSamplerEnable, act_true (by simp [dieOk, hd])]
  simp only [when, hu, if_true]

end

/-- The sampler enabled from 0 restarts with its indices at 0 (R550). -/
theorem samplerEnable_restart {d : Nat} {m : Mod} (h : curB F.SMP_CTRL_ENABLE d 0 m = false) : samplerEnable d true m =
    setSmp d Smp.reset (wr F.SMP_RING_IDX_TAIL d 0 0 (force F.SMP_RING_IDX_HEAD d 0 0 (force F.SMP_CTRL_ENABLE d 0 1 m))) := by
  simp [samplerEnable, h, b2n]

/-- The sampler disabled drops every followed entry (R548). -/
theorem samplerEnable_off (d : Nat) (m : Mod) :
    samplerEnable d false m = setSmp d { smpOf d m with follow := [] } (force F.SMP_CTRL_ENABLE d 0 0 m) := rfl

/-- Settles O6: the four commands' own effects. -/
theorem countersAndLiveWrites : Obligations.CountersAndLiveWrites := by
  refine ⟨fun d i s hr hi => ?_, fun d ans s hd hu => exec_liveWriteApply hd hu ans, fun d s hd hu h => ?_, fun d s hd hu => ?_⟩
  · rw [exec_counterWrap hi, when, if_pos hr, ctrWrap_counter hi]
  · rw [exec_samplerEnable hd hu, samplerEnable_restart h]
  · rw [exec_samplerEnable hd hu, samplerEnable_off]

end Sys2Proof.Machine
end

section
/-! PROOFS. The boot self-test, the published configuration, supplies of group 4, and the shutdown self-test (R36, R37, R40, R68,
R515, R516, R559). -/
namespace Sys2Proof.Machine

/-! ## The boot self-test of a die -/

/-- What the boot self-test of die `d` found, noted: the links lost, the bad units, a lost link among them as unit 22 (R517), and
the bad macros. -/
def bootNoted (d links units : Nat) (macros : List Nat) (m : Mod) : Mod :=
  let lost := linksFailed d links m
  { m with
    d2dFail := lost.foldl (fun l j => NMap.set false l (pairIx d j) true) m.d2dFail
    bst := { m.bst with
      badUnit := (bitList 28 (setBit units 22 (bit units 22 || !lost.isEmpty))).foldl
        (fun l u => NMap.set false l (d * 32 + u) true) m.bst.badUnit
      bad := macros.foldl (fun l k => if k < 1920 then NMap.set false l (d * 2048 + k) true else l) m.bst.bad } }

/-- The same with the links that trained, and the number of bad macros shown. -/
def bootFound (d links units : Nat) (macros : List Nat) (m : Mod) : Mod :=
  let n := bootNoted d links units macros m
  wr F.BST_BOOT_FAILED_AT_START d 0 (macrosBad d n) (linksTrained d links n)

section
variable {d links units : Nat} {macros : List Nat} {hbm hard : Bool} {m : Mod}
  (hd : dieState d m = DieSt.booting) (hb : m.shep.booted = true) (hs : m.flt.stopped = false)
include hd hb hs

/-- A test reported for a die that boots, in a module that runs, is taken. -/
theorem bootTest_taken : ¬ (dieState d m ≠ DieSt.booting ∨ (!m.shep.booted) = true ∨ m.flt.stopped = true) := by
  simp [hd, hb, hs]

/-- A die on which nothing fails the whole enters QUARANTINE; each bad unit and each failed link is reported (R37, R517). -/
theorem bootTested_passed (h : dieFails d links hbm hard (bootFound d links units macros m) = none) :
    bootTested d links units macros hbm hard m = signalReady (isolateAll (((linksFailed d links m).drop 1).foldl
      (fun x j => raise d 22 3 0 j none x)
      (((List.range 28).filter (fun u => NMap.get false (bootFound d links units macros m).bst.badUnit (d * 32 + u))).foldl
        (fun x u => raise d u 3 0 (if u = 22 then (linksFailed d links m).headD 0 else 0) none x)
        (enterQuarantine d false (bootFound d links units macros m))))) := by
  simp only [bootFound, bootNoted] at h ⊢
  simp only [bootTested, if_neg (bootTest_taken hd hb hs), h]

/-- A die on which something fails the whole is UNUSABLE, and the failure is reported (R37, R38). -/
theorem bootTested_failed {u c x : Nat} (h : dieFails d links hbm hard (bootFound d links units macros m) = some (u, c, x)) :
    bootTested d links units macros hbm hard m = signalReady (isolateAll
      (raise d u c 0 x none (dieUnusable d (bootFound d links units macros m)))) := by
  simp only [bootFound, bootNoted] at h ⊢
  simp only [bootTested, if_neg (bootTest_taken hd hb hs), h]

end

/-! ## Each command's own effect -/

theorem exec_bootSelfTestComplete {d links units : Nat} {macros : List Nat} {s : State} (hd : d < 4) (hl : links < 32)
    (hu : units < 2 ^ 28) (hm : macros.all (fun k => decide (k < 1920)) = true) (hbm hard : Bool) :
    exec (.bootSelfTestComplete d links units macros (hbm, hard)) s
      = .next (finish s (bootTested d links units macros hbm hard s.m)) := by
  change execBootSelfTestComplete d links units macros (hbm, hard) s = _
  exact act_true (by simp only [dieOk, hd, hl, hu, hm, decide_true, Bool.and_self])

theorem exec_genPublish {s : State} (hb : s.m.shep.booted = true) :
    exec .genPublish s = .next (finish s (each dies genAt s.m)) := by
  change execGenPublish s = _
  rw [execGenPublish, act_true rfl, when, if_pos hb, genPublish]

theorem exec_group4SupplyChange {mask : Nat} {s : State} (h : mask < 32) :
    exec (.group4SupplyChange mask) s = .next (finish s (group4 mask s.m)) := by
  change execGroup4SupplyChange mask s = _
  exact act_true (decide_eq_true h)

/-- In M3 the mask of rails is kept (R559). -/
theorem group4_inM3 {mask : Nat} {m : Mod} (h : mask < 32) (hm : m.tly.mstate = 3) :
    group4 mask m = { m with pin := { m.pin with rail4 := mask } } := by
  rw [group4, if_pos hm, Nat.mod_eq_of_lt h]

theorem exec_shutdownTestComplete {l : List TestRes} {s : State}
    (h : l.all (fun r => dieOk r.die && r.failed.all (fun k => decide (k < 1920))) = true) :
    exec (.shutdownTestComplete l) s = .next (finish s (shutdownTested l s.m)) := by
  change execShutdownTestComplete l s = _
  exact act_true h

/-- The pass map that a shutdown self-test leaves (R516). -/
def passMapOf (l : List TestRes) (m : Mod) : PassMap :=
  { fw := m.sec.fwVer, frame := now 4 m / 1048576, dies := dies.map (fun d => (d, passDie l d m)), intact := true }

/-- A shutdown that waits for its test writes the map, enters standby and is answered in M3 (R515, R516). -/
theorem shutdownTested_awaited {l : List TestRes} {m : Mod} (h : m.azx.jobs.any (fun j => j.wait == .testAll) = true) :
    shutdownTested l m = endJobs (· == .testAll) St.ok 0 3
      (enterStandby { m with flash := { m.flash with passMap := some (passMapOf l m) } }) :=
  if_neg (by simp [h])

/-- Settles O10: the boot test by what it makes of the die, the other three by their own effect. -/
theorem bootAndStandbyOfTheModule : Obligations.BootAndStandbyOfTheModule := by
  refine ⟨?bootTest, ?publish, ?rails, ?shutdown⟩
  case bootTest =>
    rintro d links units macros hbm hard s hd hl hu hmac hst hb hs _ _ _ m rfl rfl rfl hm
    have hfound : m = bootFound d links units macros s.m := hm
    rw [exec_bootSelfTestComplete hd hl hu hmac]
    refine ⟨fun h => ?_, fun u c x h => ?_⟩
    · rw [bootTested_passed hst hb hs (hfound ▸ h), ← hfound]
    · rw [bootTested_failed hst hb hs (hfound ▸ h), ← hfound]
  case publish => exact fun s hb => exec_genPublish hb
  case rails =>
    intro mask s h hm
    rw [exec_group4SupplyChange h, group4_inM3 h hm]
  case shutdown =>
    intro l s h hj
    rw [exec_shutdownTestComplete h, shutdownTested_awaited hj]
    rfl

end Sys2Proof.Machine
end

section
/-! PROOFS. What ends the Shepherd's procedures: acknowledged pushes, tests, drains and the return procedure (R28, R72, R74, R77,
R90, R484, R501, R569). -/
namespace Sys2Proof.Machine

/-! ## The procedure that a command ends -/

section
variable {d : Nat} {s : State} (hd : d < 4)
include hd

theorem exec_tablePushAck {t : Nat} (ht : t < 16) : exec (.tablePushAck d t) s = .next (finish s (pushAck d t s.m)) := by
  change execTablePushAck d t s = _
  exact act_true (by simp [dieOk, hd, ht])

theorem exec_dieTestComplete {links : Nat} (hl : links < 32) (pass : Bool) :
    exec (.dieTestComplete d links pass) s = .next (finish s (dieTested d links pass s.m)) := by
  change execDieTestComplete d links pass s = _
  exact act_true (by simp [dieOk, hd, hl])

theorem exec_unitTestComplete {u : Nat} (hu : u < 28) (pass : Bool) :
    exec (.unitTestComplete d u pass) s = .next (finish s (unitTested d u pass s.m)) := by
  change execUnitTestComplete d u pass s = _
  exact act_true (by simp [dieOk, hd, hu])

theorem exec_dieSleepDrainEnd : exec (.dieSleepDrainEnd d) s = .next (finish s (drainEnd d s.m)) := by
  change execDieSleepDrainEnd d s = _
  exact act_true (decide_eq_true hd)

theorem exec_returnProcedure : exec (.returnProcedure d) s = .next (finish s (returnProcedure d s.m)) := by
  change execReturnProcedure d s = _
  exact act_true (decide_eq_true hd)

theorem exec_returnTimeout : exec (.returnTimeout d) s = .next (finish s (returnTimeout d s.m)) := by
  change execReturnTimeout d s = _
  exact act_true (decide_eq_true hd)

end

/-! ## How each procedure ends -/

section
variable {d : Nat} {m : Mod}

/-- A push that a die acknowledges gives it the table; of a calendar (table 4) the frame would count too (R74). -/
theorem pushAck_waited {t w a : Nat} {j : Job} (ht : t ≠ 4) (hj : m.azx.jobs.find? (fun j => j.wait.pushes t d) = some j)
    (hw : j.wait = .push t w a) : pushAck d t m
      = takePush j.cmd t d (swapJob j { j with wait := .push t (setBit w d false) (setBit a d true) } m) := by
  simp only [pushAck, hj, hw, ht, false_and, if_false]

/-- A die that fails its test is UNUSABLE, and who waits for the test is answered RESTORE_FAILED (R569). -/
theorem dieTested_failed (links : Nat) (h : m.azx.jobs.any (fun j => j.wait == .dieTest d) = true) :
    dieTested d links false m
      = signalReady (endJobs (· == .dieTest d) St.restoreFailed 1 DieSt.unusable (dieUnusable d m)) := by
  rw [dieTested, if_neg (by simp [h]), if_pos (by simp)]

/-- A unit that fails its test is UNUSABLE, and UNIT_RESTORE is answered with that state (R501). -/
theorem unitTested_failed {u : Nat} (h : m.azx.jobs.any (fun j => j.wait == .unitTest d u) = true) :
    unitTested d u false m = endJobs (· == .unitTest d u) St.ok 0 UnitSt.unusable (setUnit d u UnitSt.unusable
      { m with bst := { m.bst with badUnit := NMap.set false m.bst.badUnit (d * 32 + u) true } }) := by
  rw [unitTested, if_neg (by simp [h]), if_neg Bool.false_ne_true]

section
variable {b : Bool} {j : Job} (hj : m.azx.jobs.find? (fun j => j.wait.drains d) = some j) (hw : j.wait = .drain d b)
include hj hw

/-- The drain of a die that is still busy ends without sleep (R484). -/
theorem drainEnd_busy (h : dieIdle d m = false) : drainEnd d m = endJob j St.dieNotReady 2 0 0 (setDrain d false m) := by
  simp [drainEnd, hj, hw, h]

/-- An idle die sleeps, and the module is then in M2 unless it rests in M3 (R484, R486). -/
theorem drainEnd_idle (h : dieIdle d m = true) (hm : (dieSleep d b m).tly.mstate ≠ 3) :
    drainEnd d m = endJob j St.ok 0 DieSt.sleep 0 (setMState 2 (dieSleep d b m)) := by
  simp [drainEnd, hj, hw, h, hm]

end

theorem returnProcedure_quarantine (h : dieState d m = DieSt.quarantine) : returnProcedure d m = returnDie d m := if_pos h

theorem returnProcedure_active (h : dieActive d m = true) : returnProcedure d m = returnUnits d m := by
  have hst : dieState d m = DieSt.active := beq_iff_eq.mp h
  have hq : dieState d m ≠ DieSt.quarantine := by rw [hst]; decide
  rw [returnProcedure, if_neg hq, if_pos h]

/-- The return of a die that takes too long fences it, with the dies that only it joined to the others (R28, R72). -/
theorem returnTimeout_overdue (h : dieState d m = DieSt.quarantine)
    (hw : NMap.get false m.shep.waits d = false ∨ mayActivate d m = true) :
    returnTimeout d m = resumeDone (isolate (fenceDie d (backFails d 2 m))) := by
  rw [returnTimeout, if_pos ⟨h, by simpa using hw⟩, fenceOut]

end

/-- Settles O17: each procedure's own end; `backFails` is stated as it is defined. -/
theorem shepherdProceduresEnd : Obligations.ShepherdProceduresEnd := by
  refine ⟨?pushAck, ?dieTest, ?unitTest, ?busy, ?idle, ?returnDie, ?returnUnits, ?timeout, fun _ _ _ => rfl⟩
  case pushAck =>
    intro d t j w a s hd ht ht4 hj hw
    rw [exec_tablePushAck hd ht, pushAck_waited ht4 hj hw]
  case dieTest =>
    intro d l s hd hl h
    rw [exec_dieTestComplete hd hl, dieTested_failed l h]
  case unitTest =>
    intro d u s hd hu h
    rw [exec_unitTestComplete hd hu, unitTested_failed h]
  case busy =>
    intro d j b s hd hj hw h
    rw [exec_dieSleepDrainEnd hd, drainEnd_busy hj hw h]
  case idle =>
    intro d j b s hd _ hm hj hw h
    rw [exec_dieSleepDrainEnd hd, drainEnd_idle hj hw h hm]
  case returnDie =>
    intro d s hd h
    rw [exec_returnProcedure hd, returnProcedure_quarantine h]
  case returnUnits =>
    intro d s hd h
    rw [exec_returnProcedure hd, returnProcedure_active h]
  case timeout =>
    intro d s hd h hw
    rw [exec_returnTimeout hd, returnTimeout_overdue h hw]

end Sys2Proof.Machine
end

section
/-! PROOFS. Packets injected, path records cached, calendars switched, and timed posts released (R24, R192, R197, R199, R200, R222,
R228, R229, R231, R232, R293). -/
namespace Sys2Proof.Machine

/-! ## The effect on a served die -/

section
variable {d : Nat} {s : State} (hd : d < 4) (hu : hostUp d s.m = true)
include hd hu

theorem exec_packetInject {cn : Nat} (hc : cn < 2 ^ 24) (ans : HostAns) :
    exec (.packetInject d cn ans) s = .next (finish s (packetInject d cn ans s.m)) := by
  change execPacketInject d cn ans s = _
  rw [execPacketInject, act_true (by simp only [dieOk, conduitOk, hd, hc, decide_true, Bool.and_self]), when, if_pos hu]

theorem exec_pathRecordFetch {e : Nat} (he : e < 2 ^ 20) :
    exec (.pathRecordFetch d e) s = .next (finish s (pathFetch d e s.m)) := by
  change execPathRecordFetch d e s = _
  rw [execPathRecordFetch, act_true (by simp only [dieOk, hd, he, decide_true, Bool.and_self]), when, if_pos hu]

theorem exec_calendarSwitchFrame : exec (.calendarSwitchFrame d) s = .next (finish s (calSwitchFrame d s.m)) := by
  change execCalendarSwitchFrame d s = _
  rw [execCalendarSwitchFrame, act_true (by simp only [dieOk, hd, decide_true]), when, if_pos hu]

theorem exec_timedRelease {r : Nat} (hr : r < 16384) :
    exec (.timedRelease d r) s = .next (finish s (timedRelease d r s.m)) := by
  change execTimedRelease d r s = _
  rw [execTimedRelease, act_true (by simp only [dieOk, hd, hr, decide_true, Bool.and_self]), when, if_pos hu]

end

/-! ## Injection (R199, R200, R293) -/

section
variable {d cn : Nat} {g : Msg} {m : Mod}

/-- A message that is not of a queue waits for no group. -/
theorem packetInject_unqueued (hg : (cond d cn m).msgs.find? (fun g => packetReady d cn g m) = some g)
    (ho : ∀ q i t c x y z, g.owner ≠ .queue q i t c x y z) (ans : HostAns) :
    packetInject d cn ans m = (injectPacket d cn g.id ans none m).2 := by
  cases h : g.owner with
  | queue q i t c x y z => exact absurd h (ho q i t c x y z)
  | nobody => simp only [packetInject, hg, h]
  | bar4 => simp only [packetInject, hg, h]
  | slot => simp only [packetInject, hg, h]
  | rndv => simp only [packetInject, hg, h]

/-- The message that a queue serves is served where its group, once it has its tokens, has the deficit and is not shaped. -/
theorem packetInject_served {q i t c x y : Nat} {z : Bool} {n : Mod}
    (hg : (cond d cn m).msgs.find? (fun g => packetReady d cn g m) = some g) (ho : g.owner = .queue q i t c x y z)
    (hn : n = accrue d (cur F.WQU_QCFG_Q_GROUP d (qix 0 q) m) m) (hi : (sq d q n).inj = some (cn, g.id))
    (hdef : nextLen d cn g n + grpOverhead d (cur F.WQU_QCFG_Q_GROUP d (qix 0 q) m) n
      ≤ (grp d (cur F.WQU_QCFG_Q_GROUP d (qix 0 q) m) n).deficit)
    (hs : grpShaped d (cur F.WQU_QCFG_Q_GROUP d (qix 0 q) m) n = false) (ans : HostAns) :
    packetInject d cn ans m = injEnd d q (serve d (cur F.WQU_QCFG_Q_GROUP d (qix 0 q) m) q ans n).2 := by
  simp [packetInject, hg, ho, ← hn, hi, Nat.not_lt.mpr hdef, hs]

/-- Work that waits while no packet is ready asks for the conduit's context. -/
theorem packetInject_unready (hg : (cond d cn m).msgs.find? (fun g => packetReady d cn g m) = none)
    (hw : (cond d cn m).msgs.any (fun g => !g.all) = true) (ans : HostAns) :
    packetInject d cn ans m = startFetch d cn m := by
  simp only [packetInject, hg, hw, if_true]

end

/-! ## The cache of path records (R24, R192) -/

/-- A record that is used is cached. -/
theorem pathCached_pathTouch (d e : Nat) (m : Mod) : pathCached d e (pathTouch d e m) = true := by
  simp [pathCached, pathTouch, updXb]

/-- The cache of die `d` with room for one more record: the one used longest ago has left a full cache (R24). -/
def makePathRoom (d : Nat) (m : Mod) : Mod :=
  match pathVictim d m with
  | some k => updXb (fun y => { y with cache := NMap.del y.cache k }) m
  | none => m

section
variable {d e : Nat} {m : Mod} (hu : dieUp d m = true)
include hu

/-- A record that is not cached is read into the cache. -/
theorem pathFetch_uncached (h : pathCached d e m = false) :
    pathFetch d e m = energy d 23 10 2 (count d 608 2 (pathTouch d e (makePathRoom d m))) :=
  (if_neg (by simp [hu])).trans (if_neg (by simp [h]))

theorem pathFetch_cached (h : pathCached d e m = true) : pathFetch d e m = pathTouch d e m :=
  (if_neg (by simp [hu])).trans (if_pos h)

end

/-! ## Calendars and timed posts (R222, R228 to R232) -/

/-- With no push outstanding the die's calendars switch. -/
theorem calSwitchFrame_noPush {m : Mod} (h : m.azx.jobs.find? (fun j => j.wait.switching) = none) (d : Nat) :
    calSwitchFrame d m = updWaits (Wait.switched d) (calendarSwitch d m) := by
  simp only [calSwitchFrame, h]

/-- The time that passes until a release leaves what the reservation has sent. -/
theorem resRun_runTo (d r e t : Nat) (m : Mod) : resRun d r (runTo e t m) = resRun d r m := by simp only [resRun, trn_runTo]

section
variable {d r : Nat} {p : Post} {e : Resv} {m n : Mod} (hp : (resRun d r m).posts.find? (fun p => !p.released) = some p)
  (he : resEnt d r m = some e) (hn : n = if now d m < p.release then runTo d p.release m else m)
include hp he hn

/-- A post whose payload was not read in time ends LATE_READ at its release. -/
theorem timedRelease_late (h : p.payload = none) :
    timedRelease d r m = postEnd d r p St.hostAbort TDet.lateRead 0 n := by
  simp only [timedRelease, hp, he, h, ← hn]

/-- A post that has its payload is sent at its release, its packets numbered on from those sent before. -/
theorem timedRelease_sends {pay : Bytes} {q : Post} (h : p.payload = some pay)
    (hq : q = { p with released := true, seq := (resRun d r m).seq }) :
    timedRelease d r m = each (List.range (timedPkts p.len)) (fun i m => timedPacket d r e q pay i m)
      (updRun d r (fun x => { x with
        seq := ((resRun d r m).seq + timedPkts p.len) % 2 ^ 32
        posts := x.posts.map (fun o => if o.id = p.id ∧ !o.released then q else o) }) n) := by
  have hrun : resRun d r n = resRun d r m := by
    rw [hn]
    split
    · exact resRun_runTo d r d p.release m
    · rfl
  simp only [timedRelease, hp, he, h, ← hn, hrun, hq]

end

/-- Settles O27: each command's effect on a served die, in the case that its premises name. -/
theorem packetsAreInjectedAndReleasedInTime : Obligations.PacketsAreInjectedAndReleasedInTime := by
  refine ⟨?unqueued, ?served, ?unready, ?uncached, ?cached, pathCached_pathTouch, ?switch, ?late, ?sends⟩
  case unqueued =>
    intro d cn ans g s hd hc hu hg ho
    rw [exec_packetInject hd hu hc, packetInject_unqueued hg ho]
  case served =>
    intro d cn ans g q i t c x y z m s hd hc hu hg ho hm hi hdef hs
    rw [exec_packetInject hd hu hc, packetInject_served hg ho hm hi hdef hs]
  case unready =>
    intro d cn ans s hd hc hu hg hw
    rw [exec_packetInject hd hu hc, packetInject_unready hg hw]
  case uncached =>
    intro d e s hd he hu hup h
    rw [exec_pathRecordFetch hd hu he, pathFetch_uncached hup h]
    rfl
  case cached =>
    intro d e s hd he hu hup h
    rw [exec_pathRecordFetch hd hu he, pathFetch_cached hup h]
  case switch =>
    intro d s hd hu h
    rw [exec_calendarSwitchFrame hd hu, calSwitchFrame_noPush h]
  case late =>
    intro d r p e s hd hr hu hp he h
    rw [exec_timedRelease hd hu hr, timedRelease_late hp he rfl h]
  case sends =>
    intro d r p e pay m s hd hr hu hp he h hm
    rw [exec_timedRelease hd hu hr, timedRelease_sends hp he hm h rfl]

end Sys2Proof.Machine
end

section
/-! PROOFS. Commands that reach the endpoint of a served die, and its host links (R41, R42, R43, R561, R565). -/
namespace Sys2Proof.Machine

/-! ## What a command of an endpoint comes to -/

section
variable {ok : Bool} {d : Nat} {s : State} {g : Mod → Mod} (hok : ok = true)
include hok

/-- On a served die the command has its effect. -/
theorem act_served {n : Mod} (hu : hostUp d s.m = true) (hg : g s.m = n) :
    act ok s (fun _ m => when (hostUp d m) g m) = .next (finish s n) := by
  rw [act_true hok, when, if_pos hu, hg]

/-- On a die that is not served it has none. -/
theorem act_unserved (hu : hostUp d s.m = false) :
    act ok s (fun _ m => when (hostUp d m) g m) = .next (finish s s.m) := by
  rw [act_true hok, when, hu, if_neg Bool.false_ne_true]

/-- An effect that is none is none on every die. -/
theorem act_idle (hg : g s.m = s.m) : act ok s (fun _ m => when (hostUp d m) g m) = .next (finish s s.m) := by
  cases hu : hostUp d s.m with
  | true => exact act_served hok hu hg
  | false => exact act_unserved hok hu

end

section
variable {d : Nat} (hd : d < 4)
include hd

theorem dieOk_fnOk {f : Nat} (hf : f < 1026) : (dieOk d && fnOk f) = true := by
  simp only [dieOk, fnOk, hd, hf, decide_true, Bool.and_self]

theorem dieOk_pfOk {p : Nat} (hp : p < 2) : (dieOk d && pfOk p) = true := by
  simp only [dieOk, pfOk, hd, hp, decide_true, Bool.and_self]

theorem dieOk_tag {t : Nat} (ht : t < 1024) : (dieOk d && decide (t < 1024)) = true := by
  simp only [dieOk, hd, ht, decide_true, Bool.and_self]

end

/-! ## The commands of the host links -/

section
variable {d : Nat} {s : State} (hd : d < 4)
include hd

theorem exec_perstAssert : exec (.perstAssert d) s = .next (finish s (perstAssert d s.m)) := by
  change execPerstAssert d s = _
  exact act_true (decide_eq_true hd)

theorem exec_perstRelease : exec (.perstRelease d) s = .next (finish s (perstRelease d s.m)) := by
  change execPerstRelease d s = _
  exact act_true (decide_eq_true hd)

variable {p : Nat} (hp : p < 2)
include hp

theorem exec_hostLinkDown : exec (.hostLinkDown (d, p)) s = .next (finish s (hostLinkDown d p s.m)) := by
  change execHostLinkDown (d, p) s = _
  exact act_true (dieOk_pfOk hd hp)

theorem exec_hostLinkUp {w v : Nat} : exec (.hostLinkUp (d, p) w v) s = .next (finish s (hostLinkUp d p w v s.m)) := by
  change execHostLinkUp (d, p) w v s = _
  exact act_true (dieOk_pfOk hd hp)

end

/-! ## A link that comes up (R41, R42, R43) -/

section
variable {d p w v : Nat} {m : Mod}

/-- Link `p` of die `d` can reach L0 with `w` lanes at speed `v`: its die is served and awake, it is released and not held in
reset, and width and speed are of its kind. -/
def linkTrains (d p w v : Nat) (m : Mod) : Bool :=
  hostUp d m && dieState d m != DieSt.sleep && NMap.get false m.hif.released d && !NMap.get false m.hif.perst d
    && (linkWidths d p m).contains w && [4, 5, 6].contains v

theorem hostLinkUp_of_not_linkTrains (h : linkTrains d p w v m = false) : hostLinkUp d p w v m = m :=
  if_neg (ne_true_of_eq_false h)

theorem linkTrains_eq_false (h : hostUp d m = false ∨ dieState d m = DieSt.sleep ∨ NMap.get false m.hif.released d = false
    ∨ NMap.get false m.hif.perst d = true ∨ w ∉ linkWidths d p m ∨ v ∉ [4, 5, 6]) : linkTrains d p w v m = false := by
  rcases h with h | h | h | h | h | h <;> simp only [linkTrains, h, List.contains_eq_mem, bne_self_eq_false, Bool.not_true,
    decide_false, Bool.and_false, Bool.false_and]

section
variable (hs : dieState d m = DieSt.active ∨ dieState d m = DieSt.quarantine) (hr : NMap.get false m.hif.released d = true)
  (hp : NMap.get false m.hif.perst d = false) (hw : w ∈ linkWidths d p m) (hv : v ∈ [4, 5, 6])
include hs hr hp hw hv

theorem linkTrains_of_awake : linkTrains d p w v m = true := by
  have hup : hostUp d m = true := by rcases hs with hs | hs <;> rw [hostUp, hs] <;> decide
  have hawake : (dieState d m != DieSt.sleep) = true := by rcases hs with hs | hs <;> rw [hs] <;> decide
  simp only [linkTrains, hup, hawake, hr, hp, List.contains_eq_mem, hw, hv, decide_true, Bool.not_false, Bool.and_self]

/-- A link that is down, or up at another speed or with fewer lanes, comes up as reported. -/
theorem hostLinkUp_trains (h : rdB F.HIF_STATUS_LINK_UP d p m = false ∨ rd F.HIF_LINK_STATUS_SPEED d p m ≠ v
    ∨ rd F.HIF_LINK_STATUS_WIDTH d p m < w) : hostLinkUp d p w v m = wrB F.HIF_STATUS_LINK_UP d p true
      (wrB F.HIF_LINK_STATUS_L0P d p false (wr F.HIF_LINK_STATUS_WIDTH d p w (wr F.HIF_LINK_STATUS_SPEED d p v m))) := by
  have hnew : ¬ (rdB F.HIF_STATUS_LINK_UP d p m && rd F.HIF_LINK_STATUS_SPEED d p m == v
      && decide (w ≤ rd F.HIF_LINK_STATUS_WIDTH d p m)) = true := by
    rcases h with h | h | h <;> simp [h]
  exact (if_pos (linkTrains_of_awake hs hr hp hw hv)).trans (if_neg hnew)

/-- A link that is up at the speed only shows whether fewer lanes run. -/
theorem hostLinkUp_showsL0p (hup : rdB F.HIF_STATUS_LINK_UP d p m = true) (hsp : rd F.HIF_LINK_STATUS_SPEED d p m = v)
    (hle : w ≤ rd F.HIF_LINK_STATUS_WIDTH d p m) : hostLinkUp d p w v m
      = wrB F.HIF_LINK_STATUS_L0P d p (decide (w < rd F.HIF_LINK_STATUS_WIDTH d p m)) m :=
  (if_pos (linkTrains_of_awake hs hr hp hw hv)).trans (if_pos (by simp [hup, hsp, hle]))

end
end

/-- Settles O11: the commands that always act by what they are defined to do, HOST_LINK_UP by whether the link can train. -/
theorem hostLinksGoDownAndComeUp : Obligations.HostLinksGoDownAndComeUp := by
  refine ⟨?assert, fun _ _ => rfl, ?release, ?down, ?trains, ?showsL0p, ?refused, fun _ _ _ => rfl⟩
  case assert => exact fun d s hd => exec_perstAssert hd
  case release => exact fun d s hd => exec_perstRelease hd
  case down => exact fun d p s hd hp => exec_hostLinkDown hd hp
  case trains =>
    intro d p w v s hd hp hs hr ht hw hv h
    rw [exec_hostLinkUp hd hp, hostLinkUp_trains hs hr ht hw hv h]
  case showsL0p =>
    intro d p w v s hd hp hs hr ht hw hv hup hsp hle
    rw [exec_hostLinkUp hd hp, hostLinkUp_showsL0p hs hr ht hw hv hup hsp hle]
  case refused =>
    intro d p w v s hd hp h
    rw [exec_hostLinkUp hd hp, hostLinkUp_of_not_linkTrains (linkTrains_eq_false h)]

end Sys2Proof.Machine
end

section
/-! PROOFS. The states of functions, their resets, VF Enable and the size of BAR4 (R45, R46, R47, R49, R59, R60, R61, R62, R64). -/
namespace Sys2Proof.Machine

section
variable {d f : Nat} {m : Mod}

/-! ## The moves of the function state table (R46, R47, R59) -/

theorem functionRun_ready (hst : fnState d f m = FnSt.disabled) (hex : fnExists d f m = true) (h3 : inD3 d f m = false)
    (hb : bme d f m = true) (hen : rdB F.HIF_CTRL_ENABLE d 0 m = true) :
    functionRun d f m = wr F.HIF_FN_STATE d f FnSt.running m :=
  if_pos (by simp [hst, hex, h3, hb, hen])

theorem bmeClear_set (hc : cfgReaches d f m = true) (hb : bme d f m = true) :
    bmeClear d f m = updHif (fun h => { h with bme := NMap.set false h.bme (fk d f) false }) (stopRequests d f m) :=
  if_pos (by simp [hc, hb])

theorem bmeClear_unreached (hc : cfgReaches d f m = false) : bmeClear d f m = m := if_neg (by simp [hc])

theorem bmeSet_halted (hc : cfgReaches d f m = true) (hst : fnState d f m = FnSt.halted) :
    bmeSet d f m = wr F.HIF_FN_STATE d f FnSt.running
      (updHif (fun h => { h with bme := NMap.set false h.bme (fk d f) true }) m) :=
  (if_pos hc).trans (if_pos (beq_iff_eq.mpr hst))

theorem bmeSet_not_halted (hc : cfgReaches d f m = true) (hst : fnState d f m ≠ FnSt.halted) :
    bmeSet d f m = updHif (fun h => { h with bme := NMap.set false h.bme (fk d f) true }) m :=
  (if_pos hc).trans (if_neg (fun h => hst (beq_iff_eq.mp h)))

theorem bmeSet_unreached (hc : cfgReaches d f m = false) : bmeSet d f m = m := if_neg (ne_true_of_eq_false hc)

theorem drainComplete_drained (hst : fnState d f m = FnSt.draining) (hdr : drained d f m = true) :
    drainComplete d f m = wr F.HIF_FN_STATE d f
      (if inD3 d f m then FnSt.d3hot else if bme d f m then FnSt.running else FnSt.halted) m :=
  if_pos (by simp [hst, hdr])

section
variable (hex : fnExists d f m = true) (h3 : inD3 d f m = false)
include hex h3

/-- A function in D0 that is not RESETTING enters D3hot. -/
theorem d3Enter_taken (hst : fnState d f m ≠ FnSt.resetting) :
    ¬ (!fnExists d f m || inD3 d f m || fnState d f m == FnSt.resetting) = true := by simp [hex, h3, hst]

/-- A function with nothing to drain is in D3HOT at once. -/
theorem d3Enter_idle (hst : fnState d f m = FnSt.disabled ∨ fnState d f m = FnSt.halted) :
    d3Enter d f m = wr F.HIF_FN_STATE d f FnSt.d3hot
      (updHif (fun h => { h with d3 := NMap.set false h.d3 (fk d f) true }) (stopRequests d f m)) := by
  have hne : fnState d f m ≠ FnSt.resetting := by rcases hst with hst | hst <;> rw [hst] <;> decide
  exact (if_neg (d3Enter_taken hex h3 hne)).trans (if_pos hst)

/-- One that issued requests drains first. -/
theorem d3Enter_draining (hst : fnState d f m = FnSt.running ∨ fnState d f m = FnSt.draining) :
    d3Enter d f m = updHif (fun h => { h with d3 := NMap.set false h.d3 (fk d f) true }) (stopRequests d f m) := by
  have hne : fnState d f m ≠ FnSt.resetting := by rcases hst with hst | hst <;> rw [hst] <;> decide
  have hbusy : ¬ (fnState d f m = FnSt.disabled ∨ fnState d f m = FnSt.halted) := by
    rcases hst with hst | hst <;> rw [hst] <;> decide
  exact (if_neg (d3Enter_taken hex h3 hne)).trans (if_neg hbusy)

end

/-! ## Function level resets and VF Enable (R45, R61, R64) -/

theorem fnExists_of_isPf (h : isPf d f m = true) : fnExists d f m = true := by rw [fnExists, h, Bool.true_or]

theorem flrInitiate_vf (hex : fnExists d f m = true) (h : isPf d f m = false) : flrInitiate d f m = flrBegin d f m := by
  simp only [flrInitiate, flrScope, hex, h, if_true, if_neg Bool.false_ne_true, each, List.foldl_cons, List.foldl_nil]

/-- The reset of a PF takes its VFs with it. -/
theorem flrInitiate_pf (h : isPf d f m = true) : flrInitiate d f m
    = clearVfEn d (pfOf d f m) (each (f :: vfsOf d (pfOf d f m) m) (fun g m => flrBegin d g m) m) := by
  simp only [flrInitiate, flrScope, fnExists_of_isPf h, h, if_true]

theorem d3Exit_inD3 (h3 : inD3 d f m = true) : d3Exit d f m = flrInitiate d f m := if_pos h3

theorem d3Exit_inD0 (h3 : inD3 d f m = false) : d3Exit d f m = m := if_neg (ne_true_of_eq_false h3)

variable {p n : Nat}

theorem vfEnable_new (hc : cfgReaches d (pfFn p) m = true) (he : NMap.get false m.hif.vfEn (d * 2 + p) = false) :
    vfEnable d p n m = { m with hif := { m.hif with
      vfEn := NMap.set false m.hif.vfEn (d * 2 + p) true
      numVf := NMap.set 0 m.hif.numVf (d * 2 + p) (min n (if bifurcated d m then 512 else 1024)) } } :=
  if_neg (by simp [hc, he])

theorem vfEnable_again (he : NMap.get false m.hif.vfEn (d * 2 + p) = true) : vfEnable d p n m = m := if_pos (by simp [he])

theorem vfDisable_reached (hc : cfgReaches d (pfFn p) m = true) :
    vfDisable d p m = clearVfEn d p (each (vfsOf d p m) (fun g m => flrBegin d g m) m) := if_pos hc

/-! ## The size of BAR4 (R49) -/

theorem bar4Resize_size (hlo : 30 ≤ n) (hhi : n ≤ 40) (hc : cfgReaches d (pfFn p) m = true) : bar4Resize d p n m
    = windowsOff d p (updHif (fun h => { h with bar4 := NMap.set 30 h.bar4 (d * 2 + p) n }) m) := if_pos ⟨hlo, hhi, hc⟩

theorem bar4Resize_refused (h : n < 30 ∨ 40 < n ∨ cfgReaches d (pfFn p) m = false) : bar4Resize d p n m = m := by
  refine if_neg fun ⟨hlo, hhi, hc⟩ => ?_
  rcases h with h | h | h
  · omega
  · omega
  · exact ne_true_of_eq_false h hc

end

/-- Settles O12: each trigger's move on a served die; D3HOT_EXIT by the reset that it is. -/
theorem functionStatesChangeByTheirTriggers : Obligations.FunctionStatesChangeByTheirTriggers := by
  refine ⟨?run, ?clear, ?setHalted, ?set, ?drain, ?d3Idle, ?d3Drains, ?exitVf, ?exitPf, ?exitNot, ?unreached⟩
  case run =>
    intro d f s hd hf hu hst hex h3 hb hen
    exact act_served (dieOk_fnOk hd hf) hu (functionRun_ready hst hex h3 hb hen)
  case clear => exact fun d f s hd hf hu hc hb => act_served (dieOk_fnOk hd hf) hu (bmeClear_set hc hb)
  case setHalted => exact fun d f s hd hf hu hc hst => act_served (dieOk_fnOk hd hf) hu (bmeSet_halted hc hst)
  case set => exact fun d f s hd hf hu hc hst => act_served (dieOk_fnOk hd hf) hu (bmeSet_not_halted hc hst)
  case drain => exact fun d f s hd hf hu hst hdr => act_served (dieOk_fnOk hd hf) hu (drainComplete_drained hst hdr)
  case d3Idle => exact fun d f s hd hf hu hex h3 hst => act_served (dieOk_fnOk hd hf) hu (d3Enter_idle hex h3 hst)
  case d3Drains => exact fun d f s hd hf hu hex h3 hst => act_served (dieOk_fnOk hd hf) hu (d3Enter_draining hex h3 hst)
  case exitVf =>
    intro d f s hd hf hu h3 hex hpf
    exact act_served (dieOk_fnOk hd hf) hu ((d3Exit_inD3 h3).trans (flrInitiate_vf hex hpf))
  case exitPf =>
    intro d f s hd hf hu h3 hpf
    exact act_served (dieOk_fnOk hd hf) hu ((d3Exit_inD3 h3).trans (flrInitiate_pf hpf))
  case exitNot =>
    rintro d f s hd hf (hu | h3)
    · exact act_unserved (dieOk_fnOk hd hf) hu
    · exact act_idle (dieOk_fnOk hd hf) (d3Exit_inD0 h3)
  case unreached =>
    intro d f s hd hf hc
    exact ⟨act_idle (dieOk_fnOk hd hf) (bmeSet_unreached hc), act_idle (dieOk_fnOk hd hf) (bmeClear_unreached hc)⟩

/-- Settles O13: each command's effect on a served die, by whether the function is a PF and whether the host reaches it. -/
theorem functionLevelResets : Obligations.FunctionLevelResets := by
  refine ⟨?vf, ?pf, ?silence, ?complete, ?enable, ?again, ?disable, ?resize, ?refused⟩
  case vf => exact fun d f s hd hf hu hex hpf => act_served (dieOk_fnOk hd hf) hu (flrInitiate_vf hex hpf)
  case pf => exact fun d f s hd hf hu hpf => act_served (dieOk_fnOk hd hf) hu (flrInitiate_pf hpf)
  case silence => exact fun d f s hd hf hu => act_served (dieOk_fnOk hd hf) hu rfl
  case complete => exact fun d f s hd hf hu => act_served (dieOk_fnOk hd hf) hu rfl
  case enable =>
    intro d p n s hd hp hn hu hc he
    exact act_served (Bool.and_eq_true_iff.mpr ⟨dieOk_pfOk hd hp, decide_eq_true hn⟩) hu (vfEnable_new hc he)
  case again =>
    intro d p n s hd hp hn hu _ he
    exact act_served (Bool.and_eq_true_iff.mpr ⟨dieOk_pfOk hd hp, decide_eq_true hn⟩) hu (vfEnable_again he)
  case disable => exact fun d p s hd hp hu hc => act_served (dieOk_pfOk hd hp) hu (vfDisable_reached hc)
  case resize => exact fun d p n s hd hp hu hlo hhi hc => act_served (dieOk_pfOk hd hp) hu (bar4Resize_size hlo hhi hc)
  case refused => exact fun d p n s hd hp h => act_idle (dieOk_pfOk hd hp) (bar4Resize_refused h)

end Sys2Proof.Machine
end

section
/-! PROOFS. The tags of host reads, and MSI-X vectors (R46, R54, R55, R56, R58, R62). -/
namespace Sys2Proof.Machine

/-! ## Tags (R54, R55, R62) -/

section
variable {d t : Nat} {g : Tag} {m : Mod}

section
variable (st : Nat) (data : Bytes)

theorem hostCompletion_inUse (hg : tagOf d t m = some g) (hq : g.quar = false) : hostCompletion d t st data m
    = workDone d g.work (if st = 0 then some data else none)
        (count d 416 data.length (energy d 17 7 ((data.length + 255) / 256) (freeTagNow d t m))) := by
  simp only [hostCompletion, hg, hq, if_neg Bool.false_ne_true]

theorem hostCompletion_quarantined (hg : tagOf d t m = some g) (hq : g.quar = true) :
    hostCompletion d t st data m = bump F.HIF_CPL_ERR_LATE_QUARANTINED d 0 m := by
  simp only [hostCompletion, hg, hq, if_true]

theorem hostCompletion_unexpected (hg : tagOf d t m = none) :
    hostCompletion d t st data m = bump F.HIF_CPL_ERR_UNEXPECTED d 0 m := by
  simp only [hostCompletion, hg]

end

theorem completionTimeout_inUse (hg : tagOf d t m = some g) (hq : g.quar = false) :
    completionTimeout d t m = count d 421 1 (workDone d g.work none (freeTagNow d t m)) := by
  simp only [completionTimeout, hg, hq, if_neg Bool.false_ne_true]

theorem quarantineExpiry_quarantined (hg : tagOf d t m = some g) (hq : g.quar = true) :
    quarantineExpiry d t m = freeTagNow d t m := by
  simp only [quarantineExpiry, hg, hq, if_true]

/-- The first waiting read that may take a tag leaves the queue and is issued (R54). -/
theorem grantTag_first {q : TagReq} (hq : m.hif.waitQ.find? (fun q => q.die == d && (tagFor q m).isSome) = some q)
    (ht : tagFor q m = some t) :
    grantTag d m = issueRead q t { m with hif := { m.hif with waitQ := m.hif.waitQ.erase q } } := by
  simp only [grantTag, hq, ht]

end

/-- Settles O14: by whether the tag is in use, in quarantine or neither; the grant by the first read that may have a tag. -/
theorem hostReadTagsAreUsedOnce : Obligations.HostReadTagsAreUsedOnce := by
  refine ⟨?inUse, ?late, ?unexpected, ?timeout, ?expiry, ?grant⟩
  case inUse =>
    intro d t st data g s hd ht hu hg hq
    exact act_served (dieOk_tag hd ht) hu (hostCompletion_inUse st data hg hq)
  case late =>
    intro d t st data g s hd ht hu hg hq
    exact act_served (dieOk_tag hd ht) hu (hostCompletion_quarantined st data hg hq)
  case unexpected =>
    intro d t st data s hd ht hu hg
    exact act_served (dieOk_tag hd ht) hu (hostCompletion_unexpected st data hg)
  case timeout => exact fun d t g s hd ht hu hg hq => act_served (dieOk_tag hd ht) hu (completionTimeout_inUse hg hq)
  case expiry => exact fun d t g s hd ht hu hg hq => act_served (dieOk_tag hd ht) hu (quarantineExpiry_quarantined hg hq)
  case grant => exact fun d q t s hd hu hq ht => act_served (decide_eq_true hd) hu (grantTag_first hq ht)

/-! ## MSI-X (R46, R58) -/

section
variable {d f v : Nat} {m : Mod}

/-- A vector of the table that can be sent is sent. -/
theorem msix_open (hv : v < vecCount d f m) (ho : msixOpen d f v m = true) :
    msix d f v m = count d 420 1 (emit (.msix d f v) m) := by
  simp only [msix, if_pos hv, if_pos ho]

theorem msixPending_open (hv : v < vecCount d f m) (hp : NMap.get false m.hif.pba (vk d f v) = true)
    (ho : msixOpen d f v m = true) : msixPending d f v m = count d 420 1 (emit (.msix d f v)
      { m with hif := { m.hif with pba := NMap.set false m.hif.pba (vk d f v) false } }) := by
  rw [msixPending, if_pos (by simp [hp, ho])]
  exact msix_open hv ho

theorem msixPending_closed (h : NMap.get false m.hif.pba (vk d f v) = false ∨ msixOpen d f v m = false) :
    msixPending d f v m = m := if_neg (by rcases h with h | h <;> simp [h])

/-- A vector cannot be sent while it is masked or its function may not issue requests. -/
theorem msixOpen_eq_false (h : (msixEnt d f v m).masked = true ∨ canIssue d f m = false) : msixOpen d f v m = false := by
  rcases h with h | h <;> simp [msixOpen, h]

/-- A write to the table stores address and data at their widths. -/
theorem msixWrite_stores {a x : Nat} (b : Bool) (hv : v < vecCount d f m) (hex : fnExists d f m = true) (ha : a < 2 ^ 64)
    (hx : x < 2 ^ 32) : msixWrite d f v a x b m = { m with hif := { m.hif with
      msix := NMap.set MsixEnt.reset m.hif.msix (vk d f v) { addr := a, data := x, masked := b } } } := by
  rw [msixWrite, if_pos ⟨hv, hex⟩, Nat.mod_eq_of_lt ha, Nat.mod_eq_of_lt hx]

end

/-- Settles O15: the write by what it stores, the pending vector by whether it can be sent. -/
theorem msixVectorsPendAndFire : Obligations.MsixVectorsPendAndFire := by
  refine ⟨?write, ?send, ?wait⟩
  case write =>
    intro d f v a x b s hd hf hv ha hx hu hex hvec
    rw [← msixWrite_stores b hvec hex ha hx]
    refine act_served (by simp only [dieOk_fnOk hd hf, hv, ha, hx, decide_true, Bool.and_self]) hu ?_
    rw [when, if_pos (by simp [hex, hvec])]
  case send =>
    intro d f v s hd hf hv hu hvec hp hmask hi
    have ho : msixOpen d f v s.m = true := by simp [msixOpen, hmask, hi]
    exact act_served (Bool.and_eq_true_iff.mpr ⟨dieOk_fnOk hd hf, decide_eq_true hv⟩) hu (msixPending_open hvec hp ho)
  case wait =>
    intro d f v s hd hf hv hu h
    exact act_served (Bool.and_eq_true_iff.mpr ⟨dieOk_fnOk hd hf, decide_eq_true hv⟩) hu
      (msixPending_closed (h.imp_right msixOpen_eq_false))

end Sys2Proof.Machine
end

section
/-! PROOFS. Module reset, its release and the configuration flash; the state after reset (R68, R520, R521, R529, R532, R557, R566). -/
namespace Sys2Proof.Machine

/-! ## The commands -/

theorem exec_moduleResetAssert (s : State) : exec .moduleResetAssert s = .next (finish s (moduleReset s.m)) := by
  change execModuleResetAssert s = _
  exact act_true rfl

theorem exec_moduleResetRelease {eids : List Nat} {strap : Nat} {s : State} (hl : eids.length = 4)
    (he : eids.all (fun e => decide (e < 2 ^ 20)) = true) (hs : strap < 8) :
    exec (.moduleResetRelease eids strap) s = .next (finish s (resetRelease s.fuse eids strap s.m)) := by
  change execModuleResetRelease eids strap s = _
  exact act_true (by simp only [hl, he, hs, decide_true, Bool.and_self])

theorem exec_boardFlashWrite {x : FlashFile} {s : State} (hx : x.ok = true) :
    exec (.boardFlashWrite x) s = .next (finish s (flashWrite (flashFrom x s.m.flash) s.m)) := by
  change execBoardFlashWrite x s = _
  exact act_true hx

/-! ## The release of module reset (R68, R69, R521) -/

/-- The module once reset is released, before an image is chosen: supplies and clock up, the identities of the fused-in dies
given, the Shepherd's counter started, the fused lifecycle in effect. -/
def released (fz : Fuse) (eids : List Nat) (strap : Nat) (m : Mod) : Mod :=
  secReset fz (setClock 4 { Clock.reset with run := true } { m with
    pin := { m.pin with rst := false, pwr := true, refS := true, mgmtAddr := strap }
    conf := { m.conf with eids := (dies.filter (fun d => fusedIn d m && decide (d < 4))).foldl (fun l d =>
      NMap.put l d (eids.getD d 0 % 2 ^ 20)) [] } })

section
variable {fz : Fuse} {eids : List Nat} {strap : Nat} {m : Mod}

theorem resetRelease_unasserted (h : m.pin.rst = false) : resetRelease fz eids strap m = m := if_pos (by simp [h])

variable (hl : eids.length = 4) (hs : strap < 8) (h : m.pin.rst = true)
include hl hs h

/-- The first accepted image is started. -/
theorem resetRelease_boots {slot : Nat} {im : Image} (hb : bootImage fz (released fz eids strap m) = some (slot, im)) :
    resetRelease fz eids strap m = firmwareStart slot im (released fz eids strap m) := by
  simp only [released] at hb ⊢
  simp only [resetRelease, h, hl, Nat.mod_eq_of_lt hs, hb, Bool.not_true, if_neg Bool.false_ne_true]

/-- With no accepted image the boot failure is recorded. -/
theorem resetRelease_fails (hb : bootImage fz (released fz eids strap m) = none) :
    resetRelease fz eids strap m = { released fz eids strap m with shep := { (released fz eids strap m).shep with
      bootFail := true, bootRec := bootRecord fz (released fz eids strap m) } } := by
  simp only [released] at hb ⊢
  simp only [resetRelease, h, hl, Nat.mod_eq_of_lt hs, hb, Bool.not_true, if_neg Bool.false_ne_true]

end

/-- Settles O7: the assertion and the flash write by what they are defined to do, the release by whether reset is asserted and
an image is accepted. -/
theorem moduleResetAndFlash : Obligations.ModuleResetAndFlash := by
  refine ⟨exec_moduleResetAssert, ?release, ?idle, fun x s hx => exec_boardFlashWrite hx⟩
  case release =>
    rintro eids strap s hl he hs hr m (rfl : m = released s.fuse eids strap s.m)
    rw [exec_moduleResetRelease hl he hs]
    exact ⟨fun hb => by rw [resetRelease_fails hl hs hr hb], fun slot im hb => by rw [resetRelease_boots hl hs hr hb]⟩
  case idle =>
    intro eids strap s hl he hs hr
    rw [exec_moduleResetRelease hl he hs, resetRelease_unasserted hr]

/-! ## The state after reset -/

/-- No field is stored and no LIVE write waits, so that each field reads as reset leaves it and is in force (R9, R11). -/
theorem field_reset (G : Fld) (d i : Nat) : rd G d i Mod.reset = G.reset i ∧ cur G d i Mod.reset = G.reset i := ⟨rfl, rfl⟩

/-- No counter is stored (R537). -/
theorem counter_reset (i : Nat) : NMap.get 0 Mod.reset.ctr i = 0 ∧ NMap.get false Mod.reset.ctrWrap i = false := ⟨rfl, rfl⟩

/-- The fuses of a part as delivered are fuses that the hardware can have (R520, R529). -/
theorem Fuse.reset_fits : Fuse.reset.fits := ⟨by decide, by decide⟩

theorem Mod.reset_calm : Mod.reset.calm = true := by decide

/-- Settles O53: the stores are empty, and the fuses and the calm of the module are evaluated. -/
theorem resetLeavesTheModuleInReset : Obligations.ResetLeavesTheModuleInReset :=
  ⟨rfl, field_reset, counter_reset, ⟨rfl, rfl, rfl, rfl⟩, ⟨rfl, rfl, rfl⟩, Fuse.reset_fits, Mod.reset_calm⟩

end Sys2Proof.Machine
end

section
/-! PROOFS. Azrix rings: enable, disable, tail, and the round robin that takes commands (R80, R81, R82, R83, R84). -/
namespace Sys2Proof.Machine

theorem azxEnable_off {d f : Nat} {m : Mod} (h : curB F.AZX_CTRL_ENABLE d f m = false) : azxEnable d f m =
    updAzx (fun a => { a with phase := NMap.set true a.phase (fk d f) true, broken := NMap.set false a.broken (fk d f) false })
      (force F.AZX_RSP_HEAD_INDEX d f 0 (force F.AZX_CMD_TAIL_INDEX d f 0 (wr F.AZX_RSP_TAIL_INDEX d f 0
        (wr F.AZX_CMD_HEAD_INDEX d f 0 (force F.AZX_CTRL_ENABLE d f 1 m))))) := if_neg (ne_true_of_eq_false h)

theorem azxEnable_on {d f : Nat} {m : Mod} (h : curB F.AZX_CTRL_ENABLE d f m = true) : azxEnable d f m = m := if_pos h

/-! ## What the round robin takes (R81, R84) -/

theorem exec_azxCommandTake (ans : HostAns) (s : State) :
    exec (.azxCommandTake ans) s = .next (finish s (azTake s.fuse ans s.m)) := by
  change execAzxCommandTake ans s = _
  exact act_true rfl

/-- The round robin goes on behind source `n`. -/
def turnPast (n : Nat) (m : Mod) : Mod := updAzx (fun a => { a with next := n + 1 }) m

/-- Where the next command of a ring stands in host memory (R80). -/
def cmdAddr (d f : Nat) (m : Mod) : Nat := cur F.AZX_CMD_BASE_ADDR d f m * 64 + 64 * rd F.AZX_CMD_HEAD_INDEX d f m

/-- The head of a ring has moved past the command at head `h`. -/
def headPast (d f h : Nat) (m : Mod) : Mod := wr F.AZX_CMD_HEAD_INDEX d f ((h + 1) % cmdSize d f m) m

/-- The command takes an argument buffer that the Shepherd reads with it: its row reads one, and R89 allows its length. -/
def wantsBuffer (c : AzCmd) (m : Mod) : Bool :=
  match azRow c.op m with
  | some r => r.reads && decide (c.argLen ≠ 0) && decide (c.argLen ≤ 67108864)
  | none => false

theorem wantsBuffer_empty {c : AzCmd} (h : c.argLen = 0) (m : Mod) : wantsBuffer c m = false := by
  unfold wantsBuffer
  cases azRow c.op m <;> simp [h]

theorem wantsBuffer_read {c : AzCmd} {m : Mod} {r : AzRow} (hr : azRow c.op m = some r) (hread : r.reads = true)
    (h0 : c.argLen ≠ 0) (hmax : c.argLen ≤ 67108864) : wantsBuffer c m = true := by
  simp only [wantsBuffer, hr, hread, decide_eq_true h0, decide_eq_true hmax, Bool.and_self]

section
variable (fz : Fuse) (ans : HostAns) {n : Nat} {m : Mod}

theorem azTake_noSource (h : nextSource (takeable m) m = none) : azTake fz ans m = m := by
  simp only [azTake, h]

/-- Of the management interface the oldest command queued is taken. -/
theorem azTake_mgmt {c : AzCmd} {q : List AzCmd} (h : nextSource (takeable m) m = some 8192) (hq : m.azx.mgmtQ = c :: q) :
    azTake fz ans m = mgmtTake fz c (updAzx (fun a => { a with mgmtQ := q }) (turnPast 8192 m)) := by
  have hq' : (updAzx (fun a => { a with next := 8192 + 1 }) m).azx.mgmtQ = c :: q := hq
  simp only [azTake, h, if_true, hq', turnPast]

variable (h : nextSource (takeable m) m = some n) (hn : n ≠ 8192)
include h hn

/-- A ring whose command cannot be read stops. -/
theorem azTake_unreadable {m2 : Mod}
    (hacc : accessBus (n / 2048) (n % 2048) (cmdAddr (n / 2048) (n % 2048) (turnPast n m)) 64 0 (turnPast n m) = (false, m2)) :
    azTake fz ans m = ringErr (n / 2048) (n % 2048) m2 := by
  simp only [turnPast, cmdAddr] at hacc
  simp only [azTake, h, if_neg hn, hacc, Bool.not_false, if_true]

/-- A command read from its ring moves the head and is performed, with its argument buffer where it takes one. -/
theorem azTake_read {ent : Bytes} {m2 m3 : Mod}
    (hacc : accessBus (n / 2048) (n % 2048) (cmdAddr (n / 2048) (n % 2048) (turnPast n m)) 64 0 (turnPast n m) = (true, m2))
    (hread : readPieces (n / 2048) (n % 2048) false ans [(cmdAddr (n / 2048) (n % 2048) (turnPast n m), 64)] m2 = (some ent, m3))
    {c : AzCmd} (hc : c = { iss := some (n / 2048, n % 2048), ent := ent, buf := none }) {m4 : Mod}
    (hm : m4 = headPast (n / 2048) (n % 2048) (rd F.AZX_CMD_HEAD_INDEX (n / 2048) (n % 2048) (turnPast n m)) m3) :
    azTake fz ans m = if wantsBuffer c m4 = true then
        azPerform fz { c with buf := (readPieces (n / 2048) (n % 2048) false ans [(c.argAddr, c.argLen)] m4).1 }
          (readPieces (n / 2048) (n % 2048) false ans [(c.argAddr, c.argLen)] m4).2
      else azPerform fz c m4 := by
  subst hc hm
  simp only [turnPast, cmdAddr] at hacc hread
  simp only [azTake, h, if_neg hn, hacc, hread, Bool.not_true, if_neg Bool.false_ne_true]
  rfl

end

/-- Of a module that has booted, the management interface's command is queued (R84). -/
theorem mctpReceived_booted {m : Mod} (hf : m.shep.bootFail = false) (hb : m.shep.booted = true) (ent : Bytes) (buf : Option Bytes) :
    mctpReceived ent buf m
      = updAzx (fun a => { a with mgmtQ := a.mgmtQ ++ [{ iss := none, ent := padTo 64 ent, buf := buf }] }) m := by
  simp only [mctpReceived, hf, hb, Bool.not_true, if_neg Bool.false_ne_true]

theorem exec_mctpCommandReceived {ent : Bytes} (hl : ent.length = 64) (buf : Option Bytes) (s : State) :
    exec (.mctpCommandReceived ent buf) s = .next (finish s (mctpReceived ent buf s.m)) := by
  change execMctpCommandReceived ent buf s = _
  exact act_true (decide_eq_true hl)

/-- Settles O16: the ring commands on a served die, and the taking by the source that the round robin reaches. -/
theorem azrixRingsTakeCommands : Obligations.AzrixRingsTakeCommands := by
  refine ⟨?enable, ?again, ?disable, ?tail, ?plain, ?buffer, ?unreadable, ?mgmt, ?noSource, ?mctp⟩
  case enable => exact fun d f s hd hf hu h => act_served (dieOk_fnOk hd hf) hu (azxEnable_off h)
  case again => exact fun d f s hd hf hu h => act_served (dieOk_fnOk hd hf) hu (azxEnable_on h)
  case disable => exact fun d f s hd hf hu => act_served (dieOk_fnOk hd hf) hu rfl
  case tail =>
    exact fun d f i s hd hf hi hu => act_served (Bool.and_eq_true_iff.mpr ⟨dieOk_fnOk hd hf, decide_eq_true hi⟩) hu rfl
  case plain =>
    rintro ans n ent s h hn d f m1 m2 m3 m4 rfl rfl rfl hacc hread hm hlen
    rw [exec_azxCommandTake, azTake_read s.fuse ans h hn hacc hread rfl hm, wantsBuffer_empty hlen, if_neg Bool.false_ne_true]
  case buffer =>
    rintro ans n ent s h hn d f m1 m2 m3 m4 rfl rfl rfl hacc hread hm r hr hreads h0 hmax b m5 hb
    rw [exec_azxCommandTake, azTake_read s.fuse ans h hn hacc hread rfl hm, wantsBuffer_read hr hreads h0 hmax, if_pos rfl, hb]
  case unreadable =>
    rintro ans n s h hn d f m1 m2 rfl rfl rfl hacc
    rw [exec_azxCommandTake, azTake_unreadable s.fuse ans h hn hacc]
  case mgmt =>
    intro ans c q s h hq
    rw [exec_azxCommandTake, azTake_mgmt s.fuse ans h hq]
    rfl
  case noSource =>
    intro ans s h
    rw [exec_azxCommandTake, azTake_noSource s.fuse ans h]
  case mctp =>
    intro ent buf s hl hf hb
    rw [exec_mctpCommandReceived hl, mctpReceived_booted hf hb]

end Sys2Proof.Machine
end

section
/-! PROOFS. The Azrix commands: each that begins has its row's effect (R87, R88, R89, R90). -/
namespace Sys2Proof.Machine

section
variable {op : Nat} {r : AzRow} {iss : Option (Nat × Nat)} {ent : Bytes} {buf : Option Bytes} {s : State} {j : Job} {m : Mod}
  (h : AzBegins op r iss ent buf s j m)
include h

/-- A command that begins has its row's effect, whatever the command. -/
theorem AzBegins.acts (hop : op < 256) (hrow : azRow op s.m = some r) {n : Mod} (hn : r.run s.fuse j m = n) :
    act (issuerOk iss && decide (ent.length = 64)) s (fun fz m => azRowTake op fz iss ent buf m) = .next (finish s n) := by
  obtain ⟨hiss, hlen, hst, rfl, hmal, hmay, hbuf, hblk, hchk, hco⟩ := h
  subst hn
  exact az_runs op rfl hiss hlen hst hmal hmay hbuf hblk hchk hco hrow (decide_eq_true hop)

/-- A command that begins has passed its own checks. -/
theorem AzBegins.passes : r.chk s.fuse j.cmd m = none := by
  obtain ⟨-, -, -, rfl, -, -, -, -, hchk, -⟩ := h
  exact hchk

/-- Its issuer awaits a response. -/
theorem AzBegins.unmuted : j.mute = false := by
  obtain ⟨-, -, -, rfl, -⟩ := h
  rfl

end

/-! ## Rows whose effect depends on the module or the command in hand -/

theorem azQuery_unmuted {j : Job} (h : j.mute = false) (fz : Fuse) (m : Mod) : azQuery.run fz j m =
    answer j.cmd false j.t0 St.ok 0 (rd F.GEN_STATUS_CONFIG_SEQ 0 0 m + dieStates 0 m * 2 ^ 32)
      (m.conf.mask * 16 + rd F.GEN_CONFIG_USABLE_MASK 0 0 m + orderOf m * 65536) m := by
  simp only [azQuery, h]

theorem azCalSwitch_inTime {j : Job} {m : Mod} (h : frameBegun (j.cmd.arg 0 8) m = false) (fz : Fuse) :
    azCalSwitch.run fz j m = j.await (.push 4 (usersOf 4 0 j.cmd m) 0) m := if_neg (ne_true_of_eq_false h)

theorem azFaultClear_open {j : Job} {m : Mod} {r : FaultRec}
    (h : (shepRec (j.cmd.arg 0 4) m).filter (fun r => r.isOpen) = some r) (fz : Fuse) :
    azFaultClear.run fz j m = j.ok (b2n (!(clearRec 4 r.unit m).2)) (clearRec 4 r.unit m).1 := by
  simp only [azFaultClear, h]

/-- DEBUG_LOCK begins in OFF and OBSERVE alone, and both become OFF (R532). -/
theorem azLock_passed {j : Job} {fz : Fuse} {m : Mod} (h : azLock.chk fz j.cmd m = none) :
    azLock.run fz j m = j.ok 0 { m with sec := { m.sec with debug := 0 } } := by
  have hd : ¬ 2 ≤ m.sec.debug := fun hd => by simp [azLock, firstFail, hd] at h
  simp only [azLock, debugLock, if_neg hd]

/-- Settles O18: each command has its row's effect, CAL_SWITCH that of a frame which has not begun. -/
theorem azrixTableCommandsLoad : Obligations.AzrixTableCommandsLoad := by
  refine ⟨?pastureCreate, ?pastureDestroy, ?pastureKey, ?path, ?pass, ?flock, ?cal, ?confirm, ?withdraw, ?prog, ?unload, ?budget,
    ?partition, ?calSwitch⟩
  case pastureCreate | pastureDestroy | pastureKey | path | pass | flock | cal | confirm | withdraw | prog | unload | budget
      | partition =>
    exact fun iss ent buf s j m h => h.acts (by decide) rfl rfl
  case calSwitch => exact fun iss ent buf s j m h hf => h.acts (by decide) rfl (azCalSwitch_inTime hf s.fuse)

/-- Settles O19: each command has its row's effect; the response to QUERY_STATE is awaited. -/
theorem azrixDieCommandsAct : Obligations.AzrixDieCommandsAct := by
  refine ⟨?query, ?sleep, ?wake, ?standby, ?resume, ?shutdown, ?poolAlloc, ?poolFree, ?fence, ?restore, ?activate, ?unitRestore,
    ?timeRole, ?timeOfDay⟩
  case sleep | wake | standby | resume | shutdown | poolAlloc | poolFree | fence | restore | activate | unitRestore | timeRole
      | timeOfDay =>
    exact fun iss ent buf s j m h => h.acts (by decide) rfl rfl
  case query => exact fun iss ent buf s j m h => h.acts (by decide) rfl (azQuery_unmuted h.unmuted s.fuse m)

/-- Settles O20: each command has its row's effect; FAULT_INJECT has a row in BLANK alone, and DEBUG_LOCK has passed its
check. -/
theorem azrixFaultAndSecurityCommandsAct : Obligations.AzrixFaultAndSecurityCommandsAct := by
  refine ⟨?log, ?clear, ?react, ?inject, ?counters, ?commit, ?nonce, ?unlock, ?lock, ?lifecycle, ?ownerKey⟩
  case log | react | counters | commit | nonce | unlock | lifecycle | ownerKey =>
    exact fun iss ent buf s j m h => h.acts (by decide) rfl rfl
  case clear => exact fun iss ent buf s j m r h hr => h.acts (by decide) rfl (azFaultClear_open hr s.fuse)
  case inject =>
    rintro iss ent buf s j m n h hblank rfl
    exact h.acts (by decide) (azRow_inject s.m hblank) rfl
  case lock => exact fun iss ent buf s j m h => h.acts (by decide) rfl (azLock_passed h.passes)

end Sys2Proof.Machine
end

section
/-! PROOFS. The clocks and their boundaries: how far time runs, and the work of each boundary (R94, R95, R104, R217, R469, R477). -/
namespace Sys2Proof.Machine

/-! ## Time that passes (R95) -/

section
variable {e : Nat} {m : Mod} (hr : (clock e m).run = true)
include hr

/-- A running counter rises by its rate at each tick. -/
theorem now_runTicks (n : Nat) : now e (runTicks n m) = ((clock e m).count + n * (clock e m).rate) / 2 ^ 40 := by
  rw [now, clock_runTicks, Clock.ticks, if_pos hr]

/-- Letting time run sets no counter back. -/
theorem now_le_now_runTo (d t : Nat) : now e m ≤ now e (runTo d t m) := by
  rw [runTo, now_runTicks hr]
  exact Nat.div_le_div_right (Nat.le_add_right _ _)

/-- A counter that time runs to `t` for reaches it: its trim is within the limit, so that each tick brings it forward. -/
theorem le_now_runTo (htrim : -219902325 ≤ (clock e m).trim) (t : Nat) : t ≤ now e (runTo e t m) := by
  rw [runTo, now_runTicks hr]
  exact ticksTo_reaches (clock e m) t htrim

end

/-! ## Each boundary's work -/

section
variable {d : Nat} {m : Mod} (hr : (clock d m).run = true)
include hr

/-- A die reaches its cycle boundary, and measures its offset over a Shepherd link that is up (R104). -/
theorem cycleBoundary_die (hd : d < 4) {n : Mod} (hn : n = runTo d (((clock d m).cyc + 1) * 1024) m) :
    cycleBoundary d m = setClock d { clock d n with
      cyc := (clock d m).cyc + 1
      thetas := (clock d n).thetas ++ (if d2dUp d 4 n then [2 * ((now16 d n : Int) - (now16 4 n : Int))] else []) } n := by
  simp only [cycleBoundary, if_pos hr, ← hn, hd, decide_true, Bool.true_and]

theorem frameStep_die (hd : d < 4) (volt : Nat) (temp : Int) (nominal : Bool) : frameStep d volt temp nominal m =
    each ((List.range 32).map (fun p => 32 * d + p)) replayFrame (laneFrame d (sliceStart d nominal (ledgerDie d volt temp
      (chargeLanes d (chargeDie d (liveNow (reachFrame d m))))))) := by
  simp only [frameStep, hr, Bool.not_true, Bool.false_eq_true, if_false, if_neg (Nat.ne_of_lt hd)]

theorem servoInterval_die (hd : d < 4) : servoInterval d m = servoWorker d (reachServo d m) := by
  simp only [servoInterval, if_pos hr, if_neg (Nat.ne_of_lt hd)]

end

section
variable {m : Mod} (hr : (clock 4 m).run = true)
include hr

/-- The Shepherd, from which the offsets are measured, measures none of its own. -/
theorem cycleBoundary_shepherd {n : Mod} (hn : n = runTo 4 (((clock 4 m).cyc + 1) * 1024) m) :
    cycleBoundary 4 m = setClock 4 { clock 4 n with cyc := (clock 4 m).cyc + 1 } n := by
  simp only [cycleBoundary, if_pos hr, ← hn, Nat.lt_irrefl, decide_false, Bool.false_and, Bool.false_eq_true, if_false,
    List.append_nil]

theorem frameStep_shepherd (volt : Nat) (temp : Int) (nominal : Bool) :
    frameStep 4 volt temp nominal m = plannerStep (liveNow (reachFrame 4 m)) := by
  simp only [frameStep, hr, Bool.not_true, Bool.false_eq_true, if_false, if_true]

theorem servoInterval_shepherd : servoInterval 4 m = servoShepherd (reachServo 4 m) := by
  simp only [servoInterval, if_pos hr, if_true]

end

section
variable {d : Nat} {m : Mod} (hr : (clock d m).run = false)
include hr

/-! A clock that does not run reaches no boundary. -/

theorem cycleBoundary_halted : cycleBoundary d m = m := if_neg (ne_true_of_eq_false hr)

theorem frameStep_halted (volt : Nat) (temp : Int) (nominal : Bool) : frameStep d volt temp nominal m = m :=
  if_pos (by rw [hr, Bool.not_false])

theorem servoInterval_halted : servoInterval d m = m := if_neg (ne_true_of_eq_false hr)

end

/-! ## The boundary commands -/

/-- A command whose operands name what exists has its effect on the module. -/
theorem act_does {ok : Bool} {s : State} {g : Mod → Mod} {n : Mod} (hok : ok = true) (hn : g s.m = n) :
    act ok s (fun _ m => g m) = .next (finish s n) := by
  rw [act_true hok, hn]

section
variable {d : Nat} {s : State} {n : Mod} (hd : d < 5)
include hd

theorem exec_cycleBoundary (hn : cycleBoundary d s.m = n) : exec (.cycleBoundary d) s = .next (finish s n) := by
  change execCycleBoundary d s = _
  exact act_does (decide_eq_true hd) hn

theorem exec_frameBoundary {volt : Nat} {temp : Int} {nominal : Bool} (hn : frameStep d volt temp nominal s.m = n) :
    exec (.frameBoundary d volt temp nominal) s = .next (finish s n) := by
  change execFrameBoundary d volt temp nominal s = _
  exact act_does (decide_eq_true hd) hn

theorem exec_servoInterval (hn : servoInterval d s.m = n) : exec (.servoInterval d) s = .next (finish s n) := by
  change execServoInterval d s = _
  exact act_does (decide_eq_true hd) hn

end

theorem exec_slotBoundary {d : Nat} {s : State} (hd : d < 4) (hr : (clock d s.m).run = true) :
    exec (.slotBoundary d) s = .next (finish s (reachSlot d s.m)) := by
  change execSlotBoundary d s = _
  exact act_does (decide_eq_true hd) (if_pos hr)

/-- Settles O21: a running counter reaches its boundary, whose work follows; one that does not run stays. -/
theorem clocksReachTheirBoundaries : Obligations.ClocksReachTheirBoundaries := by
  have holder {d : Nat} (hd : d < 4) : d < 5 := Nat.lt_succ_of_lt hd
  have shepherd : 4 < 5 := Nat.lt_succ_self 4
  refine ⟨?time, ?cycleDie, ?cycleShepherd, ?slot, ?frameShepherd, ?frameDie, ?servoShepherd, ?servoDie, ?halted⟩
  case time => exact fun d t m hr ht => ⟨le_now_runTo hr ht t, fun e he => now_le_now_runTo he d t⟩
  case cycleDie => exact fun d s hd hr m hm => exec_cycleBoundary (holder hd) (cycleBoundary_die hr hd hm)
  case cycleShepherd => exact fun s hr m hm => exec_cycleBoundary shepherd (cycleBoundary_shepherd hr hm)
  case slot =>
    rintro d s hd hr m rfl
    rw [exec_slotBoundary hd hr, reachSlot]
  case frameShepherd => exact fun v t b s hr => exec_frameBoundary shepherd (frameStep_shepherd hr v t b)
  case frameDie => exact fun d v t b s hd hr => exec_frameBoundary (holder hd) (frameStep_die hr hd v t b)
  case servoShepherd => exact fun s hr => exec_servoInterval shepherd (servoInterval_shepherd hr)
  case servoDie => exact fun d s hd hr => exec_servoInterval (holder hd) (servoInterval_die hr hd)
  case halted =>
    exact fun d v t b s hd hr => ⟨exec_cycleBoundary hd (cycleBoundary_halted hr), exec_frameBoundary hd (frameStep_halted hr v t b),
      exec_servoInterval hd (servoInterval_halted hr)⟩

end Sys2Proof.Machine
end

section
/-! PROOFS. Alarms, time messages and the 1 PPS input and output (R97, R98, R103, R105, R107, R108, R109, R114). -/
namespace Sys2Proof.Machine

/-! ## A host alarm (R97, R98, R114) -/

/-- Time has run to the count at which host alarm `i` of die `d` may fire. -/
def alarmMet (d i : Nat) (m : Mod) : Mod :=
  let t := (clock d m).notBefore (cur F.ETL_ALARM_CMP_CMP d i m)
  if t ≤ now d m then m else runTo d t m

/-- The owner of host alarm `i` is told that it fired, or the alarm counts that it fired again before. -/
def alarmTold (d i : Nat) (m : Mod) : Mod :=
  if rdB F.ETL_ALARM_CTL_FIRED d i m then bump F.ETL_ALARM_CTL_OVERRUN d i m
  else event d (alarmPf d (i + 32) m) 0x0001 0 (leBytes 1 (i + 32)) (wrB F.ETL_ALARM_CTL_FIRED d i true m)

section
variable {d i : Nat} {m n : Mod} (hi : i < 32) (harm : curB F.ETL_ALARM_CTL_ARM d i m = true) (hr : (clock d m).run = true)
  (hn : n = alarmMet d i m)
include hi harm hr hn

/-- An armed alarm of a running counter fires, and is set again first where it has a period. -/
theorem alarmFire_armed : alarmFire d (i + 32) m = alarmTold d i (count d 675 1
    (if cur F.ETL_ALARM_CTL_PERIOD d i n = 0 then force F.ETL_ALARM_CTL_ARM d i 0 n
     else force F.ETL_ALARM_CMP_CMP d i (cur F.ETL_ALARM_CMP_CMP d i m
      + ((now d n - cur F.ETL_ALARM_CMP_CMP d i m) / cur F.ETL_ALARM_CTL_PERIOD d i n + 1) * cur F.ETL_ALARM_CTL_PERIOD d i n) n)) := by
  have fires : ¬ (i + 32 < 32 ∨ 64 ≤ i + 32 ∨ (!curB F.ETL_ALARM_CTL_ARM d i m) = true ∨ (!(clock d m).run) = true) := by
    simp only [harm, hr, Bool.not_true, Bool.false_eq_true, or_false]
    omega
  rw [hn, alarmFire, Nat.add_sub_cancel]
  exact if_neg fires

/-- Without a period it disarms. -/
theorem alarmFire_once (hp : cur F.ETL_ALARM_CTL_PERIOD d i n = 0) :
    alarmFire d (i + 32) m = alarmTold d i (count d 675 1 (force F.ETL_ALARM_CTL_ARM d i 0 n)) := by
  rw [alarmFire_armed hi harm hr hn, if_pos hp]

/-- With one it is set for the next multiple past the count. -/
theorem alarmFire_again {p : Nat} (hp : cur F.ETL_ALARM_CTL_PERIOD d i n = p) (h0 : p ≠ 0) :
    alarmFire d (i + 32) m = alarmTold d i (count d 675 1 (force F.ETL_ALARM_CMP_CMP d i
      (cur F.ETL_ALARM_CMP_CMP d i m + ((now d n - cur F.ETL_ALARM_CMP_CMP d i m) / p + 1) * p) n)) := by
  rw [alarmFire_armed hi harm hr hn, hp, if_neg h0]

end

/-! ## A time message (R103) -/

section
variable {d p : Nat} {b : Bytes} {m : Mod} (hc : rdB F.LNE_QCTRL_COMPAT d (p / 2) m = false)
include hc

theorem timeMsgReceive_badCrc (h : rdLE b 22 2 ≠ crc16 (sub b 0 22)) (stamp : Nat) :
    timeMsgReceive d p stamp b m = bump F.ETL_MSG_ERR_CRC_ERR d 0 m :=
  (if_neg (ne_true_of_eq_false hc)).trans (if_pos h)

/-- A good message gives its port what it carries, whatever else the port keeps. -/
theorem timeMsgReceive_goodCrc (h : rdLE b 22 2 = crc16 (sub b 0 22)) (stamp : Nat) :
    ∃ x : PortTime, x.peer = some (stamp, rdLE b 0 10 / 2 ^ 26) ∧ x.gmId = rdLE b 14 3 % 2 ^ 20 ∧ x.hops = rdLE b 14 3 / 2 ^ 20
      ∧ x.epoch = rdLE b 18 2 ∧ x.flags = rdLE b 17 1 ∧ x.lastCyc = stamp / 2 ^ 26
      ∧ timeMsgReceive d p stamp b m = count 4 128 1 (count d 672 1 (setPortTime (0x20 * d + p) x m)) := by
  simp only [timeMsgReceive, hc, h, ne_eq, not_true_eq_false, Bool.false_eq_true, if_false]
  exact ⟨_, rfl, rfl, rfl, rfl, rfl, rfl, rfl⟩

end

/-! ## 1 PPS (R107 to R109) -/

theorem ppsEdge_used {m : Mod} (hg : m.tm.gmOn = true) (ho : m.tm.ppsOn = true) (hs : m.tm.standby = false) (stamp : Nat) :
    ppsEdge stamp m = publishTime (count 4 129 1 (ppsEdgeAt (stamp - m.tm.ppsDly * 65536 / 1000) m)) :=
  if_pos (by rw [hg, ho, hs]; rfl)

theorem ppsEdge_unused {m : Mod} (h : m.tm.gmOn = false ∨ m.tm.ppsOn = false ∨ m.tm.standby = true) (stamp : Nat) :
    ppsEdge stamp m = m := by
  refine if_neg ?_
  rcases h with h | h | h <;> simp [h]

theorem ppsOutRise_running {m n : Mod} (hr : (clock 4 m).run = true)
    (hn : n = runTo 4 ((max (now 4 m) (clock 4 m).high / 1000000000 + 1) * 1000000000) m) (hs : n.tm.state ≠ 0) :
    ppsOutRise m = emit (.pps true) { n with tm := { n.tm with ppsHigh := true } } := by
  rw [ppsOutRise, if_pos hr, ← hn, ppsHighNow, if_neg hs]

theorem ppsOutRise_halted {m : Mod} (hr : (clock 4 m).run = false) : ppsOutRise m = m := if_neg (ne_true_of_eq_false hr)

theorem ppsOutFall_high {m n : Mod} (hh : m.tm.ppsHigh = true) (hn : n = runTo 4 (now 4 m / 1000000000 * 1000000000 + 100000) m) :
    ppsOutFall m = emit (.pps false) { n with tm := { n.tm with ppsHigh := false } } := by
  rw [ppsOutFall, if_pos hh, ← hn]

/-! ## The commands -/

theorem exec_alarmFire {d k : Nat} {s : State} {n : Mod} (hd : d < 4) (hk : k < 64) (hu : hostUp d s.m = true)
    (hn : alarmFire d k s.m = n) : exec (.alarmFire d k) s = .next (finish s n) := by
  change execAlarmFire d k s = _
  exact act_served (by simp only [dieOk, hd, hk, decide_true, Bool.and_self]) hu hn

theorem exec_timeMessageReceive {d p stamp : Nat} {b : Bytes} {s : State} {n : Mod} (hd : d < 4) (hp : p < 32) (hb : b.length = 24)
    (hu : hostUp d s.m = true) (hn : timeMsgReceive d p stamp b s.m = n) :
    exec (.timeMessageReceive d p stamp b) s = .next (finish s n) := by
  change execTimeMessageReceive d p stamp b s = _
  exact act_served (by simp only [dieOk, hd, hp, hb, decide_true, Bool.and_self]) hu hn

section
variable {s : State} {n : Mod}

theorem exec_ppsEdge {stamp : Nat} (hn : ppsEdge stamp s.m = n) : exec (.ppsEdge stamp) s = .next (finish s n) := by
  change execPpsEdge stamp s = _
  exact act_does rfl hn

theorem exec_ppsTimeout (hn : ppsTimeout s.m = n) : exec .ppsTimeout s = .next (finish s n) := by
  change execPpsTimeout s = _
  exact act_does rfl hn

theorem exec_ppsOutRise (hn : ppsOutRise s.m = n) : exec .ppsOutRise s = .next (finish s n) := by
  change execPpsOutRise s = _
  exact act_does rfl hn

theorem exec_ppsOutFall (hn : ppsOutFall s.m = n) : exec .ppsOutFall s = .next (finish s n) := by
  change execPpsOutFall s = _
  exact act_does rfl hn

end

/-- Settles O22: each command's effect in the case that its premises name. -/
theorem alarmsPulsesAndTimeMessages : Obligations.AlarmsPulsesAndTimeMessages := by
  refine ⟨?once, ?again, ?badCrc, ?goodCrc, ?edgeUsed, ?edgeUnused, ?timeout, ?rise, ?halted, ?fall⟩
  case once =>
    rintro d i s hd hi hu harm hr t m rfl hm hp n rfl
    exact exec_alarmFire hd (by omega) hu (alarmFire_once hi harm hr hm hp)
  case again =>
    rintro d i p s hd hi hu harm hr t m rfl hm hp h0 n rfl
    exact exec_alarmFire hd (by omega) hu (alarmFire_again hi harm hr hm hp h0)
  case badCrc =>
    exact fun d p t b s hd hp hb hu hc h => exec_timeMessageReceive hd hp hb hu (timeMsgReceive_badCrc hc h t)
  case goodCrc =>
    intro d p t b s hd hp hb hu hc h
    obtain ⟨x, hpeer, hgm, hhops, hepoch, hflags, hcyc, hx⟩ := timeMsgReceive_goodCrc hc h t
    exact ⟨x, hpeer, hgm, hhops, hepoch, hflags, hcyc, exec_timeMessageReceive hd hp hb hu hx⟩
  case edgeUsed => exact fun t s hg ho hs => exec_ppsEdge (ppsEdge_used hg ho hs t)
  case edgeUnused => exact fun t s h => exec_ppsEdge (ppsEdge_unused h t)
  case timeout => exact fun s => exec_ppsTimeout rfl
  case rise => exact fun s hr m hm hs => exec_ppsOutRise (ppsOutRise_running hr hm hs)
  case halted => exact fun s hr => exec_ppsOutRise (ppsOutRise_halted hr)
  case fall => exact fun s hh m hm => exec_ppsOutFall (ppsOutFall_high hh hm)

end Sys2Proof.Machine
end

section
/-! PROOFS. The line code is undone by its receiver: stuffing, scrambling, symbols, levels and control bits (R117, R121, R122, R123,
R125, R127). -/
namespace Sys2Proof.Machine

/-! ## Stuffing (R121, R122, R127) -/

/-- The level forced after `prev` is one of the four. -/
theorem forced_lt (prev : Nat) : (prev + 2) % 4 < 4 := Nat.mod_lt _ (by decide)

/-- It differs from `prev`, and so begins a run of its own. -/
theorem forced_ne (prev : Nat) : (prev + 2) % 4 ≠ prev := by omega

/-! How many data levels fit, by what the next level is. -/

theorem stuffFit_forced (n prev : Nat) (data : List Nat) :
    stuffFit (n + 1) prev 31 data = stuffFit n ((prev + 2) % 4) 1 data := rfl

theorem stuffFit_nil {run : Nat} (h : run ≠ 31) (n prev : Nat) : stuffFit (n + 1) prev run [] = 0 := if_neg h

theorem stuffFit_data {run : Nat} (h : run ≠ 31) (n prev x : Nat) (r : List Nat) :
    stuffFit (n + 1) prev run (x :: r) = 1 + stuffFit n x (if x = prev then run + 1 else 1) r := if_neg h

theorem stuffTx_length (n prev run d : Nat) (data : List Nat) : (stuffTx n prev run d data).length = n := by
  fun_induction stuffTx n prev run d data with
  | case1 => rfl
  | case2 _ _ _ _ _ _ _ ih | case3 _ _ _ _ _ _ ih | case4 _ _ _ _ _ _ _ ih => rw [List.length_cons, ih]

/-- Forced levels and data levels are both of the four. -/
theorem stuffTx_lt (n prev run d : Nat) (data : List Nat) (h : ∀ x ∈ data, x < 4) : ∀ x ∈ stuffTx n prev run d data, x < 4 := by
  fun_induction stuffTx n prev run d data with
  | case1 => exact fun _ hx => absurd hx List.not_mem_nil
  | case2 _ prev _ _ _ _ _ ih | case3 _ prev _ _ _ _ ih => exact List.forall_mem_cons.mpr ⟨forced_lt prev, ih h⟩
  | case4 _ _ _ _ _ _ _ ih =>
    obtain ⟨hx, hr⟩ := List.forall_mem_cons.mp h
    exact List.forall_mem_cons.mpr ⟨hx, ih hr⟩

/-- A run of 31 is broken by a forced level, so that none grows to 32. -/
theorem stuffTx_runsBelow (n prev run d : Nat) (data : List Nat) (hr : run ≤ 31) :
    runsBelow 32 prev run (stuffTx n prev run d data) := by
  fun_induction stuffTx n prev run d data with
  | case1 => exact trivial
  | case2 _ prev _ _ _ _ _ ih | case3 _ prev _ _ _ _ ih =>
    rw [runsBelow, if_neg (forced_ne prev)]
    exact ⟨by decide, ih (by decide)⟩
  | case4 _ prev run _ _ x _ ih =>
    have hshort : (if x = prev then run + 1 else 1) < 32 := by split <;> omega
    exact ⟨hshort, ih (Nat.le_of_lt_succ hshort)⟩

/-- The receiver knows the same run as the sender, and so which levels are forced. -/
theorem destuff_stuffTx (n prev run d : Nat) (data : List Nat) (hd : d ≤ stuffFit n prev run data) :
    destuff prev run d (stuffTx n prev run d data) = some (data.take d) := by
  fun_induction stuffTx n prev run d data with
  | case1 =>
    rw [Nat.le_zero.mp hd]
    rfl
  | case2 n prev run d data forced hforced ih =>
    have hfits : d ≤ stuffFit n forced 1 data := by
      rcases hforced with h0 | hrun
      · omega
      · rwa [hrun, stuffFit_forced] at hd
    rw [destuff, if_pos hforced, if_pos rfl, if_neg (forced_ne prev)]
    exact ih hfits
  | case3 n prev run d forced hfree ih =>
    obtain ⟨hd0, hrun⟩ := not_or.mp hfree
    rw [stuffFit_nil hrun] at hd
    exact absurd (Nat.le_zero.mp hd) hd0
  | case4 n prev run d hfree x r ih =>
    obtain ⟨hd0, hrun⟩ := not_or.mp hfree
    have hfits : d - 1 ≤ stuffFit n x (if x = prev then run + 1 else 1) r := by
      rw [stuffFit_data hrun] at hd
      exact Nat.sub_le_iff_le_add'.mpr hd
    rw [destuff, if_neg hfree, ih hfits, Option.map_some, List.take_cons (Nat.pos_of_ne_zero hd0)]

/-! ## Scrambling (R123) -/

theorem b2n_le_one (b : Bool) : b2n b ≤ 1 := by cases b <;> decide

/-- What two steps of the scrambler add to a symbol is two bits. -/
theorem scrStep_two_lt (s : Nat) : (scrStep s).1 + 2 * (scrStep (scrStep s).2).1 < 4 := by
  have ha : (scrStep s).1 ≤ 1 := b2n_le_one _
  have hb : (scrStep (scrStep s).2).1 ≤ 1 := b2n_le_one _
  omega

/-- Two bits added to a symbol give a symbol. -/
theorem symXor_lt {x k : Nat} (hx : x < 4) (hk : k < 4) : Nat.xor x k < 4 := Nat.xor_lt_two_pow (n := 2) hx hk

theorem scramble_length (s : Nat) (l : List Nat) : (scramble s l).length = l.length := by
  fun_induction scramble s l with
  | case1 => rfl
  | case2 _ _ _ _ _ ih => rw [List.length_cons, List.length_cons, ih]

theorem scramble_lt (s : Nat) (l : List Nat) (h : ∀ x ∈ l, x < 4) : ∀ x ∈ scramble s l, x < 4 := by
  fun_induction scramble s l with
  | case1 => exact h
  | case2 s x r a b ih =>
    obtain ⟨hx, hr⟩ := List.forall_mem_cons.mp h
    refine List.forall_mem_cons.mpr ⟨?_, ih hr⟩
    rw [if_pos hx]
    exact symXor_lt hx (scrStep_two_lt s)

/-- The scrambler's state does not depend on the symbols, so that the receiver adds the same bits; errored data stay as they
are on both sides. -/
theorem scramble_scramble (s : Nat) (l : List Nat) : scramble s (scramble s l) = l := by
  fun_induction scramble s l with
  | case1 => rfl
  | case2 s x r a b ih =>
    rw [scramble, ih]
    by_cases hx : x < 4
    · rw [if_pos hx, if_pos (symXor_lt hx (scrStep_two_lt s))]
      exact congrArg (· :: r) (Nat.xor_xor_cancel_right x (a.1 + 2 * b.1))
    · rw [if_neg hx, if_neg hx]

/-! ## Symbols and bytes (R117) -/

theorem gray_lt {x : Nat} (h : x < 4) : gray x < 4 := by
  revert x
  decide

/-- The Gray code of two bits is its own inverse. -/
theorem gray_gray {x : Nat} (h : x < 4) : gray (gray x) = x := by
  revert x
  decide

theorem symsOf_length (n v : Nat) : (symsOf n v).length = n := by
  induction n generalizing v with
  | zero => rfl
  | succ n ih => rw [symsOf, List.length_cons, ih]

theorem symsNat_symsOf (n v : Nat) : symsNat (symsOf n v) = v % 4 ^ n := by
  induction n generalizing v with
  | zero => rw [Nat.pow_zero, Nat.mod_one]; rfl
  | succ n ih => rw [symsOf, symsNat, ih, Nat.mod_mod, Nat.pow_succ', Nat.mod_mul]

theorem symsOf_lt (n v : Nat) : ∀ x ∈ symsOf n v, x < 4 := by
  induction n generalizing v with
  | zero => exact fun _ hx => absurd hx List.not_mem_nil
  | succ n ih => exact List.forall_mem_cons.mpr ⟨Nat.mod_lt _ (by decide), ih _⟩

theorem byteSyms_cons (a : Byte) (b : Bytes) : byteSyms (a :: b) = symsOf 4 a.toNat ++ byteSyms b := rfl

theorem byteSyms_length (b : Bytes) : (byteSyms b).length = 4 * b.length := by
  induction b with
  | nil => rfl
  | cons a b ih => rw [byteSyms_cons, List.length_append, symsOf_length, ih, List.length_cons, Nat.mul_succ, Nat.add_comm]

theorem byteSyms_lt (b : Bytes) : ∀ x ∈ byteSyms b, x < 4 := by
  induction b with
  | nil => exact fun _ hx => absurd hx List.not_mem_nil
  | cons a b ih => exact List.forall_mem_append.mpr ⟨symsOf_lt 4 _, ih⟩

/-- Four symbols of a byte at the front are read back as the byte. -/
theorem symBytes_symsOf_append (a : Byte) (l : List Nat) :
    symBytes (symsOf 4 a.toNat ++ l) = (symBytes l).map (a :: ·) := by
  have hlt (v : Nat) : v % 4 < 4 := Nat.mod_lt v (by decide)
  have hbyte : toByte (a.toNat % 4 + 4 * (a.toNat / 4 % 4) + 16 * (a.toNat / 4 / 4 % 4) + 64 * (a.toNat / 4 / 4 / 4 % 4)) = a := by
    unfold toByte
    bv_omega
  simp only [symsOf, List.cons_append, List.nil_append, symBytes, hlt, and_self, if_true, hbyte]

theorem symBytes_byteSyms (b : Bytes) : symBytes (byteSyms b) = some b := by
  induction b with
  | nil => rfl
  | cons a b ih => rw [byteSyms_cons, symBytes_symsOf_append, ih, Option.map_some]

/-! ## Control bits (R125) -/

/-- The control bits are the fields side by side, from TIME at the bottom to the mark on top. -/
theorem ctlBits_lt (c : Ctl) : ctlBits c < 2 ^ 24 := by
  have hr := b2n_le_one c.resync
  have hm := b2n_le_one c.mark
  unfold ctlBits
  omega

/-- A bit that holds a truth value is read as it. -/
theorem bit_eq_of_b2n {v n : Nat} {b : Bool} (h : v / 2 ^ n % 2 = b2n b) : bit v n = b := by
  rw [bit, Nat.shiftRight_eq_div_pow, h]
  cases b <;> rfl

theorem ctlOf_ctlBits {c : Ctl} (hl : c.lane < 4) (hs : c.status < 8) (hk : c.stuff < 64) (ht : c.time < 256) :
    ctlOf (ctlBits c) = c := by
  have hr := b2n_le_one c.resync
  have hm := b2n_le_one c.mark
  have hmark : bit (ctlBits c) 20 = c.mark := bit_eq_of_b2n (by unfold ctlBits; omega)
  have hresync : bit (ctlBits c) 17 = c.resync := bit_eq_of_b2n (by unfold ctlBits; omega)
  have hfield (lo w : Nat) : bits (ctlBits c) lo w = ctlBits c / 2 ^ lo % 2 ^ w := by rw [bits, Nat.shiftRight_eq_div_pow]
  have hlane : bits (ctlBits c) 18 2 = c.lane := by rw [hfield]; unfold ctlBits; omega
  have hstatus : bits (ctlBits c) 14 3 = c.status := by rw [hfield]; unfold ctlBits; omega
  have hstuff : bits (ctlBits c) 8 6 = c.stuff := by rw [hfield]; unfold ctlBits; omega
  have htime : bits (ctlBits c) 0 8 = c.time := by rw [hfield]; unfold ctlBits; omega
  rw [ctlOf, hmark, hlane, hresync, hstatus, hstuff, htime]

/-- Settles O60: stuffing by induction over the positions of the field, scrambling and bytes symbol by symbol. -/
theorem theLaneCodeIsUndone : Obligations.TheLaneCodeIsUndone := by
  refine ⟨?stuffing, ?scrambling, ?bytes, ?numbers, fun x h => ⟨gray_lt h, gray_gray h⟩, ?control⟩
  case stuffing =>
    intro n prev run d data _ _ hr h hd
    exact ⟨stuffTx_length n prev run d data, stuffTx_lt n prev run d data h, stuffTx_runsBelow n prev run d data hr,
      destuff_stuffTx n prev run d data hd⟩
  case scrambling => exact fun s l => ⟨scramble_scramble s l, scramble_length s l, scramble_lt s l⟩
  case bytes => exact fun b => ⟨symBytes_byteSyms b, byteSyms_length b, byteSyms_lt b⟩
  case numbers => exact fun n v => ⟨symsOf_length n v, symsNat_symsOf n v⟩
  case control => exact fun c hl hs hk ht => ⟨ctlBits_lt c, ctlOf_ctlBits hl hs hk ht⟩

end Sys2Proof.Machine
end

section
/-! PROOFS. Lane training: the states of a port, training messages and retrains (R130, R131, R135, R136, R138, R139, R571,
R572). -/
namespace Sys2Proof.Machine

/-- A command of a port of a served die has its effect. -/
theorem act_portServed {pc : Nat} {s : State} {g : Mod → Mod} {n : Mod} (hp : pc < 128) (hu : hostUp (pc / 32) s.m = true)
    (hg : g s.m = n) : act (portNumOk pc) s (fun _ m => when (hostUp (pc / 32) m) g m) = .next (finish s n) :=
  act_served (decide_eq_true hp) hu hg

/-! ## The record of a port -/

@[simp] theorem lport_updLp (pc : Nat) (f : LPort → LPort) (m : Mod) : lport pc (updLp pc f m) = f (lport pc m) :=
  NMap.get_set_same _ _ _ _

/-! The record of a port is not among the registers. -/

@[simp] theorem pst_updLp (pc k : Nat) (f : LPort → LPort) (m : Mod) : pst pc (updLp k f m) = pst pc m := rfl

@[simp] theorem compat_updLp (pc k : Nat) (f : LPort → LPort) (m : Mod) : compat pc (updLp k f m) = compat pc m := rfl

/-! ## From DISABLED to ALIGN (R131, R135, R572) -/

/-- A working quad that was off sends its DISABLED ports to DETECT, with every lane offered. -/
theorem quadEnable_new {d q : Nat} {m : Mod} (hoff : curB F.LNE_QCTRL_ENABLE d q m = false)
    (hup : unitUp d q (force F.LNE_QCTRL_ENABLE d q 1 m) = true) : quadEnable d q m =
      each (quadPorts d q (force F.LNE_QCTRL_ENABLE d q 1 m)) (fun pc m =>
        if pst pc m = 0 then toDetect pc 0 (updLp pc (fun l => { l with out := 0 }) m) else m)
        (force F.LNE_QCTRL_ENABLE d q 1 m) :=
  if_neg (by simp [hoff, hup])

section
variable {pc : Nat} {m : Mod}

theorem signalDetect_detect (h : pst pc m = 1) :
    signalDetect pc m = setPst pc 2 (updLp pc (fun l => { l with full := true }) m) := if_pos h

theorem signalDetect_other (h : pst pc m ≠ 1) : signalDetect pc m = m := if_neg h

/-- In CALIBRATE every lane of the port is set. -/
theorem calibrationComplete_calibrate (h : pst pc m = 2) (found : List (Nat × Nat)) : calibrationComplete pc found m =
    setPst pc 3 (each (portLanes pc m) (fun l m => calLane pc l (lport pc m).full (found.getD l (0, 0)) m) m) := by
  simp only [calibrationComplete, h]

/-- In ACTIVE the receive lanes that sleep have calibrated on their wake. -/
theorem calibrationComplete_active (h : pst pc m = 6) (found : List (Nat × Nat)) : calibrationComplete pc found m =
    each ((bitList 4 (prd F.LNE_PORT_STATUS_LANES pc m)).filter (fun l => lrd rxState pc l m == 2)) (fun l m =>
      setDir pc l 1 1 (calLane pc l false (found.getD l (0, 0)) m)) m := by
  simp only [calibrationComplete, h]

theorem alignTimeout_align (h : pst pc m = 3) : alignTimeout pc m =
    trainFail pc (maskOf ((portLanes pc m).filter (fun l => lrd F.LNE_LANE_STATUS_ALIGNED pc l m != 1))) m := if_pos h

theorem exchangeTimeout_exchange (h : pst pc m = 4) : exchangeTimeout pc m =
    trainFail pc (maskOf ((portLanes pc m).filter (fun l => !bit (lport pc m).heard l))) m := if_pos h

end

/-! ## Training messages (R130, R138) -/

/-- The training message that 32 bytes hold (R138). -/
def trainMsgOf (b : Bytes) : TMsg :=
  { kind := rdLE b 0 1, compat := bit (rdLE b 1 1) 0, eid := rdLE b 2 3 % 2 ^ 20, port := rdLE b 5 1
    good := rdLE b 6 1 % 16, req := rdLE b 7 1 % 4, nonce := rdLE b 8 2, seq := rdLE b 10 1 }

section
variable {pc ln id : Nat} {b : Bytes} {m : Mod}

theorem trainNote_ignored (h : rdLE b 30 2 ≠ crc16 (sub b 0 30) ∨ (portLanes pc m).contains ln = false) :
    trainNote pc ln id b m = (none, m) := if_pos (by simpa only [Bool.not_eq_true'] using h)

section
variable (hc : rdLE b 30 2 = crc16 (sub b 0 30)) (hl : (portLanes pc m).contains ln = true)
include hc hl

/-- A message with a good check value, on a lane of the port, is looked at. -/
theorem trainNote_not_ignored : ¬ (rdLE b 30 2 ≠ crc16 (sub b 0 30) ∨ (!(portLanes pc m).contains ln) = true) := by
  simp only [hc, hl, ne_eq, not_true_eq_false, Bool.not_true, Bool.false_eq_true, or_self, not_false_eq_true]

theorem trainNote_wrong (h : id ≠ ln) :
    trainNote pc ln id b m = (none, updLp pc (fun l => { l with wrong := setBit l.wrong ln true }) m) :=
  (if_neg (trainNote_not_ignored hc hl)).trans (if_pos h)

theorem trainNote_heard :
    trainNote pc ln ln b m = (some (trainMsgOf b), updLp pc (fun l => { l with heard := setBit l.heard ln true }) m) :=
  (if_neg (trainNote_not_ignored hc hl)).trans (if_neg (not_not_intro rfl))

end

/-- A message that is not one of this lane does no more than it is noted to do. -/
theorem trainReceive_noted {n : Mod} (h : trainNote pc ln id b m = (none, n)) : trainReceive pc ln id b m = n := by
  simp only [trainReceive, h]

theorem trainReceive_acted {t : TMsg} {n : Mod} (h : trainNote pc ln id b m = (some t, n)) :
    trainReceive pc ln id b m = trainAct pc t n := by
  simp only [trainReceive, h]

/-- READY that was not acted on yet is taken in EXCHANGE. -/
theorem trainAct_ready {t : TMsg} (hk : t.kind = 4) (hc : t.compat = compat pc m)
    (hnew : (lport pc m).last ≠ some (4, t.nonce, t.seq)) (hs : pst pc m = 4) :
    trainAct pc t m = takeReady pc (updLp pc (fun l => { l with last := some (4, t.nonce, t.seq) }) m) := by
  have hnew' : ((lport pc m).last == some (4, t.nonce, t.seq)) = false := beq_eq_false_iff_ne.mpr hnew
  simp only [trainAct, hk, hc, hs, hnew', bne_self_eq_false, Bool.or_self, Bool.false_eq_true, if_false]

/-- READY on its own lane, not acted on yet, in EXCHANGE. -/
theorem trainReceive_ready (hc : rdLE b 30 2 = crc16 (sub b 0 30)) (hl : (portLanes pc m).contains ln = true)
    (hcompat : bit (rdLE b 1 1) 0 = compat pc m) (hnew : (lport pc m).last ≠ some (4, rdLE b 8 2, rdLE b 10 1))
    (hs : pst pc m = 4) (hk : rdLE b 0 1 = 4) : trainReceive pc ln ln b m =
      takeReady pc (updLp pc (fun l => { l with last := some (4, rdLE b 8 2, rdLE b 10 1) })
        (updLp pc (fun l => { l with heard := setBit l.heard ln true }) m)) := by
  rw [trainReceive_acted (trainNote_heard hc hl)]
  exact trainAct_ready hk hcompat (by rw [lport_updLp]; exact hnew) hs

end

/-! ## LOOPBACK, and retrains of an ACTIVE port (R101, R136, R571) -/

section
variable {pc : Nat} {m : Mod}

/-- The port once its loop is measured, by `x`: it is ACTIVE with the trained group in both sets, and its first block is
RESTART. -/
def loopbackActive (pc : Nat) (x : Mod) : Mod :=
  let g := prd F.LNE_PORT_STATUS_LANES pc x
  let y := pwr F.LNE_PORT_STATUS_RX_SET pc g (pwr F.LNE_PORT_STATUS_TX_SET pc g
    (each (bitList 4 g) (fun l m => setDir pc l 1 0 (setDir pc l 0 0 m)) x))
  linkPortUp pc (setPst pc 6 (updLp pc (fun l => { l with
    tx := 0, last := none, peer := none, ready := false, req := false, agreed := none, leave := false, restart := true, rxOn := false
    idleAt := now (pc / 32) y }) y))

theorem loopbackComplete_loopback (h : pst pc m = 5) {lp txpd rxpd lbd share : Nat} {n : Mod}
    (hn : n = loopbackActive pc (loopbackMeasure (pc / 32) (pc % 32) lp txpd rxpd lbd share m)) :
    loopbackComplete pc lp txpd rxpd lbd share m = if widthBad pc n then contractDown pc 0x43 n else n := by
  rw [hn]
  exact if_pos h

theorem portRetrain_active (h : pst pc m = 6) : portRetrain pc m = startRetrain pc (updLp pc (fun l => { l with out := 0 })
    (force F.LNE_PORT_CTRL_RETRAIN (pc / 32) (pc % 32) 1 m)) := if_pos h

theorem portRetrain_other (h : pst pc m ≠ 6) : portRetrain pc m = m := if_neg h

theorem retrainTimeout_asked (h : pst pc m = 6) (hr : (lport pc m).req = true) : retrainTimeout pc m = trainFail pc 0 m :=
  if_pos ⟨h, hr⟩

theorem retrainTimeout_other (h : pst pc m ≠ 6) : retrainTimeout pc m = m := if_neg fun ha => h ha.1

end

/-! ## The commands with operands of their own -/

section
variable {pc : Nat} {s : State} {n : Mod} (hp : pc < 128) (hu : hostUp (pc / 32) s.m = true)
include hp hu

theorem exec_calibrationComplete {found : List (Nat × Nat)} (hf : found.length ≤ 4)
    (ha : found.all (fun x => decide (x.1 < 16)) = true) (hn : calibrationComplete pc found s.m = n) :
    exec (.calibrationComplete pc found) s = .next (finish s n) := by
  change execCalibrationComplete pc found s = _
  exact act_served (by simp only [portNumOk, hp, hf, ha, decide_true, Bool.and_self]) hu hn

theorem exec_trainingMessageReceive {ln id : Nat} {b : Bytes} (hl : ln < 4) (hi : id < 4) (hb : b.length = 32)
    (hn : trainReceive pc ln id b s.m = n) : exec (.trainingMessageReceive pc ln id b) s = .next (finish s n) := by
  change execTrainingMessageReceive pc ln id b s = _
  exact act_served (by simp only [portNumOk, hp, hl, hi, hb, decide_true, Bool.and_self]) hu hn

end

/-- Settles O23: each event's move from the state of the port that its premises name. -/
theorem laneTrainingMovesThroughItsStates : Obligations.LaneTrainingMovesThroughItsStates := by
  refine ⟨?enable, ?signal, ?signalOther, ?calibrate, ?quickCalibrate, ?alignTimeout, ?exchangeTimeout, ?ignored, ?wrongLane, ?ready,
    ?loopback, ?retrain, ?requestTimeout, ?notActive⟩
  case enable =>
    intro d q s hd hq hu hoff hup
    exact act_served (by simp only [dieOk, hd, hq, decide_true, Bool.and_self]) hu (quadEnable_new hoff hup)
  case signal => exact fun pc s hp hu h => act_portServed hp hu (signalDetect_detect h)
  case signalOther => exact fun pc s hp hu h => act_portServed hp hu (signalDetect_other h)
  case calibrate =>
    exact fun pc found s hp hu hf ha h => exec_calibrationComplete hp hu hf ha (calibrationComplete_calibrate h found)
  case quickCalibrate =>
    exact fun pc found s hp hu hf ha h => exec_calibrationComplete hp hu hf ha (calibrationComplete_active h found)
  case alignTimeout => exact fun pc s hp hu h => act_portServed hp hu (alignTimeout_align h)
  case exchangeTimeout => exact fun pc s hp hu h => act_portServed hp hu (exchangeTimeout_exchange h)
  case ignored =>
    intro pc ln id b s hp hu hl hi hb h
    exact exec_trainingMessageReceive hp hu hl hi hb (trainReceive_noted (trainNote_ignored h))
  case wrongLane =>
    intro pc ln id b s hp hu hl hi hb hc hlane hid
    exact exec_trainingMessageReceive hp hu hl hi hb (trainReceive_noted (trainNote_wrong hc hlane hid))
  case ready =>
    rintro pc ln b s m hp hu hl hb hc hlane rfl hcompat hnew hs hk
    exact exec_trainingMessageReceive hp hu hl hl hb (trainReceive_ready hc hlane hcompat hnew hs hk)
  case loopback =>
    rintro pc a b c e h s x g y m hp hu hs rfl rfl rfl hm
    exact act_portServed hp hu (loopbackComplete_loopback hs hm)
  case retrain => exact fun pc s hp hu h => act_portServed hp hu (portRetrain_active h)
  case requestTimeout => exact fun pc s hp hu h hr => act_portServed hp hu (retrainTimeout_asked h hr)
  case notActive =>
    exact fun pc s hp hu h => ⟨act_portServed hp hu (portRetrain_other h), act_portServed hp hu (retrainTimeout_other h)⟩

end Sys2Proof.Machine
end

section
/-! PROOFS. Block periods of a port, and lanes that rest and wake (R119, R129, R134, R135, R139, R141, R142, R480, R481, R482). -/
namespace Sys2Proof.Machine

section
variable {pc : Nat} {m : Mod}

/-! ## Blocks by the state of the port (R119, R135) -/

theorem blockSend_disabled (h : pst pc m = 0) : blockSend pc m = m := by simp only [blockSend, h]

theorem blockSend_detect (h : pst pc m = 1) :
    blockSend pc m = each (portLanes pc m) (fun l m => emit (.block (pc / 32) (pc % 32) l pattern) m) m := by
  simp only [blockSend, h]

theorem blockSend_training (h : pst pc m = 2 ∨ pst pc m = 3 ∨ pst pc m = 4 ∨ pst pc m = 5) :
    blockSend pc m = sendTrainBlocks pc m := by
  rcases h with h | h | h | h <;> simp only [blockSend, h]

section
variable (h : pst pc m = 6)
include h

/-- A port that has agreed to a retrain leaves ACTIVE first. -/
theorem blockSend_leave (hl : (lport pc m).leave = true) : blockSend pc m = sendTrainBlocks pc (enterRetrain pc m) := by
  simp only [blockSend, h, hl, if_true]

section
variable (hl : (lport pc m).leave = false)
include hl

theorem blockSend_data (ht : (lport pc m).tx = 0) : blockSend pc m = sendData4 pc m := by
  simp only [blockSend, h, hl, ht, ne_eq, not_true_eq_false, Bool.false_eq_true, if_false]

/-- Once the ANSWER is sent the port leaves (R136). -/
theorem blockSend_message (ht : (lport pc m).tx ≠ 0) : blockSend pc m = if (lport pc m).tx = 3
    then updLp pc (fun l => { l with leave := true }) (sendTrainBlocks pc m) else sendTrainBlocks pc m := by
  simp only [blockSend, h, hl, ht, ne_eq, not_false_eq_true, Bool.false_eq_true, if_false, if_true]

end
end

theorem blockReceive_align (h : pst pc m = 3) (bs : List (Nat × List Nat)) : blockReceive pc bs m =
    if goodLanes pc (decodeAll pc (portLanes pc m) bs m).2 = 0 then (decodeAll pc (portLanes pc m) bs m).2
    else enterExchange pc (decodeAll pc (portLanes pc m) bs m).2 := by
  simp only [blockReceive, h]

/-! ## Lanes that rest (R480 to R482) -/

theorem laneIdleQuiet_idle (hr : mayRest pc m = true) (hi : idleFor pc (quietIdle (pc / 32) m) m = true) :
    laneIdleQuiet pc m = updLp pc (fun l => { l with
      leaving := Nat.lor l.leaving (Nat.land (prd F.LNE_PORT_STATUS_TX_SET pc m) (Nat.xor 15 (lane0 pc m))) }) m :=
  if_pos (Bool.and_eq_true_iff.mpr ⟨hr, hi⟩)

/-- Logical lane 0 leaves when it is alone in the set, no lane wakes and no restart is due. -/
theorem lane0IdleQuiet_idle (hr : mayRest pc m = true) (hh : lane0Held pc m = false)
    (hi : idleFor pc (4 * quietIdle (pc / 32) m) m = true) (ht : prd F.LNE_PORT_STATUS_TX_SET pc m = lane0 pc m)
    (hw : (lport pc m).waking = []) (hs : (lport pc m).restart = false) : lane0IdleQuiet pc m =
      restState (sendData4 pc (updLp pc (fun l => { l with leaving := lane0 pc m }) m)) :=
  if_pos (by simp only [hr, hh, hi, ht, hw, hs, beq_self_eq_true, List.isEmpty_nil, Bool.not_false, Bool.and_self])

/-- A QUIET lane direction that is not waking sleeps. -/
theorem laneSleep_quiet {l dir : Nat} (h : pst pc m = 6) (hq : lrd (dirFld dir) pc l m = 1)
    (hw : NMap.find (lport pc m).waking l = none) : laneSleep pc l dir m =
      quadSleep (pc / 32) (pc % 32 / 2) (setDir pc l dir 2
        (if dir = 1 then updLane pc l (fun _ => Lane.reset) (lwr F.LNE_LANE_STATUS_ALIGNED pc l 0 m) else m)) :=
  if_pos ⟨h, hq, by rw [hw]; rfl⟩

end

/-! ## Lanes that wake and join (R134, R141, R142, R480) -/

/-- The lanes that LANE_WAKE finds to wake: under a backlog above WAKE_FLITS all that rest, of a set wholly at rest with
something to send logical lane 0. -/
def lanesToWake (pc : Nat) (m : Mod) : List Nat :=
  if (List.range 4).any (fun vc => decide (cur F.TLY_WAKE_WAKE_FLITS (pc / 32) 0 m < backlog pc vc m)) then
    bitList 4 (Nat.land (prd F.LNE_PORT_STATUS_LANES pc m) (Nat.xor 15 (prd F.LNE_PORT_STATUS_TX_SET pc m)))
  else if prd F.LNE_PORT_STATUS_TX_SET pc m = 0 ∧ (waiting pc m = true ∨ (lport pc m).resync = true) then bitList 4 (lane0 pc m)
  else []

/-- The module with the port's quad taken back from SLEEP. -/
def quadAwake (pc : Nat) (m : Mod) : Mod :=
  if unitState (pc / 32) (pc % 32 / 2) m = UnitSt.sleep then
    setUnit (pc / 32) (pc % 32 / 2) UnitSt.active (unitQuarantine (pc / 32) (pc % 32 / 2) m)
  else m

section
variable {pc : Nat} {m : Mod} (h : pst pc m = 6)
include h

/-- The lanes found that do not wake yet begin to, each with the pattern. -/
theorem laneWake_active {lanes new : List Nat} {n : Mod} (hl : lanes = lanesToWake pc m) (hn : n = quadAwake pc m)
    (hw : new = lanes.filter (fun i => (NMap.find (lport pc n).waking i).isNone)) : laneWake pc m =
      if lanes = [] then m else
        restState (updLp pc (fun l => { l with waking := new.foldl (fun k i => NMap.put k i 1) l.waking })
          (each new (fun l m => emit (.block (pc / 32) (pc % 32) l pattern) m) n)) := by
  subst hw hn hl
  by_cases hnone : lanesToWake pc m = []
  · have hstays : ¬ (pst pc m = 6 ∧ (!(lanesToWake pc m).isEmpty) = true) := by simp [hnone]
    exact (if_neg hstays).trans (if_pos hnone).symm
  · have hwakes : pst pc m = 6 ∧ (!(lanesToWake pc m).isEmpty) = true := ⟨h, by simpa using hnone⟩
    exact (if_pos hwakes).trans (if_neg hnone).symm

theorem laneJoin_waking (hw : (lport pc m).waking ≠ []) : laneJoin pc m =
    sendData4 pc (updLp pc (fun l => { l with waking := l.waking.map (fun e => (e.1, 2)) }) m) :=
  if_pos ⟨h, by simpa using hw⟩

end

/-! ## The commands with operands of their own -/

section
variable {pc : Nat} {s : State} {n : Mod} (hp : pc < 128) (hu : hostUp (pc / 32) s.m = true)
include hp hu

theorem exec_laneBlockReceive {bs : List (Nat × List Nat)}
    (hb : bs.all (fun b => decide (b.1 < 4) && decide (b.2.length = 2048)) = true) (hn : blockReceive pc bs s.m = n) :
    exec (.laneBlockReceive pc bs) s = .next (finish s n) := by
  change execLaneBlockReceive pc bs s = _
  exact act_served (Bool.and_eq_true_iff.mpr ⟨decide_eq_true hp, hb⟩) hu hn

theorem exec_laneSleepTimer {l dir : Nat} (hl : l < 4) (hd : dir < 2) (hn : laneSleep pc l dir s.m = n) :
    exec (.laneSleepTimer pc l dir) s = .next (finish s n) := by
  change execLaneSleepTimer pc l dir s = _
  exact act_served (by simp only [portNumOk, hp, hl, hd, decide_true, Bool.and_self]) hu hn

end

/-- Settles O24: the blocks by the state of the port, resting and waking in the case that the premises name. -/
theorem lanesSendReceiveRestAndWake : Obligations.LanesSendReceiveRestAndWake := by
  refine ⟨?disabled, ?detect, ?training, ?data, ?leave, ?message, ?align, ?quiet, ?lane0, ?sleep, ?wake, ?join⟩
  case disabled => exact fun pc s hp hu h => act_portServed hp hu (blockSend_disabled h)
  case detect => exact fun pc s hp hu h => act_portServed hp hu (blockSend_detect h)
  case training => exact fun pc s hp hu h => act_portServed hp hu (blockSend_training h)
  case data => exact fun pc s hp hu h hl ht => act_portServed hp hu (blockSend_data h hl ht)
  case leave => exact fun pc s hp hu h hl => act_portServed hp hu (blockSend_leave h hl)
  case message => exact fun pc s hp hu h hl ht => act_portServed hp hu (blockSend_message h hl ht)
  case align => exact fun pc bs s hp hu hb h => exec_laneBlockReceive hp hu hb (blockReceive_align h bs)
  case quiet => exact fun pc s hp hu hr hi => act_portServed hp hu (laneIdleQuiet_idle hr hi)
  case lane0 =>
    exact fun pc s hp hu hr hh hi ht hw hs => act_portServed hp hu (lane0IdleQuiet_idle hr hh hi ht hw hs)
  case sleep =>
    exact fun pc l dir s hp hu hl hd h hq hw => exec_laneSleepTimer hp hu hl hd (laneSleep_quiet h hq hw)
  case wake =>
    exact fun pc lanes s m new hp hu h hl hn hw => act_portServed hp hu (laneWake_active h hl hn hw)
  case join => exact fun pc s hp hu h hw => act_portServed hp hu (laneJoin_waking h hw)

end Sys2Proof.Machine
end

section
/-! PROOFS. The link layer: what a flit time sends, what an arriving flit does, and the states of a link (R157, R161, R164, R165,
R168, R169, R171, R172). -/
namespace Sys2Proof.Machine

/-! ## What a flit time sends (R157) -/

/-- The held flit that a replay sends next, with its place: step 1 of R157. -/
def replayFlit (pc : Nat) (m : Mod) : Option (Nat × Flit) :=
  if linkUp pc m then (link pc m).rpos.bind (fun i => ((link pc m).replay[i]?).map (fun f => (i, f))) else none

section
variable {pc : Nat} {m : Mod}

theorem replayFlit_some {i : Nat} {f : Flit} (hup : linkUp pc m = true) (hr : (link pc m).rpos = some i)
    (hf : (link pc m).replay[i]? = some f) : replayFlit pc m = some (i, f) := by
  simp only [replayFlit, hup, hr, hf, if_true, Option.bind_some, Option.map_some]

/-- No replay runs on a link that is not UP, nor without a place to resend from. -/
theorem replayFlit_none (h : linkUp pc m = false ∨ (link pc m).rpos = none) : replayFlit pc m = none := by
  rcases h with h | h
  · exact if_neg (Bool.eq_false_iff.mp h)
  · simp only [replayFlit, h, Option.bind_none, ite_self]

theorem no_nak_to_send (h : linkState pc m < 2 ∨ (link pc m).nakDue = false) :
    (decide (2 ≤ linkState pc m) && (link pc m).nakDue) = false := by
  rcases h with h | h
  · rw [decide_eq_false (Nat.not_le.mpr h), Bool.false_and]
  · rw [h, Bool.and_false]

theorem flitSend_inactive (h : rd F.LNE_PORT_STATUS_STATE (pc / 32) (pc % 32) m ≠ 6) : flitSend pc m = m := if_pos h

section
variable (ha : rd F.LNE_PORT_STATUS_STATE (pc / 32) (pc % 32) m = 6)
include ha

theorem flitSend_replay {i : Nat} {f : Flit} (hr : replayFlit pc m = some (i, f)) :
    flitSend pc m = resend pc i f (noteStall pc m) := by
  simp only [replayFlit] at hr
  simp only [flitSend, ha, hr, ne_eq, not_true_eq_false, if_false]

section
variable (hr : replayFlit pc m = none)
include hr

theorem flitSend_nak (hs : 2 ≤ linkState pc m) (hn : (link pc m).nakDue = true) : flitSend pc m =
    bump F.LNK_CNT0_NAK_SENT (pc / 32) (pc % 32)
      (sendControl pc 3 (updLink pc (fun k => { k with nakDue := false }) (noteStall pc m))) := by
  simp only [replayFlit] at hr
  simp only [flitSend, ha, hr, hs, hn, ne_eq, not_true_eq_false, decide_true, Bool.and_self, if_false, if_true]

section
variable (hn : linkState pc m < 2 ∨ (link pc m).nakDue = false)
include hn

/-- With no NAK to send, the oldest CONTROL message that waits is sent. -/
theorem flitSend_control {t : Nat} {r : List Nat} (hc : (link pc m).ctl = t :: r) :
    flitSend pc m = sendControl pc t (updLink pc (fun k => { k with ctl := r }) (noteStall pc m)) := by
  simp only [replayFlit] at hr
  simp only [flitSend, ha, hr, no_nak_to_send hn, hc, ne_eq, not_true_eq_false, Bool.false_eq_true, if_false]

/-- With no message either, a data flit goes where the link is UP and has room to hold it, and else a NULL flit. -/
theorem flitSend_no_control (hc : (link pc m).ctl = []) : flitSend pc m =
    ((if linkUp pc m && decide ((link pc m).held < 1024) then pickData pc m else none).elim (sendNull pc (noteStall pc m))
      (fun f => sendData pc f m)) := by
  simp only [replayFlit] at hr
  simp only [flitSend, ha, hr, no_nak_to_send hn, hc, ne_eq, not_true_eq_false, Bool.false_eq_true, if_false]
  split
  · cases pickData pc m <;> rfl
  · rfl

theorem flitSend_data {f : Flit} (hc : (link pc m).ctl = []) (hup : linkUp pc m = true) (hh : (link pc m).held < 1024)
    (hf : pickData pc m = some f) : flitSend pc m = sendData pc f m := by
  simp only [flitSend_no_control ha hr hn hc, hup, hh, hf, decide_true, Bool.and_self, if_true, Option.elim_some]

theorem flitSend_null (hc : (link pc m).ctl = [])
    (hno : linkUp pc m = false ∨ 1024 ≤ (link pc m).held ∨ pickData pc m = none) :
    flitSend pc m = sendNull pc (noteStall pc m) := by
  have hnone : (if linkUp pc m && decide ((link pc m).held < 1024) then pickData pc m else none) = none := by
    rcases hno with h | h | h
    · simp only [h, Bool.false_and, Bool.false_eq_true, if_false]
    · simp only [Nat.not_lt.mpr h, decide_false, Bool.and_false, Bool.false_eq_true, if_false]
    · simp only [h, ite_self]
  rw [flitSend_no_control ha hr hn hc, hnone, Option.elim_none]

end
end
end
end

/-! ## What an arriving flit does (R161, R169) -/

/-- The module once the acknowledgement and the credits of a flit are taken. -/
def takeHeader (pc : Nat) (b : Bytes) (m : Mod) : Mod :=
  updLink pc (fun k => { k with total := upd4 k.total (bits (rdLE b 0 8) 26 2) (fun _ => bits (rdLE b 0 8) 28 12) })
    (takeAck pc (bits (rdLE b 0 8) 12 12) m)

section
variable {pc : Nat} {b : Bytes} {m : Mod}

theorem flitReceive_down (h : linkState pc m < 2) : flitReceive pc b m = m := if_pos h

section
variable (hs : 2 ≤ linkState pc m)
include hs

theorem flitReceive_badCrc (hc : rdLE b 248 8 ≠ crc64 (sub b 0 248)) : flitReceive pc b m = flitBad pc m :=
  (if_neg (Nat.not_lt.mpr hs)).trans (if_pos hc)

section
variable (hc : rdLE b 248 8 = crc64 (sub b 0 248))
include hc

/-- A NULL flit, or one of the reserved kind, does no more than its header. -/
theorem flitReceive_null (hk : bits (rdLE b 0 8) 40 2 = 1 ∨ bits (rdLE b 0 8) 40 2 = 3) :
    flitReceive pc b m = takeHeader pc b m :=
  (if_neg (Nat.not_lt.mpr hs)).trans ((if_neg (not_not_intro hc)).trans (if_pos hk))

section
variable (hk : bits (rdLE b 0 8) 40 2 = 2)
include hk

theorem flitReceive_nak (ht : rdLE (sub b 8 240) 0 1 = 3) : flitReceive pc b m =
    if linkUp pc m && (link pc m).ackValid (bits (rdLE b 0 8) 12 12)
      then beginReplay pc (bump F.LNK_CNT0_REPLAYS (pc / 32) (pc % 32) (takeHeader pc b m)) else takeHeader pc b m := by
  simp [flitReceive, takeHeader, Nat.not_lt.mpr hs, hc, hk, ht]

theorem flitReceive_message (ht : rdLE (sub b 8 240) 0 1 = 1 ∨ rdLE (sub b 8 240) 0 1 = 2) :
    flitReceive pc b m = linkMsgReceive pc (sub b 8 240) (takeHeader pc b m) := by
  rcases ht with ht | ht <;> simp [flitReceive, takeHeader, Nat.not_lt.mpr hs, hc, hk, ht]

/-- A CONTROL flit of no type that the link knows does no more than its header: the facts named select the last case. -/
theorem flitReceive_unknown (ht : rdLE (sub b 8 240) 0 1 = 0 ∨ 3 < rdLE (sub b 8 240) 0 1) :
    flitReceive pc b m = takeHeader pc b m := by
  have hinit : rdLE (sub b 8 240) 0 1 ≠ 1 := by omega
  have hresume : rdLE (sub b 8 240) 0 1 ≠ 2 := by omega
  have hnak : rdLE (sub b 8 240) 0 1 ≠ 3 := by omega
  simp [flitReceive, takeHeader, Nat.not_lt.mpr hs, hc, hk]

end

/-- A DATA flit is not taken in MISMATCH; elsewhere its place in the sequence decides (R161, steps 4 and 5). -/
theorem flitReceive_data {n : Mod} (hk : bits (rdLE b 0 8) 40 2 = 0) (hn : n = takeHeader pc b m) : flitReceive pc b m =
    if linkState pc n = 4 then n
    else if bits (rdLE b 0 8) 0 12 ≠ (link pc n).nrx then
      if 1 ≤ (bits (rdLE b 0 8) 0 12 + 4096 - (link pc n).nrx) % 4096
          ∧ (bits (rdLE b 0 8) 0 12 + 4096 - (link pc n).nrx) % 4096 ≤ 2047
        then askNak pc (bump F.LNK_CNT0_OUT_OF_SEQ (pc / 32) (pc % 32) n) else bump F.LNK_CNT0_OUT_OF_SEQ (pc / 32) (pc % 32) n
    else frameCheck pc (bits (rdLE b 0 8) 24 2) (bits (rdLE b 0 8) 45 8)
      (bit (rdLE b 0 8) 42) (bit (rdLE b 0 8) 43) (bit (rdLE b 0 8) 44) (sub b 8 240)
      (wrB F.LNK_PORT_STATUS_FRESH (pc / 32) (pc % 32) false (count (pc / 32) (12 * (pc % 32) + 3) 1
        (updLink pc (fun k => { k with nrx := ((link pc n).nrx + 1) % 4096, nakOff := false }) n))) := by
  subst hn
  have hnull : ¬ (bits (rdLE b 0 8) 40 2 = 1 ∨ bits (rdLE b 0 8) 40 2 = 3) := by omega
  have hcontrol : bits (rdLE b 0 8) 40 2 ≠ 2 := by omega
  exact (if_neg (Nat.not_lt.mpr hs)).trans ((if_neg (not_not_intro hc)).trans ((if_neg hnull).trans (if_neg hcontrol)))

end
end
end

/-! ## The replay timer, the handshake, enable, disable and flush (R164, R165, R169, R171, R172) -/

section
variable {pc : Nat} {m : Mod}

/-- An expiry with flits held, on an UP link that receives, is counted and begins a replay; at the limit the link is STUCK. -/
theorem replayTimeout_held (hup : linkUp pc m = true) (hh : (link pc m).held ≠ 0)
    (hrx : rd F.LNE_PORT_STATUS_RX_SET (pc / 32) (pc % 32) m ≠ 0) {n : Mod}
    (hn : n = beginReplay pc (bump F.LNK_CNT1_REPLAY_TIMEOUTS (pc / 32) (pc % 32)
      (updLink pc (fun k => { k with expiries := k.expiries + 1 }) m))) : replayTimeout pc m =
      if max 1 (cur F.LNK_PORT_CTRL_REPLAY_LIMIT (pc / 32) (pc % 32) n) ≤ (link pc m).expiries + 1
          ∧ rdB F.LNK_PORT_STATUS_STUCK (pc / 32) (pc % 32) n = false then
        linkEvent (pc / 32) (pc % 32) 3 (wrB F.LNK_PORT_STATUS_STUCK (pc / 32) (pc % 32) true n)
      else n := by
  subst hn
  simp only [replayTimeout, hup, bne_iff_ne.mpr hh, bne_iff_ne.mpr hrx, Bool.and_self, if_true, Bool.not_eq_true']

theorem handshakeSend_handshake (h : linkState pc m = 2) : handshakeSend pc m = queueMsg pc (ownMsg pc m) m := if_pos h

theorem linkEnable_off (h : linkState pc (force F.LNK_PORT_CTRL_ENABLE (pc / 32) (pc % 32) 1 m) = 0) : linkEnable pc m =
    setLink pc (if rd F.LNE_PORT_STATUS_STATE (pc / 32) (pc % 32) (force F.LNK_PORT_CTRL_ENABLE (pc / 32) (pc % 32) 1 m) = 6
      then 2 else 1) (force F.LNK_PORT_CTRL_ENABLE (pc / 32) (pc % 32) 1 m) := if_pos h

theorem linkFlush_up (h : linkUp pc m = true) :
    linkFlush pc m = wrB F.LNK_PORT_STATUS_FLUSH_IGNORED (pc / 32) (pc % 32) true m := if_pos h

/-- What a flush clears, before a MISMATCH ends: the sequence state, the buffers' owner, the recorded peer and the status. -/
def linkFlushed (pc : Nat) (m : Mod) : Mod :=
  wrB F.LNK_PORT_STATUS_STUCK (pc / 32) (pc % 32) false (wrB F.LNK_PORT_STATUS_FRESH (pc / 32) (pc % 32) true (showHeld pc
    (wr F.LNK_PEER_VALID (pc / 32) (pc % 32) 0 (wr F.LNK_PEER_EID (pc / 32) (pc % 32) 0
      (wr F.LNK_PEER_PORT_CODE (pc / 32) (pc % 32) 0
      (updXb (fun y => { y with inq := disown pc y.inq, outq := disown pc y.outq })
        (updLink pc (fun _ => { Link.reset with
            crVc := (link pc m).crVc, cut := (link pc m).cut, slot := (link pc m).slot, slotN := (link pc m).slotN
            replays := (link pc m).replays, excess := (link pc m).excess })
          (bumpBy F.LNK_CNT2_FLUSHED_FLITS (pc / 32) (pc % 32) (link pc m).replay.length m))))))))

theorem linkFlush_not_up (h : linkUp pc m = false) :
    linkFlush pc m = if linkState pc (linkFlushed pc m) = 4 then setLink pc 2 (linkFlushed pc m) else linkFlushed pc m :=
  if_neg (Bool.eq_false_iff.mp h)

end

/-- FLIT_RECEIVE of 256 bytes, the one command of the link with an operand of its own. -/
theorem exec_flitReceive {pc : Nat} {b : Bytes} {s : State} {n : Mod} (hp : pc < 128) (hu : hostUp (pc / 32) s.m = true)
    (hb : b.length = 256) (hn : flitReceive pc b s.m = n) : exec (.flitReceive pc b) s = .next (finish s n) := by
  change execFlitReceive pc b s = _
  exact act_served (by simp only [portNumOk, hp, hb, decide_true, Bool.and_self]) hu hn

/-- Settles O25: what FLIT_SEND and FLIT_RECEIVE do in the order of R157 and R161, the other commands by the state of the link. -/
theorem linksSendAndReceiveFlits : Obligations.LinksSendAndReceiveFlits := by
  refine ⟨?inactive, ?replay, ?nak, ?control, ?data, ?null, ?down, ?badCrc, ?nullIn, ?controlIn, ?mismatch, ?outOfSequence,
    ?inSequence, ?timeout, ?handshake, ?enable, ?disable, ?flushUp, ?flush⟩
  case inactive => exact fun pc s hp hu h => act_portServed hp hu (flitSend_inactive h)
  case replay =>
    exact fun pc i f s hp hu ha hup hr hf => act_portServed hp hu (flitSend_replay ha (replayFlit_some hup hr hf))
  case nak => exact fun pc s hp hu ha hr hs hn => act_portServed hp hu (flitSend_nak ha (replayFlit_none hr) hs hn)
  case control =>
    exact fun pc t r s hp hu ha hr hn hc => act_portServed hp hu (flitSend_control ha (replayFlit_none hr) hn hc)
  case data =>
    exact fun pc f s hp hu ha hup hr hn hc hh hf =>
      act_portServed hp hu (flitSend_data ha (replayFlit_none (.inr hr)) (.inr hn) hc hup hh hf)
  case null =>
    exact fun pc s hp hu ha hr hn hc hno => act_portServed hp hu (flitSend_null ha (replayFlit_none hr) hn hc hno)
  case down => exact fun pc b s hp hu hb h => exec_flitReceive hp hu hb (flitReceive_down h)
  case badCrc => exact fun pc b s hp hu hb hs hc => exec_flitReceive hp hu hb (flitReceive_badCrc hs hc)
  case nullIn =>
    rintro pc b s m hp hu hb hs hc rfl hk
    exact exec_flitReceive hp hu hb (flitReceive_null hs hc hk)
  case controlIn =>
    rintro pc b s m hp hu hb hs hc rfl hk
    exact ⟨fun ht => exec_flitReceive hp hu hb (flitReceive_nak hs hc hk ht),
      fun ht => exec_flitReceive hp hu hb (flitReceive_message hs hc hk ht),
      fun ht => exec_flitReceive hp hu hb (flitReceive_unknown hs hc hk ht)⟩
  case mismatch =>
    rintro pc b s m hp hu hb hs hc rfl hk h4
    exact exec_flitReceive hp hu hb ((flitReceive_data hs hc hk rfl).trans (if_pos h4))
  case outOfSequence =>
    rintro pc b s m hp hu hb hs hc rfl hk h4 hq
    exact exec_flitReceive hp hu hb ((flitReceive_data hs hc hk rfl).trans ((if_neg h4).trans (if_pos hq)))
  case inSequence =>
    rintro pc b s m hp hu hb hs hc rfl hk h4 hq
    exact exec_flitReceive hp hu hb ((flitReceive_data hs hc hk rfl).trans ((if_neg h4).trans (if_neg (not_not_intro hq))))
  case timeout => exact fun pc s hp hu hup hh hrx m hm => act_portServed hp hu (replayTimeout_held hup hh hrx hm)
  case handshake => exact fun pc s hp hu h => act_portServed hp hu (handshakeSend_handshake h)
  case enable => exact fun pc s hp hu h => act_portServed hp hu (linkEnable_off h)
  case disable => exact fun pc s hp hu => act_portServed hp hu rfl
  case flushUp => exact fun pc s hp hu h => act_portServed hp hu (linkFlush_up h)
  case flush =>
    rintro pc s m hp hu h rfl
    exact act_portServed hp hu (linkFlush_not_up h)

end Sys2Proof.Machine
end

section
/-! PROOFS. Packets routed by their first flit, and flock packets copied to the members of their entry (R181, R183, R185, R189,
R204, R205, R207, R210). -/
namespace Sys2Proof.Machine

/-! ## The commands of a crossbar input of a served die -/

section
variable {x vc : Nat} {s : State} {n : Mod} (hx : x < 152) (hv : vc < 4) (hu : hostUp (dieOf x) s.m = true)
include hx hv

theorem inputOk_channel : (inputOk x && decide (vc < 4)) = true := by
  simp only [inputOk, hx, hv, decide_true, Bool.and_self]

include hu

theorem exec_packetRoute (hn : packetRoute x vc s.m = n) : exec (.packetRoute x vc) s = .next (finish s n) := by
  change execPacketRoute x vc s = _
  exact act_served (inputOk_channel hx hv) hu hn

theorem exec_flockReplicate (hn : flockReplicate x vc s.m = n) : exec (.flockReplicate x vc) s = .next (finish s n) := by
  change execFlockReplicate x vc s = _
  exact act_served (inputOk_channel hx hv) hu hn

end

theorem exec_flockDieCopy {e d vc : Nat} {s : State} {n : Mod} (he : e < 4) (hd : d < 4) (hne : e ≠ d) (hv : vc < 4)
    (hu : hostUp d s.m = true) (hn : flockDieCopy e d vc s.m = n) :
    exec (.flockDieCopy e d vc) s = .next (finish s n) := by
  change execFlockDieCopy e d vc s = _
  have hok : (dieOk e && dieOk d && decide (e ≠ d) && decide (vc < 4)) = true := by
    simp only [dieOk, he, hd, hv, decide_eq_true hne, decide_true, Bool.and_self]
  exact act_served hok hu hn

/-! ## Unicast packets (R183, R185, R189) -/

/-- The router takes a packet that comes over no die-to-die link and is no flock packet, its slice in service. -/
theorem packetRoute_taken {x : Nat} {b : Bytes} {m : Mod} (hx : x < 136) (hs : sliceOn (dieOf x) m = true)
    (hf : Hdr.flock b = false) : ¬ (136 ≤ x ∨ Hdr.flock b = true ∨ (!sliceOn (dieOf x) m) = true) := by
  simp [hx, hs, hf]

section
variable {x vc : Nat} {m : Mod}

theorem packetRoute_empty (hq : NMap.get [] m.xb.inq (x * 4 + vc) = []) : packetRoute x vc m = m := by
  simp only [packetRoute, hq]

variable {f : Flit} {l : List Flit} (hq : NMap.get [] m.xb.inq (x * 4 + vc) = f :: l)
include hq

/-- A flock packet is not for the router, and a crossbar slice out of service routes nothing. -/
theorem packetRoute_idle (h : Hdr.flock f.data = true ∨ sliceOn (dieOf x) m = false) : packetRoute x vc m = m := by
  have hidle : 136 ≤ x ∨ Hdr.flock f.data = true ∨ (!sliceOn (dieOf x) m) = true := .inr (by simpa using h)
  simp only [packetRoute, hq, if_pos hidle]

variable (hx : x < 136) (hs : sliceOn (dieOf x) m = true) (hf : Hdr.flock f.data = false)
include hx hs hf

theorem packetRoute_err {e : Fld} (h : routeDecide x vc f.data m = .err e) : packetRoute x vc m =
    switchPacket x vc [] (fun _ b _ => b) (count (dieOf x) 395 1 (bump e (dieOf x) 0 m)) := by
  simp only [packetRoute, hq, if_neg (packetRoute_taken hx hs hf), h]

theorem packetRoute_down {pc : Nat} (h : routeDecide x vc f.data m = .down pc) : packetRoute x vc m =
    switchPacket x vc [] (fun _ b _ => b) (count (dieOf x) 395 1 (bump F.LNK_CNT2_DOWN_DISCARD (pc / 32) (pc % 32) m)) := by
  simp only [packetRoute, hq, if_neg (packetRoute_taken hx hs hf), h]

variable {y : Nat} {code : Option Nat} (h : routeDecide x vc f.data m = .go y code)
include h

theorem packetRoute_noSlot (hslot : slotOk vc (Hdr.res f.data) y m = false) : packetRoute x vc m =
    switchPacket x vc [] (fun _ b _ => b) (noSlot (Hdr.res f.data) y m) := by
  simp only [packetRoute, hq, if_neg (packetRoute_taken hx hs hf), h, hslot, Bool.not_false, if_true]

/-- A packet with a slot goes to the exit; where an open pass chose the port, the pass takes the choice. -/
theorem packetRoute_go (hslot : slotOk vc (Hdr.res f.data) y m = true) : packetRoute x vc m =
    switchPacket x vc [y] (markHead code (flitCount (Hdr.length f.data)) vc)
      (code.elim m (fun pc => passTake (dieOf x) (Hdr.code f.data (Hdr.hopPtr f.data) - 0x80) pc m)) := by
  simp only [packetRoute, hq, if_neg (packetRoute_taken hx hs hf), h, hslot, Bool.not_true, Bool.false_eq_true, if_false]
  cases code with
  | none => rfl
  | some pc => rfl

end

/-! ## Flock packets at the entry die (R204, R205, R207) -/

/-- The members to which a packet of source `s` goes: every one but the port by which it entered. -/
def flockTargets (s : Nat) (e : FlockEnt) : List Nat := (members e).filter (fun y => y != s || decide (128 ≤ y))

/-- The live members on the source's own die. -/
def ownCopies (s vc r : Nat) (e : FlockEnt) (m : Mod) : List Nat × Mod :=
  liveMembers (dieOf s) vc r e ((flockTargets s e).filter (fun y => dieOf y == dieOf s)) m

/-- The flock inputs of the other dies with members; where a die is not reached, its members are pruned. -/
def farCopies (s : Nat) (e : FlockEnt) (m : Mod) : List Nat × Mod :=
  (dies.filter (fun d => d != dieOf s && (flockTargets s e).any (fun y => dieOf y == d))).foldl
    (fun (acc : List Nat × Mod) d =>
      if (crossOf s (32 * d) acc.2).isSome && dieUp d acc.2 then (acc.1 ++ [136 + 4 * dieOf s + d], acc.2)
      else (acc.1, ((flockTargets s e).filter (fun y => dieOf y == d)).foldl (fun m y =>
        prune (dieOf s) ((pruneReason (dieOf s) y m).getD 4) y e m) acc.2)) ([], m)

/-- The entry die takes a flock packet that comes over no die-to-die link, its slice in service. -/
theorem flockReplicate_taken {x : Nat} {b : Bytes} {m : Mod} (hx : x < 136) (hs : sliceOn (dieOf x) m = true)
    (hf : Hdr.flock b = true) : ¬ (136 ≤ x ∨ (!Hdr.flock b) = true ∨ (!sliceOn (dieOf x) m) = true) := by
  simp [hx, hs, hf]

theorem flockReplicate_goodHead {vc : Nat} {b : Bytes} (hl : lengthOk vc (Hdr.length b) = true) (hp : Hdr.hopPtr b < 8) :
    ¬ ((!lengthOk vc (Hdr.length b)) = true ∨ 8 ≤ Hdr.hopPtr b) := by
  simp [hl, hp]

section
variable {x vc : Nat} {m : Mod}

theorem flockReplicate_empty (hq : NMap.get [] m.xb.inq (x * 4 + vc) = []) : flockReplicate x vc m = m := by
  simp only [flockReplicate, hq]

variable {f : Flit} {l : List Flit} (hq : NMap.get [] m.xb.inq (x * 4 + vc) = f :: l) (hx : x < 136)
  (hs : sliceOn (dieOf x) m = true) (hf : Hdr.flock f.data = true)
include hq hx hs hf

theorem flockReplicate_badHead (h : lengthOk vc (Hdr.length f.data) = false ∨ 8 ≤ Hdr.hopPtr f.data) : flockReplicate x vc m =
    switchPacket x vc [] (fun _ b _ => b) (count (dieOf x) 395 1 (bump F.RTE_ERR_CNT0_ROUTE_ERR (dieOf x) 0 m)) := by
  have hbad : (!lengthOk vc (Hdr.length f.data)) = true ∨ 8 ≤ Hdr.hopPtr f.data := by simpa using h
  simp only [flockReplicate, hq, if_neg (flockReplicate_taken hx hs hf), if_pos hbad]

variable (hl : lengthOk vc (Hdr.length f.data) = true) (hp : Hdr.hopPtr f.data < 8)
include hl hp

theorem flockReplicate_miss (h : flockEntry (dieOf x) f.data m = none) : flockReplicate x vc m =
    switchPacket x vc [] (fun _ b _ => b) (count (dieOf x) 395 1 (bump F.RTE_ERR_CNT1_FLOCK_MISS (dieOf x) 0 m)) := by
  simp only [flockReplicate, hq, if_neg (flockReplicate_taken hx hs hf),
    if_neg (flockReplicate_goodHead hl hp), h]

theorem flockReplicate_entry {e : FlockEnt} {own far : List Nat × Mod} (h : flockEntry (dieOf x) f.data m = some e)
    (hown : own = ownCopies x vc (Hdr.res f.data) e m) (hfar : far = farCopies x e own.2) : flockReplicate x vc m =
    switchPacket x vc (own.1 ++ far.1) (fun y b m => if y < 136 then markHead none (flitCount (Hdr.length b)) vc y b m else b)
      (count (dieOf x) 393 (own.1 ++ far.1).length far.2) := by
  subst hown hfar
  simp only [flockReplicate, hq, if_neg (flockReplicate_taken hx hs hf),
    if_neg (flockReplicate_goodHead hl hp), h]
  rfl

end

/-! ## The copy at a member die (R205) -/

section
variable {e d vc : Nat} {m : Mod} {f : Flit} {l : List Flit}
  (hq : NMap.get [] m.xb.inq ((136 + 4 * e + d) * 4 + vc) = f :: l) (hs : sliceOn d m = true)
include hq hs

theorem flockDieCopy_miss (h : flockEntry d f.data m = none) : flockDieCopy e d vc m =
    switchPacket (136 + 4 * e + d) vc [] (fun _ b _ => b) (bump F.RTE_ERR_CNT1_FLOCK_MISS d 0 m) := by
  simp only [flockDieCopy, hq, hs, Bool.not_true, Bool.false_eq_true, if_false, h]

theorem flockDieCopy_entry {en : FlockEnt} {own : List Nat × Mod} (h : flockEntry d f.data m = some en)
    (hown : own = liveMembers d vc (Hdr.res f.data) en ((members en).filter (fun y => dieOf y == d)) m) :
    flockDieCopy e d vc m = switchPacket (136 + 4 * e + d) vc own.1
      (fun y b m => markHead none (flitCount (Hdr.length b)) vc y b m) (count d 393 own.1.length own.2) := by
  subst hown
  simp only [flockDieCopy, hq, hs, Bool.not_true, Bool.false_eq_true, if_false, h]

end

/-- Settles O26: routing by the verdict of `routeDecide`, replication by the head and the entry that admits the packet. -/
theorem packetsAreRoutedByTheirFirstFlit : Obligations.PacketsAreRoutedByTheirFirstFlit := by
  have input {x : Nat} (hx : x < 136) : x < 152 := Nat.lt_trans hx (by decide)
  refine ⟨?empty, ?err, ?down, ?go, ?noSlot, ?idle, ?pass, ?miss, ?replicate, ?badHead, ?dieCopy, ?dieMiss⟩
  case empty =>
    exact fun x vc s hx hv hu hq =>
      ⟨exec_packetRoute hx hv hu (packetRoute_empty hq), exec_flockReplicate hx hv hu (flockReplicate_empty hq)⟩
  case err =>
    exact fun x vc f l e s hx hv hu hs hq hf h => exec_packetRoute (input hx) hv hu (packetRoute_err hq hx hs hf h)
  case down =>
    exact fun x vc f l pc s hx hv hu hs hq hf h => exec_packetRoute (input hx) hv hu (packetRoute_down hq hx hs hf h)
  case go =>
    exact fun x vc f l y s hx hv hu hs hq hf h hslot =>
      exec_packetRoute (input hx) hv hu (packetRoute_go hq hx hs hf h hslot)
  case noSlot =>
    exact fun x vc f l y z s hx hv hu hs hq hf h hslot =>
      exec_packetRoute (input hx) hv hu (packetRoute_noSlot hq hx hs hf h hslot)
  case idle =>
    exact fun x vc f l s hx hv hu hq h => exec_packetRoute (input hx) hv hu (packetRoute_idle hq h)
  case pass =>
    exact fun x vc f l y pc s hx hv hu hs hq hf h hslot =>
      exec_packetRoute (input hx) hv hu (packetRoute_go hq hx hs hf h hslot)
  case miss =>
    exact fun x vc f l s hx hv hu hs hq hf hl hp h =>
      exec_flockReplicate (input hx) hv hu (flockReplicate_miss hq hx hs hf hl hp h)
  case replicate =>
    rintro x vc f l e all own far s hx hv hu hs hq hf hl hp h rfl hown hfar
    exact exec_flockReplicate (input hx) hv hu (flockReplicate_entry hq hx hs hf hl hp h hown hfar)
  case badHead =>
    exact fun x vc f l s hx hv hu hs hq hf h =>
      exec_flockReplicate (input hx) hv hu (flockReplicate_badHead hq hx hs hf h)
  case dieCopy =>
    exact fun e d vc f l en s he hd hne hv hu hs hq h =>
      exec_flockDieCopy he hd hne hv hu (flockDieCopy_entry hq hs h rfl)
  case dieMiss =>
    exact fun e d vc f l s he hd hne hv hu hs hq h =>
      exec_flockDieCopy he hd hne hv hu (flockDieCopy_miss hq hs h)

end Sys2Proof.Machine
end

section
/-! PROOFS. Arriving packets, contexts that become resident, retries, GET responses and idle trackers (R242, R251, R252, R255, R256,
R257, R259, R261, R262, R266, R311). -/
namespace Sys2Proof.Machine

/-! ## The commands of a conduit of a served die -/

section
variable {d cn : Nat} {s : State} {n : Mod} (hd : d < 4) (hc : cn < 2 ^ 24)
include hd hc

theorem conduitOk_served : (dieOk d && conduitOk cn) = true := by
  simp only [dieOk, conduitOk, hd, hc, decide_true, Bool.and_self]

/-- A command of a conduit of a served die has its effect. -/
theorem act_conduitServed {g : Mod → Mod} (hu : hostUp d s.m = true) (hg : g s.m = n) :
    act (dieOk d && conduitOk cn) s (fun _ m => when (hostUp d m) g m) = .next (finish s n) :=
  act_served (conduitOk_served hd hc) hu hg

theorem exec_notReadyRetry {psn : Nat} {ans : HostAns} (hp : psn < 2 ^ 32) (hu : hostUp d s.m = true)
    (hn : notReadyRetry d cn psn ans s.m = n) : exec (.notReadyRetry d cn psn ans) s = .next (finish s n) := by
  change execNotReadyRetry d cn psn ans s = _
  exact act_served (by simp only [conduitOk_served hd hc, hp, decide_true, Bool.and_self]) hu hn

end

theorem exec_trackerIdleTimeout {d k : Nat} {s : State} {n : Mod} (hd : d < 4) (hk : k < 4096) (hu : hostUp d s.m = true)
    (hn : trkIdle d k s.m = n) : exec (.trackerIdleTimeout d k) s = .next (finish s n) := by
  change execTrackerIdleTimeout d k s = _
  exact act_served (by simp only [dieOk, hd, hk, decide_true, Bool.and_self]) hu hn

/-! ## Packets that arrive (R242, R257, R259) -/

section
variable {d cn : Nat} {b : Bytes} {l : List Bytes} {m : Mod}

/-- A packet that was held for its context goes on at step 7. -/
theorem transportArrive_held {r : List (Nat × Bytes)} (h : NMap.get [] m.trn.resume d = (cn, b) :: r) (ans : HostAns) :
    transportArrive d ans m = step7 d cn b ans (updTrn (fun t => { t with
      resume := if r.isEmpty then NMap.del t.resume d else NMap.put t.resume d r }) m) := by
  simp only [transportArrive, h]

theorem transportArrive_noneHeld (h : NMap.get [] m.trn.resume d = []) (ans : HostAns) :
    transportArrive d ans m = takeNext d ans m := by
  simp only [transportArrive, h]

section
variable (h : NMap.get [] m.xb.tq d = b :: l)
include h

theorem takeNext_delivered (ans : HostAns) : takeNext d ans m = arrive d b ans
    (updXb (fun y => { y with tq := if l.isEmpty then NMap.del y.tq d else NMap.put y.tq d l }) m) := by
  simp only [takeNext, h]

theorem ackReceive_ack (ha : (Th.of b).op = Op.ack) (ans : HostAns) : ackReceive d ans m = takeNext d ans m := by
  simp only [ackReceive, h, if_pos ha]

theorem ackReceive_other (ha : (Th.of b).op ≠ Op.ack) (ans : HostAns) : ackReceive d ans m = m := by
  simp only [ackReceive, h, if_neg ha]

end

/-- Once the context is there, the packets held for it go on in the order in which they came (R242). -/
theorem fetchComplete_resident {ans : HostAns} {n : Mod} (h : makeResident d cn ans m = some n) : fetchComplete d cn ans m =
    ((pen d n).filter (fun e => e.1 == cn)).foldl (fun m e =>
      if (pen d m).contains e then step7 d cn e.2 ans (setPen d ((pen d m).erase e) m) else m) n := by
  simp only [fetchComplete, h]

end

/-! ## Retries (R255, R256) -/

/-- What becomes of a conduit at its retry limit, `c` its context when the timer ran out (R256). -/
def retryEnd (d cn : Nat) (c : Cond) (m : Mod) : Mod :=
  if c.state ≠ CSt.closing ∧ c.mcast ∧ !c.fromGate then
    (if c.state = CSt.open_ then mcastPartial d cn m else showRetry d cn m)
  else closeCond d cn 3 St.retryExceeded 0 m

section
variable {d cn : Nat} {c : Cond} {m : Mod}

/-- A conduit without leaves of its own is closed, and so is one that closes. -/
theorem retryEnd_unicast (h : c.mcast = false ∨ c.fromGate = true ∨ c.state = CSt.closing) :
    retryEnd d cn c m = closeCond d cn 3 St.retryExceeded 0 m :=
  if_neg fun ⟨hs, hm, hg⟩ => h.elim (ne_true_of_eq_false · hm) fun h => h.elim (fun hgate => by simp [hgate] at hg) hs

theorem retryEnd_multicast (hm : c.mcast = true) (hg : c.fromGate = false) (hs : c.state = CSt.open_) :
    retryEnd d cn c m = mcastPartial d cn m :=
  (if_pos ⟨by rw [hs]; decide, hm, by rw [hg]; rfl⟩).trans (if_pos hs)

/-- The timer of a conduit with open packets: a retry is counted, what is old is sent again, and then the limit decides. -/
theorem retryTimeout_open {ans : HostAns} {k n : Mod} (hr : (cond d cn m).recs ≠ []) (hs : (cond d cn m).state ≠ CSt.closed)
    (hk : k = updCond d cn (fun c => { c with retries := min 255 (c.retries + 1) })
      (if now d m < (cond d cn m).retryAt then runTo d (cond d cn m).retryAt m else m))
    (hn : n = ((cond d cn m).recs.filter (fun r => decide (r.time + rto (cond d cn m) ≤ now d k))).foldl
      (fun m r => resendRec d cn ans r m) k) :
    retryTimeout d cn ans m = if (cond d cn m).retryLimit ≤ (cond d cn m).retries + 1 then retryEnd d cn (cond d cn m) n
      else showRetry d cn n := by
  subst hk hn
  exact if_neg (by simp [hr, hs])

/-- A packet refused by NOT_READY is sent again at its time. -/
theorem notReadyRetry_due {psn t : Nat} {r : Rec} (hr : (cond d cn m).recs.find? (fun r => r.psn == psn) = some r)
    (ht : r.again = some t) (ans : HostAns) : notReadyRetry d cn psn ans m =
      showRetry d cn (resendRec d cn ans r (if now d m < t then runTo d t m else m)) := by
  simp only [notReadyRetry, hr, ht]

end

/-! ## GET responses and trackers (R261, R311) -/

theorem getSegment_oldest {d cn : Nat} {g : Msg} {m : Mod}
    (h : (cond d cn m).msgs.find? (fun g => g.op == Op.getRsp && !g.all) = some g) (ans : HostAns) : getSegment d cn ans m =
      (injectPacket d cn g.id ans ((fnStop d (cond d cn m).fn m).map (fun dt => (St.remoteAccess, dt))) m).2 := by
  simp only [getSegment, h]

theorem trkIdle_tracked {d k due : Nat} {t : Trk} {m : Mod} (h : NMap.find m.trn.trk (d * 4096 + k) = some t)
    (hdue : due = t.last + 1000 * max 1 (cur F.CND_TIMING_TRK_IDLE_US d 0 m)) :
    trkIdle d k m = trkFree d k (if now d m < due then runTo d due m else m) := by
  simp only [trkIdle, h, hdue]

/-- Settles O28: each command by what waits for it; RETRY_TIMEOUT by `retryTimeout_open` and the limit. -/
theorem arrivingPacketsReachTheirConduit : Obligations.ArrivingPacketsReachTheirConduit := by
  have die {d : Nat} (hd : d < 4) : dieOk d = true := decide_eq_true hd
  refine ⟨?held, ?next, ?ack, ?notAck, ?fetched, ?retry, ?notReady, ?segment, ?tracker⟩
  case held => exact fun d ans cn b l s hd hu h => act_served (die hd) hu (transportArrive_held h ans)
  case next =>
    exact fun d ans b l s hd hu h0 h =>
      act_served (die hd) hu ((transportArrive_noneHeld h0 ans).trans (takeNext_delivered h ans))
  case ack =>
    exact fun d ans b l s hd hu h ha => act_served (die hd) hu ((ackReceive_ack h ha ans).trans (takeNext_delivered h ans))
  case notAck => exact fun d ans b l s hd hu h ha => act_served (die hd) hu (ackReceive_other h ha ans)
  case fetched => exact fun d cn ans m s hd hc hu h => act_conduitServed hd hc hu (fetchComplete_resident h)
  case retry =>
    intro d cn ans m n s hd hc hu hr hs hm hn
    have hopen := retryTimeout_open hr hs hm hn
    refine ⟨fun hlt => ?below, fun hle h => ?close, fun hle hmc hg ho => ?partly⟩
    case below => exact act_conduitServed hd hc hu (hopen.trans (if_neg (Nat.not_le.mpr hlt)))
    case close => exact act_conduitServed hd hc hu (hopen.trans ((if_pos hle).trans (retryEnd_unicast h)))
    case partly => exact act_conduitServed hd hc hu (hopen.trans ((if_pos hle).trans (retryEnd_multicast hmc hg ho)))
  case notReady =>
    exact fun d cn psn ans r t s hd hc hp hu hr ht => exec_notReadyRetry hd hc hp hu (notReadyRetry_due hr ht ans)
  case segment => exact fun d cn ans g s hd hc hu h => act_conduitServed hd hc hu (getSegment_oldest h ans)
  case tracker => exact fun d k t s hd hk hu h => exec_trackerIdleTimeout hd hk hu (trkIdle_tracked h rfl)

end Sys2Proof.Machine
end

section
/-! PROOFS. Conduits enabled by function and closed, flit buffers, the gate pool and old keys (R243, R245, R248, R264, R266, R323). -/
namespace Sys2Proof.Machine

/-! ## A function's conduits and its gate pool (R243, R248) -/

section
variable {d f : Nat} {m : Mod}

theorem cndFnEnable_on (h : cndOn d f m = false) (hr : rangeConflict d f m = false) :
    cndFnEnable d f true m = force F.CND_FN_CTL_ENABLE d f 1 m :=
  (if_neg (ne_true_of_eq_false h)).trans (if_neg (ne_true_of_eq_false hr))

theorem cndFnEnable_conflict (h : cndOn d f m = false) (hr : rangeConflict d f m = true) :
    cndFnEnable d f true m = wrB F.CND_STATUS_RANGE_CONFLICT d 0 true (force F.CND_FN_CTL_ENABLE d f 0 m) :=
  (if_neg (ne_true_of_eq_false h)).trans (if_pos hr)

theorem cndFnEnable_off (h : cndOn d f m = true) :
    cndFnEnable d f false m = closeFn d f St.conduitClosed (force F.CND_FN_CTL_ENABLE d f 0 m) := if_pos h

/-- The conduit numbers that a refill looks at: those of the gate range, no more of them than are sure to hold `target` free
ones. -/
def gateNumbers (d f target : Nat) (m : Mod) : List Nat :=
  (List.range (min (min (fnGate d f m) (fnCount d f m)) (target + (gatePool d f m).length + (condsOf d m).length))).map
    (fun i => fnBase d f m + fnCount d f m - min (fnGate d f m) (fnCount d f m) + i)

/-- A pool below half its target is filled up to it from the CLOSED conduits of the gate range. -/
theorem gateRefill_low {target : Nat} (ht : target = min 256 (cur F.CND_FN_GATE_GATE_TARGET d f m)) (h : cndOn d f m = true)
    (hlow : 2 * (gatePool d f m).length < target) : gateRefill d f m =
      setGate d f (gatePool d f m ++ ((gateNumbers d f target m).filter
        (fun cn => condState d cn m == CSt.closed && !(gatePool d f m).contains cn)).take (target - (gatePool d f m).length)) m := by
  subst ht
  exact if_neg (not_or_intro (by simp [h]) (Nat.not_le.mpr hlow))

end

/-! ## The close of a conduit (R266) -/

section
variable {d cn : Nat} {m : Mod}

/-- CLOSE is not sent of a conduit that does not close, has sent it, or has packets without a result. -/
theorem closeSend_idle (h : condState d cn m ≠ CSt.closing ∨ (cond d cn m).closeSent = true ∨ (cond d cn m).recs ≠ []
    ∨ (cond d cn m).msgs.any (fun g => !g.all) = true) : closeSend d cn m = m :=
  if_pos (by rcases h with h | h | h | h <;> simp [h])

/-- The path that CLOSE takes, and the module once it is chosen; a multicast conduit that is not of a gate has none. -/
def closePath (d cn : Nat) (m : Mod) : Option Nat × Mod :=
  if (cond d cn m).mcast = true ∧ (cond d cn m).fromGate = false then (none, m)
  else choosePath d cn none (pathFetch d (cond d cn m).peer m)

/-- The record of the CLOSE that is sent over `path`. -/
def closeRec (d cn : Nat) (path : Option Nat) (m : Mod) : Rec :=
  { psn := (cond d cn m).txNext, msg := 2 ^ 40, op := Op.close, off := 0, len := 0, path := path, round := 0, time := now d m
    acks := 0, again := none }

/-- A resident conduit that closes, with every result there, sends CLOSE where the throttle of its path lets a packet start. -/
theorem closeSend_due (hs : condState d cn m = CSt.closing) (hc : (cond d cn m).closeSent = false) (hr : (cond d cn m).recs = [])
    (hg : (cond d cn m).msgs.any (fun g => !g.all) = false) (hres : (cond d cn m).resident = true) {ch : Option Nat × Mod}
    {th : Bool × Mod} {r : Rec} (hch : ch = closePath d cn m) (hth : th = mayLaunch d cn Op.close ch.1 1 ch.2)
    (hrec : r = closeRec d cn ch.1 m) :
    closeSend d cn m = if (!th.1) = true then th.2
      else showRetry d cn (launch d cn 0 r (msgTh cn (cond d cn m) { Msg.blank with id := 0 } r) []
        (updCond d cn (fun c => { c with
          txNext := (c.txNext + 1) % 2 ^ 32, recs := [r], closeSent := true, pktsTx := (c.pktsTx + 1) % 2 ^ 64 })
          (count d 448 1 th.2))) := by
  subst hrec hth hch
  simp [closeSend, closePath, closeRec, hs, hc, hr, hg, hres]

/-! ## Flit buffers (R264) -/

theorem bufGrant_free (hw : (cond d cn m).bufWait = true) (hf : 0 < bufFree d m) : bufGrant d cn m =
    showBufs d (updCond d cn (fun c => { c with bufs := c.bufs + 1, bufWait := false }) m) :=
  (if_neg (by simp [hw])).trans (if_pos hf)

/-- A conduit that holds no buffer may have one of the reserve when no other is free. -/
theorem bufGrant_reserve (hw : (cond d cn m).bufWait = true) (hf : bufFree d m = 0) (hb : (cond d cn m).bufs = 0)
    (hr : reserveUsed d m < reserveSize d m) : bufGrant d cn m =
      showBufs d (updCond d cn (fun c => { c with bufs := 1, fromReserve := true, bufWait := false }) m) :=
  (if_neg (by simp [hw])).trans ((if_neg (Nat.not_lt.mpr (Nat.le_of_eq hf))).trans (if_pos ⟨hb, hr⟩))

end

/-! ## Old keys (R323) -/

theorem oldKeyExpiry_key {d p : Nat} {k : PKey} {m : Mod} (h : pkey d p m = some k) :
    oldKeyExpiry d p m = { m with keys := NMap.put m.keys (d * 65536 + p) { k with old := none } } := by
  simp only [oldKeyExpiry, h]

/-- Settles O29: each command in the case that its premises name; CLOSE_SEND by `closeSend_due` and the throttle. -/
theorem conduitsOpenCloseAndTakeBuffers : Obligations.ConduitsOpenCloseAndTakeBuffers := by
  have fn {d f : Nat} (hd : d < 4) (hf : f < 1026) : (dieOk d && fnOk f) = true := by
    simp only [dieOk, fnOk, hd, hf, decide_true, Bool.and_self]
  refine ⟨?on, ?conflict, ?off, ?close, ?closeIdle, ?buffer, ?reserve, ?refill, ?oldKey⟩
  case on => exact fun d f s hd hf hu h hr => act_served (fn hd hf) hu (cndFnEnable_on h hr)
  case conflict => exact fun d f s hd hf hu h hr => act_served (fn hd hf) hu (cndFnEnable_conflict h hr)
  case off => exact fun d f s hd hf hu h => act_served (fn hd hf) hu (cndFnEnable_off h)
  case close =>
    intro d cn ch th r s hd hc hu hs hsent hr hg hres hch hth hrec
    have hdue := closeSend_due hs hsent hr hg hres hch hth hrec
    exact ⟨fun ht => act_conduitServed hd hc hu (hdue.trans (if_neg (by rw [ht]; decide))),
      fun ht => act_conduitServed hd hc hu (hdue.trans (if_pos (by rw [ht]; rfl)))⟩
  case closeIdle => exact fun d cn s hd hc hu h => act_conduitServed hd hc hu (closeSend_idle h)
  case buffer => exact fun d cn s hd hc hu hw hf => act_conduitServed hd hc hu (bufGrant_free hw hf)
  case reserve => exact fun d cn s hd hc hu hw hf hb hr => act_conduitServed hd hc hu (bufGrant_reserve hw hf hb hr)
  case refill => exact fun d f s hd hf hu h hlow => act_served (fn hd hf) hu (gateRefill_low rfl h hlow)
  case oldKey =>
    exact fun d p k s hd hp h =>
      act_does (by simp only [dieOk, hd, hp, decide_true, Bool.and_self]) (oldKeyExpiry_key h)

end Sys2Proof.Machine
end

section
/-! PROOFS. Entries that are taken, and those that start no message: NOP, RECV_POST, COLL_START, CONDUIT_OPEN, CONDUIT_CLOSE and
FM_SEND (R240, R241, R246, R266, R277, R281, R282, R283, R284, R287, R353, R373). -/
namespace Sys2Proof.Machine

/-! ## An entry that is taken (R274, R289) -/

/-- A command that takes the entry does to it what its opcode does; then the queue reads ahead. -/
theorem Takes.acts {code d q : Nat} {b : Bytes} {s : State} {e : Ent} {m n : Mod} (h : Takes code d q b s e m)
    {run : Ent → Mod → Mod} (hn : run e m = n) :
    act (dieOk d && queueOk q) s (fun _ m => when (hostUp d m) (fun m => takeOp code d q run m) m)
      = .next (finish s (entryAfter d q n)) := by
  obtain ⟨hd, hq, hu, hb, hop, hcr, rfl, rfl⟩ := h
  refine act_served (by simp only [dieOk, queueOk, hd, hq, decide_true, Bool.and_self]) hu ?_
  simp only [takeOp, hb, hop, if_true, takeEntry, hcr, Bool.not_true, Bool.false_eq_true, if_false, hn, entryAfter]

/-! ## The checks of R287 -/

theorem firstBadOf2_none {a b : Option Nat} (ha : a = none) (hb : b = none) : firstBadOf2 a b = none := by
  rw [ha, hb]
  rfl

theorem badIf_none {c : Bool} (h : c = false) (detail : Nat) : badIf c detail = none := if_neg (ne_true_of_eq_false h)

section
variable {e : Ent} {m : Mod}

/-- An entry whose bytes 16 to 63 are reserved passes step 1 with them all zero. -/
theorem badReserved_none (hc : e.badCommon 0 1 = none) (hz : zeroAt e.b 16 48 = true) :
    firstBadOf2 (e.badCommon 0 1) (badIf (!zeroAt e.b 16 48) Mal.reservedSet) = none :=
  firstBadOf2_none hc (badIf_none (by rw [hz]; rfl) _)

/-- An entry of a conduit that is open to it and passes step 1 goes on to its further steps. -/
theorem Ent.onConduit_connected {bad : Option Nat} (hb : bad = none) (hc : e.connected m) (rest : Mod → Mod) :
    e.onConduit bad rest m = rest m := by
  obtain ⟨hr, hg, hl⟩ := hc
  subst hb
  simp [Ent.onConduit, hr, hg, hl]

/-- An entry whose buffer passes steps 5 and 6 goes on with its fragments. -/
theorem Ent.withBuf_checked {tbl len off kind : Nat} {ans : HostAns} {l : List (Nat × Nat)} {m1 m2 : Mod} {z : Bytes} {se : Bool}
    (hf : e.fragments tbl len off ans m = (.inl l, m1))
    (hk : checkBuf e.die e.fn e.xctx kind Cls5.local_ ans l false m1 = (.ok z, se, m2))
    (rest : List (Nat × Nat) → Bool → Mod → Mod) : e.withBuf tbl len off kind ans rest m = rest l se m2 := by
  simp only [Ent.withBuf, hf, hk]

/-! ## What each opcode does -/

theorem workNop_passed (hc : e.badCommon 0 1 = none) (hz : zeroAt e.b 16 48 = true) : workNop e m = e.done St.ok 0 0 m := by
  simp only [workNop, badReserved_none hc hz]

section
variable {ans : HostAns} {l : List (Nat × Nat)} {m1 m2 n : Mod} {z : Bytes} {se : Bool} (hb : e.badRecv = none)
  (hf : e.fragments 16 (rdLE e.b 44 4) 48 ans m = (.inl l, m1))
  (hk : checkBuf e.die e.fn e.xctx 1 Cls5.local_ ans l false m1 = (.ok z, se, m2))
include hb hf hk

/-- A receive whose buffer is good and that the matching unit takes completes later, when a message is matched (R353). -/
theorem workRecv_posted (hx : Machine.recvPost e.die (e.aux % 4096) e.fn (e.recv l (now e.die m2)) m2 = (none, n)) :
    workRecv e ans m = n := by
  simp only [workRecv, hb, Ent.withBuf_checked hf hk, hx]

theorem workRecv_refused {f : Nat × Nat}
    (hx : Machine.recvPost e.die (e.aux % 4096) e.fn (e.recv l (now e.die m2)) m2 = (some f, n)) :
    workRecv e ans m = e.done f.1 f.2 0 n := by
  simp only [workRecv, hb, Ent.withBuf_checked hf hk, hx]

end

theorem workColl_checked {ans : HostAns} {p : Bool} {n : Mod} (hb : e.badColl m = none) (hp : e.coll.prog < 256)
    (hk : e.collCheck ans (collBufs e.die e.coll m) m = (none, n)) (hs : collStartCheck e.die e.fn e.coll n = .inr p) :
    workColl e ans m = Machine.collStart e.die e.coll p e.owner n := by
  simp only [workColl, hb, hp, decide_true, if_true, hk, Bool.not_true, Bool.false_eq_true, if_false, hs]

/-- CONDUIT_OPEN past step 1: whose the conduit is comes before its arguments (R246). -/
theorem workOpen_passed (hb : e.badOpen = none) : workOpen e m = if e.openDenied m = true then e.done St.accessDenied 0 0 m
    else if e.openBad m = true then e.malformed Mal.badArgument m
    else e.done St.ok 0 0 (saveCond e.die e.cn (extClear e.die (e.openCond m)
      (setCond e.die e.cn (e.openCond m) (energy e.die 23 10 4 m)))) := by
  simp only [workOpen, hb]

theorem workClose_connected (hc : e.badCommon 0 1 = none) (hz : zeroAt e.b 16 48 = true) (h : e.connected m) :
    workClose e m = startClose e.die e.cn (e.done St.ok 0 0 m) :=
  Ent.onConduit_connected (badReserved_none hc hz) h _

/-- FM_SEND past step 1: its packet is a PF's to send (R284). -/
theorem workFm_passed (hc : e.badCommon 0 65536 = none) (hcn : e.cn < 2 ^ 20) (h0 : 0 < rdLE e.b 14 1) (h8 : rdLE e.b 14 1 ≤ 8)
    (h40 : rdLE e.b 15 1 ≤ 40) : workFm e m = if isPf e.die e.fn m = true then e.done St.ok 0 0 (startPacket e.die false 3
        (mkHdr ((List.range 8).map (fun i => rdLE e.b (16 + i) 1)) (rdLE e.b 14 1) false false 0 e.cn (eidOf e.die m) 0 3
          (24 + rdLE e.b 15 1) 0 ++ sub e.b 24 (rdLE e.b 15 1)) m)
      else e.done St.accessDenied 0 0 m := by
  have hlen : ¬ (rdLE e.b 14 1 = 0 ∨ 8 < rdLE e.b 14 1 ∨ 40 < rdLE e.b 15 1) := by omega
  have hbad := firstBadOf2_none hc (firstBadOf2_none (badIf_none (decide_eq_false (Nat.not_le.mpr hcn)) Mal.reservedSet)
    (badIf_none (decide_eq_false hlen) Mal.badLength))
  cases hpf : isPf e.die e.fn m <;> simp only [workFm, hbad, hpf] <;> rfl

end

/-- Settles O33: each opcode's effect on the entry that is taken, past the checks that its premises name. -/
theorem otherEntriesHaveTheirEffect : Obligations.OtherEntriesHaveTheirEffect := by
  refine ⟨?nop, ?recvPosted, ?recvRefused, ?coll, ?open_, ?openBad, ?openDenied, ?close, ?fmPf, ?fmVf⟩
  case nop => exact fun d q b s e m h hc hz => h.acts (workNop_passed hc hz)
  case recvPosted => exact fun d q ans b s e m l m1 z se m2 m3 h hb hf hk hx => h.acts (workRecv_posted hb hf hk hx)
  case recvRefused => exact fun d q ans b s e m l m1 z se m2 f m3 h hb hf hk hx => h.acts (workRecv_refused hb hf hk hx)
  case coll => exact fun d q ans b s e m p m2 h hb hp hk hs => h.acts (workColl_checked hb hp hk hs)
  case open_ =>
    exact fun d q b s e m h hb hd ha => h.acts ((workOpen_passed hb).trans
      ((if_neg (ne_true_of_eq_false hd)).trans (if_neg (ne_true_of_eq_false ha))))
  case openBad =>
    exact fun d q b s e m h hb hd ha => h.acts ((workOpen_passed hb).trans ((if_neg (ne_true_of_eq_false hd)).trans (if_pos ha)))
  case openDenied => exact fun d q b s e m h hb hd => h.acts ((workOpen_passed hb).trans (if_pos hd))
  case close => exact fun d q b s e m h hc hz hcon => h.acts (workClose_connected hc hz hcon)
  case fmPf =>
    exact fun d q b s e m h hc hcn h0 h8 h40 hpf => h.acts ((workFm_passed hc hcn h0 h8 h40).trans (if_pos hpf))
  case fmVf =>
    exact fun d q b s e m h hc hcn h0 h8 h40 hvf =>
      h.acts ((workFm_passed hc hcn h0 h8 h40).trans (if_neg (ne_true_of_eq_false hvf)))

end Sys2Proof.Machine
end

section
/-! PROOFS. The work commands: each takes its queue's next entry where that has its opcode (R274, R277, R287, R289). -/
namespace Sys2Proof.Machine

/-! ## Taking an entry by its opcode -/

section
variable {code d q : Nat} {run : Ent → Mod → Mod} {m : Mod}

/-- With no entry of the opcode to take, none is taken. -/
theorem takeOp_other (h : ∀ b, nextEntry d q m = some b → rdLE b 0 1 ≠ code) : takeOp code d q run m = m := by
  cases hb : nextEntry d q m with
  | none => simp only [takeOp, hb]
  | some b => simp only [takeOp, hb, if_neg (h b hb)]

/-- An entry whose completion ring is unusable halts its queue and stays in it (R274). -/
theorem takeOp_badRing {b : Bytes} (hb : nextEntry d q m = some b) (hop : rdLE b 0 1 = code)
    (hcr : crUsable d q (rdLE b 2 2) m = false) : takeOp code d q run m = haltQueue d q 4 m := by
  simp only [takeOp, hb, if_pos hop, takeEntry, hcr, Bool.not_false, if_true]

/-- Only what is done to entries of the opcode matters: an entry taken has it. -/
theorem takeOp_congr {run' : Ent → Mod → Mod} (h : ∀ e, e.op = code → run e = run' e) :
    takeOp code d q run = takeOp code d q run' := by
  funext m
  cases hb : nextEntry d q m with
  | none => simp only [takeOp, hb]
  | some b =>
    by_cases hop : rdLE b 0 1 = code
    · have hrun : run (entryOf d q b m) = run' (entryOf d q b m) := h _ hop
      simp only [takeOp, hb, takeEntry, hrun]
    · simp only [takeOp, hb, if_neg hop]

end

/-! ## The work commands -/

/-- The work commands of a queue, each with its opcode (R277). -/
def workRows (d q : Nat) (ans : HostAns) : List (Nat × Instr) :=
  [(0x01, .nop d q), (0x10, .put d q ans), (0x11, .get d q ans), (0x12, .send d q ans), (0x20, .add32 d q ans),
   (0x21, .add64 d q ans), (0x22, .fetchAdd32 d q ans), (0x23, .fetchAdd64 d q ans), (0x24, .cas32 d q ans),
   (0x25, .cas64 d q ans), (0x26, .cas128 d q ans), (0x30, .lockAcquire d q), (0x31, .lockTry d q), (0x32, .lockRelease d q),
   (0x38, .recvPost d q ans), (0x40, .collStart d q ans), (0x50, .conduitOpen d q), (0x51, .conduitClose d q),
   (0x60, .fmSend d q)]

/-- The command that takes the queue's next entry where it has opcode `code`, with what `run` does to it. -/
def takeCommand (code d q : Nat) (run : Ent → Mod → Mod) (s : State) : Result :=
  act (dieOk d && queueOk q) s (fun _ m => when (hostUp d m) (fun m => takeOp code d q run m) m)

theorem takeCommand_congr {code : Nat} {run run' : Ent → Mod → Mod} (h : ∀ e, e.op = code → run e = run' e) (d q : Nat)
    (s : State) : takeCommand code d q run s = takeCommand code d q run' s := by
  simp only [takeCommand, takeOp_congr h]

/-- What a work command does to an entry is what the entry's opcode does, which GROUP_TURN does to it as well. -/
theorem exec_workRow {d q : Nat} {ans : HostAns} {r : Nat × Instr} (hr : r ∈ workRows d q ans) (s : State) :
    exec r.2 s = takeCommand r.1 d q (fun e m => workOf e ans m) s := by
  revert r
  simp only [workRows, List.forall_mem_cons]
  refine ⟨?_, ?_, ?_, ?_, ?_, ?_, ?_, ?_, ?_, ?_, ?_, ?_, ?_, ?_, ?_, ?_, ?_, ?_, ?_, fun _ h => absurd h List.not_mem_nil⟩
  all_goals
    refine takeCommand_congr (fun e h => ?_) d q s
    funext m
    simp only [workOf, h]

/-- Settles O30: every work command is `takeOp` of its opcode, whose three cases the clauses name. -/
theorem queuesTakeTheirNextEntry : Obligations.QueuesTakeTheirNextEntry := by
  have named {d q : Nat} (hd : d < 4) (hq : q < 65536) : (dieOk d && queueOk q) = true := by
    simp only [dieOk, queueOk, hd, hq, decide_true, Bool.and_self]
  refine ⟨?other, ?badRing, ?taken⟩
  case other =>
    exact fun d q ans s r hr hd hq hu h => (exec_workRow hr s).trans (act_served (named hd hq) hu (takeOp_other h))
  case badRing =>
    exact fun d q ans b s r hr hd hq hu hb hop hcr =>
      (exec_workRow hr s).trans (act_served (named hd hq) hu (takeOp_badRing hb hop hcr))
  case taken => exact fun d q ans b s e m r hr h => (exec_workRow hr s).trans (h.acts rfl)

end Sys2Proof.Machine
end

section
/-! PROOFS. Atomic and lock entries (R279, R280, R287, R305, R315, R332). -/
namespace Sys2Proof.Machine

section
variable {e : Ent} {m : Mod}

/-- An entry that fails step 1 of R287 completes MALFORMED. -/
theorem Ent.onConduit_malformed {bad : Option Nat} {dt : Nat} (hb : bad = some dt) (rest : Mod → Mod) :
    e.onConduit bad rest m = e.malformed dt m := by
  simp only [Ent.onConduit, hb]

section
variable {aop size : Nat} {ans : HostAns}

theorem workAtomic_malformed {dt : Nat} (hb : e.badAtomic aop size = some dt) : workAtomic aop size e ans m = e.malformed dt m :=
  Ent.onConduit_malformed hb _

section
variable (hb : e.badAtomic aop size = none) (hc : e.connected m)
include hb hc

theorem workAtomic_noResult (h0 : e.resultAddr = 0) : workAtomic aop size e ans m = e.start (e.atomicMsg aop size) m :=
  (Ent.onConduit_connected hb hc _).trans (if_pos h0)

/-- With a place for the result, the message starts once that place is checked. -/
theorem workAtomic_checked (h0 : e.resultAddr ≠ 0) {z : Bytes} {se : Bool} {n : Mod}
    (hk : checkBuf e.die e.fn e.xctx 1 Cls5.local_ ans [(e.resultAddr, size)] false m = (.ok z, se, n)) :
    workAtomic aop size e ans m = e.start (e.atomicMsg aop size) n := by
  refine (Ent.onConduit_connected hb hc _).trans ((if_neg h0).trans ?_)
  simp only [hk]

end
end

theorem workLock_connected (hb : e.badLock = none) (hc : e.connected m) (kind : Nat) :
    workLock kind e m = e.start (e.lockMsg kind) m :=
  Ent.onConduit_connected hb hc _

end

/-- The atomic commands of a queue, each with its opcode, its operation (0 ADD, 1 FETCH_ADD, 2 CAS) and its operand size (R279). -/
def atomicRows (d q : Nat) (ans : HostAns) : List (Nat × Nat × Nat × Instr) :=
  [(0x20, 0, 4, .add32 d q ans), (0x21, 0, 8, .add64 d q ans), (0x22, 1, 4, .fetchAdd32 d q ans), (0x23, 1, 8, .fetchAdd64 d q ans),
   (0x24, 2, 4, .cas32 d q ans), (0x25, 2, 8, .cas64 d q ans), (0x26, 2, 16, .cas128 d q ans)]

/-- An atomic command does to the entry it takes what its operation and operand size say. -/
theorem exec_atomicRow {d q : Nat} {ans : HostAns} {r : Nat × Nat × Nat × Instr} (hr : r ∈ atomicRows d q ans) (s : State) :
    exec r.2.2.2 s = takeCommand r.1 d q (fun e m => workAtomic r.2.1 r.2.2.1 e ans m) s := by
  revert r
  simp only [atomicRows, List.forall_mem_cons]
  exact ⟨rfl, rfl, rfl, rfl, rfl, rfl, rfl, fun _ h => absurd h List.not_mem_nil⟩

/-- Settles O31: what `workAtomic` and `workLock` do to the entry taken, case by case of R287. -/
theorem atomicAndLockEntriesStartTheirRequest : Obligations.AtomicAndLockEntriesStartTheirRequest := by
  refine ⟨?add32, ?add64, ?fetchAdd32, ?fetchAdd64, ?cas32, ?cas64, ?cas128, ?result, ?malformed, ?acquire, ?try_, ?release⟩
  case add32 | add64 | fetchAdd32 | fetchAdd64 | cas32 | cas64 | cas128 =>
    exact fun d q ans b s e m h hb hc h0 => h.acts (workAtomic_noResult hb hc h0)
  case result =>
    intro d q ans b s e m z se m2 r hr h hb hc h0 hk
    have hrow : r ∈ atomicRows d q ans := List.mem_cons_of_mem _ (List.mem_cons_of_mem _ hr)
    exact (exec_atomicRow hrow s).trans (h.acts (workAtomic_checked hb hc h0 hk))
  case malformed =>
    exact fun d q ans b s e m dt r hr h hb => (exec_atomicRow hr s).trans (h.acts (workAtomic_malformed hb))
  case acquire | try_ | release => exact fun d q b s e m h hb hc => h.acts (workLock_connected hb hc _)

end Sys2Proof.Machine
end

section
/-! PROOFS. A group's turn and its loop (R291, R292, R293, R294). -/
namespace Sys2Proof.Machine

/-! ## The turn -/

/-- What a turn does before it looks whether the group is eligible: tokens to the present, injections ended, queues made ready. -/
def turnPrepared (d g : Nat) (m : Mod) : Mod :=
  (grpQueues d g (accrue d g m)).foldl (fun m q => prepare d q (injEnd d q m)) (accrue d g m)

section
variable {d g : Nat} {ans : HostAns} {m n : Mod} (hn : n = turnPrepared d g m)
include hn

theorem groupTurn_passedOver (h : eligible d g n = false) : groupTurn d g ans m = n := by
  subst hn
  have hpass : 1024 ≤ g ∨ (!eligible d g (turnPrepared d g m)) = true := .inr (by rw [h]; rfl)
  exact if_pos hpass

theorem groupTurn_eligible (hg : g < 1024) (h : eligible d g n = true) : groupTurn d g ans m =
    turnLoop d g ans turnFuel [] false (updGrp d g (fun k => { k with deficit := k.deficit + grpQuantum d g n }) n) := by
  subst hn
  have hturn : ¬ (1024 ≤ g ∨ (!eligible d g (turnPrepared d g m)) = true) :=
    not_or_intro (Nat.not_le.mpr hg) (by rw [h]; decide)
  exact if_neg hturn

end

theorem exec_groupTurn {d g : Nat} {ans : HostAns} {s : State} {n : Mod} (hd : d < 4) (hg : g < 1024) (hu : hostUp d s.m = true)
    (hn : groupTurn d g ans s.m = n) : exec (.groupTurn d g ans) s = .next (finish s n) := by
  change execGroupTurn d g ans s = _
  exact act_served (by simp only [dieOk, hd, hg, decide_true, Bool.and_self]) hu hn

/-! ## One pass of the loop (R293) -/

section
variable {d g : Nat} {ans : HostAns} {k : Nat} {skip : List Nat} {fresh : Bool} {m n : Mod}
  (hn : n = (grpQueues d g m).foldl (fun m q => injEnd d q m) m)
include hn

/-- With no queue to serve and no round to begin, the deficit is dropped. -/
theorem turnLoop_exhausted (hp : pickQueue d g skip n = none) (h : fresh = true
      ∨ (grpQueues d g n).any (fun q => !skip.contains q && (injMsg d q n).isNone && qReady d q n) = false) :
    turnLoop d g ans (k + 1) skip fresh m = updGrp d g (fun k => { k with deficit := 0 }) n := by
  have hround : ¬ (!fresh && (grpQueues d g n).any (fun q => !skip.contains q && (injMsg d q n).isNone && qReady d q n)) = true := by
    rcases h with h | h <;> simp only [h, Bool.not_true, Bool.false_and, Bool.and_false, Bool.false_eq_true, not_false_eq_true]
  simp only [turnLoop, ← hn, hp, if_neg hround]

section
variable {q : Nat} (hp : pickQueue d g skip n = some q)
include hp

/-- A queue is picked: what the turn has left to spend decides whether it is served. -/
theorem turnLoop_picked : turnLoop d g ans (k + 1) skip fresh m =
    if (grp d g n).deficit < qCounted d g q n ∨ (grpShaped d g n = true ∧ (grp d g n).tokens < qCounted d g q n * 65536) then n
    else turnLoop d g ans k (if (serve d g q ans n).1 then skip else q :: skip) false (serve d g q ans n).2 := by
  simp only [turnLoop, ← hn, hp]

theorem turnLoop_served (hdef : qCounted d g q n ≤ (grp d g n).deficit)
    (htok : grpShaped d g n = false ∨ qCounted d g q n * 65536 ≤ (grp d g n).tokens) : turnLoop d g ans (k + 1) skip fresh m =
    turnLoop d g ans k (if (serve d g q ans n).1 then skip else q :: skip) false (serve d g q ans n).2 := by
  have hshort : ¬ (grpShaped d g n = true ∧ (grp d g n).tokens < qCounted d g q n * 65536) := by
    rintro ⟨hs, ht⟩
    rcases htok with h | h
    · exact absurd hs (ne_true_of_eq_false h)
    · exact absurd ht (Nat.not_lt.mpr h)
  exact (turnLoop_picked hn hp).trans (if_neg (not_or_intro (Nat.not_lt.mpr hdef) hshort))

end
end

/-- Settles O49: the turn up to its loop, then one pass of the loop in each of its cases. -/
theorem aGroupTurnServesItsQueues : Obligations.AGroupTurnServesItsQueues := by
  refine ⟨?passedOver, ?eligible, ?exhausted, ?kept, ?served⟩
  case passedOver => exact fun d g ans s m hd hg hu hm h => exec_groupTurn hd hg hu (groupTurn_passedOver hm h)
  case eligible => exact fun d g ans s m hd hg hu hm h => exec_groupTurn hd hg hu (groupTurn_eligible hm hg h)
  case exhausted => exact fun d g ans n skip fresh m0 m hm hp h => turnLoop_exhausted hm hp h
  case kept => exact fun d g ans n skip fresh m0 m q hm hp h => (turnLoop_picked hm hp).trans (if_pos h)
  case served => exact fun d g ans n skip fresh m0 m q hm hp hdef htok => turnLoop_served hm hp hdef htok

end Sys2Proof.Machine
end

section
/-! PROOFS. The probe of a lock's holder, and the commands of a wait slot: acquire, release, read and timeout (R332, R336, R337,
R339). -/
namespace Sys2Proof.Machine

/-! ## The probe (R339) -/

section
variable {d bus : Nat} {m : Mod}

theorem exec_lockProbeTimer {s : State} {n : Mod} (hd : d < 4) (hb : bus < 2 ^ 64) (hu : hostUp d s.m = true)
    (hn : lockProbe d bus s.m = n) : exec (.lockProbeTimer d bus) s = .next (finish s n) := by
  change execLockProbeTimer d bus s = _
  exact act_served (by simp only [dieOk, hd, hb, decide_true, Bool.and_self]) hu hn

/-- A lock with waiters has its holder probed, and keeps the time of the probe. -/
theorem lockProbe_holder {k : Lock} {h : Waiter} (hl : lockAt d bus m = some k) (hw : k.waiters ≠ []) (hh : k.holder = some h) :
    lockProbe d bus m = putLock d { k with probed := now d m }
      (lockSend d h.cn Op.lockProbe (lockHdr k.va k.xctx 0 0 h.tag 0) m) := by
  simp only [lockProbe, hl, List.isEmpty_eq_false_iff.mpr hw, Bool.false_eq_true, if_false, probe, hh]

/-- A word with no lock, or with a lock that nobody waits for, has nobody probed. -/
theorem lockProbe_idle (hl : ∀ k, lockAt d bus m = some k → k.waiters = []) : lockProbe d bus m = m := by
  cases hk : lockAt d bus m with
  | none => simp only [lockProbe, hk]
  | some k => simp only [lockProbe, hk, hl k hk, List.isEmpty_nil, if_true]

end

/-! ## The commands of a wait slot of a served die -/

section
variable {d k : Nat} {s : State} {n : Mod} (hd : d < 4) (hk : k < 64)
include hd hk

theorem dieOk_slot : (dieOk d && decide (k < 64)) = true := by
  simp only [dieOk, hd, hk, decide_true, Bool.and_self]

variable (hu : hostUp d s.m = true)
include hu

theorem exec_slotAcquire (hn : slotRequest d k 0 s.m = n) : exec (.slotAcquire d k) s = .next (finish s n) := by
  change execSlotAcquire d k s = _
  exact act_served (dieOk_slot hd hk) hu ((if_pos hk).trans hn)

theorem exec_slotRelease (hn : slotRequest d k 2 s.m = n) : exec (.slotRelease d k) s = .next (finish s n) := by
  change execSlotRelease d k s = _
  exact act_served (dieOk_slot hd hk) hu ((if_pos hk).trans hn)

theorem exec_slotWaitRead (hn : slotWaitRead d k (slotOwn d k s.m) s.m = n) :
    exec (.slotWaitRead d k) s = .next (finish s n) := by
  change execSlotWaitRead d k s = _
  exact act_served (dieOk_slot hd hk) hu hn

theorem exec_slotWaitTimeout (hn : slotWaitTimeout d k s.m = n) : exec (.slotWaitTimeout d k) s = .next (finish s n) := by
  change execSlotWaitTimeout d k s = _
  exact act_served (dieOk_slot hd hk) hu hn

end

/-! ## A slot's request: acquire (kind 0) and release (kind 2) (R332, R336) -/

section
variable {d k : Nat} {m : Mod}

theorem slotRequest_disabled {kind : Nat} (he : curB F.CRK_SLOT_CFG_ENABLE d k m = false) : slotRequest d k kind m = m :=
  if_pos (by rw [he]; rfl)

section
variable (he : curB F.CRK_SLOT_CFG_ENABLE d k m = true)
include he

/-- The function may not use the conduit: it is outside its range, or belongs to its gate. -/
theorem slotRequest_denied {kind : Nat} (h : inRange d (cur F.CRK_SLOT_CFG_FN d k m) (cur F.CRK_SLOT_REQ_CONDUIT d k m) m = false
      ∨ inGate d (cur F.CRK_SLOT_CFG_FN d k m) (cur F.CRK_SLOT_REQ_CONDUIT d k m) m = true) :
    slotRequest d k kind m = slotOutcome d k St.accessDenied 0 false false m := by
  have hdenied : (!inRange d (cur F.CRK_SLOT_CFG_FN d k m) (cur F.CRK_SLOT_REQ_CONDUIT d k m) m
      || inGate d (cur F.CRK_SLOT_CFG_FN d k m) (cur F.CRK_SLOT_REQ_CONDUIT d k m) m) = true := by
    rcases h with h | h <;> simp only [h, Bool.not_false, Bool.true_or, Bool.or_true]
  exact (if_neg (by rw [he]; decide)).trans (if_pos hdenied)

variable (hr : inRange d (cur F.CRK_SLOT_CFG_FN d k m) (cur F.CRK_SLOT_REQ_CONDUIT d k m) m = true)
  (hg : inGate d (cur F.CRK_SLOT_CFG_FN d k m) (cur F.CRK_SLOT_REQ_CONDUIT d k m) m = false)
include hr hg

theorem slotRequest_closed {kind : Nat} (hc : condLive d (cur F.CRK_SLOT_REQ_CONDUIT d k m) m = false) :
    slotRequest d k kind m = slotOutcome d k St.conduitClosed 0 false false m := by
  simp only [slotRequest, he, hr, hg, hc, Bool.not_true, Bool.not_false, Bool.or_self, Bool.false_eq_true, if_false, if_true]

/-- On a conduit that is live and its function's own the LOCK_REQ is sent; only an acquire makes the slot wait. -/
theorem slotRequest_sent {kind cn tag addr xc : Nat} {m' : Mod} (hcn : cn = cur F.CRK_SLOT_REQ_CONDUIT d k m)
    (htag : tag = cur F.CRK_SLOT_REQ_OWNER_TAG d k m) (haddr : addr = cur F.CRK_SLOT_LOCK_ADDR d k m * 8)
    (hxc : xc = cur F.CRK_SLOT_CMD_RXCTX d k m) (hc : condLive d cn m = true)
    (hm : slotSend d k kind cn tag addr xc (cur F.CRK_SLOT_REQ_PRIORITY d k m) m = m') :
    slotRequest d k kind m = if kind = 2 then m' else slotOutcome d k 0 0 false true
      (setSlot d k { slot d k m' with cn := cn, tag := tag, addr := addr, xctx := xc, busy := true, out := none } m') := by
  subst hcn htag haddr hxc hm
  simp only [slotRequest, he, hr, hg, hc, Bool.not_true, Bool.or_self, Bool.false_eq_true, if_false]

end
end

/-! ## SLOT_WAIT: its reads and its timeout (R337) -/

section
variable {d k : Nat} {m : Mod}

theorem slotWaitRead_outcome {by_ : Nat × Nat} (hb : (slot d k m).busy = false) :
    slotWaitRead d k by_ m = slotReply d by_ (slotNow d k m) m := if_pos (by rw [hb]; rfl)

section
variable {by_ : Nat × Nat} (hb : (slot d k m).busy = true)
include hb

theorem slotWaitRead_stalls (hs : (slot d k m).stall = none) :
    slotWaitRead d k by_ m = setSlot d k { slot d k m with stall := some by_ } m :=
  (if_neg (by rw [hb]; decide)).trans (by rw [hs])

/-- While one read stalls, another is answered at once. -/
theorem slotWaitRead_again {r : Nat × Nat} (hs : (slot d k m).stall = some r) :
    slotWaitRead d k by_ m = slotReply d by_ (slotValue St.wouldBlock 0 false true) m :=
  (if_neg (by rw [hb]; decide)).trans (by rw [hs])

end

theorem slotWaitTimeout_answers {r : Nat × Nat} (hs : (slot d k m).stall = some r) : slotWaitTimeout d k m =
    slotReply d r (slotValue St.wouldBlock 2 false true) (setSlot d k { slot d k m with stall := none } m) := by
  simp only [slotWaitTimeout, hs]

theorem slotWaitTimeout_idle (hs : (slot d k m).stall = none) : slotWaitTimeout d k m = m := by
  simp only [slotWaitTimeout, hs]

end

/-- Settles O35: `lockProbe` by the lock's holder and waiters, a slot's request by its conduit, SLOT_WAIT by what stalls there. -/
theorem locksAndWaitSlotsServeTheirOwners : Obligations.LocksAndWaitSlotsServeTheirOwners := by
  refine ⟨?probe, ?probeIdle, ?acquire, ?denied, ?disabled, ?release, ?closed, ?outcome, ?stall, ?again, ?timeout, ?timeoutIdle⟩
  case probe => exact fun d b k h s hd hb hu hl hw hh => exec_lockProbeTimer hd hb hu (lockProbe_holder hl hw hh)
  case probeIdle => exact fun d b s hd hb hu hl => exec_lockProbeTimer hd hb hu (lockProbe_idle hl)
  case acquire =>
    intro d k f cn tag addr xc s hd hk hu he hf hcn htag haddr hxc hr hg hc m hm
    subst hf hcn
    have hsent := slotRequest_sent (kind := 0) he hr hg rfl htag haddr hxc hc hm.symm
    exact exec_slotAcquire hd hk hu (hsent.trans (if_neg (by decide)))
  case denied => exact fun d k s hd hk hu he h => exec_slotAcquire hd hk hu (slotRequest_denied he h)
  case disabled =>
    exact fun d k s hd hk hu he =>
      ⟨exec_slotAcquire hd hk hu (slotRequest_disabled he), exec_slotRelease hd hk hu (slotRequest_disabled he)⟩
  case release =>
    intro d k f cn s hd hk hu he hf hcn hr hg hc
    subst hf hcn
    have hsent := slotRequest_sent (kind := 2) he hr hg rfl rfl rfl rfl hc rfl
    exact exec_slotRelease hd hk hu (hsent.trans (if_pos rfl))
  case closed =>
    exact fun d k s hd hk hu he hr hg hc =>
      ⟨exec_slotAcquire hd hk hu (slotRequest_closed he hr hg hc), exec_slotRelease hd hk hu (slotRequest_closed he hr hg hc)⟩
  case outcome => exact fun d k s hd hk hu hb => exec_slotWaitRead hd hk hu (slotWaitRead_outcome hb)
  case stall => exact fun d k s hd hk hu hb hs => exec_slotWaitRead hd hk hu (slotWaitRead_stalls hb hs)
  case again => exact fun d k r s hd hk hu hb hs => exec_slotWaitRead hd hk hu (slotWaitRead_again hb hs)
  case timeout => exact fun d k r s hd hk hu hs => exec_slotWaitTimeout hd hk hu (slotWaitTimeout_answers hs)
  case timeoutIdle => exact fun d k s hd hk hu hs => exec_slotWaitTimeout hd hk hu (slotWaitTimeout_idle hs)

end Sys2Proof.Machine
end

section
/-! PROOFS. What one step does to the module: the front command, a calm module, and the fuses (R71, R74, R75, R493, R520, R522,
R527, R529). -/
namespace Sys2Proof.Machine

/-- Settles O1: `step` looks at the front of the queue alone. -/
theorem theFrontCommandIsRun : Obligations.TheFrontCommandIsRun := fun _ _ _ => rfl

/-- Settles O50: a calm module settles to itself. -/
theorem finishInACalmModule : Obligations.FinishInACalmModule := by
  intro s m h
  simp only [finish, settle_calm s.fuse h]

/-! ## The fuses (R520, R522, R527, R529) -/

theorem Fuse.notBefore_refl (f : Fuse) : f.notBefore f := ⟨le_rfl, le_rfl, id, fun _ => rfl, fun _ => rfl⟩

theorem Fuse.notBefore_trans {a b c : Fuse} (hab : a.notBefore b) (hbc : b.notBefore c) : a.notBefore c := by
  obtain ⟨hl, hs, hr, ho, hk⟩ := hab
  obtain ⟨hl', hs', hr', ho', hk'⟩ := hbc
  refine ⟨hl.trans hl', hs.trans hs', hr' ∘ hr, fun h => ?owner, fun h => ?secret⟩
  case owner => exact (ho' (by rw [ho h]; exact h)).trans (ho h)
  case secret => exact (hk' (by rw [hk h]; exact h)).trans (hk h)

/-- One fuse operation keeps a known lifecycle and a count of at most 64. -/
theorem Fuse.fits_burn1 {f : Fuse} (h : f.fits) (o : FuseOp) : (f.burn1 o).fits := by
  obtain ⟨hl, hs⟩ := h
  cases o with
  | svn n => exact ⟨hl, max_le hs (min_le_left 64 n)⟩
  | advance n => exact ⟨max_le hl (min_le_left 3 n), hs⟩
  | revoke0 => exact ⟨hl, hs⟩
  | owner k => exact ⟨hl, hs⟩
  | secret k => exact ⟨hl, hs⟩

/-- A list of fuse operations moves the fuses forward, as each of them does. -/
theorem Fuse.notBefore_burn (l : List FuseOp) (f : Fuse) : f.notBefore (f.burn l) := by
  induction l generalizing f with
  | nil => exact f.notBefore_refl
  | cons o l ih => exact Fuse.notBefore_trans (burn1_notBefore f o) (ih (f.burn1 o))

theorem Fuse.fits_burn (l : List FuseOp) {f : Fuse} (h : f.fits) : (f.burn l).fits := by
  induction l generalizing f with
  | nil => exact h
  | cons o l ih => exact ih (Fuse.fits_burn1 h o)

/-- What a step can do to the fuses: blow a list of operations. -/
theorem step_burns {s t : State} (h : step s = .next t) : ∃ l, t.fuse = s.fuse.burn l := by
  cases hp : s.pending with
  | nil =>
    simp only [step, hp] at h
    exact ⟨_, Host.Outcome.next.inj h ▸ finish_fuse s _⟩
  | cons c rest =>
    obtain ⟨f, hf⟩ := exec_is_act c { s with pending := rest }
    simp only [step, hp, hf] at h
    cases hc : c.wf with
    | true => exact ⟨_, Host.Outcome.next.inj ((act_true hc).symm.trans h) ▸ finish_fuse _ _⟩
    | false => exact nomatch (act_false hc).symm.trans h

/-- Settles O52: a step blows a list of fuse operations, and each operation only goes forward. -/
theorem fusesOnlyMoveForward : Obligations.FusesOnlyMoveForward := by
  intro s t h
  obtain ⟨l, hl⟩ := step_burns h
  rw [hl]
  exact ⟨Fuse.notBefore_burn l s.fuse, Fuse.fits_burn l⟩

end Sys2Proof.Machine
end

section
/-! PROOFS. The match rule, and the RESUME of a domain in OVERFLOW (R344, R359). -/
namespace Sys2Proof.Machine

/-! ## The match rule (R344) -/

/-- One word has no bit outside another exactly when joining it changes nothing. -/
theorem and_not_eq_zero_iff {w : Nat} (x y : BitVec w) : x &&& ~~~y = 0#w ↔ x ||| y = y := by
  simp only [BitVec.eq_of_getElem_eq_iff]
  refine forall_congr' fun i => forall_congr' fun hi => ?_
  rw [BitVec.getElem_and, BitVec.getElem_not, BitVec.getElem_or, BitVec.getElem_zero]
  cases x[i] <;> cases y[i] <;> decide

/-- Settles O38: the model's test, that IGNORE already has every bit where M and B differ, in words of 64 bits. -/
theorem aReceiveMatchesByItsBitsAndSource : Obligations.AReceiveMatchesByItsBitsAndSource := by
  intro r B E hM hI hB
  have hbits : Nat.lor (Nat.xor r.bits B) r.ignore = r.ignore ↔
      (BitVec.ofNat 64 r.bits ^^^ BitVec.ofNat 64 B) &&& ~~~BitVec.ofNat 64 r.ignore = 0#64 := by
    rw [and_not_eq_zero_iff, ← BitVec.toNat_inj, BitVec.toNat_or, BitVec.toNat_xor]
    simp only [BitVec.toNat_ofNat, Nat.mod_eq_of_lt hM, Nat.mod_eq_of_lt hI, Nat.mod_eq_of_lt hB]
    rfl
  simp only [Recv.matches, Bool.and_eq_true, Bool.or_eq_true, beq_iff_eq, hbits]

/-! ## RESUME (R359) -/

section
variable {d n : Nat} {m : Mod} (ho : domState d n m = 2)
include ho

theorem domainResume_empty (h : rd F.MTC_OVF_IDX_TAIL d n m = cur F.MTC_OVF_IDX_HEAD d n m) :
    domainResume d n m = mtEvent d n 4 0 (wr F.MTC_DSTATUS_STATE d n 1 m) :=
  (if_neg (not_not.mpr ho)).trans (if_pos h)

theorem domainResume_refused (h : rd F.MTC_OVF_IDX_TAIL d n m ≠ cur F.MTC_OVF_IDX_HEAD d n m) :
    domainResume d n m = wrB F.MTC_DSTATUS_RESUME_REFUSED d n true m :=
  (if_neg (not_not.mpr ho)).trans (if_neg h)

/-- RESUME_REFUSED stands beside the state of the domain. -/
theorem domState_refused (hd : d < 4) (hn : n < 4096) : domState d n (wrB F.MTC_DSTATUS_RESUME_REFUSED d n true m) = 2 :=
  (rd_wr_ne (key_ne (by omega) (by omega) (by omega) (by omega) (.inl (by decide)))).trans ho

end

theorem exec_domainResume {d n : Nat} {s : State} {m : Mod} (hd : d < 4) (hn : n < 4096) (hu : hostUp d s.m = true)
    (hm : domainResume d n s.m = m) : exec (.domainResume d n) s = .next (finish s m) := by
  change execDomainResume d n s = _
  exact act_served (by simp only [dieOk, hd, hn, decide_true, Bool.and_self]) hu hm

/-- Settles O39: `domainResume` by the indices of the ring, and the state it leaves. -/
theorem aDomainResumesOnlyWithAnEmptyRing : Obligations.ADomainResumesOnlyWithAnEmptyRing :=
  ⟨fun _ _ _ hd hn hu ho h => ⟨exec_domainResume hd hn hu (domainResume_empty ho h), rd_wr_same ..⟩,
    fun _ _ _ hd hn hu ho h => ⟨exec_domainResume hd hn hu (domainResume_refused ho h), domState_refused ho hd hn⟩,
    fun _ _ _ _ => rfl⟩

end Sys2Proof.Machine
end

section
/-! PROOFS. Chunks of a vector, and the bytes of the working pool (R368, R374, R377, R379). -/
namespace Sys2Proof.Machine

/-! ## Chunks (R368, R374) -/

section
variable {P : DProg} (x : Inst) (hP : 0 < P.chunk)
include hP

/-- A vector that is not empty has the chunks that it takes. -/
theorem total_of_pos (hn : 0 < x.n) : x.total P = (x.n + P.chunk - 1) / P.chunk :=
  max_eq_right (Nat.div_pos (by omega) hP)

theorem total_of_empty (hn : x.n = 0) : x.total P = 1 := by
  rw [Inst.total, hn, Nat.zero_add, Nat.div_eq_of_lt (Nat.sub_lt hP Nat.one_pos)]
  rfl

/-- The chunks hold all elements, and one chunk less does not. -/
theorem total_bounds (hn : 0 < x.n) : (x.total P - 1) * P.chunk < x.n ∧ x.n ≤ x.total P * P.chunk ∧ 0 < x.total P := by
  have hpos : 0 < x.total P := le_max_left 1 _
  have hle : x.total P * P.chunk ≤ x.n + P.chunk - 1 := by
    rw [total_of_pos x hP hn]
    exact Nat.div_mul_le_self _ _
  have hlt : x.n + P.chunk - 1 < x.total P * P.chunk + P.chunk := by
    rw [total_of_pos x hP hn]
    exact Nat.lt_div_mul_add hP
  have hpred : (x.total P - 1) * P.chunk + P.chunk = x.total P * P.chunk := by
    rw [← Nat.succ_mul, Nat.succ_eq_add_one, Nat.sub_add_cancel hpos]
  omega

/-- A chunk holds the elements from its first up to the next chunk's first or the vector's end. -/
theorem elems_bounds {c : Nat} (hc : c < x.total P) :
    c * P.chunk + elems P x c = min ((c + 1) * P.chunk) x.n ∧ (0 < x.n → 0 < elems P x c) := by
  have hnext : (c + 1) * P.chunk = c * P.chunk + P.chunk := Nat.succ_mul c P.chunk
  have hstart : 0 < x.n → c * P.chunk < x.n := fun hn =>
    (Nat.mul_le_mul_right P.chunk (Nat.le_sub_one_of_lt hc)).trans_lt (total_bounds x hP hn).1
  have hempty : x.n = 0 → c * P.chunk = 0 := fun hn => by
    rw [total_of_empty x hP hn] at hc
    rw [Nat.lt_one_iff.mp hc, Nat.zero_mul]
  unfold elems
  omega

end

section
variable {P : DProg} {t : DStep} {c k : Nat}

theorem takes_iff : takes P t c = true ↔ t.elemOff ≤ c * P.chunk ∧ (t.elemCount = 0 ∨ c * P.chunk < t.elemOff + t.elemCount) := by
  simp only [takes, Bool.and_eq_true, Bool.or_eq_true, decide_eq_true_eq, beq_iff_eq]

/-- The list of steps from one that exists: the step if the chunk takes it, then those from NEXT. -/
theorem stepsOf_step {n : Nat} (hk : P.step? k = some t) : stepsOf P c (n + 1) k =
    (if takes P t c = true then [k] else []) ++ (if t.next = 0xFF then [] else stepsOf P c n t.next) := by
  simp only [stepsOf, hk]

end

/-- Settles O57: division with remainder by the chunk's size; a step's range and the list of steps one step at a time. -/
theorem aVectorIsCutIntoChunks : Obligations.AVectorIsCutIntoChunks := by
  refine ⟨fun P x hP => ⟨total_of_empty x hP, total_bounds x hP⟩, fun P x c hP hc => elems_bounds x hP hc,
    fun P t c => takes_iff, ?more, ?last⟩
  case more =>
    intro P t c n k hk hn
    rw [stepsOf_step hk, if_neg hn]
    split <;> rfl
  case last =>
    intro P t c n k hk hn
    rw [stepsOf_step hk, if_pos hn, List.append_nil]

/-! ## The working pool (R377, R379) -/

/-- Bytes placed in a table, the first at `k`. -/
def placeBytes (k : Nat) (b : Bytes) (t : NMap Byte) : NMap Byte :=
  (b.zip (List.range b.length)).foldl (fun t e => NMap.set 0#8 t (k + e.2) e.1) t

theorem poolWrite_eq (d off : Nat) (b : Bytes) (m : Mod) :
    poolWrite d off b m = { m with pool := placeBytes (d * 2 ^ 40 + off) b m.pool } := rfl

theorem placeBytes_cons (k : Nat) (x : Byte) (b : Bytes) (t : NMap Byte) :
    placeBytes k (x :: b) t = placeBytes (k + 1) b (NMap.set 0#8 t k x) := by
  simp only [placeBytes, List.length_cons, List.range_succ_eq_map, List.zip_cons_cons, List.foldl_cons, Nat.add_zero,
    List.zip_map_right, List.foldl_map, Prod.map_fst, Prod.map_snd, id, Nat.succ_eq_add_one, Nat.add_right_comm k 1, Nat.add_assoc]

theorem get_placeBytes_outside {k j : Nat} {b : Bytes} (t : NMap Byte) (h : j < k ∨ k + b.length ≤ j) :
    NMap.get 0#8 (placeBytes k b t) j = NMap.get 0#8 t j := by
  induction b generalizing k t with
  | nil => rfl
  | cons x b ih =>
    rw [List.length_cons] at h
    rw [placeBytes_cons, ih _ (by omega), NMap.get_set_ne _ _ _ _ (by omega)]

theorem get_placeBytes_inside (k : Nat) {b : Bytes} (t : NMap Byte) {i : Nat} (h : i < b.length) :
    NMap.get 0#8 (placeBytes k b t) (k + i) = b[i] := by
  induction b generalizing k t i with
  | nil => exact absurd h (Nat.not_lt_zero i)
  | cons x b ih =>
    rw [placeBytes_cons]
    cases i with
    | zero => exact (get_placeBytes_outside _ (.inl (Nat.lt_add_one k))).trans (NMap.get_set_same 0#8 t k x)
    | succ i => rw [List.getElem_cons_succ, ← ih (k + 1) _ (Nat.lt_of_succ_lt_succ h), Nat.add_right_comm, Nat.add_assoc]

theorem wf_placeBytes (k : Nat) (b : Bytes) {t : NMap Byte} (h : NMap.wf 0#8 t = true) : NMap.wf 0#8 (placeBytes k b t) = true := by
  induction b generalizing k t with
  | nil => exact h
  | cons x b ih =>
    rw [placeBytes_cons]
    exact ih (k + 1) (NMap.wf_set 0#8 t k x h)

/-- Settles O59: the pool's bytes are put one by one, each into its own place; dies lie 2^40 apart. -/
theorem thePoolHoldsWhatIsWritten : Obligations.ThePoolHoldsWhatIsWritten := by
  refine ⟨?back, fun d off b m k h => get_placeBytes_outside m.pool h, ?others, fun _ _ _ _ => rfl,
    fun d off b m h => wf_placeBytes _ b h⟩
  case back =>
    intro d off b m
    refine List.ext_getElem (by simp [poolRead]) fun i hi hb => ?_
    simp only [poolRead, poolWrite_eq, List.getElem_map, List.getElem_range]
    exact get_placeBytes_inside _ m.pool hb
  case others =>
    intro d off b e o n m hde hb hn
    refine List.map_congr_left fun i hi => ?_
    have hi := List.mem_range.mp hi
    have hout : e * 2 ^ 40 + o + i < d * 2 ^ 40 + off ∨ d * 2 ^ 40 + off + b.length ≤ e * 2 ^ 40 + o + i := by omega
    exact get_placeBytes_outside m.pool hout

end Sys2Proof.Machine
end

section
/-! PROOFS. The Drover: chunks admitted and moved on, outputs, credits, timeouts, resets and packets (R375, R376, R377, R381, R382,
R384, R387, R388, R479). -/
namespace Sys2Proof.Machine

section
variable {d p : Nat} {P : DProg} {x : Inst} {m : Mod}

/-! ## Admission (R375, R479) -/

section
variable (hP : prog d p m = some P) (hx : (drun d p m).cur = some x)
include hP hx

/-- No chunk is left, the window has no room, or the inputs' tags cannot be had. -/
theorem chunkAdmit_blocked (h : x.total P ≤ x.next ∨ P.window ≤ (x.chunks.filter (fun e => e.2.phase != 3)).length
      ∨ inputTags d P (stepsOf P x.next P.steps.length 0) m = false) (ans : HostAns) : chunkAdmit d p ans m = m := by
  simp only [← Bool.not_eq_true'] at h
  simp only [chunkAdmit, hP, hx, if_pos h]

section
variable {c : Nat} {ss : List Nat} (hc : c = x.next) (hl : c < x.total P)
  (hw : (x.chunks.filter (fun e => e.2.phase != 3)).length < P.window) (hss : ss = stepsOf P c P.steps.length 0)
  (ht : inputTags d P ss m = true)
include hc hl hw hss ht

omit hP hx hc hss in
/-- Nothing holds the chunk back. -/
theorem admission_open : ¬(x.total P ≤ c ∨ P.window ≤ (x.chunks.filter (fun e => e.2.phase != 3)).length
    ∨ (!inputTags d P ss m) = true) := by
  rw [ht]
  exact fun h => h.elim (Nat.not_le.mpr hl) fun h => h.elim (Nat.not_le.mpr hw) Bool.false_ne_true

/-- The next chunk comes to its first step, and its HOST inputs are read. -/
theorem chunkAdmit_enters {k : Nat} {l : List Nat} {y : DStep} (hk : ss = k :: l) (hy : P.step? k = some y) (ans : HostAns) :
    chunkAdmit d p ans m = chunkGo d p c (hostInputs d p c P x ss ans
      (enterStep d p c x k y (updInst d p false (fun y => { y with next := c + 1 })
        (ensureChunk d p false c (admitGap d P ss m))))) := by
  have hopen := admission_open hl hw ht
  subst hc hk
  simp only [chunkAdmit, hP, hx, ← hss, if_neg hopen, hy]

/-- A chunk that takes no step retires. -/
theorem chunkAdmit_retires (hn : ss = []) (ans : HostAns) : chunkAdmit d p ans m = showProg d p (retire d p c
    (updInst d p false (fun y => { y with next := c + 1 }) (ensureChunk d p false c (admitGap d P [] m)))) := by
  have hopen := admission_open hl hw ht
  subst hc hn
  simp only [chunkAdmit, hP, hx, ← hss, if_neg hopen]

end
end

/-! ## Waits and inputs (R375, R377) -/

/-- Time runs to what the chunk waits for, and its step starts. -/
theorem timeWaitEnd_starts {c : Nat} {ck : Chunk} {n : Mod} (hx : (drun d p m).cur = some x) (hk : NMap.find x.chunks c = some ck)
    (hp : ck.phase = 0) (hn : n = if now d m < ck.time then runTo d ck.time m else m) : timeWaitEnd d p c m =
      chunkGo d p c (updChunk d p false c (fun q => { q with phase := 1, alarm := false, time := now d n }) n) := by
  subst hn
  simp only [timeWaitEnd, hx, Option.bind_some, hk, hp, ne_eq, not_true, if_false]

section
variable (hP : prog d p m = some P) (hx : (drun d p m).cur = some x)
include hP hx

/-- A LOCAL edge delivers its bytes once, to a chunk that has been admitted. -/
theorem localInput_delivers {c e j es n : Nat} {k : DEdge} {y : DStep} {ck : Chunk} (hk : P.edge? e = some k)
    (hj : stepIn P e = some j) (hy : P.step? j = some y) (hck : NMap.find x.chunks c = some ck)
    (hkind : k.kind = 4) (hgot : bit ck.got e = false) (hph : ck.phase ≠ 3) (hes : es = elemSize y.op y.dt)
    (hn : n = elems P x c * es) : localInput d p c e m =
      chunkGo d p c (deliverEdge d p false P c e false 0 (elems P x c) (poolRead d (k.off + c * P.chunk * es) n m) 0 0
        (energy d 23 10 ((n + 63) / 64) m)) := by
  subst hes hn
  have hdue : ¬(k.kind ≠ 4 ∨ bit ck.got e = true ∨ ck.phase = 3) := by simp [hkind, hgot, hph]
  simp only [localInput, hP, hx, hk, hj, hck, if_neg hdue, hy]

/-! ## Outputs (R378, R382, R384) -/

omit hP hx in
/-- An edge that takes packets is neither a HOST nor a LOCAL edge. -/
theorem kind_packet {k : DEdge} (st : DStep) (hkind : k.kind ≤ 2) : ¬(st.op = 0 ∧ 3 ≤ k.kind) ∧ k.kind ≠ 3 ∧ k.kind ≠ 4 := by
  omega

/-- An output whose window has no room for the chunk waits. -/
theorem collOutput_noCredit {c e : Nat} (hcr : creditOk P x e c = false) (ans : HostAns) : collOutput d p c e ans m = m := by
  simp only [collOutput, hP, hx, hcr, Bool.not_false, or_true, if_true]
  cases NMap.find x.chunks c with
  | none => rfl
  | some ck => cases P.edge? e with
    | none => rfl
    | some k => cases hst : P.step? ck.step <;> simp only [hst]

section
variable {c e : Nat} {k : DEdge} {st : DStep} {ck : Chunk} (hck : NMap.find x.chunks c = some ck) (hk : P.edge? e = some k)
  (hst : P.step? ck.step = some st)
include hck hk hst

section
variable (hph : ck.phase = 2) (hleft : bit ck.left e = true) (hcr : creditOk P x e c = true)
include hph hleft hcr

omit hP hx hck hk hst in
theorem output_due : ¬(ck.phase ≠ 2 ∨ (!bit ck.left e) = true ∨ (!creditOk P x e c) = true) := by
  simp [hph, hleft, hcr]

section
variable {n : Mod} (hkind : k.kind ≤ 2) (hn : n = if st.timed = true ∧ now d m < ck.release then runTo d ck.release m else m)
include hkind hn

/-- A packet goes out at its release while the contract of a timed step holds. -/
theorem collOutput_sends (hv : stepVoid d P st n = none) (ans : HostAns) : collOutput d p c e ans m =
    outSent d p c e (count d 578 1 (collSend d P k true st.timed (if st.timed then st.res else 0) (if st.timed then 2 else 0)
      (outBody P x st k c ck) n)) := by
  subst hn
  obtain ⟨hempty, hhost, hlocal⟩ := kind_packet st hkind
  simp only [collOutput, hP, hx, hck, hk, hst, if_neg (output_due hph hleft hcr), if_neg hempty, if_neg hhost, if_neg hlocal, hv]

/-- The contract is void at the release. -/
theorem collOutput_void {status detail : Nat} (hv : stepVoid d P st n = some (status, detail)) (ans : HostAns) :
    collOutput d p c e ans m = timedFail d p P.fn st.res status detail n := by
  subst hn
  obtain ⟨hempty, hhost, hlocal⟩ := kind_packet st hkind
  simp only [collOutput, hP, hx, hck, hk, hst, if_neg (output_due hph hleft hcr), if_neg hempty, if_neg hhost, if_neg hlocal, hv]

end

section
variable (hop : st.op ≠ 0)
include hop

/-- A HOST edge takes the part of the result in its own range. -/
theorem collOutput_host {h : Nat × Nat × Nat} {b z : Bytes} {n : Mod} {ans : HostAns} (hkind : k.kind = 3)
    (hh : h = hostPart P x x.outOwn x.outAddr (elemSize st.op st.dt) c) (hpos : h.2.1 ≠ 0)
    (hb : b = sub ck.result ((h.1 - c * P.chunk) * elemSize st.op st.dt) (h.2.1 * elemSize st.op st.dt))
    (hw : writeVa d P.fn x.xctx h.2.2 Cls5.drover b ans m = (.ok z, n)) : collOutput d p c e ans m =
      outSent d p c e (updInst d p false (fun y => { y with written := y.written + b.length }) n) := by
  subst hh hb
  have h3 : ¬(st.op = 0 ∧ 3 ≤ k.kind) := fun h => hop h.1
  simp only [collOutput, hP, hx, hck, hk, hst, if_neg (output_due hph hleft hcr), if_neg h3, if_pos hkind, if_neg hpos, hw]

/-- A LOCAL edge is written to the pool. -/
theorem collOutput_local (hkind : k.kind = 4) (ans : HostAns) : collOutput d p c e ans m = outSent d p c e
    (poolWrite d (k.off + c * P.chunk * elemSize st.op st.dt) ck.result (energy d 23 10 ((ck.result.length + 63) / 64) m)) := by
  have h3 : ¬(st.op = 0 ∧ 3 ≤ k.kind) := fun h => hop h.1
  have h3' : k.kind ≠ 3 := by omega
  simp only [collOutput, hP, hx, hck, hk, hst, if_neg (output_due hph hleft hcr), if_neg h3, if_neg h3', if_pos hkind]

end
end
end
end

/-! ## Credits (R382) -/

section
variable {e : Nat} (hP : prog d p m = some P)
include hP

theorem creditSend_none (h : creditOwner (drun d p m) e = none) : creditSend d p e m = m := by
  simp only [creditSend, hP, h]

/-- The lowest chunk not retired is told, no sooner than 256 ns after the last time. -/
theorem creditSend_tells {old : Bool} {k : DEdge} {j t : Nat} {n : Mod} (h : creditOwner (drun d p m) e = some (old, x))
    (hk : P.edge? e = some k) (hj : stepIn P e = some j) (hkind : k.kind ≤ 1) (ht : t = NMap.get 0 (drun d p m).creditAt e)
    (hn : n = count d 579 1 (collSend d P k false false 0 1 (collHdr 2 0 P.collId k.peer x.num x.low x.n x.base 0 0 0)
      (if 0 < t ∧ now d m < t - 1 + 256 then runTo d (t - 1 + 256) m else m))) : creditSend d p e m =
      updDrun d p (fun r => { r with
        old := if old then r.old.map (fun y => { y with credited := NMap.put y.credited e x.low }) else r.old
        cur := if old then r.cur else r.cur.map (fun y => { y with credited := NMap.put y.credited e x.low })
        creditAt := NMap.put r.creditAt e (now d n + 1) }) n := by
  subst ht hn
  simp only [creditSend, hP, h, hk, hj, if_neg (Nat.not_lt.mpr hkind)]

end

/-! ## Timeouts (R387) -/

/-- The detail of a step that has waited in vain for inputs: 0x51 where one's link is down, else 0x52. -/
def waitDetail (P : DProg) (ck : Chunk) (st : DStep) (m : Mod) : Nat :=
  if (awaited ck st).any (fun e => match P.edge? e with | some k => inputDown k m | none => false) then 0x51 else 0x52

section
variable {c t : Nat} {st : DStep} {ck : Chunk} {n : Mod} (hP : prog d p m = some P) (hx : (drun d p m).cur = some x)
  (hck : NMap.find x.chunks c = some ck) (hst : P.step? ck.step = some st) (hph : ck.phase = 1)
  (ht : t = ck.time + (if st.timeout = 0 then P.timeout else st.timeout) * 1000) (hn : n = if now d m < t then runTo d t m else m)
include hP hx hck hst hph ht hn

/-- A step that waits for inputs goes on with what has come, misses its deadline, or fails. -/
theorem stepTimeout_waiting : stepTimeout d p c m =
    if st.partOk then chunkGo d p c (formNow d p c P x ck.step st ck
      (updInst d p false (fun y => { y with missing := max y.missing (awaited ck st).length, partialDone := true })
        (updChunk d p false c (fun q => { q with closed := setBit q.closed ck.step true }) n)))
    else if st.timed then timedFail d p P.fn st.res St.deadline 0x15 n
    else instFail d p St.linkLost (waitDetail P ck st n) n := by
  subst ht hn
  simp only [stepTimeout, hP, hx, hck, hst, hph, ne_eq, not_true, false_and, if_false, if_true, OfNat.one_ne_ofNat] <;> rfl

end

/-! ## Resets and packets (R381, R388) -/

theorem progReset_known (h : (prog d p m).isSome = true) : progReset d p m = updDrun d p
    (fun r => { r with state := 1, next := cur F.DRV_PCMD_INSTANCE d p (instFail d p St.hostAbort 0x54 m) })
    (force F.DRV_PCMD_RESET d p 0 (instFail d p St.hostAbort 0x54 m)) :=
  if_neg (by rw [Option.isNone_eq_false_iff.mpr h]; decide)

theorem progReset_unknown (h : prog d p m = none) : progReset d p m = m := if_pos (by rw [h]; rfl)

theorem collReceive_takes {b : Bytes} {r : List Bytes} (h : NMap.get [] m.xb.dq d = b :: r) (hf : unitState d 21 m ≠ UnitSt.fenced)
    (hu : unitState d 21 m ≠ UnitSt.unusable) (hd : dieUp d m = true) :
    collReceive d m = collIn d b (updXb (fun y => { y with dq := NMap.set [] y.dq d r }) m) := by
  have hup : ¬([UnitSt.fenced, UnitSt.unusable].contains (unitState d 21 m) || !dieUp d m) = true := by simp [hf, hu, hd]
  simp only [collReceive, h]
  exact if_neg hup

theorem collReceive_empty (h : NMap.get [] m.xb.dq d = []) : collReceive d m = m := by
  simp only [collReceive, h]

end

/-! ## The commands -/

section
variable {d : Nat} {s : State} {n : Mod} (hd : d < 4) (hu : hostUp d s.m = true)
include hd hu

theorem exec_collPacketReceive (hn : collReceive d s.m = n) : exec (.collPacketReceive d) s = .next (finish s n) := by
  change execCollPacketReceive d s = _
  exact act_served (decide_eq_true hd) hu hn

variable {p : Nat} (hp : p < 256)
include hp

omit hu in
theorem dieOk_program : (dieOk d && decide (p < 256)) = true := by
  simp only [dieOk, hd, hp, decide_true, Bool.and_self]

theorem exec_chunkAdmit {ans : HostAns} (hn : chunkAdmit d p ans s.m = n) : exec (.chunkAdmit d p ans) s = .next (finish s n) := by
  change execChunkAdmit d p ans s = _
  exact act_served (dieOk_program hd hp) hu hn

theorem exec_droverTimeWaitEnd {c : Nat} (hn : timeWaitEnd d p c s.m = n) :
    exec (.droverTimeWaitEnd d p c) s = .next (finish s n) := by
  change execDroverTimeWaitEnd d p c s = _
  exact act_served (dieOk_program hd hp) hu hn

theorem exec_stepTimeout {c : Nat} (hn : stepTimeout d p c s.m = n) : exec (.stepTimeout d p c) s = .next (finish s n) := by
  change execStepTimeout d p c s = _
  exact act_served (dieOk_program hd hp) hu hn

theorem exec_droverProgramReset (hn : progReset d p s.m = n) : exec (.droverProgramReset d p) s = .next (finish s n) := by
  change execDroverProgramReset d p s = _
  exact act_served (dieOk_program hd hp) hu hn

variable {e : Nat} (he : e < 64)
include he

omit hu in
theorem dieOk_edge : (dieOk d && decide (p < 256) && decide (e < 64)) = true := by
  simp only [dieOk_program hd hp, he, decide_true, Bool.and_self]

theorem exec_localInputReadComplete {c : Nat} (hn : localInput d p c e s.m = n) :
    exec (.localInputReadComplete d p c e) s = .next (finish s n) := by
  change execLocalInputReadComplete d p c e s = _
  exact act_served (dieOk_edge hd hp he) hu hn

theorem exec_collOutputSend {c : Nat} {ans : HostAns} (hn : collOutput d p c e ans s.m = n) :
    exec (.collOutputSend d p c e ans) s = .next (finish s n) := by
  change execCollOutputSend d p c e ans s = _
  exact act_served (dieOk_edge hd hp he) hu hn

theorem exec_creditSend (hn : creditSend d p e s.m = n) : exec (.creditSend d p e) s = .next (finish s n) := by
  change execCreditSend d p e s = _
  exact act_served (dieOk_edge hd hp he) hu hn

end

/-- Settles O40: each command by the program, its current run and the chunk that it names. -/
theorem theDroverMovesItsChunks : Obligations.TheDroverMovesItsChunks := by
  refine ⟨?enters, ?retires, ?blocked, ?wait, ?input, ?sends, ?void, ?host, ?pool, ?noCredit, ?credit, ?noOwner, ?partly,
    ?late, ?timed, ?reset, ?unknown, ?packet, ?noPacket⟩
  case enters =>
    intro d p P x ans c ss k l y s hd hp hu hP hx hc hl hw hss ht hk hy
    exact exec_chunkAdmit hd hu hp (chunkAdmit_enters hP hx hc hl hw hss ht hk hy ans)
  case retires =>
    intro d p P x ans c s hd hp hu hP hx hc hl hw hss ht
    exact exec_chunkAdmit hd hu hp (chunkAdmit_retires hP hx hc hl hw hss.symm ht rfl ans)
  case blocked => exact fun d p P x ans s hd hp hu hP hx h => exec_chunkAdmit hd hu hp (chunkAdmit_blocked hP hx h ans)
  case wait => exact fun d p c x ck s hd hp hu hx hk hph => exec_droverTimeWaitEnd hd hu hp (timeWaitEnd_starts hx hk hph rfl)
  case input =>
    intro d p P x c e k j y ck es n s hd hp hu hP hx he hk hj hy hck hkind hgot hph hes hn
    exact exec_localInputReadComplete hd hu hp he (localInput_delivers hP hx hk hj hy hck hkind hgot hph hes hn)
  case sends =>
    intro d p P x c e k ans st ck m s hd hp hu hP hx he hck hk hst hph hleft hcr hkind hm hv
    exact exec_collOutputSend hd hu hp he (collOutput_sends hP hx hck hk hst hph hleft hcr hkind hm hv ans)
  case void =>
    intro d p P x c e k ans st ck m s status detail hd hp hu hP hx he hck hk hst hph hleft hcr hkind hm hv
    exact exec_collOutputSend hd hu hp he (collOutput_void hP hx hck hk hst hph hleft hcr hkind hm hv ans)
  case host =>
    intro d p P x c e k ans st ck h b z m s hd hp hu hP hx he hck hk hst hph hleft hcr hkind hop hh hpos hb hw
    exact exec_collOutputSend hd hu hp he (collOutput_host hP hx hck hk hst hph hleft hcr hop hkind hh hpos hb hw)
  case pool =>
    intro d p P x c e k ans st ck s hd hp hu hP hx he hck hk hst hph hleft hcr hkind hop
    exact exec_collOutputSend hd hu hp he (collOutput_local hP hx hck hk hst hph hleft hcr hop hkind ans)
  case noCredit =>
    exact fun d p P x c e ans ck s hd hp hu hP hx he hck hcr => exec_collOutputSend hd hu hp he (collOutput_noCredit hP hx hcr ans)
  case credit =>
    intro d p P x e k j t m old s hd hp hu hP h he hk hj hkind ht hm
    exact exec_creditSend hd hu hp he (creditSend_tells hP h hk hj hkind ht hm)
  case noOwner => exact fun d p P e s hd hp hu hP he h => exec_creditSend hd hu hp he (creditSend_none hP h)
  case partly =>
    intro d p P x c st ck t m s hd hp hu hP hx hck hst hph hok ht hm
    exact exec_stepTimeout hd hu hp ((stepTimeout_waiting hP hx hck hst hph ht hm).trans (if_pos hok))
  case late =>
    intro d p P x c st ck t m s hd hp hu hP hx hck hst hph hno htimed ht hm
    exact exec_stepTimeout hd hu hp ((stepTimeout_waiting hP hx hck hst hph ht hm).trans
      ((if_neg (ne_true_of_eq_false hno)).trans (if_neg (ne_true_of_eq_false htimed))))
  case timed =>
    intro d p P x c st ck t m s hd hp hu hP hx hck hst hph hno htimed ht hm
    exact exec_stepTimeout hd hu hp ((stepTimeout_waiting hP hx hck hst hph ht hm).trans
      ((if_neg (ne_true_of_eq_false hno)).trans (if_pos htimed)))
  case reset => exact fun d p s hd hp hu h => exec_droverProgramReset hd hu hp (progReset_known h)
  case unknown => exact fun d p s hd hp hu h => exec_droverProgramReset hd hu hp (progReset_unknown h)
  case packet => exact fun d b r s hd hu h hf hun hup => exec_collPacketReceive hd hu (collReceive_takes h hf hun hup)
  case noPacket => exact fun d s hd hu h => exec_collPacketReceive hd hu (collReceive_empty h)

end Sys2Proof.Machine
end

section
/-! PROOFS. Sums do not depend on the order of their operands (R393, R397 to R405). -/
namespace Sys2Proof.Machine

/-! ## What does not depend on the order -/

/-- Flags joined one operand after the other. -/
theorem foldl_lor_perm {l l' : List Bytes} (h : l.Perm l') (g : Bytes → Nat) (x : Nat) :
    l.foldl (fun x b => Nat.lor x (g b)) x = l'.foldl (fun x b => Nat.lor x (g b)) x :=
  h.foldl_eq' (fun a _ b _ z => Nat.or_right_comm z (g a) (g b)) x

/-- Joined flags stay within the bits of what is joined. -/
theorem foldl_lor_lt {l : List Bytes} {g : Bytes → Nat} {n x : Nat} (hg : ∀ b ∈ l, g b < 2 ^ n) (hx : x < 2 ^ n) :
    l.foldl (fun x b => Nat.lor x (g b)) x < 2 ^ n := by
  induction l generalizing x with
  | nil => exact hx
  | cons b l ih =>
    obtain ⟨hb, hl⟩ := List.forall_mem_cons.mp hg
    exact ih hl (Nat.or_lt_two_pow hx hb)

theorem Tal.add_right_comm (a b c : Tal) : (a.add b).add c = (a.add c).add b := by
  simp only [Tal.add, Nat.add_right_comm]

theorem foldl_tal_perm {l l' : List Bytes} (h : l.Perm l') (g : Bytes → Tal) (t : Tal) :
    l.foldl (fun t b => t.add (g b)) t = l'.foldl (fun t b => t.add (g b)) t :=
  h.foldl_eq' (fun a _ b _ z => Tal.add_right_comm z (g a) (g b)) t

/-! ## What operands raise -/

/-- A native operand exhausts nothing; only a NaN is counted. -/
theorem sumNative_exh (dt b : Nat) : (sumNative dt b).2.exh = 0 := by
  unfold sumNative
  cases (fmt dt).decode b with
  | nan => rfl
  | inf neg => rfl
  | fin neg a w =>
    dsimp only
    split
    · rfl
    · split <;> rfl

theorem foldl_tal_exh {g : Bytes → Tal} (hg : ∀ b, (g b).exh = 0) (l : List Bytes) (t : Tal) :
    (l.foldl (fun t b => t.add (g b)) t).exh = t.exh := by
  induction l generalizing t with
  | nil => rfl
  | cons b l ih => exact (ih _).trans (by simp only [Tal.add, hg, Nat.add_zero])

theorem foldl_tal_zero {g : Bytes → Tal} {l : List Bytes} (hg : ∀ b ∈ l, g b = Tal.zero) :
    l.foldl (fun t b => t.add (g b)) Tal.zero = Tal.zero := by
  induction l with
  | nil => rfl
  | cons b l ih =>
    obtain ⟨hb, hl⟩ := List.forall_mem_cons.mp hg
    rw [List.foldl_cons, hb]
    exact ih hl

/-! ## Plainsums (R393, R397 to R400) -/

/-- The native operand that an element's bytes hold. -/
def nativeOf (dt : Nat) (b : Bytes) : Accu × Tal := sumNative dt (rdLE b 0 (dtSize dt))

section
variable {dt : Nat} (h1 : 1 ≤ dt) (h5 : dt ≤ 5)
include h1 h5

/-- A Plainsum of up to 2^31 operands is the joined flags, the sum, and all that the operands raise. -/
theorem takeAll_plain {l : List Bytes} (hl : l.length ≤ 2 ^ 31) : takeAll dt l =
    (sumState (l.foldl (fun x b => Nat.lor x (nativeOf dt b).1.fl) 0) (l.any fun b => (nativeOf dt b).1.fin)
        (l.map fun b => plainUnits dt (rdLE b 0 (dtSize dt))).sum,
      l.foldl (fun t b => t.add (nativeOf dt b).2) Tal.zero) := by
  have h := sum_fold dt h1 h5 l 0 0 false 0 Tal.zero (by decide) (fun _ => rfl) (Nat.zero_le _) (by omega)
  rw [Bool.false_or, Int.zero_add] at h
  exact h

/-- Any order gives the same Plainsum. -/
theorem takeAll_plain_perm {l l' : List Bytes} (hl : l.length ≤ 2 ^ 31) (h : l.Perm l') : takeAll dt l = takeAll dt l' := by
  rw [takeAll_plain h1 h5 hl, takeAll_plain h1 h5 (h.length_eq ▸ hl), foldl_lor_perm h, h.any_eq, (h.map _).sum_eq,
    foldl_tal_perm h]

theorem takeAll_plain_exh {l : List Bytes} (hl : l.length ≤ 2 ^ 31) : (takeAll dt l).2.exh = 0 := by
  rw [takeAll_plain h1 h5 hl]
  exact foldl_tal_exh (fun b => sumNative_exh dt _) l Tal.zero

omit h5 in
/-- A finite operand raises nothing and marks at most −0; any other than −0 is counted as finite. -/
theorem sumNative_finite {b : Nat} (h : isFin dt b = true) : (sumNative dt b).2 = Tal.zero ∧ (sumNative dt b).1.fl < 2
    ∧ (isNegZero dt b = false → (sumNative dt b).1.fin = true) := by
  unfold sumNative isNegZero
  unfold isFin at h
  cases hd : (fmt dt).decode b with
  | nan => rw [hd] at h; cases h
  | inf neg => rw [hd] at h; cases h
  | fin neg a w =>
    by_cases hz : a = 0 ∧ neg = true
    · obtain ⟨rfl, rfl⟩ := hz
      exact ⟨rfl, Nat.one_lt_two, fun hn => nomatch hn⟩
    · simp only [if_neg hz, if_neg (Nat.ne_of_gt h1)]
      exact ⟨trivial, Nat.zero_lt_two, fun _ => trivial⟩

/-- Finite operands, not all −0: the accumulator holds their sum and nothing is raised. -/
theorem takeAll_plain_finite {l : List Bytes} (hl : l.length ≤ 2 ^ 31) (hf : ∀ b ∈ l, isFin dt (rdLE b 0 (dtSize dt)) = true)
    (hz : ∃ b ∈ l, isNegZero dt (rdLE b 0 (dtSize dt)) = false) :
    takeAll dt l = (finOf (l.map fun b => plainUnits dt (rdLE b 0 (dtSize dt))).sum, Tal.zero) := by
  have hn : ∀ b ∈ l, (nativeOf dt b).2 = Tal.zero ∧ (nativeOf dt b).1.fl < 2
      ∧ (isNegZero dt (rdLE b 0 (dtSize dt)) = false → (nativeOf dt b).1.fin = true) := fun b hb => sumNative_finite h1 (hf b hb)
  have hflags := foldl_lor_lt (n := 1) (x := 0) (fun b hb => (hn b hb).2.1) Nat.zero_lt_two
  have hfin : (l.any fun b => (nativeOf dt b).1.fin) = true := by
    obtain ⟨b, hb, hz⟩ := hz
    exact List.any_eq_true.mpr ⟨b, hb, (hn b hb).2.2 hz⟩
  rw [takeAll_plain h1 h5 hl, hfin, foldl_tal_zero fun b hb => (hn b hb).1]
  exact congrArg (·, Tal.zero) ((if_neg (not_not.mpr (Nat.div_eq_of_lt hflags))).trans (if_pos rfl))

end

/-- Settles O55: the fold over the operands joins flags and adds integers and counts, and none of these sees the order. -/
theorem sumsDoNotDependOnOrder : Obligations.SumsDoNotDependOnOrder :=
  ⟨fun _ _ _ h1 h5 hl h => ⟨takeAll_plain_perm h1 h5 hl h, takeAll_plain_exh h1 h5 hl⟩,
    fun _ _ h1 h5 hl hf hz => takeAll_plain_finite h1 h5 hl hf hz⟩

/-! ## Binned sums (R401 to R405) -/

/-- The highest top among the operands, at least that of an empty sum. -/
def topOf (l : List Bytes) : Nat := l.foldl (fun t b => max t (nativeOf 0 b).1.top) 2

theorem topOf_perm {l l' : List Bytes} (h : l.Perm l') : topOf l = topOf l' :=
  h.foldl_eq' (fun a _ b _ z => max_right_comm z (nativeOf 0 a).1.top (nativeOf 0 b).1.top) 2

/-- A binned sum of up to 2^23 operands: joined flags, the highest top, and the operands' bins added as that top shows them. -/
theorem takeAll_binned {l : List Bytes} (hl : l.length ≤ 2 ^ 23) : takeAll 0 l =
    (binSum (l.foldl (fun x b => Nat.lor x (nativeOf 0 b).1.fl) 0) (l.any fun b => (nativeOf 0 b).1.fin) (topOf l)
        (fun j => (l.map fun b => shown (nativeOf 0 b).1.top (topOf l) (binAt (nativeOf 0 b).1) j).sum),
      l.foldl (fun t b => t.add (nativeOf 0 b).2) Tal.zero) := by
  have h := bin_fold l 0 0 false 2 (fun _ => 0) Tal.zero (by decide) (fun _ => ⟨rfl, rfl⟩) le_rfl (fun _ => Nat.zero_le _)
    (by omega)
  have hz (t j) : shown 2 t (fun _ => 0) j = 0 := ite_self 0
  simp only [Bool.false_or, hz, Int.zero_add] at h
  exact h

/-- Settles O56: the highest top, the bins added under it, the joined flags and the counts do not see the order. -/
theorem binnedSumsDoNotDependOnOrder : Obligations.BinnedSumsDoNotDependOnOrder := by
  intro l l' hl h
  constructor
  · rw [takeAll_binned hl, takeAll_binned (h.length_eq ▸ hl), foldl_lor_perm h, h.any_eq, topOf_perm h, foldl_tal_perm h]
    simp only [(h.map _).sum_eq]
  · rw [takeAll_binned hl]
    exact foldl_tal_exh (fun b => sumNative_exh 0 _) l Tal.zero

end Sys2Proof.Machine
end

section
/-! PROOFS. The draw of stochastic rounding, and the operations AND, OR and XOR (R413, R417). -/
namespace Sys2Proof.Machine

section
variable (x : BitVec 64)

theorem xor_shiftRight_toNat (k : Nat) : Nat.xor x.toNat (x.toNat >>> k) = (x ^^^ x >>> k).toNat :=
  ((BitVec.toNat_xor x (x >>> k)).trans (congrArg (x.toNat ^^^ ·) (BitVec.toNat_ushiftRight x k))).symm

theorem mul_toNat (c : Nat) : x.toNat * c % 2 ^ 64 = (x * BitVec.ofNat 64 c).toNat := by
  rw [BitVec.toNat_mul, BitVec.toNat_ofNat, Nat.mul_mod_mod]

theorem shiftRight_toNat_high : x.toNat >>> 32 = (x.extractLsb' 32 32).toNat := by
  rw [BitVec.extractLsb'_toNat, Nat.mod_eq_of_lt]
  rw [Nat.shiftRight_eq_div_pow]
  exact Nat.div_lt_of_lt_mul x.isLt

end

theorem xor_shiftLeft_toNat (a b c : Nat) : Nat.xor (Nat.xor (a % 2 ^ 64) ((b <<< 32) % 2 ^ 64)) (c % 2 ^ 64) =
    (BitVec.ofNat 64 a ^^^ BitVec.ofNat 64 b <<< 32 ^^^ BitVec.ofNat 64 c).toNat := by
  have hb : (b <<< 32) % 2 ^ 64 = (BitVec.ofNat 64 b <<< 32).toNat := by
    rw [BitVec.toNat_shiftLeft, BitVec.toNat_ofNat, Nat.shiftLeft_eq, Nat.shiftLeft_eq, Nat.mod_mul_mod]
  rw [hb, BitVec.toNat_xor, BitVec.toNat_xor, BitVec.toNat_ofNat, BitVec.toNat_ofNat]
  rfl

/-- A chunk's elements are formed one after the other, each with the draw of its own index. -/
theorem formChunk_cons (op dt mode : Nat) (sat part : Bool) (seed inst k0 : Nat) (a : Accu) (l : List Accu) :
    (formChunk op dt mode sat part seed inst k0 (a :: l)).1 = (formElem op dt mode sat part (rduDraw seed inst k0) a).1
      ++ (formChunk op dt mode sat part seed inst (k0 + 1) l).1 := by
  simp only [formChunk, List.length_cons, List.range_succ_eq_map, List.zip_cons_cons, List.foldr_cons, Nat.add_zero,
    List.zip_map_right, List.foldr_map, Prod.map_fst, Prod.map_snd, id, Nat.succ_eq_add_one, Nat.add_assoc, Nat.add_comm 1]

/-- What the operations 5 (AND), 6 (OR) and 7 (XOR) make of two patterns. -/
def bitOp (op x y : Nat) : Nat := if op = 5 then Nat.land x y else if op = 6 then Nat.lor x y else Nat.xor x y

theorem testBit_bitOp (op x y i : Nat) : (bitOp op x y).testBit i =
    if op = 5 then x.testBit i && y.testBit i else if op = 6 then x.testBit i || y.testBit i else x.testBit i ^^ y.testBit i := by
  unfold bitOp
  split
  · exact Nat.testBit_and x y i
  · split
    · exact Nat.testBit_or x y i
    · exact Nat.testBit_xor x y i

section
variable {op : Nat} (h : op = 5 ∨ op = 6 ∨ op = 7)
include h

theorem takeElem_bitOp (dt : Nat) (part : Bool) (b : Bytes) (a : Accu) : takeElem op dt part b a =
    ({ a with v := ((if a.any then bitOp op a.v.toNat (rdLE b 0 (dtSize dt)) else rdLE b 0 (dtSize dt) : Nat) : Int), any := true },
      Tal.zero) := by
  rcases h with rfl | rfl | rfl <;> cases ha : a.any <;> simp only [takeElem, ha] <;> rfl

theorem formElem_bitOp (dt mode : Nat) (sat part : Bool) (draw : Nat) (a : Accu) :
    formElem op dt mode sat part draw a = (leBytes (dtSize dt) a.v.toNat, Tal.zero) := by
  rcases h with rfl | rfl | rfl <;> rfl

end

/-- Settles O58: each operation of the draw is the same in numbers below 2^64 and in words. -/
theorem theDrawAndTheBitOperations : Obligations.TheDrawAndTheBitOperations := by
  refine ⟨?draw, formChunk_cons, ?first, ?next, fun op dt mode sat part draw a h => formElem_bitOp h dt mode sat part draw a⟩
  case draw =>
    intro seed inst k
    simp only [rduDraw, xor_shiftLeft_toNat, xor_shiftRight_toNat, mul_toNat]
    exact shiftRight_toNat_high _
  case first =>
    intro op dt part b a h ha
    rw [takeElem_bitOp h, ha]
    rfl
  case next =>
    intro op dt part b a y h ha hv
    refine ⟨bitOp op y (rdLE b 0 (dtSize dt)), ?_, testBit_bitOp op y _⟩
    rw [takeElem_bitOp h, if_pos ha, hv, Int.toNat_natCast, ← ha]

end Sys2Proof.Machine
end

section
/-! PROOFS. Walks, granted accesses, and the commands of translation and protection (R425 to R427, R430, R432 to R435, R437 to R440,
R444, R446, R448). -/
namespace Sys2Proof.Machine

/-! ## The leaf of a walk (R425 to R427) -/

/-- A leaf stands at level 1, 2 or 3. -/
theorem leafSize_level {lv sz : Nat} {big : Bool} (h : leafSize lv big = some sz) : 1 ≤ lv ∧ lv ≤ 3 := by
  unfold leafSize at h
  split at h
  case h_5 => cases h
  all_goals decide

/-- What a walk has checked of the leaf in which it ends, at a level of at most `n`. -/
def LawfulLeaf (kind : Nat) (rs : List Region) (n e slot lv : Nat) : Prop :=
  bit e 0 = true ∧ bit e 1 = true ∧ entReserved e = false ∧ entDenies e kind = none ∧ 1 ≤ lv ∧ lv ≤ 3 ∧ lv ≤ n
    ∧ seHit rs slot 8 = false ∧ ∃ sz, leafSize lv (bit e 8) = some sz ∧ entOA e % 2 ^ sz = 0

/-- The checks, in the order in which a walk makes them at one level; a table entry leads one level down. -/
theorem walkGo_leaf {d c va kind : Nat} {inb : Bool} {rs : List Region} {ans : HostAns} {n table : Nat} {acc : List WalkEnt}
    {m m' : Mod} {e slot lv : Nat} {p : List WalkEnt} (h : walkGo d c va kind inb rs ans n table acc m = (.leaf e slot lv p, m')) :
    LawfulLeaf kind rs n e slot lv := by
  induction n generalizing table acc m with
  | zero => simp [walkGo] at h
  | succ l ih =>
    simp only [walkGo] at h
    split at h
    case isTrue => cases h
    case isFalse hse =>
    split at h
    case h_1 => cases h
    case h_2 a ha =>
    split at h
    case isTrue => cases h
    case isFalse hpresent =>
    split at h
    case isTrue => cases h
    case isFalse hres =>
    split at h
    case isTrue htable =>
      split at h
      case isTrue => cases h
      case isFalse =>
        obtain ⟨h0, h1, hr, hk, hlo, hhi, hn, hs⟩ := ih h
        exact ⟨h0, h1, hr, hk, hlo, hhi, Nat.le_succ_of_le hn, hs⟩
    case isFalse hleaf =>
    split at h
    case h_1 => cases h
    case h_2 sz hsz =>
    split at h
    case isTrue => cases h
    case isFalse halign =>
    split at h
    case h_1 => cases h
    case h_2 hk =>
      cases h
      obtain ⟨hlo, hhi⟩ := leafSize_level hsz
      exact ⟨by simpa using hpresent, by simpa using hleaf, by simpa using hres, hk, hlo, hhi, le_rfl, by simpa using hse,
        sz, hsz, not_not.mp halign⟩

/-- Settles O42: the checks of the level at which the walk ends. -/
theorem aWalkEndsOnlyInALawfulLeaf : Obligations.AWalkEndsOnlyInALawfulLeaf :=
  fun _ _ _ _ _ _ _ _ _ _ _ _ _ _ _ _ h => walkGo_leaf h

/-! ## Granted accesses (R437, R440, R448) -/

/-- No forbidden byte is found: the first byte in each granule is permitted. -/
theorem firstBad_none {d : Nat} {l : List Region} {f cls kind a n : Nat} {m : Mod}
    (h : firstBad d l f cls kind a n m = none) {g : Nat} (hlo : a / 64 ≤ g)
    (hhi : g < (a + n + 63) / 64) : permits (permOf d l f (max a (g * 64)) m) cls kind = true := by
  have hg : max a (g * 64) ∈ (List.range ((a + n + 63) / 64 - a / 64)).map (fun i => max a ((a / 64 + i) * 64)) :=
    List.mem_map.mpr ⟨g - a / 64, List.mem_range.mpr (by omega), by rw [Nat.add_sub_cancel' hlo]⟩
  simpa using List.find?_eq_none.mp h _ hg

/-- A granted access has been translated, and none of its pieces holds a forbidden byte. -/
theorem access_ok {d f c va len kind cls : Nat} {ans : HostAns} {m m' : Mod} {ps : List (Nat × Nat)} {se : Bool}
    (h : access d f c va len kind cls ans m = (.ok ps se, m')) : firstBadOf d (regions d m') f cls kind ps m' = none := by
  simp only [access] at h
  split at h
  case h_1 =>
    split at h
    case h_1 => cases h
    case h_2 hb => cases h; exact hb
  case h_2 x hne => exact absurd (congrArg Prod.fst h) (hne ps se)

/-- Settles O43: each piece of a granted access is free of forbidden bytes. -/
theorem aGrantedAccessIsPermitted : Obligations.AGrantedAccessIsPermitted :=
  fun _ _ _ _ _ _ _ _ _ _ _ _ h _ _ hp _ hlo hhi =>
    firstBad_none (List.findSome?_eq_none_iff.mp (access_ok h) _ hp) hlo hhi

/-! ## One access: its pages and its check (R427, R430, R432, R437) -/

theorem unitsOf_pos (va : Nat) {len : Nat} (h : 0 < len) : unitsOf va len = (va + len - 1) / 4096 - va / 4096 + 1 :=
  if_neg (Nat.ne_of_gt h)

theorem unitsOf_onePage {va len : Nat} (h : 0 < len) (hp : va % 4096 + len ≤ 4096) : unitsOf va len = 1 := by
  rw [unitsOf_pos va h]
  omega

/-- What becomes of an access that has one bus piece: nothing, or the record of the first forbidden byte. -/
def checkPiece (d f cls kind va b len : Nat) (m : Mod) : Mod :=
  match firstBad d (regions d m) f cls kind b len m with
  | some x => violation d f cls kind va len x m
  | none => m

section
variable {d f c va len kind cls : Nat} {ans : HostAns} {m n : Mod} (hl : 0 < len)
include hl

/-- A fault of the first page ends the access and is logged. -/
theorem translationWalk_fault {detail slot : Nat} (h : translate d f c va kind (inbound cls) ans m = (.fault detail slot, n)) :
    translationWalk d f c va len kind cls ans m = logFault d f c va kind cls detail slot n := by
  simp only [translationWalk, access, unitsOf_pos va hl, xlatePages, h]

/-- An access within one page is translated once and then checked. -/
theorem translationWalk_onePage {b : Nat} {se : Bool} (hp : va % 4096 + len ≤ 4096)
    (h : translate d f c va kind (inbound cls) ans m = (.ok b se, n)) :
    translationWalk d f c va len kind cls ans m = checkPiece d f cls kind va b len n := by
  have hk : min len (4096 - va % 4096) = len := min_eq_left (by omega)
  simp only [translationWalk, access, unitsOf_onePage hl hp, xlatePages, h, hk, List.reverse_singleton, firstBadOf,
    List.findSome?_singleton, checkPiece]
  cases firstBad d (regions d n) f cls kind b len n <;> rfl

end

section
variable {d f c va kind : Nat} {inb : Bool} {ans : HostAns} {m : Mod}

theorem translate_notEnabled (h : ctxOk d f c m = false) : translate d f c va kind inb ans m = (.fault 9 0, m) := by
  simp only [translate, h, Bool.not_false, if_true, xDetail, Nat.zero_mul, Nat.zero_add]

section
variable (hc : ctxOk d f c m = true)
include hc

theorem translate_tooWide (h : 2 ^ vaWidth (ctxLevels d c m) ≤ va) : translate d f c va kind inb ans m = (.fault 5 0, m) := by
  simp only [translate, hc, Bool.not_true, Bool.false_eq_true, if_false, if_pos h, xDetail, Nat.zero_mul, Nat.zero_add]

variable (hw : va < 2 ^ vaWidth (ctxLevels d c m))
include hw

/-- A cached entry that permits the kind and needs no mark is used, and becomes the most recent. -/
theorem translate_cached {t : TlbEnt} (ht : (xlt d m).tlb.find? (fun t => t.maps c va) = some t) (hk : entDenies t.leaf kind = none)
    (hm : curB F.XLT_CTX_CFG_AD_EN d c m = false ∨ kind = 0 ∨ bit t.leaf 7 = true) : translate d f c va kind inb ans m =
      (.ok (t.oa + va % 2 ^ t.size) (bit t.leaf 5 || seHit (regions d m) t.oa (2 ^ t.size)),
        setXlt d { xlt d m with tlb := t :: (xlt d m).tlb.erase t } (count d 544 1 m)) := by
  have hx : xlt d (count d 544 1 m) = xlt d m := rfl
  have hmark : (curB F.XLT_CTX_CFG_AD_EN d c (count d 544 1 m) && writes kind && !bit t.leaf 7) = false := by
    have hcur : curB F.XLT_CTX_CFG_AD_EN d c (count d 544 1 m) = curB F.XLT_CTX_CFG_AD_EN d c m := rfl
    rcases hm with h | h | h <;> simp [hcur, writes, h]
  simp only [translate, hc, Nat.not_le.mpr hw, hx, ht, useTlb, hk, hmark, Bool.not_true, Bool.not_false,
    Bool.false_eq_true, if_false, if_true]

/-- With no cached entry a walk finds the leaf, which is entered with the entries passed. -/
theorem translate_walked {b : Nat} {se : Bool} {t : TlbEnt} {passed : List WalkEnt} {m1 : Mod}
    (ht : (xlt d m).tlb.find? (fun t => t.maps c va) = none)
    (h : walkMark d f c va kind inb (regions d m) 8 ans (bump F.XLT_CNT_WALKS d 0 (count d 545 1 (count d 544 1 m)))
      = (.ok b se, some (t, passed), m1)) : translate d f c va kind inb ans m =
      (.ok b se, setXlt d { xlt d m1 with tlb := tlbAdd t (xlt d m1).tlb, walk := walkAdd passed (xlt d m1).walk } m1) := by
  have hx : xlt d (count d 544 1 m) = xlt d m := rfl
  simp only [translate, hc, Nat.not_le.mpr hw, hx, ht, h, Bool.not_true, Bool.false_eq_true, if_false]

end
end

/-! ## Invalidation, locks, contexts and regions (R433 to R435, R444) -/

section
variable {d f : Nat} {m : Mod}

theorem xltInvalidate_drops {c sc : Nat} (hb : rdB F.XLT_INV_CMD_BUSY d f m = false) (hc : c = cur F.XLT_INV_CMD_CTX d f m)
    (hsc : sc = cur F.XLT_INV_CMD_SCOPE d f m) (hf : sc = 1 ∨ sc = 2 → ctxForeign d f c m = false) :
    xltInvalidate d f m = dropXlt d f sc c (cur F.XLT_INV_ADDR_VA d f m) (max 1 (cur F.XLT_INV_CMD_PAGES d f m))
      (wrB F.XLT_INV_CMD_BUSY d f true m) := by
  subst hc hsc
  exact if_neg fun h => h.elim (ne_true_of_eq_false hb) fun h => ne_true_of_eq_false (hf h.1) h.2

theorem xltInvalidate_undecoded (h : rdB F.XLT_INV_CMD_BUSY d f m = true ∨ ((cur F.XLT_INV_CMD_SCOPE d f m = 1
      ∨ cur F.XLT_INV_CMD_SCOPE d f m = 2) ∧ ctxForeign d f (cur F.XLT_INV_CMD_CTX d f m) m = true)) :
    xltInvalidate d f m = bump F.HIF_ACC_ERR_UNDECODED d 0 m := if_pos h

theorem invalidateDone_ends (h : rdB F.XLT_INV_CMD_BUSY d f m = true ∨ drainingOf d f m ≠ []) :
    invalidateDone d f m = count d 548 1 (wrB F.XLT_INV_CMD_BUSY d f false
      (each (drainingOf d f m) (fun c m => wrB F.XLT_CTX_CFG_DRAINING d c false m) m)) :=
  if_pos (h.imp_right fun hl => by rw [List.isEmpty_eq_false_iff.mpr hl]; rfl)

theorem invalidateDone_idle (hb : rdB F.XLT_INV_CMD_BUSY d f m = false) (hl : drainingOf d f m = []) : invalidateDone d f m = m :=
  if_neg (by rw [hb, hl]; decide)

/-- A lock of one page that is not locked, with room among the locked entries. -/
theorem xltLock_onePage {c va b : Nat} {se : Bool} {t : TlbEnt} {ans : HostAns} {n : Mod} (hc : c = cur F.XLT_LOCK_CMD_CTX d f m)
    (hva : va = cur F.XLT_LOCK_ADDR_VA d f m * 4096) (hf : ctxForeign d f c m = false) (hp : cur F.XLT_LOCK_CMD_PAGES d f m ≤ 1)
    (hx : translate d f c va 0 false ans m = (.ok b se, n)) (ht : (xlt d n).tlb.find? (fun t => t.maps c va) = some t)
    (hu : t.locked = false) (hr : ((xlt d n).tlb.filter TlbEnt.locked).length < 512) :
    xltLock d f ans m = setXlt d { xlt d n with tlb := { t with locked := true } :: (xlt d n).tlb.erase t } n := by
  subst hc hva
  simp only [xltLock, hf, max_eq_left hp, lockGo, hx, ht, hu, Nat.not_le.mpr hr, Bool.false_eq_true, if_false]

end

/-! ## The commands -/

theorem exec_translationWalk {d f c va len kind cls : Nat} {ans : HostAns} {s : State} {n : Mod} (hd : d < 4) (hf : f < 1026)
    (hc : c < 4096) (hv : va < 2 ^ 64) (hk : kind < 3) (hcl : cls < 5) (hu : hostUp d s.m = true)
    (hn : translationWalk d f c va len kind cls ans s.m = n) :
    exec (.translationWalk d f c va len kind cls ans) s = .next (finish s n) := by
  change execTranslationWalk d f c va len kind cls ans s = _
  exact act_served (by simp only [dieOk_fnOk hd hf, hc, hv, hk, hcl, decide_true, Bool.and_self]) hu hn

section
variable {d : Nat} {s : State} {n : Mod} (hd : d < 4) (hu : hostUp d s.m = true)
include hd hu

section
variable {f : Nat} (hf : f < 1026)
include hf

theorem exec_xltInvalidate (hn : xltInvalidate d f s.m = n) : exec (.xltInvalidate d f) s = .next (finish s n) := by
  change execXltInvalidate d f s = _
  exact act_served (dieOk_fnOk hd hf) hu hn

theorem exec_invalidateDone (hn : invalidateDone d f s.m = n) : exec (.invalidateDone d f) s = .next (finish s n) := by
  change execInvalidateDone d f s = _
  exact act_served (dieOk_fnOk hd hf) hu hn

theorem exec_xltLock {ans : HostAns} (hn : xltLock d f ans s.m = n) : exec (.xltLock d f ans) s = .next (finish s n) := by
  change execXltLock d f ans s = _
  exact act_served (dieOk_fnOk hd hf) hu hn

end

theorem exec_contextDisable {c : Nat} (hc : c < 4096) (hn : contextDisable d c s.m = n) :
    exec (.contextDisable d c) s = .next (finish s n) := by
  change execContextDisable d c s = _
  exact act_served (by simp only [dieOk, hd, hc, decide_true, Bool.and_self]) hu hn

theorem exec_regionLock {r : Nat} (hr : r < 1024) (hn : regionLock d r s.m = n) :
    exec (.regionLock d r) s = .next (finish s n) := by
  change execRegionLock d r s = _
  exact act_served (by simp only [dieOk, hd, hr, decide_true, Bool.and_self]) hu hn

end

/-- Settles O41: an access by what its translation comes to, the other commands by what they name. -/
theorem translationCommandsAct : Obligations.TranslationCommandsAct := by
  refine ⟨?notEnabled, ?tooWide, ?cached, ?walked, ?drop, ?undecoded, ?done, ?idle, ?lock, ?context, ?region⟩
  case notEnabled =>
    intro d f c va len kind cls ans s hd hf hc hv hk hcl hu hl ho
    exact exec_translationWalk hd hf hc hv hk hcl hu (translationWalk_fault hl (translate_notEnabled ho))
  case tooWide =>
    intro d f c va len kind cls ans s hd hf hc hv hk hcl hu hl ho hw
    exact exec_translationWalk hd hf hc hv hk hcl hu (translationWalk_fault hl (translate_tooWide ho hw))
  case cached =>
    intro d f c va len kind cls ans s t m hd hf hc hv hk hcl hu hl hp ho hw ht hperm hmark hm
    subst hm
    exact exec_translationWalk hd hf hc hv hk hcl hu (translationWalk_onePage hl hp (translate_cached ho hw ht hperm hmark))
  case walked =>
    intro d f c va len kind cls ans s b se t passed m1 m hd hf hc hv hk hcl hu hl hp ho hw ht hwalk hm
    subst hm
    exact exec_translationWalk hd hf hc hv hk hcl hu (translationWalk_onePage hl hp (translate_walked ho hw ht hwalk))
  case drop =>
    exact fun d f c sc s hd hf hu hb hc hsc hfor => exec_xltInvalidate hd hu hf (xltInvalidate_drops hb hc hsc hfor)
  case undecoded => exact fun d f s hd hf hu h => exec_xltInvalidate hd hu hf (xltInvalidate_undecoded h)
  case done => exact fun d f s hd hf hu h => exec_invalidateDone hd hu hf (invalidateDone_ends h)
  case idle => exact fun d f s hd hf hu hb hl => exec_invalidateDone hd hu hf (invalidateDone_idle hb hl)
  case lock =>
    intro d f ans c va b se m t s hd hf hu hc hva hfor hp hx ht hun hr
    exact exec_xltLock hd hu hf (xltLock_onePage hc hva hfor hp hx ht hun hr)
  case context => exact fun d c s hd hc hu => exec_contextDisable hd hu hc rfl
  case region => exact fun d r s hd hr hu => exec_regionLock hd hu hr (if_pos hr)

end Sys2Proof.Machine
end

section
/-! PROOFS. Peer windows: requests of BAR4, commits, timeouts of reads, and signal mirrors (R451, R452, R455, R456, R457, R458,
R460, R462, R464). -/
namespace Sys2Proof.Machine

/-! ## Requests of BAR4 (R455, R457, R458, R462) -/

/-- The bytes that a request covers: a read's length, half of a compare-and-swap's data, else all its data. -/
def bar4Len (k op len : Nat) (b : Bytes) : Nat := if k = 1 then len else if k = 2 ∧ op = 2 then b.length / 2 else b.length

section
variable {d pf k off len op : Nat} {b : Bytes} {m : Mod} (id : Nat)

/-- A request that no active window holds. -/
theorem bar4Request_undecoded (h : decodeBar4 d pf off (bar4Len k op len b) m = none) : bar4Request d pf id k off len op b m =
    if k = 0 then bump F.HIF_ACC_ERR_UNDECODED d 0 m
    else bar4Reply d id 0 (List.replicate (bar4Len k op len b) 0xFF#8) (bump F.HIF_ACC_ERR_UNDECODED d 0 m) := by
  unfold bar4Len at h ⊢
  simp only [bar4Request, h]

section
variable {w : Nat} {x : Win} (h : decodeBar4 d pf off (bar4Len k op len b) m = some (w, x))
  (hs : x.swap = 0 ∨ (off % 2 ^ x.swap = 0 ∧ bar4Len k op len b % 2 ^ x.swap = 0))
include h hs

/-- An AtomicOp in a window without an exclusive mode. -/
theorem bar4Request_noMode (hk : k = 2) (hx : x.xmode = 0) : bar4Request d pf id k off len op b m = bar4Reply d id 4 [] m := by
  have hswap : ¬(x.swap ≠ 0 ∧ (off % 2 ^ x.swap ≠ 0 ∨ bar4Len k op len b % 2 ^ x.swap ≠ 0)) := by tauto
  unfold bar4Len at h hswap
  simp only [bar4Request, h, if_neg hswap, if_pos (And.intro hk hx)]

/-- A request whose window's conduit is open is entered and tried. -/
theorem bar4Request_entered {cn : Nat} {q : Bar4} {n : Mod} (hx : k = 2 → x.xmode ≠ 0)
    (hc : unicastOf d (pfFn pf) x.eid x.pasture m = some cn) (hl : condLive d cn m = true)
    (hq : q = { die := d, win := w, id := id, kind := k, off := off, len := bar4Len k op len b, op := op, data := b, set := x,
                sent := false, time := 0 })
    (hn : n = wr F.PWN_WIN_STATUS_INFLIGHT d w (rd F.PWN_WIN_STATUS_INFLIGHT d w m + 1)
      (updTrn (fun t => { t with bar4 := t.bar4 ++ [q] }) m)) : bar4Request d pf id k off len op b m = bar4Try q n := by
  have hswap : ¬(x.swap ≠ 0 ∧ (off % 2 ^ x.swap ≠ 0 ∨ bar4Len k op len b % 2 ^ x.swap ≠ 0)) := by tauto
  subst hq hn
  unfold bar4Len at h hswap ⊢
  simp only [bar4Request, h, if_neg hswap, if_neg (not_and.mpr hx), hc, hl, Bool.not_true, Bool.false_eq_true, if_false]

end
end

section
variable {q : Bar4} {m : Mod}

theorem bar4Try_waits (h : bar4Waits q m = true) : bar4Try q m = m := if_pos h

/-- A request that waits for nothing starts its message, and is marked sent. -/
theorem bar4Try_sends {cn : Nat} (hw : bar4Waits q m = false)
    (hs : q.kind = 0 ∨ q.set.strict = false ∨ NMap.get false m.trn.strict (q.die * 256 + q.win) = false)
    (hc : unicastOf q.die (pfFn (winPf q.die q.win m)) q.set.eid q.set.pasture m = some cn) :
    bar4Try q m = updTrn (fun t => { t with bar4 := t.bar4.map (fun x => if x.die = q.die ∧ x.id = q.id
      then { x with sent := true, time := now q.die (addMsg q.die cn (bar4Msg q) m).2 } else x) })
        (addMsg q.die cn (bar4Msg q) m).2 := by
  have hstrict : ¬(q.kind ≠ 0 ∧ q.set.strict = true ∧ NMap.get false m.trn.strict (q.die * 256 + q.win) = true) :=
    fun ⟨h0, h1, h2⟩ => hs.elim h0 fun h => h.elim (ne_true_of_eq_false · h1) (ne_true_of_eq_false · h2)
  simp only [bar4Try, hw, Bool.false_eq_true, if_false, if_neg hstrict, hc]

end

/-! ## Commits, timeouts and mirrors (R452, R456, R464) -/

section
variable {d w : Nat} {m : Mod} (hw : w < 256)
include hw

theorem windowCommit_disabled (he : curB F.PWN_WIN_MODE_ENABLE d w m = false) : windowCommit d w m =
    bumpWrap F.PWN_WIN_STATUS_COMMITS d w (wrB F.PWN_WIN_STATUS_ACTIVE d w false
      (updTrn (fun t => { t with win := NMap.upd t.win (d * 256 + w) none }) m)) := by
  simp only [windowCommit, Nat.not_le.mpr hw, he, Bool.not_false, if_true, Bool.false_eq_true, if_false]

section
variable (he : curB F.PWN_WIN_MODE_ENABLE d w m = true)
include he

theorem windowCommit_copies (hb : commitBad d w (shadowSet d w m) m = none) : windowCommit d w m =
    bumpWrap F.PWN_WIN_STATUS_COMMITS d w (wrB F.PWN_WIN_STATUS_ACTIVE d w true
      (updTrn (fun t => { t with win := NMap.upd t.win (d * 256 + w) (some (shadowSet d w m)) }) m)) := by
  simp only [windowCommit, Nat.not_le.mpr hw, he, Bool.not_true, hb, if_true, Bool.false_eq_true, if_false]

theorem windowCommit_refused {e : Nat} (hb : commitBad d w (shadowSet d w m) m = some e) : windowCommit d w m =
    wr F.PWN_WIN_CMD_ERR_CAUSE d w e (wrB F.PWN_WIN_CMD_COMMIT_ERR d w true m) := by
  simp only [windowCommit, Nat.not_le.mpr hw, he, Bool.not_true, hb, Bool.false_eq_true, if_false]

end
end

section
variable {d id : Nat} {m : Mod}

theorem peerReadTimeout_waiting {q : Bar4} (h : m.trn.bar4.find? (fun b => b.die == d && b.id == id && b.kind != 0) = some q) :
    peerReadTimeout d id m = bar4Next d (bar4Reply d id 4 [] (bar4End q m)) := by
  simp only [peerReadTimeout, h]

theorem peerReadTimeout_idle (h : m.trn.bar4.find? (fun b => b.die == d && b.id == id && b.kind != 0) = none) :
    peerReadTimeout d id m = m := by
  simp only [peerReadTimeout, h]

end

/-- The record of mirror `k` is replaced. -/
def setMirror (d k : Nat) (x : Mirror) (m : Mod) : Mod :=
  updTrn (fun t => { t with mir := NMap.set Mirror.reset t.mir (d * 64 + k) x }) m

section
variable {d k : Nat} {m : Mod}

theorem mirrorPoll_disabled (he : curB F.PWN_MIR_CTL_ENABLE d k m = false) : mirrorPoll d k m = m :=
  if_pos (.inr (by rw [he]; rfl))

section
variable {r : Mirror} (hk : k < 64) (he : curB F.PWN_MIR_CTL_ENABLE d k m = true)
  (hr : r = NMap.get Mirror.reset m.trn.mir (d * 64 + k))
include hk he hr

/-- An unchanged value, not yet polled 64 times, is only counted. -/
theorem mirrorPoll_unchanged (hv : cur F.PWN_MIR_OUT_VALUE d k m = r.last) (hp : r.polls + 1 < 64) :
    mirrorPoll d k m = setMirror d k { r with polls := r.polls + 1 } m := by
  have hon : ¬(64 ≤ k ∨ (!curB F.PWN_MIR_CTL_ENABLE d k m) = true) := by simp [hk, he]
  refine (if_neg hon).trans ?_
  subst hr
  exact if_pos ⟨hv, hp⟩

/-- A changed value, or one polled 64 times, is sent with the next sequence number. -/
theorem mirrorPoll_sends {v cn : Nat} {n : Mod} (hv : v = cur F.PWN_MIR_OUT_VALUE d k m) (hs : v ≠ r.last ∨ 63 ≤ r.polls)
    (hc : unicastOf d 0 (cur F.PWN_MIR_CFG_EID d k m) (cur F.PWN_MIR_CFG_PASTURE d k m) m = some cn)
    (hn : n = (addMsg d cn { Msg.blank with
      op := Op.put, len := 8, addr := 0
      hdr := (rmaHdr (2 ^ 63 + cur F.PWN_MIR_CFG_PEER_MIR d k m) 0 0 0)
      held := some (leBytes 4 v ++ leBytes 2 (cur F.PWN_MIR_CTL_PERIOD_US d k m) ++ leBytes 2 ((r.seq + 1) % 65536)) } m).2) :
    mirrorPoll d k m = setMirror d k { last := v, polls := 0, seq := (r.seq + 1) % 65536, got := r.got, sentOnce := true } n := by
  have hon : ¬(64 ≤ k ∨ (!curB F.PWN_MIR_CTL_ENABLE d k m) = true) := by simp [hk, he]
  refine (if_neg hon).trans ?_
  subst hr hv hn
  refine (if_neg fun ⟨hl, hp⟩ => hs.elim (· hl) (by omega)).trans ?_
  simp only [hc]
  rfl

end
end

/-! ## The commands -/

section
variable {d : Nat} {s : State} {n : Mod} (hd : d < 4) (hu : hostUp d s.m = true)
include hd hu

theorem exec_bar4Request {pf id k off len op : Nat} {b : Bytes} (hp : pf < 2) (hk : k < 3)
    (hn : bar4Request d pf id k off len op b s.m = n) : exec (.bar4Request d pf id k off len op b) s = .next (finish s n) := by
  change execBar4Request d pf id k off len op b s = _
  exact act_served (by simp only [dieOk_pfOk hd hp, hk, decide_true, Bool.and_self]) hu hn

theorem exec_windowCommit {w : Nat} (hw : w < 256) (hn : windowCommit d w s.m = n) :
    exec (.windowCommit d w) s = .next (finish s n) := by
  change execWindowCommit d w s = _
  exact act_served (by simp only [dieOk, hd, hw, decide_true, Bool.and_self]) hu hn

theorem exec_peerReadTimeout {id : Nat} (hn : peerReadTimeout d id s.m = n) :
    exec (.peerReadTimeout d id) s = .next (finish s n) := by
  change execPeerReadTimeout d id s = _
  exact act_served (decide_eq_true hd) hu hn

theorem exec_pwlogRearm (hn : pwRearm d s.m = n) : exec (.pwlogRearm d) s = .next (finish s n) := by
  change execPwlogRearm d s = _
  exact act_served (decide_eq_true hd) hu hn

theorem exec_mirrorPoll {k : Nat} (hk : k < 64) (hn : mirrorPoll d k s.m = n) : exec (.mirrorPoll d k) s = .next (finish s n) := by
  change execMirrorPoll d k s = _
  exact act_served (by simp only [dieOk, hd, hk, decide_true, Bool.and_self]) hu hn

end

/-- Settles O44: a request by the window that holds it, a commit by its checks, a mirror by its value. -/
theorem peerWindowsForwardTheirRequests : Obligations.PeerWindowsForwardTheirRequests := by
  refine ⟨?undecoded, ?noMode, ?entered, ?waits, ?sends, ?copies, ?refused, ?disabled, ?timeout, ?timeoutIdle, ?rearm, ?mirrorOff,
    ?unchanged, ?changed⟩
  case undecoded =>
    intro d pf id k off len op b n s hd hp hk hu hn h
    subst hn
    exact exec_bar4Request hd hu hp hk (bar4Request_undecoded id h)
  case noMode =>
    intro d pf id off len op b n w x s hd hp hu hn h hs hx
    have hlen : n = bar4Len 2 op len b := by simp [bar4Len, hn]
    subst hlen
    exact exec_bar4Request hd hu hp (by decide) (bar4Request_noMode id h hs rfl hx)
  case entered =>
    intro d pf id k off len op b n w x cn s q m hd hp hk hu hn h hs hx hc hl hq hm
    subst hn
    exact exec_bar4Request hd hu hp hk (bar4Request_entered id h hs hx hc hl hq hm)
  case waits => exact fun q m h => bar4Try_waits h
  case sends => exact fun q cn m hw hs hc => bar4Try_sends hw hs hc
  case copies => exact fun d w s hd hw hu he hb => exec_windowCommit hd hu hw (windowCommit_copies hw he hb)
  case refused => exact fun d w e s hd hw hu he hb => exec_windowCommit hd hu hw (windowCommit_refused hw he hb)
  case disabled => exact fun d w s hd hw hu he => exec_windowCommit hd hu hw (windowCommit_disabled hw he)
  case timeout => exact fun d id q s hd hu h => exec_peerReadTimeout hd hu (peerReadTimeout_waiting h)
  case timeoutIdle => exact fun d id s hd hu h => exec_peerReadTimeout hd hu (peerReadTimeout_idle h)
  case rearm => exact fun d s hd hu => exec_pwlogRearm hd hu rfl
  case mirrorOff => exact fun d k s hd hk hu he => exec_mirrorPoll hd hu hk (mirrorPoll_disabled he)
  case unchanged => exact fun d k r s hd hk hu he hr hv hp => exec_mirrorPoll hd hu hk (mirrorPoll_unchanged hk he hr hv hp)
  case changed =>
    exact fun d k r v cn s m hd hk hu he hr hv hs hc hm => exec_mirrorPoll hd hu hk (mirrorPoll_sends hk he hr hv hs hc hm)

end Sys2Proof.Machine
end

section
/-! PROOFS. Energy actions pushed to a die, the slices of a self-test pass, and the read-back of the error pair (R477, R495, R506,
R511, R513, R514, R515). -/
namespace Sys2Proof.Machine

/-! ## Energy actions (R477) -/

section
variable {d : Nat} {m : Mod}

theorem actionApply_due {l : Nat} (h : NMap.find m.tly.due d = some l) :
    actionApply d m = wr F.TLY_ACTION_QUIET_IDLE_NS d 0 (actionOf l m).quiet (wr F.TLY_ACTION_DROVER_GAP_NS d 0 (actionOf l m).gap
      (wr F.TLY_ACTION_INJ_SCALE d 0 (actionOf l m).inj { m with tly := { m.tly with due := NMap.del m.tly.due d } })) := by
  simp only [actionApply, h]

theorem actionApply_none (h : NMap.find m.tly.due d = none) : actionApply d m = m := by
  simp only [actionApply, h]

end

/-! ## Slices (R511, R513 to R515) -/

/-- The pass once macro `k` has been taken from it and counted. -/
def sliceCounted (d k : Nat) (m : Mod) : Mod :=
  bump F.BST_CNT_SLICES_DONE d 0 (count d 677 1 (setSlices d ((slicesOf d m).erase k) (againOf d m) (NMap.get 0 m.bst.pos d) m))

section
variable {d k : Nat} {m : Mod}

section
variable (h : (slicesOf d m).contains k = false)
include h

theorem sliceComplete_other (u : Nat) (pass : Bool) : sliceComplete d k u pass m = m := if_pos (by rw [h]; rfl)

theorem sliceAbort_other : sliceAbort d k m = m := if_pos (by rw [h]; rfl)

end

section
variable (h : (slicesOf d m).contains k = true)
include h

theorem sliceComplete_pass (u : Nat) : sliceComplete d k u true m = passEnd d (sliceCounted d k m) := if_neg (by rw [h]; decide)

/-- A failure takes a spare, is counted and shown, and raises the fault of the macro's unit; the last spare raises its own. -/
theorem sliceComplete_fail {u left : Nat} {n r : Mod} (hd : d < 4) (hu : u < 28)
    (hleft : left = rd F.BST_SPARES_SPARES_LEFT d 0 (sliceCounted d k m) - 1)
    (hn : n = wr F.BST_SPARES_SPARES_LEFT d 0 left (bump F.BST_SPARES_REPAIRED d 0 (bump F.BST_CNT_FAILED d 0
      { sliceCounted d k m with bst := { (sliceCounted d k m).bst with
          spared := NMap.set false (sliceCounted d k m).bst.spared (d * 2048 + k) true } })))
    (hr : r = raise d u 5 0 k none (wr F.BST_LAST_FAIL_MACRO d 0 k (wr F.BST_LAST_FAIL_FRAME d 0 (now d n / 1048576) n))) :
    sliceComplete d k u false m =
      passEnd d (if left = 0 then raise d 26 6 0 0 none (wrB F.BST_STATUS_NO_SPARE d 0 true r) else r) := by
  subst hleft hn hr
  have hunit : unitKnown d u = true := (if_pos hd).trans (decide_eq_true hu)
  refine (if_neg (by rw [h]; decide)).trans ?_
  simp only [hunit, if_true]
  rfl

theorem sliceAbort_again : sliceAbort d k m = bump F.BST_CNT_ABORTED d 0
    (setSlices d ((slicesOf d m).erase k) (againOf d m ++ [k]) (NMap.get 0 m.bst.pos d) m) := if_neg (by rw [h]; decide)

end
end

/-! ## The commands -/

section
variable {d : Nat} {s : State} {n : Mod} (hd : d < 4) (hu : hostUp d s.m = true)
include hd hu

theorem exec_actionEntryApply (hn : actionApply d s.m = n) : exec (.actionEntryApply d) s = .next (finish s n) := by
  change execActionEntryApply d s = _
  exact act_served (decide_eq_true hd) hu hn

variable {k : Nat} (hk : k < 1920)
include hk

theorem exec_sliceComplete {u : Nat} {pass : Bool} (hu28 : u < 28) (hn : sliceComplete d k u pass s.m = n) :
    exec (.sliceComplete d k u pass) s = .next (finish s n) := by
  change execSliceComplete d k u pass s = _
  exact act_served (by simp only [dieOk, hd, hk, hu28, decide_true, Bool.and_self]) hu hn

theorem exec_sliceAbort (hn : sliceAbort d k s.m = n) : exec (.sliceAbort d k) s = .next (finish s n) := by
  change execSliceAbort d k s = _
  exact act_served (by simp only [dieOk, hd, hk, decide_true, Bool.and_self]) hu hn

end

/-- Settles O45: an action by what was pushed, a slice by whether its macro is in the pass and by its result. -/
theorem energyActionsAndTestSlicesEnd : Obligations.EnergyActionsAndTestSlicesEnd := by
  refine ⟨?action, ?noAction, ?pass, ?fail, ?other, ?again⟩
  case action => exact fun d l s hd hu h => exec_actionEntryApply hd hu (actionApply_due h)
  case noAction => exact fun d s hd hu h => exec_actionEntryApply hd hu (actionApply_none h)
  case pass => exact fun d k u s hd hk hu28 hu h => exec_sliceComplete hd hu hk hu28 (sliceComplete_pass h u)
  case fail =>
    intro d k u s m left n r hd hk hu28 hu h hm hleft hn hr
    subst hm
    exact exec_sliceComplete hd hu hk hu28 (sliceComplete_fail h hd hu28 hleft hn hr)
  case other =>
    exact fun d k u p s hd hk hu28 hu h =>
      ⟨exec_sliceComplete hd hu hk hu28 (sliceComplete_other h u p), exec_sliceAbort hd hu hk (sliceAbort_other h)⟩
  case again => exact fun d k s hd hk hu h => exec_sliceAbort hd hu hk (sliceAbort_again h)

/-! ## The error pair (R495, R506) -/

theorem exec_errorPairReadback {p n : Bool} {s : State} {m : Mod} (hb : s.m.shep.booted = true) (hm : pairReadback p n s.m = m) :
    exec (.errorPairReadback p n) s = .next (finish s m) := by
  change execErrorPairReadback p n s = _
  rw [execErrorPairReadback, act_true rfl, when, if_pos hb, hm]

section
variable (p : Bool) {m : Mod}

theorem pairReadback_equal (h : m.flt.pairEq + 1 ≠ 10) :
    pairReadback p p m = { m with flt := { m.flt with pairEq := m.flt.pairEq + 1 } } := by
  simp only [pairReadback, beq_self_eq_true, if_true, if_neg h]

theorem pairReadback_tenth (h : m.flt.pairEq + 1 = 10) : pairReadback p p m =
    raise 4 47 30 0 (b2n p + 2 * b2n p) none { m with flt := { m.flt with pairEq := 10 } } := by
  simp only [pairReadback, beq_self_eq_true, if_true, h]

theorem pairReadback_complementary {n : Bool} (h : p ≠ n) :
    pairReadback p n m = causeEnd 4 47 (2 ^ 30) { m with flt := { m.flt with pairEq := 0 } } :=
  if_neg (by rwa [beq_iff_eq])

/-- A reading drives no pin. -/
theorem pairReadback_pin (n : Bool) : (pairReadback p n m).pin = m.pin := by
  unfold pairReadback
  split
  · dsimp only
    split
    · exact raiseInj_pin ..
    · rfl
  · rfl

end

/-- Settles O9: `pairReadback` by the levels read and the count of equal readings. -/
theorem theErrorPairIsReadBack : Obligations.TheErrorPairIsReadBack :=
  ⟨fun p _ hb h => exec_errorPairReadback hb (pairReadback_equal p h),
    fun p _ hb h => exec_errorPairReadback hb (pairReadback_tenth p h),
    fun p _ _ hb h => exec_errorPairReadback hb (pairReadback_complementary p h), fun p n _ => pairReadback_pin p n⟩

end Sys2Proof.Machine
end

section
/-! PROOFS. SPDM requests, sessions and host-link IDE (R523, R524, R525, R526). -/
namespace Sys2Proof.Machine

/-- Where the responder is reached, a request has its effect. -/
theorem act_spdm {ok : Bool} {v : Nat} {s : State} {g : Fuse → Mod → Mod} {n : Mod} (hok : ok = true) (hs : spdmServed v s.m = true)
    (hn : g s.fuse s.m = n) : act ok s (fun fz m => when (spdmServed v m) (g fz) m) = .next (finish s n) := by
  rw [act_true hok, when, if_pos hs, hn]

theorem viaOk_lt {v : Nat} (h : v < 17) : viaOk v = true := decide_eq_true h

/-! ## Negotiation and what it opens (R523 to R525) -/

section
variable {v : Nat} {m : Mod}

theorem spdmCaps_inTurn (h : negot v m = 1) (q : Bytes) :
    spdmCaps v q m = setNegot v 2 (spdmAnswer 0x61 (Config.spdmBody 0xE1 q m.free) m) := if_pos h

theorem spdmCaps_outOfTurn (h : negot v m ≠ 1) (q : Bytes) : spdmCaps v q m = spdmError 4 m := if_neg h

theorem spdmAlgs_inTurn (h : negot v m = 2) (q : Bytes) :
    spdmAlgs v q m = setNegot v 3 (spdmAnswer 0x63 (Config.spdmBody 0xE3 q m.free) m) := if_pos h

theorem spdmAlgs_outOfTurn (h : negot v m ≠ 2) (q : Bytes) : spdmAlgs v q m = spdmError 4 m := if_neg h

section
variable (h : negot v m = 3)
include h

theorem spdmReady_negotiated (code : Nat) (data : Bytes) : spdmReady v code data m = spdmAnswer code data m := if_pos h

theorem spdmChallenge_signed (hk : m.sec.idKey = true) (q : Bytes) :
    spdmChallenge v q m = spdmAnswer 0x03 (Config.spdmBody 0x83 q m.free) { m with free := m.free + 1 } :=
  (if_neg fun hno => by simp [hk] at hno).trans (if_pos h)

theorem spdmChallenge_noKey (hk : m.sec.idKey = false) (q : Bytes) : spdmChallenge v q m = spdmError 5 m :=
  if_pos ⟨h, by rw [hk]; rfl⟩

theorem spdmKeyExchange_full (hf : 8 ≤ m.sec.sessions.length) (q : Bytes) : spdmKeyExchange v q m = spdmError 0x0A m :=
  (if_neg (not_not.mpr h)).trans (if_pos hf)

section
variable (hf : m.sec.sessions.length < 8)
include hf

theorem spdmKeyExchange_noKey (hk : m.sec.idKey = false) (q : Bytes) : spdmKeyExchange v q m = spdmError 5 m :=
  (if_neg (not_not.mpr h)).trans ((if_neg (Nat.not_le.mpr hf)).trans (if_pos (by rw [hk]; rfl)))

theorem spdmKeyExchange_begins (hk : m.sec.idKey = true) (q : Bytes) : spdmKeyExchange v q m =
    spdmAnswer 0x64 (leBytes 4 m.sec.nextSess ++ Config.spdmBody 0xE4 q m.free) { m with
      free := m.free + 1
      sec := { m.sec with
        sessions := m.sec.sessions ++ [{ id := m.sec.nextSess, via := v, draw := m.free, est := false, updates := 0 }]
        nextSess := m.sec.nextSess + 1 } } :=
  (if_neg (not_not.mpr h)).trans ((if_neg (Nat.not_le.mpr hf)).trans (if_neg (by rw [hk]; decide)))

end

theorem spdmSetCert_writes {slot : Nat} (h1 : 1 ≤ slot) (h7 : slot ≤ 7) (hl : m.sec.lifecycle = 1 ∨ m.sec.lifecycle = 2)
    (chain : Bytes) : spdmSetCert v slot chain m = spdmAnswer 0x6E (leBytes 1 slot)
      { m with flash := { m.flash with certs := NMap.set [] m.flash.certs slot chain } } :=
  (if_neg (not_not.mpr h)).trans (if_pos ⟨h1, h7, hl⟩)

theorem spdmSetCert_refused {slot : Nat} (hr : slot = 0 ∨ 7 < slot ∨ m.sec.lifecycle = 0 ∨ m.sec.lifecycle = 3) (chain : Bytes) :
    spdmSetCert v slot chain m = spdmError 1 m :=
  (if_neg (not_not.mpr h)).trans (if_neg (by omega))

end

section
variable (h : negot v m ≠ 3)
include h

theorem spdmReady_early (code : Nat) (data : Bytes) : spdmReady v code data m = spdmError 4 m := if_neg h

/-- A CHALLENGE out of turn has drawn its free value all the same. -/
theorem spdmChallenge_early (q : Bytes) : spdmChallenge v q m = spdmError 4 { m with free := m.free + 1 } :=
  (if_neg fun hk => h hk.1).trans (if_neg h)

theorem spdmKeyExchange_early (q : Bytes) : spdmKeyExchange v q m = spdmError 4 m := if_pos h

theorem spdmSetCert_early (slot : Nat) (chain : Bytes) : spdmSetCert v slot chain m = spdmError 4 m := if_pos h

end
end

section
variable {v : Nat} {s : State} {n : Mod} (hv : v < 17) (hs : spdmServed v s.m = true)
include hv hs

theorem exec_getVersion (hn : spdmVersion v s.m = n) : exec (.getVersion v) s = .next (finish s n) := by
  change execGetVersion v s = _
  exact act_spdm (viaOk_lt hv) hs hn

theorem exec_getCapabilities {q : Bytes} (hn : spdmCaps v q s.m = n) : exec (.getCapabilities v q) s = .next (finish s n) := by
  change execGetCapabilities v q s = _
  exact act_spdm (viaOk_lt hv) hs hn

theorem exec_negotiateAlgorithms {q : Bytes} (hn : spdmAlgs v q s.m = n) :
    exec (.negotiateAlgorithms v q) s = .next (finish s n) := by
  change execNegotiateAlgorithms v q s = _
  exact act_spdm (viaOk_lt hv) hs hn

theorem exec_getDigests (hn : spdmDigests v s.m = n) : exec (.getDigests v) s = .next (finish s n) := by
  change execGetDigests v s = _
  exact act_spdm (viaOk_lt hv) hs hn

theorem exec_getCertificate {slot off len : Nat} (hn : spdmCert v slot off len s.m = n) :
    exec (.getCertificate v slot off len) s = .next (finish s n) := by
  change execGetCertificate v slot off len s = _
  exact act_spdm (viaOk_lt hv) hs hn

theorem exec_challenge {q : Bytes} (hn : spdmChallenge v q s.m = n) : exec (.challenge v q) s = .next (finish s n) := by
  change execChallenge v q s = _
  exact act_spdm (viaOk_lt hv) hs hn

theorem exec_getMeasurements {i : Nat} (hn : spdmMeasure s.fuse v i s.m = n) :
    exec (.getMeasurements v i) s = .next (finish s n) := by
  change execGetMeasurements v i s = _
  exact act_spdm (viaOk_lt hv) hs hn

theorem exec_keyExchange {q : Bytes} (hn : spdmKeyExchange v q s.m = n) : exec (.keyExchange v q) s = .next (finish s n) := by
  change execKeyExchange v q s = _
  exact act_spdm (viaOk_lt hv) hs hn

theorem exec_setCertificate {slot : Nat} {chain : Bytes} (hn : spdmSetCert v slot chain s.m = n) :
    exec (.setCertificate v slot chain) s = .next (finish s n) := by
  change execSetCertificate v slot chain s = _
  exact act_spdm (viaOk_lt hv) hs hn

end

/-- Settles O46: each request by how far negotiation has come and by what it needs. -/
theorem spdmRequestsAreAnsweredInOrder : Obligations.SpdmRequestsAreAnsweredInOrder := by
  refine ⟨?version, ?caps, ?algs, ?outOfTurn, ?digests, ?cert, ?challenge, ?measure, ?exchange, ?full, ?noKey, ?setCert,
    ?refused, ?early⟩
  case version => exact fun v s hv hs => exec_getVersion hv hs rfl
  case caps => exact fun v q s hv hs h => exec_getCapabilities hv hs (spdmCaps_inTurn h q)
  case algs => exact fun v q s hv hs h => exec_negotiateAlgorithms hv hs (spdmAlgs_inTurn h q)
  case outOfTurn =>
    exact fun v q s hv hs => ⟨fun h => exec_getCapabilities hv hs (spdmCaps_outOfTurn h q),
      fun h => exec_negotiateAlgorithms hv hs (spdmAlgs_outOfTurn h q)⟩
  case digests => exact fun v s hv hs h => exec_getDigests hv hs (spdmReady_negotiated h _ _)
  case cert => exact fun v slot off len s hv hs h => exec_getCertificate hv hs (spdmReady_negotiated h _ _)
  case challenge => exact fun v q s hv hs h hk => exec_challenge hv hs (spdmChallenge_signed h hk q)
  case measure => exact fun v i s hv hs h => exec_getMeasurements hv hs (spdmReady_negotiated h _ _)
  case exchange => exact fun v q s hv hs h hf hk => exec_keyExchange hv hs (spdmKeyExchange_begins h hf hk q)
  case full => exact fun v q s hv hs h hf => exec_keyExchange hv hs (spdmKeyExchange_full h hf q)
  case noKey =>
    exact fun v q s hv hs h hk => ⟨exec_challenge hv hs (spdmChallenge_noKey h hk q),
      fun hf => exec_keyExchange hv hs (spdmKeyExchange_noKey h hf hk q)⟩
  case setCert => exact fun v slot chain s hv hs h h1 h7 hl => exec_setCertificate hv hs (spdmSetCert_writes h h1 h7 hl chain)
  case refused => exact fun v slot chain s hv hs h hr => exec_setCertificate hv hs (spdmSetCert_refused h hr chain)
  case early =>
    intro v i q off len slot chain s hv hs h
    simp only [List.forall_mem_cons]
    exact ⟨⟨_, exec_getDigests hv hs (spdmReady_early h _ _), rfl⟩, ⟨_, exec_getCertificate hv hs (spdmReady_early h _ _), rfl⟩,
      ⟨_, exec_challenge hv hs (spdmChallenge_early h q), rfl⟩, ⟨_, exec_getMeasurements hv hs (spdmReady_early h _ _), rfl⟩,
      ⟨_, exec_keyExchange hv hs (spdmKeyExchange_early h q), rfl⟩,
      ⟨_, exec_setCertificate hv hs (spdmSetCert_early h slot chain), rfl⟩,
      fun _ hnil => absurd hnil List.not_mem_nil⟩

/-! ## Sessions and IDE (R524, R526) -/

section
variable {v id : Nat} {m : Mod}

theorem spdmFinish_held {x : Session} (h : session v id m = some x) (q : Bytes) : spdmFinish v id q m =
    if Config.finishOk x.draw q then spdmAnswer 0x65 [] (updSession id (fun y => { y with est := true }) m)
      else spdmError 6 (endSession id m) := by
  simp only [spdmFinish, h]

theorem spdmInSession_established {x : Session} (h : session v id m = some x) (he : x.est = true) (code : Nat) (f : Mod → Mod) :
    spdmInSession v id code f m = spdmAnswer code [] (f m) := by
  simp only [spdmInSession, h, he, if_true]

theorem spdmInSession_refused (h : ∀ x, session v id m = some x → x.est = false) (code : Nat) (f : Mod → Mod) :
    spdmInSession v id code f m = spdmError 2 m := by
  cases hx : session v id m with
  | none => simp only [spdmInSession, hx]
  | some x => simp only [spdmInSession, hx, h x hx, Bool.false_eq_true, if_false]

end

/-- What a request of operation `op` (0 KEY_PROG, 1 K_SET_GO, 2 K_SET_STOP) makes of stream `k` (R526). -/
def ideOp (op k : Nat) (m : Mod) : Mod :=
  match op with
  | 0 => { m with free := m.free + 1, sec := { m.sec with ideKey := NMap.put m.sec.ideKey k m.free } }
  | 1 => if (NMap.find m.sec.ideKey k).isSome then { m with sec := { m.sec with ide := NMap.set false m.sec.ide k true } } else m
  | _ => { m with sec := { m.sec with ide := NMap.set false m.sec.ide k false, ideKey := NMap.del m.sec.ideKey k } }

/-- In an established session of the link's mailbox an IDE request has its effect and is answered. -/
theorem ideKm_established {d i op id : Nat} {x : Session} {m : Mod} (h : session (mailbox d (i / 4)) id m = some x)
    (he : x.est = true) (hi : i < 8) :
    ideKm d i op id m = spdmAnswer 0x7E (leBytes 1 op ++ leBytes 1 (i % 4)) (ideOp op (d * 8 + i) m) := by
  simp only [ideKm, h, he, Nat.not_le.mpr hi, Bool.not_true, Bool.false_eq_true, or_self, if_false]
  rfl

section
variable {k : Nat} {m : Mod}

theorem ideOp_go_keyed (h : (NMap.find m.sec.ideKey k).isSome = true) :
    ideOp 1 k m = { m with sec := { m.sec with ide := NMap.set false m.sec.ide k true } } := if_pos h

theorem ideOp_go_unkeyed (h : NMap.find m.sec.ideKey k = none) : ideOp 1 k m = m := if_neg (by rw [h]; decide)

end

section
variable {v : Nat} {s : State} {n : Mod} (hv : v < 17) (hs : spdmServed v s.m = true)
include hv hs

theorem exec_finish {id : Nat} {q : Bytes} (hn : spdmFinish v id q s.m = n) : exec (.finish v id q) s = .next (finish s n) := by
  change execFinish v id q s = _
  exact act_spdm (viaOk_lt hv) hs hn

theorem exec_keyUpdate {id : Nat}
    (hn : spdmInSession v id 0x69 (updSession id fun y => { y with updates := y.updates + 1 }) s.m = n) :
    exec (.keyUpdate v id) s = .next (finish s n) := by
  change execKeyUpdate v id s = _
  exact act_spdm (viaOk_lt hv) hs hn

theorem exec_heartbeat {id : Nat} (hn : spdmInSession v id 0x68 (fun m => m) s.m = n) :
    exec (.heartbeat v id) s = .next (finish s n) := by
  change execHeartbeat v id s = _
  exact act_spdm (viaOk_lt hv) hs hn

theorem exec_endSession {id : Nat} (hn : spdmInSession v id 0x6C (endSession id) s.m = n) :
    exec (.endSession v id) s = .next (finish s n) := by
  change execEndSession v id s = _
  exact act_spdm (viaOk_lt hv) hs hn

end

theorem exec_ideKmRequest {d i op id : Nat} {x : Session} {s : State} {n : Mod} (hd : d < 4)
    (hs : spdmServed (mailbox d (i / 4)) s.m = true) (h : session (mailbox d (i / 4)) id s.m = some x) (he : x.est = true)
    (hi : i < 8) (ho : op < 3) (hn : ideOp op (d * 8 + i) s.m = n) : exec (.ideKmRequest d i op id) s =
      .next (finish s (spdmAnswer 0x7E (leBytes 1 op ++ leBytes 1 (i % 4)) n)) := by
  subst hn
  change execIdeKmRequest d i op id s = _
  exact act_spdm (by simp only [dieOk, hd, hi, ho, decide_true, Bool.and_self]) hs (ideKm_established h he hi)

theorem exec_ideIntegrityFail {d i : Nat} {s : State} (hd : d < 4) (hi : i < 8) (hu : hostUp d s.m = true) :
    exec (.ideIntegrityFail d i) s = .next (finish s (ideFail d i s.m)) := by
  change execIdeIntegrityFail d i s = _
  exact act_served (by simp only [dieOk, hd, hi, decide_true, Bool.and_self]) hu rfl

/-- Settles O47: a session's requests by the session, an IDE request by its operation and the stream's key. -/
theorem sessionsAndLinkEncryptionAct : Obligations.SessionsAndLinkEncryptionAct := by
  refine ⟨?finish, ?update, ?heartbeat, ?ends, ?refused, ?program, ?go, ?goUnkeyed, ?stop, ?fail⟩
  case finish => exact fun v id q x s hv hs h => exec_finish hv hs (spdmFinish_held h q)
  case update => exact fun v id x s hv hs h he => exec_keyUpdate hv hs (spdmInSession_established h he _ _)
  case heartbeat => exact fun v id x s hv hs h he => exec_heartbeat hv hs (spdmInSession_established h he _ _)
  case ends => exact fun v id x s hv hs h he => exec_endSession hv hs (spdmInSession_established h he _ _)
  case refused =>
    intro v id s hv hs h
    simp only [List.forall_mem_cons]
    exact ⟨exec_keyUpdate hv hs (spdmInSession_refused h _ _), exec_heartbeat hv hs (spdmInSession_refused h _ _),
      exec_endSession hv hs (spdmInSession_refused h _ _), fun _ hnil => absurd hnil List.not_mem_nil⟩
  case program => exact fun d i id x s hd hs h he hi => exec_ideKmRequest hd hs h he hi (by decide) rfl
  case go => exact fun d i id x s hd hs h he hi hk => exec_ideKmRequest hd hs h he hi (by decide) (ideOp_go_keyed hk)
  case goUnkeyed => exact fun d i id x s hd hs h he hi hk => exec_ideKmRequest hd hs h he hi (by decide) (ideOp_go_unkeyed hk)
  case stop => exact fun d i id x s hd hs h he hi => exec_ideKmRequest hd hs h he hi (by decide) rfl
  case fail => exact fun d i s hd hi hu => exec_ideIntegrityFail hd hi hu

end Sys2Proof.Machine
end

section
/-! PROOFS. The test access port: boundary scan, tokens, and accesses by the debug mode (R530, R531, R532, R533, R534, R535). -/
namespace Sys2Proof.Machine

/-! ## The commands -/

section
variable {s : State} {n : Mod}

section
variable {c : Nat} (hc : c < 2 ^ 20)
include hc

theorem exec_extest (hn : extest c s.m = n) : exec (.extest c) s = .next (finish s n) := by
  change execExtest c s = _
  rw [execExtest, act_true (decide_eq_true hc), hn]

theorem exec_samplePreload : exec (.samplePreload c) s = .next (finish s (samplePreload c s.m)) := by
  change execSamplePreload c s = _
  rw [execSamplePreload, act_true (decide_eq_true hc)]

end

theorem exec_idcode : exec .idcode s = .next (finish s (tap 0x02 idcode s.m)) := by
  change execIdcode s = _
  rw [execIdcode, act_true rfl]

theorem exec_bypass : exec .bypass s = .next (finish s (tap 0xFF 0 s.m)) := by
  change execBypass s = _
  rw [execBypass, act_true rfl]

theorem exec_debugAuth (t o : Bytes) : exec (.debugAuth t o) s = .next (finish s (debugAuth s.fuse t o s.m)) := by
  change execDebugAuth t o s = _
  rw [execDebugAuth, act_true rfl]

theorem exec_observeAccess {t : DebugAt} (ht : t.ok = true) (hn : debugObserve s.fuse t s.m = n) :
    exec (.observeAccess t) s = .next (finish s n) := by
  change execObserveAccess t s = _
  rw [execObserveAccess, act_true ht, hn]

theorem exec_invasiveAccess {x : DebugOp} (hx : x.ok = true) (hn : debugInvasive s.fuse x s.m = n) :
    exec (.invasiveAccess x) s = .next (finish s n) := by
  change execInvasiveAccess x s = _
  rw [execInvasiveAccess, act_true hx, hn]

theorem exec_scanSelect {c : Nat} (hn : scanSelect c s.m = n) : exec (.scanSelect c) s = .next (finish s n) := by
  change execScanSelect c s = _
  rw [execScanSelect, act_true rfl, hn]

end

/-! ## Tokens (R531, R535) -/

section
variable {fz : Fuse} {t o : Bytes} {m : Mod}

theorem presentToken_accepted : (presentToken fz t o m).2 = tokenGood fz t o m := by
  unfold presentToken
  cases h : tokenGood fz t o m <;> rfl

theorem presentToken_good (h : tokenGood fz t o m = true) : (presentToken fz t o m).1 = newNonce (enterMode (rdLE t 1 1) m) :=
  congrArg Prod.fst (if_pos h)

theorem presentToken_bad (h : tokenGood fz t o m = false) :
    (presentToken fz t o m).1 = newNonce { m with sec := { m.sec with fails := min 8 (m.sec.fails + 1) } } :=
  congrArg Prod.fst (if_neg (by rw [h]; decide))

/-- What a token that is accepted has met. -/
theorem tokenGood_checks (h : tokenGood fz t o m = true) : m.sec.fails < 8 ∧ 1 ≤ rdLE t 1 1 ∧ rdLE t 1 1 ≤ 3
    ∧ m.sec.debug ≤ rdLE t 1 1
    ∧ mayEnter m.sec.lifecycle (rdLE t 1 1) (if blankToken t m then 2 else rdLE t 2 1) m.tly.mstate = true := by
  simp only [tokenGood, Bool.and_eq_true, decide_eq_true_eq] at h
  obtain ⟨⟨⟨⟨hfails, hlo, hhi⟩, hmode⟩, -⟩, hmay⟩ := h
  exact ⟨hfails, hlo, hhi, hmode, hmay⟩

end

/-! ## Accesses by the debug mode (R530, R533, R534) -/

section
variable {m : Mod}

theorem extest_reset (c : Nat) : extest c m = if m.pin.rst = true
    then tap 0x00 (draw 20 m).1 { (draw 20 m).2 with pin := { (draw 20 m).2.pin with cells := c } } else tap 0xFF 0 m := rfl

section
variable {fz : Fuse}

section
variable {t : DebugAt}

theorem debugObserve_reads (hd : 1 ≤ m.sec.debug) (ho : observable t = true) :
    debugObserve fz t m = tap 0x12 (debugRead fz t m).1 (debugRead fz t m).2 := if_pos ⟨hd, ho⟩

theorem debugObserve_bypass (h : m.sec.debug = 0 ∨ observable t = false) : debugObserve fz t m = tap 0xFF 0 m :=
  if_neg fun ⟨hd, ho⟩ => h.elim (Nat.ne_of_gt hd) (ne_true_of_eq_false · ho)

end

section
variable (hd : 2 ≤ m.sec.debug)
include hd

theorem debugInvasive_read (t : DebugAt) : debugInvasive fz (.read t) m = tap 0x13 (debugRead fz t m).1 (debugRead fz t m).2 :=
  if_pos hd

theorem debugInvasive_write (t : DebugAt) (v : Nat) : debugInvasive fz (.write t v) m = tap 0x13 0 (debugWrite fz t v m) :=
  if_pos hd

theorem debugInvasive_halt (c : Nat) : debugInvasive fz (.halt c) m = tap 0x13 0 { m with sec := { m.sec with halted := c } } :=
  if_pos hd

theorem debugInvasive_step (k : Nat) : debugInvasive fz (.step k) m = tap 0x13 0 m := if_pos hd

end

theorem debugInvasive_bypass (hd : m.sec.debug < 2) (x : DebugOp) : debugInvasive fz x m = tap 0xFF 0 m :=
  if_neg (Nat.not_le.mpr hd)

end

theorem scanSelect_scan (hd : m.sec.debug = 3) (ho : m.sec.scanOn = true) (c : Nat) : scanSelect c m =
    tap 0x20 (draw 64 m).1 { (draw 64 m).2 with sec := { (draw 64 m).2.sec with scanChain := c } } := if_pos ⟨hd, ho⟩

theorem scanSelect_bypass (h : m.sec.debug ≠ 3 ∨ m.sec.scanOn = false) (c : Nat) : scanSelect c m = tap 0xFF 0 m :=
  if_neg fun ⟨hd, ho⟩ => h.elim (· hd) (ne_true_of_eq_false · ho)

end

/-- Settles O48: each instruction of the port by the mode, the reset or the token that it needs. -/
theorem theTestPortObeysTheDebugMode : Obligations.TheTestPortObeysTheDebugMode := by
  refine ⟨?extest, ?sample, ?plain, ?auth, ?bad, ?good, ?observe, ?observeNot, ?access, ?cores, ?invasiveNot, ?scan, ?scanNot⟩
  case extest => exact fun c s hc => exec_extest hc (extest_reset c)
  case sample => exact fun c s hc => exec_samplePreload hc
  case plain => exact fun s => ⟨exec_idcode, exec_bypass⟩
  case auth => exact fun t o s => exec_debugAuth t o
  case bad => exact fun fz t o m h => presentToken_bad (presentToken_accepted.symm.trans h)
  case good =>
    intro fz t o m h
    have hg := presentToken_accepted.symm.trans h
    obtain ⟨hfails, hlo, hhi, hmode, hmay⟩ := tokenGood_checks hg
    exact ⟨hfails, hlo, hhi, hmode, hmay, presentToken_good hg⟩
  case observe => exact fun t s ht hd ho => exec_observeAccess ht (debugObserve_reads hd ho)
  case observeNot => exact fun t s ht h => exec_observeAccess ht (debugObserve_bypass h)
  case access =>
    intro t v s hd ht hv
    have hwrite : (DebugOp.write t v).ok = true := by simp only [DebugOp.ok, ht, hv, decide_true, Bool.and_self]
    exact ⟨exec_invasiveAccess ht (debugInvasive_read hd t), exec_invasiveAccess hwrite (debugInvasive_write hd t v)⟩
  case cores =>
    exact fun c k s hd hc hk => ⟨exec_invasiveAccess (decide_eq_true hc) (debugInvasive_halt hd c),
      exec_invasiveAccess (decide_eq_true hk) (debugInvasive_step hd k)⟩
  case invasiveNot => exact fun x s hx hd => exec_invasiveAccess hx (debugInvasive_bypass hd x)
  case scan => exact fun c s hd ho => exec_scanSelect (scanSelect_scan hd ho c)
  case scanNot => exact fun c s h => exec_scanSelect (scanSelect_bypass h c)

end Sys2Proof.Machine
end
